-- ==== Sys2Proof/Word.lean ====
section
/-!
DEFINITION. The word types of the OV4160: 32-bit registers (00_scope.md, Registers) and bytes.
-/

namespace Sys2Proof

/-- A register: 32 bits wide. -/
abbrev Word := BitVec 32

/-- One byte of memory, of a frame or of a message. -/
abbrev Byte := BitVec 8

end Sys2Proof
end

