-- ==== Sys2Proof/Types.lean ====
section
/-!
DEFINITION. The plain data that commands carry and that the state holds: frames, requests, completions
and the small enumerations of the spec. No behaviour stands here.
-/

namespace Sys2Proof.Machine

/-- STATUS values (00_scope.md R11). -/
inductive Status where
  | ok | unmapped | denied | farError | timeout | targetReset | lockBroken | poisoned | busy | wrongMode | badRequest
  deriving DecidableEq, Repr

/-- The eight operating modes (00_scope.md R2). -/
inductive Mode where
  | recovery | load | isolated | seamless | split | standby | passThrough | drowse
  deriving DecidableEq, Repr

/-- What the FCS check of a received frame found (04_switch_core.md R102 to R104). -/
inductive Fcs where
  | good | bad | stomped
  deriving DecidableEq, Repr

/-- The seven request kinds (05_one_address_space.md R118). -/
inductive ReqKind where
  | read | write | pwrite | lread | lwrite | cas | fadd
  deriving DecidableEq, Repr

/-- A frame as it stands on a link (03_ring_frames_and_paths.md R53, R55). `payload` holds the LEN payload bytes;
the padding and the FCS are not stored. `dir` is true for a westward launch. `rsv` holds the reserved bits of the header, those of
bytes 1, 4, 6, 10 to 11 and 12 from the most significant down; they are sent as 0 and ignored on receipt. A plain PTP frame
(EtherType 0x88F7) has its message as `payload` and class 7 (04 R97). -/
structure Frame where
  da : BitVec 48
  sa : BitVec 48
  etype : BitVec 16 := 0x88B5#16
  ver : BitVec 4 := 2#4
  cls : BitVec 3 := 0#3
  seam : Bool := false
  kind : BitVec 5 := 0#5
  dir : Bool := false
  hops : BitVec 10 := 0#10
  flow : BitVec 6 := 0#6
  srcRing : BitVec 6 := 0#6
  srcNode : BitVec 9 := 0#9
  dstRing : BitVec 6 := 0#6
  dstNode : BitVec 9 := 0#9
  seq : BitVec 16 := 0#16
  tag : BitVec 9 := 0#9
  status : BitVec 4 := 0#4
  len : BitVec 12 := 0#12
  hchk : BitVec 16 := 0#16
  rsv : BitVec 11 := 0#11
  payload : List Byte := []
  deriving DecidableEq, Repr

/-- A request as a target sees it (05_one_address_space.md R117, R118). `srcRing`, `srcNode` name the initiating
node; `hi` holds global address bits [63:55] (R4); `bcast` says that DST was node 511; `data` holds the bytes after
the prefix; `len` is the LEN of the frame; `epoch` is the table epoch under which the frame was decided (R138, 04 R110). -/
structure Request where
  srcRing : BitVec 6
  srcNode : BitVec 9
  init : BitVec 4
  cls : BitVec 3
  flow : BitVec 6
  tag : BitVec 9
  bcast : Bool := false
  hi : BitVec 9 := 0#9
  addr : BitVec 40
  bytes : BitVec 9
  size : BitVec 2 := 0#2
  len : BitVec 12
  data : List Byte := []
  epoch : BitVec 16 := 0#16
  deriving DecidableEq, Repr

/-- An error that a memory access meets on its way: 1 a word corrected in one bit, 2 corrected in two bits,
3 uncorrectable, in the host window a byte that fails its parity (15_memories_and_queues.md R373, R375, R380), in a pricking a row
that fails its parity (08_bobbin_engines.md R205). Grade 0 in the
host window: the host side accesses the word in the same cycle (R381). `at_` is an address in the word, or of the byte. -/
structure Upset where
  at_ : Nat
  grade : Fin 4
  deriving DecidableEq, Repr

/-- How the reception of a frame ended (04_switch_core.md R102 to R104, 02 R47); of a preemptable frame also that a fragment has
ended, or that the next one begins (04 R105). -/
inductive RxEnd where
  | good | badFcs | stomped | pcsError | reassembly | fragmentEnd | continued
  deriving DecidableEq, Repr

/-- How a plain PTP frame came in (02 R34, R50): its DA, the VID of its 802.1Q tag, how its reception ended, its bytes on the wire. -/
structure PtpWire where
  da : BitVec 48
  vid : Option (BitVec 12) := none
  e : RxEnd := .good
  size : BitVec 11
  deriving DecidableEq, Repr

/-- A plain PTP frame received on a port, and its message (12 R297, R299). -/
structure PtpFrame extends PtpWire where
  msg : List Byte
  deriving DecidableEq, Repr

/-- What the buffer read of a frame found (04 R95, R96). -/
inductive BufferRead where
  | clean | corrected1 | corrected2 | uncorrectable | ctrlCorrected | ctrlUncorrectable
  deriving DecidableEq, Repr

/-- A turn of an output: what the buffer read of the frame it starts found, and the bytes of the frame on the wire after which an express
frame interrupts it, none at a boundary (04 R95, R101, R105). -/
structure OutputTurn where
  read : BufferRead
  preempt : Option (BitVec 12) := none
  deriving DecidableEq, Repr

/-- A unit that can be reset alone (01_node_anatomy.md R24, R26). -/
inductive ResetUnit where
  | pcs (p : Fin 3)
  | bobbin (n : Fin 64)
  | can (n : Fin 8)
  | stitch
  | usb
  | cycle
  | journal
  deriving DecidableEq, Repr

/-- An interface of the logic die toward a partner (01_node_anatomy.md R27). -/
inductive Iface where
  | txdis (p : Fin 3)
  | fieldPin (n : Fin 256)
  | canTxd (n : Fin 8)
  | stitchReset
  | stitchBus
  | usbPullUp
  | usbPwren (n : Fin 4)
  | hostBusy
  | hostIrqN
  deriving DecidableEq, Repr

/-- How the logic die stands at an interface that no running unit drives (R27). -/
inductive Stand where
  | undriven
  | highImpedance
  | low
  | high
  | keeper
  | recessive
  | off
  deriving DecidableEq, Repr

/-- What ROM finds in the two firmware slots (16_start_up_modes_and_drowse.md R398). -/
structure Slots where
  okA : Bool
  okB : Bool
  deriving DecidableEq, Repr

/-- What transmitter delay compensation measured in an attempt (09 R225): nothing yet, an edge after so many PERI cycles,
or no edge within 255. -/
inductive CanDelay where
  | unmeasured
  | edge (d : BitVec 8)
  | noEdge
  deriving DecidableEq, Repr

/-- A transmit error (09 R230, R231): an identifier clash, an error that costs 8 TEC points, or one that ISO 11898-1
exempts from counting. -/
inductive CanTxErr where
  | clash | counted | exempt
  deriving DecidableEq, Repr

/-- An error frame while this node sends: its cause, and the further increments of 8 within it (09 R231). -/
structure CanTxErrFrame where
  err : CanTxErr
  more : BitVec 4 := 0#4
  deriving DecidableEq, Repr

/-- An error frame while this node receives: whether it costs 8 REC points, and the further increments of 8 within it (09 R231). -/
structure CanRxErrFrame where
  heavy : Bool
  more : BitVec 4 := 0#4
  deriving DecidableEq, Repr

/-- An IN token on EP1: the first of its microframe, and whether the buffer was filled in time (11 R279, R280). -/
structure StreamToken where
  first : Bool
  ready : Bool
  deriving DecidableEq, Repr

/-- An OUT packet on EP3: whether the buffer is free, and its bytes (11 R279, R283). -/
structure TunnelPacket where
  ready : Bool
  bytes : List Byte
  deriving DecidableEq, Repr

/-- The rest of a received CAN frame beside its identifier (09 R236). -/
structure CanFrame where
  fdf : Bool
  rtr : Bool
  brs : Bool
  esi : Bool
  dlc : BitVec 4
  data : List Byte
  deriving DecidableEq, Repr

/-- Port changes that the hub reports to the host (11 R273 to R275). -/
inductive PortChange where
  | connection | enable | suspend | overCurrent | reset
  deriving DecidableEq, Repr

/-- A standard or hub-class request on EP0 that no other command stands for (11 R272, R278, R286); `n` is its wLength. -/
inductive Ep0Request where
  | setAddress (a : BitVec 7)
  | setConfiguration (v : BitVec 8)
  | setInterface (ifc alt : BitVec 8)
  | getConfiguration
  | getInterface
  | getStatus
  | getDescriptor (type idx : BitVec 8) (n : BitVec 16)
  | getHubDescriptor (n : BitVec 16)
  | getHubStatus
  | getPortStatus (port : Fin 5)
  | setPortSuspend (port : Fin 4)
  | clearPortSuspend (port : Fin 4)
  | clearPortEnable (port : Fin 4)
  | clearPortChange (port : Fin 5) (c : PortChange)
  | unknown
  deriving DecidableEq, Repr

/-- What becomes of a power link transaction (13 R340): answered, its master bytes not received, its answer not received,
or its answer received with a bad CRC. -/
inductive PlkFate where
  | answered | masterLost | answerLost | answerBad
  deriving DecidableEq, Repr

/-- What STREAM_EN_WRITE names (06 R167). -/
inductive CycUnit where
  | stream (t : Fin 32)
  | publication
  | subscription (j : Fin 64)
  deriving DecidableEq, Repr

/-- What a tether heartbeat carries (14 R352): the partner's state, READY, its SEQ counters by class, the tags it holds, its
running bobbins and its time counter in ns. -/
structure Heartbeat where
  state : Fin 6 := 0
  ready : Bool := false
  seqs : List (BitVec 16) := []
  tags : BitVec 512 := 0#512
  runs : BitVec 64 := 0#64
  time : BitVec 64 := 0#64
  deriving DecidableEq, Repr

/-- What a drill showed of one of its parts (14 R369). -/
inductive DrillPart where
  | proved | failed | noTraffic
  deriving DecidableEq, Repr

/-- The parts of a drill in the order of DRILL_STAT (14 R369, R371). -/
structure DrillParts where
  gap : DrillPart
  identity : DrillPart
  drive : DrillPart
  can : DrillPart
  stitch : DrillPart
  deriving DecidableEq, Repr

/-- What the check of a manifest's key and signature found (17 R419): both good, the key wrong, the signature wrong. -/
inductive SigCheck where
  | ok | key | signature
  deriving DecidableEq, Repr

/-- What the firmware finds in a configuration slot (16 R401 to R404): its signature or device tag verifies, and its settings
as register and table writes, in the order of application. -/
structure CfgImage where
  authentic : Bool
  settings : List (BitVec 40 × List Byte)
  deriving DecidableEq, Repr

/-- What the firmware brings to CONFIG_APPLY: the highest FORMAT it reads, the two slots, the installed DRAM size that the image
names, the bytes after the header of an image that it migrates, and whether the write-back of that reads back (16 R401 to R403,
15 R393). -/
structure ConfigChoice where
  formatMax : BitVec 8
  slot0 : CfgImage
  slot1 : CfgImage
  dramSize : BitVec 2
  migrated : List Byte
  writeBackOk : Bool
  deriving DecidableEq, Repr

end Sys2Proof.Machine
end

