-- ==== Sys2Proof/Syntax.lean ====
section
/-!
DEFINITION. The commands of the OV4160: one constructor per row of the opcode table, in the table's order, with the
operands the event or access brings. Indices of ports, pins, bobbins, controllers, picots, branches and paths are Fin;
register values are Word; bytes from outside are lists whose length WellFormed checks.
-/

namespace Sys2Proof

open Machine

/-- One command: a row of the opcode table. -/
inductive Instr where
  -- 01 node anatomy
  | porNAssert (powerLoss : Bool)
  | sysRstNAssert
  | porNRelease (svcN twinPos : Bool) (valid : Slots) (lines : BitVec 256)
  | holdOverStart
  | powerLinkLost
  | clkFail (lost : Fin 3)
  | clkFailRestart (valid : Slots) (lines : BitVec 256)
  | coreVoltageFault
  | coreVoltageRestart (valid : Slots) (lines : BitVec 256)
  | mainRst (w : Word)
  | watchdogExpiry
  | cpUe
  | firmwareRestart
  | mainDomainResetRelease (valid : Slots) (lines : BitVec 256)
  | unitRst (w : Word)
  | bobRst (high : Bool) (w : Word)
  | unitResetRelease (u : ResetUnit)
  | responderRequest (k : ReqKind) (q : Request)
  | bobclkCleanWrite (w : Word)
  | spreadApply
  -- 02 ports
  | portSpeedWrite (p : Fin 3) (w : Word)
  | loopPcsWrite (p : Fin 3) (w : Word)
  | moduleInsert (p : Fin 3)
  | modPresent (p : Fin 3)
  | moduleIdentityRead (p : Fin 3) (ack : Bool) (a0 : List Byte)
  | moduleRemoved (p : Fin 3)
  | ddmPoll (p : Fin 3) (ddm : List Byte) (flags : List Byte)
  | modAccGo (p : Fin 3) (w : Word)
  | modAccDone (p : Fin 3) (ack : Bool) (rdata : Byte)
  | linkDown (p : Fin 3) (cause : Fin 3)
  | linkUp (p : Fin 3) (fullDuplex : Bool)
  | dampTimeEnd (p : Fin 3)
  | dampClr (p : Fin 3)
  | verifyRetry (p : Fin 3)
  | preemptVerifySuccess (p : Fin 3)
  | preemptVerifyFail (p : Fin 3)
  -- 03 ring path, 04 switch core; size is how many bytes have come; preempt is how many bytes of the frame on the wire have left where an
  -- express frame interrupts it
  | spurFrameRx (f : Frame) (vid : Option (BitVec 12))
  | ringFrameRx (p : Fin 2) (f : Frame)
  | frameReceivedWhole (p : Fin 3) (e : RxEnd) (size : BitVec 11)
  | frameInject
  | fenceRelease (flow : Option (BitVec 9 × BitVec 6))
  | absentClearExpiry (n : BitVec 9)
  | wardenActive
  | beaconLaunch
  | topoReportPeriodic
  | beaconRx (p : Fin 2) (f : Frame) (e : RxEnd)
  | beaconOkLoss
  | linkAlarmRx (p : Fin 2) (f : Frame) (e : RxEnd)
  | breakMarginEnd (pos : BitVec 9) (down : Bool)
  | modeReq (w : Word)
  | pathModeChange
  | pathChange (toFull : Bool)
  | fullPathDrainEnd
  | localFrameAdmit (c : Fin 8)
  | localWaitTimeout (c : Fin 8)
  | outputSelect (o : Fin 4) (turn : OutputTurn)
  | bufferPurgeEnd
  | stickyPeakRead (offset : BitVec 24)
  | pairLoRead (offset : BitVec 24)
  -- 05 transactions
  | requestIssue (init : Fin 3) (k : ReqKind) (dst : BitVec 64) (bytes : BitVec 9) (size : BitVec 2) (data : List Byte)
      (cls : BitVec 3) (flow : BitVec 6)
  | read (q : Request) (ups : List Upset)
  | write (q : Request) (ups : List Upset)
  | pwrite (q : Request) (ups : List Upset)
  | lread (q : Request) (ups : List Upset)
  | lwrite (q : Request) (ups : List Upset)
  | cas (q : Request) (ups : List Upset)
  | fadd (q : Request) (ups : List Upset)
  | cplRx (f : Frame)
  | requestTimeout (t : BitVec 9)
  | tagQuarantineEnd (t : BitVec 9)
  | lockExpiry (k : Fin 8)
  | noticeRx (f : Frame)
  | quiesceEnd
  -- 06 cycle frames
  | cycleSnapshot
  | cycleLaunch (t : Fin 32)
  | cycleFrameRx (p : Fin 2) (f : Frame) (e : RxEnd)
  | cycleCopyCommit (p : Fin 2)
  | cycleAbsorb (p : Fin 2) (f : Frame) (e : RxEnd)
  | cycleApply (t : Fin 32)
  | cycleMasterTakeover (t : Fin 32)
  | streamEnWrite (u : CycUnit) (w : Word)
  -- 07 field pins and the edge journal
  | bankSupplyFail (b : Fin 16)
  | bankSupplyReturn (b : Fin 16) (levels : BitVec 16)
  | pinCfgWrite (n : Fin 256) (w : Word)
  | filterAccept (n : Fin 256) (stretch : BitVec 32)
  | glitchReject (n : Fin 256)
  | filtWrite (n : Fin 256) (w : Word)
  | outWrite (b : Fin 16) (w : Word)
  | outSet (b : Fin 16) (w : Word)
  | outClr (b : Fin 16) (w : Word)
  | outTgl (b : Fin 16) (w : Word)
  | journalRecordWrite
  | journalFlush
  | rdPosWrite (r : Fin 4) (v : BitVec 64)
  -- 08 bobbin engines: the ACT rows are one BOBCLK cycle of bobbin n in a row with that action
  | nop (n : Fin 64)
  | shin (n : Fin 64)
  | shout (n : Fin 64)
  | shio (n : Fin 64)
  | pull (n : Fin 64)
  | push (n : Fin 64)
  | cload0 (n : Fin 64)
  | cdec0 (n : Fin 64)
  | cload1 (n : Fin 64)
  | cdec1 (n : Fin 64)
  | sclr (n : Fin 64)
  | irq (n : Fin 64)
  | cload01 (n : Fin 64)
  | cdec01 (n : Fin 64)
  | capt (n : Fin 64)
  | halt (n : Fin 64)
  | stallEnd (n : Fin 64)
  | start (n : Fin 64)
  | stop (n : Fin 64)
  | resume (n : Fin 64)
  | groupStart (hi : Bool) (w : Word)
  | groupStop (hi : Bool) (w : Word)
  | groupResume (hi : Bool) (w : Word)
  | syncPulse (w : Word)
  -- up: the errors that the stored queue word has at its pop (15 R390)
  | txqPush (n : Fin 64) (wide : Bool) (v : BitVec 64) (up : Fin 3)
  | rxqPop (n : Fin 64) (up : Fin 3)
  | queueJoin (n : Fin 64) (w : Word)
  | slotWrite (n : Fin 64) (k : Fin 8) (w : Word)
  | prickingWrite (n : Fin 64) (off : BitVec 12) (bytes : List Byte)
  -- 09 CAN FD buses; age is the time from the frame's SOF to the command, ps (R239);
  -- tdc is the delay of the FD frame's edge, none when no edge came within 255 cycles; more counts the further increments
  -- of 8 that ISO 11898-1 asks for within the same error frame (R231)
  | canEnable (n : Fin 8) (w : Word)
  | canIntegration (n : Fin 8)
  | canDisable (n : Fin 8) (w : Word)
  | canOff (n : Fin 8)
  | txPush (n : Fin 8) (bytes : List Byte) (ups : List (Fin 3))
  | frameSent (n : Fin 8) (age : BitVec 40) (tdc : Option (BitVec 8))
  | arbitrationLost (n : Fin 8)
  | txError (n : Fin 8) (age : BitVec 40) (e : CanTxErrFrame) (tdc : CanDelay)
  | busOffRecovery (n : Fin 8)
  | abortHead (n : Fin 8)
  | canRxError (n : Fin 8) (e : CanRxErrFrame)
  | protocolException (n : Fin 8)
  | canIdComplete (n : Fin 8) (ide : Bool) (id : BitVec 29)
  | canFrameStored (n : Fin 8) (f : CanFrame) (age : BitVec 40)
  | objectRead (n : Fin 8) (k : Fin 512)
  | filterWrite (n : Fin 8) (k : Fin 512) (v : BitVec 64)
  -- 10 stitch bus bridge; beats are ST_AD as sampled with ST_RDSENS_N low or high, taken counts the beats before the end
  | bridgeRequest
  | bridgeRequestEnd (beats : List (Word × Bool))
  | stErr (taken : Nat) (beats : List (Word × Bool))
  | windowTimeout (taken : Nat) (beats : List (Word × Bool))
  | readAhead (beats : List (Word × Bool)) (failed : Bool)
  | prefetchAged
  | stitchLockExpiry
  | stitchIrq (k : Fin 4) (low : Bool)
  | windowEnable (w : Fin 16) (cfg : Word)
  | stbCtlWrite (w : Word)
  -- 11 USB hub and station function; done is false for a control transfer that has not reached its status stage;
  -- ready says whether the endpoint's buffer is filled (IN) or free (OUT); first marks the first EP1 token of a microframe
  | vbusPresent
  | vbusLoss
  | busReset
  | highSpeedEntry
  | chirpTimeout
  | suspend
  | remoteWakeRequest (ds : Option (Fin 4))
  | remoteWakeSignal
  | hostResume
  | resumeEnd
  | setPortPower (n : Fin 5)
  | clearPortPower (n : Fin 5)
  | portReset (n : Fin 4)
  | portResetEnd (n : Fin 4) (speed : Fin 3)
  | overCurrent (n : Fin 4)
  | babble (n : Fin 4)
  | configChange (hub : Bool) (r : Ep0Request) (done : Bool)
  | journalStreamPacket (token : StreamToken)
  | snapshotPacket (ready : Bool)
  | eventPacket
  | tunnelMessage (p : TunnelPacket)
  | tunnelCompletion
  | getIdentity (done : Bool)
  | jstreamStart (pos : BitVec 64) (done : Bool)
  | jstreamStop (done : Bool)
  | getJrnPos (done : Bool)
  | setImgSel (sel : BitVec 64) (done : Bool)
  | getSvc (level : Bool) (done : Bool)
  -- 12 time and picots; t2 is the counter at the ingress timestamp point
  | syncRx (p : Fin 3) (f : Frame) (t2 : BitVec 96)
  | followUpRx (p : Fin 3) (f : Frame)
  | announceRx (p : Fin 3) (f : Frame)
  | signalingRx (p : Fin 3) (f : Frame)
  | spurPtpRx (f : PtpFrame)
  | gmSyncTx (d : Fin 2)
  | gmAnnounceTx (d : Fin 2)
  | pdelayReqTx (p : Fin 3)
  | pdelayReqRx (p : Fin 3) (w : PtpWire) (msg : List Byte)
  | pdelayRespRx (p : Fin 3) (f : PtpFrame) (followUp : Option PtpFrame)
  | syncLoss (d : Fin 2)
  | domainRevert
  | slewComplete
  | jumpPersist
  | acceptStep
  | disarm
  | timeSet (v : BitVec 64)
  | nowLoRead
  | incrWrite (v : BitVec 40)
  | picotEnable (i : Fin 16) (w : Word)
  | picotDisable (i : Fin 16) (w : Word)
  | picotStartEdge (i : Fin 16)
  | picotEndEdge (i : Fin 16)
  -- 13 feeds, branches and metering; drop tells how a feed stands to the node bus: 0 more than 1 V above it, 1 above, 2 not
  | feedReverse (f : Fin 2)
  | feedConduct (f : Fin 2)
  | feedInRange (f : Fin 2) (drop : Fin 3)
  | feedUndervoltage (f : Fin 2)
  | feedOvervoltage (f : Fin 2)
  | inrushEnd (f : Fin 2)
  | branchOn (n : Fin 16) (keep : Bool)
  | branchOff (n : Fin 16) (keep : Bool)
  | restart (n : Fin 16) (keep : Bool)
  | softStartEnd (n : Fin 16)
  | softStartTimeout (n : Fin 16)
  | limitBegin (n : Fin 16)
  | limitEnd (n : Fin 16)
  | faultTimerClear (n : Fin 16)
  | faultTimerExpiry (n : Fin 16)
  | fastTrip (n : Fin 16)
  | offTimeEnd (n : Fin 16)
  | clearTimeEnd (n : Fin 16)
  | powerGoodRise (n : Fin 16)
  | powerGoodFall (n : Fin 16)
  | eclr (k : Fin 19)
  | plkPoll (src act : Bool) (fate : PlkFate)
  | plkRead (src act : Bool) (a : BitVec 12) (fate : PlkFate)
  | plkWrite (src act : Bool) (a : BitVec 12) (data : BitVec 16) (fate : PlkFate)
  | pwrLinkAccess (off : BitVec 16) (write : Option Word)
  | holdTimeEnd
  | powerDieReset
  | powerDieColdStart
  -- 14 twin nodes
  | tetherHeartbeat (h : Heartbeat)
  | tetherLoss
  | tetherBack
  | stateDelta (writes : List (BitVec 40 × List Byte))
  | inputMirror (levels : BitVec 256)
  | twinRelN
  | rel
  | outputGapEnd (n : Fin 25)
  | silent
  | startEvidence
  | claimRepeat
  | claimRx (f : Frame)
  | grantRx (f : Frame)
  | identityTake
  | twinHeartbeatTx
  | twinHeartbeatRx (f : Frame)
  | driveFault (n : Fin 256)
  | revertRequest
  | revertHandover
  | clrLimit
  | drill
  | drillStart
  | drillTakeback (parts : DrillParts)
  -- 15 memories and host port; upsets are errors that arise in the words read
  | patrolScrub (ups : List Upset) (written : Bool)
  | churnHandover (n : Fin 16) (w : Word)
  | handoverComplete (n : Fin 16)
  | hostRead (a : BitVec 24) (n : BitVec 12) (hit : Bool)
  | hostQread (a : BitVec 24) (n : BitVec 12) (hit : Bool)
  | hostWrite (a : BitVec 24) (data : List Byte) (cut : Option (BitVec 12))
  | hostQwrite (a : BitVec 24) (data : List Byte) (cut : Option (BitVec 12))
  | readStat (n : BitVec 12)
  | enterQpi
  | exitQpi
  | mbPush (words : List (Word × Bool))
  | mbPop (k : BitVec 8) (ups : List (Fin 3))
  | mbCompletion
  | doorbellIn (w : Word)
  | doorbellOut (w : Word)
  -- 16 start-up, modes, Drowse
  | romImageLoad
  | dramTrainingDone
  | configApply (c : ConfigChoice)
  | targetIsolated (clr : Bool)
  | targetRing (clr : Bool)
  | targetPass (clr : Bool)
  | targetDrowse (clr : Bool)
  | drowseEntered
  | wakeFrameRx (f : Frame)
  | wakeTimer
  | hostCsWake
  | pinWake (n : Fin 256)
  | wakeComplete
  | wdogKick (w : Word)
  -- 17 updates; sig is what the check of key and signature finds, ok whether a write reads back
  | chunkData (f : Frame) (sig : SigCheck) (ok : Bool)
  | assemblyExpiry
  | query (f : Frame)
  | statusReply
  | activate (f : Frame)
  | abort (f : Frame)
  | updData (chunk total : BitVec 16) (imgType manChunks : Byte) (digest data : List Byte) (sig : SigCheck) (ok : Bool)
  | updControl (op : Byte) (digest : List Byte) (at_ : BitVec 64) (svcLow : Bool)
  | sessionExpiry
  | stagingCopy (ok : Bool)
  | activation (ok : Bool)
  | romRecoveryComplete
  | recoveryStatusTx
  | helperChunkTx
  -- steps that the chapters give beside the others
  | registerWrite (init : Fin 3) (a : BitVec 40) (data : List Byte)
  | meteringSample (k : Fin 19) (v i : BitVec 16)
  | tetherStatus (digest : BitVec 64)
  | deviceRemoteWakeup (on : Bool)
  | portConnectionChange (n : Fin 4) (attached : Bool)
  | chunkStatusRx (f : Frame)
  deriving DecidableEq, Repr

end Sys2Proof
end

