-- ==== Sys2Proof/Decode.lean ====
section
/-!
DEFINITION. Commands as words. The opcode table of this block gives no row any bits, so no word spells a command.
-/

namespace Sys2Proof

/-- The command that a word spells by the bits of the opcode table: its rows give none. -/
def decodeTableWord (_nbits _w : Nat) : Option Instr := none

end Sys2Proof
end

