-- ==== Sys2Proof/Config.lean ====
section
/-!
DEFINITION. What an implementation fixes and the spec leaves open, as constants without a body: nothing in Lean can
evaluate them, so a statement about them holds whatever they are. Each is named in a row of the assumption log.
-/

namespace Sys2Proof.Config

/-- SERIAL, the unique device number (18 R440): fused, different on every part. Log entry 2. -/
opaque serial : BitVec 64

/-- KEY_HASH bytes (18 R440): the SHA-256 of the release public key, which the spec does not print. Log entry 2. -/
opaque keyHash : Nat → Byte

/-- The n-th value that the spec leaves undefined (a void host read, a collision, a servo output). Log entry 3. -/
opaque freeWord : Nat → Word

/-- The n-th undefined byte. Log entry 3. -/
opaque freeByte : Nat → Byte

/-- The n-th output of the steering servo's loop filter at bandwidth code `bw` (12 R302): the spec gives the loop's order and bandwidth, not
its filter. Log entry 110. -/
opaque servo (bw : BitVec 2) (n : Nat) : Word

/-- The device tag under the fused key over an image digest, byte by byte (16 R403): the key is not in the spec. Log entry 2. -/
opaque deviceTag : List Byte → Nat → Byte

/-- The synchronised sample of field pin `n` at a clock instant while its filter may have a run in progress (07 R176). Log entry 3. -/
opaque sample (n clk : Nat) : Bool

/-- Descriptor bytes that the spec does not give, such as bcdDevice and the current drawn (11 R272, R278). Log entry 133. -/
opaque usbByte : Nat → Byte

end Sys2Proof.Config
end

