-- ==== Sys2Proof/Machine/RegMap.lean ====
section
/-!
DEFINITION. The register map of the spec as data: one name per register (its byte offset from
0x30_0000_0000, R438), one name per field, and one table row per register with its access codes (R7),
its reset value and its reset domain (R21, R441). Written from the field tables of the chapters.
-/
namespace Sys2Proof.Machine

/-- Which resets load a register (R21, R441): the ring keep-alive domain, the main domain, or the power die. -/
inductive Dom where
  | keepAlive | main | power
  deriving DecidableEq, Repr

/-- One register, or an array of registers in one or two strides: the masks of its access codes (R7),
the value its table gives for reset, and its reset domain. A count of 1 stands for no stride. -/
structure RegRow where
  base : Nat
  s1 : Nat
  n1 : Nat
  s2 : Nat
  n2 : Nat
  rw : Nat
  w1c : Nat
  w1s : Nat
  rc : Nat
  wo : Nat
  reset : Nat
  dom : Dom
  deriving DecidableEq, Repr

/-- A field of a register: the register's offset, its lowest bit and its width. -/
structure Fld where
  reg : Nat
  lo : Nat
  width : Nat
  deriving DecidableEq, Repr

namespace Reg
/-- SYS.CLK_CTL, chapter 01. -/
abbrev SYS_CLK_CTL : Nat := 0x100
/-- SYS.CLK_STAT, chapter 01. -/
abbrev SYS_CLK_STAT : Nat := 0x104
/-- SYS.RST_CTL, chapter 01. -/
abbrev SYS_RST_CTL : Nat := 0x110
/-- SYS.RST_CAUSE, chapter 01. -/
abbrev SYS_RST_CAUSE : Nat := 0x114
/-- SYS.UNIT_RST, chapter 01. -/
abbrev SYS_UNIT_RST : Nat := 0x120
/-- SYS.BOB_RST_LO, chapter 01. -/
abbrev SYS_BOB_RST_LO : Nat := 0x128
/-- SYS.BOB_RST_HI, chapter 01. -/
abbrev SYS_BOB_RST_HI : Nat := 0x12C
/-- SYS.BOB_RST_BUSY_LO, chapter 01. -/
abbrev SYS_BOB_RST_BUSY_LO : Nat := 0x130
/-- SYS.BOB_RST_BUSY_HI, chapter 01. -/
abbrev SYS_BOB_RST_BUSY_HI : Nat := 0x134
/-- SYS.TGT_RESET_CNT, chapter 01. -/
abbrev SYS_TGT_RESET_CNT : Nat := 0x138
/-- PORT.CTL, chapter 02. -/
abbrev PORT_CTL (i : Nat) : Nat := 0x10000 + 0x1000 * i
/-- PORT.STAT, chapter 02. -/
abbrev PORT_STAT (i : Nat) : Nat := 0x10004 + 0x1000 * i
/-- PORT.EVT, chapter 02. -/
abbrev PORT_EVT (i : Nat) : Nat := 0x10008 + 0x1000 * i
/-- PORT.FLAP, chapter 02. -/
abbrev PORT_FLAP (i : Nat) : Nat := 0x10010 + 0x1000 * i
/-- PORT.PREEMPT_CTL, chapter 02. -/
abbrev PORT_PREEMPT_CTL (i : Nat) : Nat := 0x10014 + 0x1000 * i
/-- PORT.PREEMPT_STAT, chapter 02. -/
abbrev PORT_PREEMPT_STAT (i : Nat) : Nat := 0x10018 + 0x1000 * i
/-- PORT.MOD_CTL, chapter 02. -/
abbrev PORT_MOD_CTL (i : Nat) : Nat := 0x10020 + 0x1000 * i
/-- PORT.MOD_ACC, chapter 02. -/
abbrev PORT_MOD_ACC (i : Nat) : Nat := 0x10024 + 0x1000 * i
/-- PORT.MOD_DATA, chapter 02. -/
abbrev PORT_MOD_DATA (i : Nat) : Nat := 0x10028 + 0x1000 * i
/-- PORT.MOD_FLAGS, chapter 02. -/
abbrev PORT_MOD_FLAGS (i : Nat) : Nat := 0x1002C + 0x1000 * i
/-- PORT.MOD_DDM0, chapter 02. -/
abbrev PORT_MOD_DDM0 (i : Nat) : Nat := 0x10030 + 0x1000 * i
/-- PORT.MOD_DDM1, chapter 02. -/
abbrev PORT_MOD_DDM1 (i : Nat) : Nat := 0x10034 + 0x1000 * i
/-- PORT.MOD_DDM2, chapter 02. -/
abbrev PORT_MOD_DDM2 (i : Nat) : Nat := 0x10038 + 0x1000 * i
/-- PORT.SPUR_CTL, chapter 02. -/
abbrev PORT_SPUR_CTL : Nat := 0x12040
/-- PORT.RX_FRAMES, chapter 02. -/
abbrev PORT_RX_FRAMES (i : Nat) : Nat := 0x10100 + 0x1000 * i
/-- PORT.RX_BYTES_LO, chapter 02. -/
abbrev PORT_RX_BYTES_LO (i : Nat) : Nat := 0x10104 + 0x1000 * i
/-- PORT.RX_BYTES_HI, chapter 02. -/
abbrev PORT_RX_BYTES_HI (i : Nat) : Nat := 0x10108 + 0x1000 * i
/-- PORT.TX_FRAMES, chapter 02. -/
abbrev PORT_TX_FRAMES (i : Nat) : Nat := 0x1010C + 0x1000 * i
/-- PORT.TX_BYTES_LO, chapter 02. -/
abbrev PORT_TX_BYTES_LO (i : Nat) : Nat := 0x10110 + 0x1000 * i
/-- PORT.TX_BYTES_HI, chapter 02. -/
abbrev PORT_TX_BYTES_HI (i : Nat) : Nat := 0x10114 + 0x1000 * i
/-- PORT.RX_FCS_ERR, chapter 02. -/
abbrev PORT_RX_FCS_ERR (i : Nat) : Nat := 0x10118 + 0x1000 * i
/-- PORT.RX_STOMPED, chapter 02. -/
abbrev PORT_RX_STOMPED (i : Nat) : Nat := 0x1011C + 0x1000 * i
/-- PORT.TX_STOMPED, chapter 02. -/
abbrev PORT_TX_STOMPED (i : Nat) : Nat := 0x10120 + 0x1000 * i
/-- PORT.RX_HCHK_ERR, chapter 02. -/
abbrev PORT_RX_HCHK_ERR (i : Nat) : Nat := 0x10124 + 0x1000 * i
/-- PORT.RX_LEN_ERR, chapter 02. -/
abbrev PORT_RX_LEN_ERR (i : Nat) : Nat := 0x10128 + 0x1000 * i
/-- PORT.RX_FOREIGN, chapter 02. -/
abbrev PORT_RX_FOREIGN (i : Nat) : Nat := 0x1012C + 0x1000 * i
/-- PORT.RX_ROLE_DROP, chapter 02. -/
abbrev PORT_RX_ROLE_DROP (i : Nat) : Nat := 0x10130 + 0x1000 * i
/-- PORT.RX_PAUSE, chapter 02. -/
abbrev PORT_RX_PAUSE (i : Nat) : Nat := 0x10134 + 0x1000 * i
/-- PORT.PCS_ERR, chapter 02. -/
abbrev PORT_PCS_ERR (i : Nat) : Nat := 0x10138 + 0x1000 * i
/-- PORT.LINK_DOWN_CNT, chapter 02. -/
abbrev PORT_LINK_DOWN_CNT (i : Nat) : Nat := 0x1013C + 0x1000 * i
/-- PORT.SAF_FORCED, chapter 02. -/
abbrev PORT_SAF_FORCED (i : Nat) : Nat := 0x10140 + 0x1000 * i
/-- PORT.FRAG_TX, chapter 02. -/
abbrev PORT_FRAG_TX (i : Nat) : Nat := 0x10144 + 0x1000 * i
/-- PORT.FRAG_RX, chapter 02. -/
abbrev PORT_FRAG_RX (i : Nat) : Nat := 0x10148 + 0x1000 * i
/-- PORT.FRAG_ERR, chapter 02. -/
abbrev PORT_FRAG_ERR (i : Nat) : Nat := 0x1014C + 0x1000 * i
/-- PORT.VERIFY_FAIL_CNT, chapter 02. -/
abbrev PORT_VERIFY_FAIL_CNT (i : Nat) : Nat := 0x10150 + 0x1000 * i
/-- PORT.DAMP_CNT, chapter 02. -/
abbrev PORT_DAMP_CNT (i : Nat) : Nat := 0x10154 + 0x1000 * i
/-- PORT.TX_FLUSHED, chapter 02. -/
abbrev PORT_TX_FLUSHED (i : Nat) : Nat := 0x10158 + 0x1000 * i
/-- WARDEN.RING_CTL, chapter 03. -/
abbrev WARDEN_RING_CTL : Nat := 0x140000
/-- WARDEN.RING_ID, chapter 03. -/
abbrev WARDEN_RING_ID : Nat := 0x140004
/-- WARDEN.RING_STAT, chapter 03. -/
abbrev WARDEN_RING_STAT : Nat := 0x140008
/-- WARDEN.RTT, chapter 03. -/
abbrev WARDEN_RTT : Nat := 0x14000C
/-- WARDEN.SETTLE, chapter 03. -/
abbrev WARDEN_SETTLE : Nat := 0x140010
/-- WARDEN.SEED, chapter 03. -/
abbrev WARDEN_SEED : Nat := 0x140014
/-- WARDEN.ABSENT_CLEAR, chapter 03. -/
abbrev WARDEN_ABSENT_CLEAR : Nat := 0x140018
/-- WARDEN.MODE_REQ, chapter 03. -/
abbrev WARDEN_MODE_REQ : Nat := 0x140040
/-- WARDEN.MODE_AT_LO, chapter 03. -/
abbrev WARDEN_MODE_AT_LO : Nat := 0x140044
/-- WARDEN.MODE_AT_HI, chapter 03. -/
abbrev WARDEN_MODE_AT_HI : Nat := 0x140048
/-- WARDEN.REPORT_DST, chapter 03. -/
abbrev WARDEN_REPORT_DST : Nat := 0x140050
/-- WARDEN.BREAK, chapter 03. -/
abbrev WARDEN_BREAK (i : Nat) : Nat := 0x140060 + 0x4 * i
/-- WARDEN.PRESENT, chapter 03. -/
abbrev WARDEN_PRESENT (i : Nat) : Nat := 0x140080 + 0x4 * i
/-- WARDEN.EXIT, chapter 03. -/
abbrev WARDEN_EXIT (i : Nat) : Nat := 0x140400 + 0x4 * i
/-- WARDEN.ORDER, chapter 03. -/
abbrev WARDEN_ORDER (i : Nat) : Nat := 0x141000 + 0x4 * i
/-- WARDEN.DUP_DISCARD, chapter 03. -/
abbrev WARDEN_DUP_DISCARD : Nat := 0x140100
/-- WARDEN.STALE_DISCARD, chapter 03. -/
abbrev WARDEN_STALE_DISCARD : Nat := 0x140104
/-- WARDEN.ABSENT_DROP, chapter 03. -/
abbrev WARDEN_ABSENT_DROP : Nat := 0x140108
/-- WARDEN.PRE_JOIN_DROP, chapter 03. -/
abbrev WARDEN_PRE_JOIN_DROP : Nat := 0x14010C
/-- WARDEN.STRIPPED, chapter 03. -/
abbrev WARDEN_STRIPPED : Nat := 0x140110
/-- WARDEN.RET_UNICAST, chapter 03. -/
abbrev WARDEN_RET_UNICAST : Nat := 0x140114
/-- WARDEN.HOPS_EXPIRED, chapter 03. -/
abbrev WARDEN_HOPS_EXPIRED : Nat := 0x140118
/-- WARDEN.RX_UNKNOWN, chapter 03. -/
abbrev WARDEN_RX_UNKNOWN : Nat := 0x14011C
/-- WARDEN.CLASS_MISUSE, chapter 03. -/
abbrev WARDEN_CLASS_MISUSE : Nat := 0x140120
/-- WARDEN.LEN_BAD, chapter 03. -/
abbrev WARDEN_LEN_BAD : Nat := 0x140124
/-- WARDEN.BREAK_DROP, chapter 03. -/
abbrev WARDEN_BREAK_DROP : Nat := 0x140128
/-- WARDEN.UNREACH, chapter 03. -/
abbrev WARDEN_UNREACH : Nat := 0x14012C
/-- WARDEN.REPIN_CNT, chapter 03. -/
abbrev WARDEN_REPIN_CNT : Nat := 0x140130
/-- WARDEN.FENCE_HELD, chapter 03. -/
abbrev WARDEN_FENCE_HELD : Nat := 0x140134
/-- WARDEN.BEACON_MISS, chapter 03. -/
abbrev WARDEN_BEACON_MISS : Nat := 0x140138
/-- WARDEN.TAKEOVER_CNT, chapter 03. -/
abbrev WARDEN_TAKEOVER_CNT : Nat := 0x14013C
/-- WARDEN.ALARM_TX, chapter 03. -/
abbrev WARDEN_ALARM_TX : Nat := 0x140140
/-- WARDEN.ALARM_RX, chapter 03. -/
abbrev WARDEN_ALARM_RX : Nat := 0x140144
/-- WARDEN.ORDER_ERR, chapter 03. -/
abbrev WARDEN_ORDER_ERR : Nat := 0x140148
/-- WARDEN.LATE_MODE, chapter 03. -/
abbrev WARDEN_LATE_MODE : Nat := 0x14014C
/-- WARDEN.SPUR_DROP, chapter 03. -/
abbrev WARDEN_SPUR_DROP : Nat := 0x140150
/-- WARDEN.HDR_BAD, chapter 03. -/
abbrev WARDEN_HDR_BAD : Nat := 0x140154
/-- WARDEN.WRONG_MODE_CNT, chapter 03. -/
abbrev WARDEN_WRONG_MODE_CNT : Nat := 0x140158
/-- SWC.SWC_STAT, chapter 04. -/
abbrev SWC_SWC_STAT : Nat := 0x20000
/-- SWC.CT_MAP, chapter 04. -/
abbrev SWC_CT_MAP : Nat := 0x20010
/-- SWC.CLASS_MAP, chapter 04. -/
abbrev SWC_CLASS_MAP (i : Nat) : Nat := 0x20020 + 0x4 * i
/-- SWC.DRR_W_LO, chapter 04. -/
abbrev SWC_DRR_W_LO (i : Nat) : Nat := 0x20040 + 0x8 * i
/-- SWC.DRR_W_HI, chapter 04. -/
abbrev SWC_DRR_W_HI (i : Nat) : Nat := 0x20044 + 0x8 * i
/-- SWC.TABLE_EPOCH, chapter 04. -/
abbrev SWC_TABLE_EPOCH : Nat := 0x20060
/-- SWC.EPOCH_STAT, chapter 04. -/
abbrev SWC_EPOCH_STAT : Nat := 0x20064
/-- SWC.POOL_FREE, chapter 04. -/
abbrev SWC_POOL_FREE : Nat := 0x20070
/-- SWC.POOL_MIN_FREE, chapter 04. -/
abbrev SWC_POOL_MIN_FREE : Nat := 0x20074
/-- SWC.RESERVE, chapter 04. -/
abbrev SWC_RESERVE : Nat := 0x20078
/-- SWC.LOCAL_WAIT_MAX, chapter 04. -/
abbrev SWC_LOCAL_WAIT_MAX : Nat := 0x2007C
/-- SWC.QCAP, chapter 04. -/
abbrev SWC_QCAP (i : Nat) : Nat := 0x20100 + 0x4 * i
/-- SWC.DEPTH, chapter 04. -/
abbrev SWC_DEPTH (i : Nat) : Nat := 0x20200 + 0x4 * i
/-- SWC.PEAK, chapter 04. -/
abbrev SWC_PEAK (i : Nat) : Nat := 0x20280 + 0x4 * i
/-- SWC.DROP, chapter 04. -/
abbrev SWC_DROP (i : Nat) : Nat := 0x20300 + 0x4 * i
/-- SWC.MC_DROP, chapter 04. -/
abbrev SWC_MC_DROP (i : Nat) : Nat := 0x20380 + 0x4 * i
/-- SWC.SBUF_CORR1, chapter 04. -/
abbrev SWC_SBUF_CORR1 : Nat := 0x20400
/-- SWC.SBUF_CORR2, chapter 04. -/
abbrev SWC_SBUF_CORR2 : Nat := 0x20404
/-- SWC.SBUF_UE, chapter 04. -/
abbrev SWC_SBUF_UE : Nat := 0x20408
/-- SWC.CTRL_CORR, chapter 04. -/
abbrev SWC_CTRL_CORR : Nat := 0x2040C
/-- SWC.PURGE_CNT, chapter 04. -/
abbrev SWC_PURGE_CNT : Nat := 0x20410
/-- SWC.TAIL_DISCARD, chapter 04. -/
abbrev SWC_TAIL_DISCARD : Nat := 0x20414
/-- SWC.LEN_OVERRUN, chapter 04. -/
abbrev SWC_LEN_OVERRUN : Nat := 0x20418
/-- SWC.SAF_PREEMPT, chapter 04. -/
abbrev SWC_SAF_PREEMPT : Nat := 0x2041C
/-- SWC.LOCAL_TIMEOUT, chapter 04. -/
abbrev SWC_LOCAL_TIMEOUT : Nat := 0x20420
/-- SWC.HANDOVER_DROP, chapter 04. -/
abbrev SWC_HANDOVER_DROP : Nat := 0x20480
/-- SWC.PT_DROP, chapter 04. -/
abbrev SWC_PT_DROP : Nat := 0x20484
/-- SWC.PT_DROP7, chapter 04. -/
abbrev SWC_PT_DROP7 : Nat := 0x20488
/-- SWC.PT_SPUR_DROP, chapter 04. -/
abbrev SWC_PT_SPUR_DROP : Nat := 0x2048C
/-- TXN.TXN_STAT, chapter 05. -/
abbrev TXN_TXN_STAT : Nat := 0x30000
/-- TXN.EVT, chapter 05. -/
abbrev TXN_EVT : Nat := 0x30004
/-- TXN.INIT_CFG, chapter 05. -/
abbrev TXN_INIT_CFG (i : Nat) : Nat := 0x30010 + 0x10 * i
/-- TXN.TIMEOUT, chapter 05. -/
abbrev TXN_TIMEOUT (i : Nat) : Nat := 0x30014 + 0x10 * i
/-- TXN.OUTST, chapter 05. -/
abbrev TXN_OUTST (i : Nat) : Nat := 0x30018 + 0x10 * i
/-- TXN.PEAK_OUT, chapter 05. -/
abbrev TXN_PEAK_OUT (i : Nat) : Nat := 0x3001C + 0x10 * i
/-- TXN.SERVE_PEAK, chapter 05. -/
abbrev TXN_SERVE_PEAK : Nat := 0x30040
/-- TXN.NOTICE_GAP, chapter 05. -/
abbrev TXN_NOTICE_GAP : Nat := 0x30044
/-- TXN.LATE_WR, chapter 05. -/
abbrev TXN_LATE_WR : Nat := 0x30050
/-- TXN.NOTICE_LAST, chapter 05. -/
abbrev TXN_NOTICE_LAST (i : Nat) : Nat := 0x30060 + 0x4 * i
/-- TXN.EGR, chapter 05. -/
abbrev TXN_EGR (i : Nat) (j : Nat) : Nat := 0x30400 + 0x20 * i + 0x4 * j
/-- TXN.LATE0, chapter 05. -/
abbrev TXN_LATE0 (i : Nat) : Nat := 0x30800 + 0x20 * i
/-- TXN.LATE4, chapter 05. -/
abbrev TXN_LATE4 (i : Nat) : Nat := 0x30804 + 0x20 * i
/-- TXN.LATE8, chapter 05. -/
abbrev TXN_LATE8 (i : Nat) : Nat := 0x30808 + 0x20 * i
/-- TXN.LATEC, chapter 05. -/
abbrev TXN_LATEC (i : Nat) : Nat := 0x3080C + 0x20 * i
/-- TXN.LATE10, chapter 05. -/
abbrev TXN_LATE10 (i : Nat) : Nat := 0x30810 + 0x20 * i
/-- TXN.WIN_DENIED, chapter 05. -/
abbrev TXN_WIN_DENIED : Nat := 0x30100
/-- TXN.EGR_DENIED, chapter 05. -/
abbrev TXN_EGR_DENIED : Nat := 0x30104
/-- TXN.QUOTA_BUSY, chapter 05. -/
abbrev TXN_QUOTA_BUSY : Nat := 0x30108
/-- TXN.SERVE_BUSY, chapter 05. -/
abbrev TXN_SERVE_BUSY : Nat := 0x3010C
/-- TXN.TIMEOUT_CNT, chapter 05. -/
abbrev TXN_TIMEOUT_CNT : Nat := 0x30110
/-- TXN.LATE_CPL, chapter 05. -/
abbrev TXN_LATE_CPL : Nat := 0x30114
/-- TXN.LOCK_EXPIRED, chapter 05. -/
abbrev TXN_LOCK_EXPIRED : Nat := 0x30118
/-- TXN.LOCK_BROKEN_CNT, chapter 05. -/
abbrev TXN_LOCK_BROKEN_CNT : Nat := 0x3011C
/-- TXN.LATE_REC_CNT, chapter 05. -/
abbrev TXN_LATE_REC_CNT : Nat := 0x30120
/-- TXN.LATE_OVF_CNT, chapter 05. -/
abbrev TXN_LATE_OVF_CNT : Nat := 0x30124
/-- TXN.NOTICE_TX, chapter 05. -/
abbrev TXN_NOTICE_TX : Nat := 0x30128
/-- TXN.NOTICE_RX, chapter 05. -/
abbrev TXN_NOTICE_RX : Nat := 0x3012C
/-- TXN.NOTICE_SUPP, chapter 05. -/
abbrev TXN_NOTICE_SUPP : Nat := 0x30130
/-- TXN.WRONG_MODE_CNT, chapter 05. -/
abbrev TXN_WRONG_MODE_CNT : Nat := 0x30134
/-- TXN.BAD_REQ_CNT, chapter 05. -/
abbrev TXN_BAD_REQ_CNT : Nat := 0x30138
/-- TXN.UNMAPPED_CNT, chapter 05. -/
abbrev TXN_UNMAPPED_CNT : Nat := 0x3013C
/-- TXN.POISONED_CNT, chapter 05. -/
abbrev TXN_POISONED_CNT : Nat := 0x30140
/-- CYC.CYC_CTL, chapter 06. -/
abbrev CYC_CYC_CTL : Nat := 0x40000
/-- CYC.CYC_STAT, chapter 06. -/
abbrev CYC_CYC_STAT : Nat := 0x40004
/-- CYC.PUB_CFG, chapter 06. -/
abbrev CYC_PUB_CFG : Nat := 0x40010
/-- CYC.SNAP_OFS, chapter 06. -/
abbrev CYC_SNAP_OFS : Nat := 0x40014
/-- CYC.PUB_ITEM, chapter 06. -/
abbrev CYC_PUB_ITEM (i : Nat) : Nat := 0x40020 + 0x4 * i
/-- CYC.SUB_FRESH_LO, chapter 06. -/
abbrev CYC_SUB_FRESH_LO : Nat := 0x40040
/-- CYC.SUB_FRESH_HI, chapter 06. -/
abbrev CYC_SUB_FRESH_HI : Nat := 0x40044
/-- CYC.STR_CFG, chapter 06. -/
abbrev CYC_STR_CFG (i : Nat) : Nat := 0x40100 + 0x20 * i
/-- CYC.PERIOD, chapter 06. -/
abbrev CYC_PERIOD (i : Nat) : Nat := 0x40104 + 0x20 * i
/-- CYC.BASE_LO, chapter 06. -/
abbrev CYC_BASE_LO (i : Nat) : Nat := 0x40108 + 0x20 * i
/-- CYC.BASE_HI, chapter 06. -/
abbrev CYC_BASE_HI (i : Nat) : Nat := 0x4010C + 0x20 * i
/-- CYC.LAUNCH_OFS, chapter 06. -/
abbrev CYC_LAUNCH_OFS (i : Nat) : Nat := 0x40110 + 0x20 * i
/-- CYC.APPLY_OFS, chapter 06. -/
abbrev CYC_APPLY_OFS (i : Nat) : Nat := 0x40114 + 0x20 * i
/-- CYC.CNUM, chapter 06. -/
abbrev CYC_CNUM (i : Nat) : Nat := 0x40118 + 0x20 * i
/-- CYC.STR_STAT, chapter 06. -/
abbrev CYC_STR_STAT (i : Nat) : Nat := 0x4011C + 0x20 * i
/-- CYC.SUB_CFG, chapter 06. -/
abbrev CYC_SUB_CFG (i : Nat) : Nat := 0x40800 + 0x10 * i
/-- CYC.SUB_DEST, chapter 06. -/
abbrev CYC_SUB_DEST (i : Nat) : Nat := 0x40804 + 0x10 * i
/-- CYC.SUB_STAT, chapter 06. -/
abbrev CYC_SUB_STAT (i : Nat) : Nat := 0x40808 + 0x10 * i
/-- CYC.LAUNCH_CNT, chapter 06. -/
abbrev CYC_LAUNCH_CNT : Nat := 0x400C0
/-- CYC.ABSORB_CNT, chapter 06. -/
abbrev CYC_ABSORB_CNT : Nat := 0x400C4
/-- CYC.RET_MISS, chapter 06. -/
abbrev CYC_RET_MISS : Nat := 0x400C8
/-- CYC.CNUM_BAD, chapter 06. -/
abbrev CYC_CNUM_BAD : Nat := 0x400CC
/-- CYC.COPY_BAD, chapter 06. -/
abbrev CYC_COPY_BAD : Nat := 0x400D0
/-- CYC.SUB_STALE, chapter 06. -/
abbrev CYC_SUB_STALE : Nat := 0x400D4
/-- CYC.SUB_LATE, chapter 06. -/
abbrev CYC_SUB_LATE : Nat := 0x400D8
/-- CYC.APPLY_OVF, chapter 06. -/
abbrev CYC_APPLY_OVF : Nat := 0x400DC
/-- CYC.PUB_ZERO, chapter 06. -/
abbrev CYC_PUB_ZERO : Nat := 0x400E0
/-- CYC.MASTER_TAKEOVER, chapter 06. -/
abbrev CYC_MASTER_TAKEOVER : Nat := 0x400E4
/-- PB.BANK_CFG, chapter 07. -/
abbrev PB_BANK_CFG (i : Nat) : Nat := 0x50000 + 0x100 * i
/-- PB.BANK_STAT, chapter 07. -/
abbrev PB_BANK_STAT (i : Nat) : Nat := 0x50004 + 0x100 * i
/-- PB.IN, chapter 07. -/
abbrev PB_IN (i : Nat) : Nat := 0x50008 + 0x100 * i
/-- PB.OUT, chapter 07. -/
abbrev PB_OUT (i : Nat) : Nat := 0x5000C + 0x100 * i
/-- PB.OUT_SET, chapter 07. -/
abbrev PB_OUT_SET (i : Nat) : Nat := 0x50010 + 0x100 * i
/-- PB.OUT_CLR, chapter 07. -/
abbrev PB_OUT_CLR (i : Nat) : Nat := 0x50014 + 0x100 * i
/-- PB.OUT_TGL, chapter 07. -/
abbrev PB_OUT_TGL (i : Nat) : Nat := 0x50018 + 0x100 * i
/-- PB.OWNED, chapter 07. -/
abbrev PB_OWNED (i : Nat) : Nat := 0x5001C + 0x100 * i
/-- PIN.CFG, chapter 07. -/
abbrev PIN_CFG (i : Nat) : Nat := 0x58000 + 0x10 * i
/-- PIN.FILT, chapter 07. -/
abbrev PIN_FILT (i : Nat) : Nat := 0x58004 + 0x10 * i
/-- PIN.STAT, chapter 07. -/
abbrev PIN_STAT (i : Nat) : Nat := 0x58008 + 0x10 * i
/-- PIN.CNT, chapter 07. -/
abbrev PIN_CNT (i : Nat) : Nat := 0x5800C + 0x10 * i
/-- FPIN.IMAGE, chapter 07. -/
abbrev FPIN_IMAGE (i : Nat) : Nat := 0x52000 + 0x4 * i
/-- FPIN.OWN_BUSY, chapter 07. -/
abbrev FPIN_OWN_BUSY : Nat := 0x52040
/-- FPIN.FPIN_EVT, chapter 07. -/
abbrev FPIN_FPIN_EVT : Nat := 0x52044
/-- JRN.JRN_CTL, chapter 07. -/
abbrev JRN_JRN_CTL : Nat := 0x60000
/-- JRN.BASE, chapter 07. -/
abbrev JRN_BASE : Nat := 0x60008
/-- JRN.SIZE, chapter 07. -/
abbrev JRN_SIZE : Nat := 0x6000C
/-- JRN.WR_TOTAL_LO, chapter 07. -/
abbrev JRN_WR_TOTAL_LO : Nat := 0x60010
/-- JRN.WR_TOTAL_HI, chapter 07. -/
abbrev JRN_WR_TOTAL_HI : Nat := 0x60014
/-- JRN.CAP, chapter 07. -/
abbrev JRN_CAP : Nat := 0x60018
/-- JRN.EVT, chapter 07. -/
abbrev JRN_EVT : Nat := 0x60020
/-- RD.RD_POS_LO, chapter 07. -/
abbrev RD_RD_POS_LO (i : Nat) : Nat := 0x60100 + 0x20 * i
/-- RD.RD_POS_HI, chapter 07. -/
abbrev RD_RD_POS_HI (i : Nat) : Nat := 0x60104 + 0x20 * i
/-- RD.RD_LEVEL, chapter 07. -/
abbrev RD_RD_LEVEL (i : Nat) : Nat := 0x60108 + 0x20 * i
/-- RD.RD_STAT, chapter 07. -/
abbrev RD_RD_STAT (i : Nat) : Nat := 0x6010C + 0x20 * i
/-- JRN.LOST_TOTAL, chapter 07. -/
abbrev JRN_LOST_TOTAL : Nat := 0x60200
/-- JRN.OVR_CNT, chapter 07. -/
abbrev JRN_OVR_CNT : Nat := 0x60204
/-- JRN.RESTART_CNT, chapter 07. -/
abbrev JRN_RESTART_CNT : Nat := 0x60208
/-- BOB.CMD, chapter 08. -/
abbrev BOB_CMD (i : Nat) : Nat := 0x80000 + 0x100 * i
/-- BOB.STAT, chapter 08. -/
abbrev BOB_STAT (i : Nat) : Nat := 0x80004 + 0x100 * i
/-- BOB.CFG, chapter 08. -/
abbrev BOB_CFG (i : Nat) : Nat := 0x80008 + 0x100 * i
/-- BOB.SHIFT_CFG, chapter 08. -/
abbrev BOB_SHIFT_CFG (i : Nat) : Nat := 0x8000C + 0x100 * i
/-- BOB.IMAP0, chapter 08. -/
abbrev BOB_IMAP0 (i : Nat) : Nat := 0x80010 + 0x100 * i
/-- BOB.IMAP1, chapter 08. -/
abbrev BOB_IMAP1 (i : Nat) : Nat := 0x80014 + 0x100 * i
/-- BOB.CNT_CFG0, chapter 08. -/
abbrev BOB_CNT_CFG0 (i : Nat) : Nat := 0x80018 + 0x100 * i
/-- BOB.CNT_CFG1, chapter 08. -/
abbrev BOB_CNT_CFG1 (i : Nat) : Nat := 0x8001C + 0x100 * i
/-- BOB.SLOT, chapter 08. -/
abbrev BOB_SLOT (i : Nat) (j : Nat) : Nat := 0x80020 + 0x100 * i + 0x4 * j
/-- BOB.CNT_VAL, chapter 08. -/
abbrev BOB_CNT_VAL (i : Nat) : Nat := 0x80040 + 0x100 * i
/-- BOB.SR, chapter 08. -/
abbrev BOB_SR (i : Nat) : Nat := 0x80044 + 0x100 * i
/-- BOB.EXEC, chapter 08. -/
abbrev BOB_EXEC (i : Nat) : Nat := 0x80048 + 0x100 * i
/-- BOB.QCFG, chapter 08. -/
abbrev BOB_QCFG (i : Nat) : Nat := 0x80050 + 0x100 * i
/-- BOB.QSTAT, chapter 08. -/
abbrev BOB_QSTAT (i : Nat) : Nat := 0x80054 + 0x100 * i
/-- BOB.QPEAK, chapter 08. -/
abbrev BOB_QPEAK (i : Nat) : Nat := 0x80058 + 0x100 * i
/-- BOB.RX_LAST, chapter 08. -/
abbrev BOB_RX_LAST (i : Nat) : Nat := 0x8005C + 0x100 * i
/-- BOB.TXQ_LO, chapter 08. -/
abbrev BOB_TXQ_LO (i : Nat) : Nat := 0x80060 + 0x100 * i
/-- BOB.TXQ_HI, chapter 08. -/
abbrev BOB_TXQ_HI (i : Nat) : Nat := 0x80064 + 0x100 * i
/-- BOB.RXQ_LO, chapter 08. -/
abbrev BOB_RXQ_LO (i : Nat) : Nat := 0x80068 + 0x100 * i
/-- BOB.RXQ_HI, chapter 08. -/
abbrev BOB_RXQ_HI (i : Nat) : Nat := 0x8006C + 0x100 * i
/-- BOB.STALL_CYC, chapter 08. -/
abbrev BOB_STALL_CYC (i : Nat) : Nat := 0x80080 + 0x100 * i
/-- BOB.EVT_CNT, chapter 08. -/
abbrev BOB_EVT_CNT (i : Nat) : Nat := 0x80084 + 0x100 * i
/-- BOB.JLOST, chapter 08. -/
abbrev BOB_JLOST (i : Nat) : Nat := 0x80088 + 0x100 * i
/-- BOB.PRICK_PERR, chapter 08. -/
abbrev BOB_PRICK_PERR (i : Nat) : Nat := 0x8008C + 0x100 * i
/-- BOBG.START_LO, chapter 08. -/
abbrev BOBG_START_LO : Nat := 0x88000
/-- BOBG.START_HI, chapter 08. -/
abbrev BOBG_START_HI : Nat := 0x88004
/-- BOBG.STOP_LO, chapter 08. -/
abbrev BOBG_STOP_LO : Nat := 0x88008
/-- BOBG.STOP_HI, chapter 08. -/
abbrev BOBG_STOP_HI : Nat := 0x8800C
/-- BOBG.RESUME_LO, chapter 08. -/
abbrev BOBG_RESUME_LO : Nat := 0x88010
/-- BOBG.RESUME_HI, chapter 08. -/
abbrev BOBG_RESUME_HI : Nat := 0x88014
/-- BOBG.RUN_LO, chapter 08. -/
abbrev BOBG_RUN_LO : Nat := 0x88020
/-- BOBG.RUN_HI, chapter 08. -/
abbrev BOBG_RUN_HI : Nat := 0x88024
/-- BOBG.IRQ_PEND_LO, chapter 08. -/
abbrev BOBG_IRQ_PEND_LO : Nat := 0x88030
/-- BOBG.IRQ_PEND_HI, chapter 08. -/
abbrev BOBG_IRQ_PEND_HI : Nat := 0x88034
/-- BOBG.IRQ_EN_CP_LO, chapter 08. -/
abbrev BOBG_IRQ_EN_CP_LO : Nat := 0x88040
/-- BOBG.IRQ_EN_CP_HI, chapter 08. -/
abbrev BOBG_IRQ_EN_CP_HI : Nat := 0x88044
/-- BOBG.IRQ_EN_HOST_LO, chapter 08. -/
abbrev BOBG_IRQ_EN_HOST_LO : Nat := 0x88048
/-- BOBG.IRQ_EN_HOST_HI, chapter 08. -/
abbrev BOBG_IRQ_EN_HOST_HI : Nat := 0x8804C
/-- BOBG.SYNC_PULSE, chapter 08. -/
abbrev BOBG_SYNC_PULSE : Nat := 0x88060
/-- BOBG.SYNC_CFG, chapter 08. -/
abbrev BOBG_SYNC_CFG (i : Nat) : Nat := 0x88070 + 0x4 * i
/-- BOBG.DROWSE_RUN_LO, chapter 08. -/
abbrev BOBG_DROWSE_RUN_LO : Nat := 0x88080
/-- BOBG.DROWSE_RUN_HI, chapter 08. -/
abbrev BOBG_DROWSE_RUN_HI : Nat := 0x88084
/-- CAN.CTL, chapter 09. -/
abbrev CAN_CTL (i : Nat) : Nat := 0xA0000 + 0x1000 * i
/-- CAN.CMD, chapter 09. -/
abbrev CAN_CMD (i : Nat) : Nat := 0xA0004 + 0x1000 * i
/-- CAN.STAT, chapter 09. -/
abbrev CAN_STAT (i : Nat) : Nat := 0xA0008 + 0x1000 * i
/-- CAN.ERR_CNT, chapter 09. -/
abbrev CAN_ERR_CNT (i : Nat) : Nat := 0xA000C + 0x1000 * i
/-- CAN.NBT, chapter 09. -/
abbrev CAN_NBT (i : Nat) : Nat := 0xA0010 + 0x1000 * i
/-- CAN.DBT, chapter 09. -/
abbrev CAN_DBT (i : Nat) : Nat := 0xA0014 + 0x1000 * i
/-- CAN.TDC_CFG, chapter 09. -/
abbrev CAN_TDC_CFG (i : Nat) : Nat := 0xA0018 + 0x1000 * i
/-- CAN.QPEAK, chapter 09. -/
abbrev CAN_QPEAK (i : Nat) : Nat := 0xA0020 + 0x1000 * i
/-- CAN.CLASH_RUN, chapter 09. -/
abbrev CAN_CLASH_RUN (i : Nat) : Nat := 0xA0024 + 0x1000 * i
/-- CAN.OBJ_NEW, chapter 09. -/
abbrev CAN_OBJ_NEW (i : Nat) (j : Nat) : Nat := 0xA0100 + 0x1000 * i + 0x4 * j
/-- CAN.TX_OK, chapter 09. -/
abbrev CAN_TX_OK (i : Nat) : Nat := 0xA0200 + 0x1000 * i
/-- CAN.RX_OK, chapter 09. -/
abbrev CAN_RX_OK (i : Nat) : Nat := 0xA0204 + 0x1000 * i
/-- CAN.RX_UNMATCHED, chapter 09. -/
abbrev CAN_RX_UNMATCHED (i : Nat) : Nat := 0xA0208 + 0x1000 * i
/-- CAN.RX_CATCH, chapter 09. -/
abbrev CAN_RX_CATCH (i : Nat) : Nat := 0xA020C + 0x1000 * i
/-- CAN.RX_OVERWRITE, chapter 09. -/
abbrev CAN_RX_OVERWRITE (i : Nat) : Nat := 0xA0210 + 0x1000 * i
/-- CAN.ERR_TX, chapter 09. -/
abbrev CAN_ERR_TX (i : Nat) : Nat := 0xA0214 + 0x1000 * i
/-- CAN.BUSOFF_CNT, chapter 09. -/
abbrev CAN_BUSOFF_CNT (i : Nat) : Nat := 0xA0218 + 0x1000 * i
/-- CAN.CLASH_CNT, chapter 09. -/
abbrev CAN_CLASH_CNT (i : Nat) : Nat := 0xA021C + 0x1000 * i
/-- CAN.CLASH_DROP, chapter 09. -/
abbrev CAN_CLASH_DROP (i : Nat) : Nat := 0xA0220 + 0x1000 * i
/-- CAN.ABORT_CNT, chapter 09. -/
abbrev CAN_ABORT_CNT (i : Nat) : Nat := 0xA0224 + 0x1000 * i
/-- CAN.TX_OVF_CNT, chapter 09. -/
abbrev CAN_TX_OVF_CNT (i : Nat) : Nat := 0xA0228 + 0x1000 * i
/-- CAN.TX_POISON, chapter 09. -/
abbrev CAN_TX_POISON (i : Nat) : Nat := 0xA022C + 0x1000 * i
/-- CAN.PEX_CNT, chapter 09. -/
abbrev CAN_PEX_CNT (i : Nat) : Nat := 0xA0230 + 0x1000 * i
/-- CAN.JLOST, chapter 09. -/
abbrev CAN_JLOST (i : Nat) : Nat := 0xA0234 + 0x1000 * i
/-- STB.STB_CTL, chapter 10. -/
abbrev STB_STB_CTL : Nat := 0xC0000
/-- STB.STB_STAT, chapter 10. -/
abbrev STB_STB_STAT : Nat := 0xC0004
/-- STB.EVT, chapter 10. -/
abbrev STB_EVT : Nat := 0xC0008
/-- STB.PF_SENS_ADDR_LO, chapter 10. -/
abbrev STB_PF_SENS_ADDR_LO : Nat := 0xC0010
/-- STB.PF_SENS_ADDR_HI, chapter 10. -/
abbrev STB_PF_SENS_ADDR_HI : Nat := 0xC0014
/-- STB.ERR_INFO_LO, chapter 10. -/
abbrev STB_ERR_INFO_LO : Nat := 0xC0018
/-- STB.ERR_INFO_HI, chapter 10. -/
abbrev STB_ERR_INFO_HI : Nat := 0xC001C
/-- STB.IRQ_CFG, chapter 10. -/
abbrev STB_IRQ_CFG : Nat := 0xC0030
/-- STB.IRQ_STAT, chapter 10. -/
abbrev STB_IRQ_STAT : Nat := 0xC0034
/-- STB.IRQ_PEND, chapter 10. -/
abbrev STB_IRQ_PEND : Nat := 0xC0038
/-- STB.IRQ_EN_CP, chapter 10. -/
abbrev STB_IRQ_EN_CP : Nat := 0xC003C
/-- STB.IRQ_EN_HOST, chapter 10. -/
abbrev STB_IRQ_EN_HOST : Nat := 0xC0040
/-- STB.QPEAK, chapter 10. -/
abbrev STB_QPEAK : Nat := 0xC0044
/-- WIN.WIN_CFG, chapter 10. -/
abbrev WIN_WIN_CFG (i : Nat) : Nat := 0xC0400 + 0x40 * i
/-- WIN.BASE, chapter 10. -/
abbrev WIN_BASE (i : Nat) : Nat := 0xC0404 + 0x40 * i
/-- WIN.SIZE, chapter 10. -/
abbrev WIN_SIZE (i : Nat) : Nat := 0xC0408 + 0x40 * i
/-- WIN.TGT_BASE, chapter 10. -/
abbrev WIN_TGT_BASE (i : Nat) : Nat := 0xC040C + 0x40 * i
/-- WIN.TMO, chapter 10. -/
abbrev WIN_TMO (i : Nat) : Nat := 0xC0410 + 0x40 * i
/-- STB.RD_REQ, chapter 10. -/
abbrev STB_RD_REQ : Nat := 0xC0100
/-- STB.WR_REQ, chapter 10. -/
abbrev STB_WR_REQ : Nat := 0xC0104
/-- STB.PF_HIT, chapter 10. -/
abbrev STB_PF_HIT : Nat := 0xC0108
/-- STB.PF_AHEAD, chapter 10. -/
abbrev STB_PF_AHEAD : Nat := 0xC010C
/-- STB.PF_WR_DISCARD, chapter 10. -/
abbrev STB_PF_WR_DISCARD : Nat := 0xC0110
/-- STB.PF_AGED, chapter 10. -/
abbrev STB_PF_AGED : Nat := 0xC0114
/-- STB.PF_SENS_CNT, chapter 10. -/
abbrev STB_PF_SENS_CNT : Nat := 0xC0118
/-- STB.ERR_CNT, chapter 10. -/
abbrev STB_ERR_CNT : Nat := 0xC011C
/-- STB.TMO_CNT, chapter 10. -/
abbrev STB_TMO_CNT : Nat := 0xC0120
/-- STB.LOCK_BRK_CNT, chapter 10. -/
abbrev STB_LOCK_BRK_CNT : Nat := 0xC0124
/-- STB.RST_CUT, chapter 10. -/
abbrev STB_RST_CUT : Nat := 0xC0128
/-- USB.USB_CTL, chapter 11. -/
abbrev USB_USB_CTL : Nat := 0xD0000
/-- USB.USB_STAT, chapter 11. -/
abbrev USB_USB_STAT : Nat := 0xD0004
/-- USB.USB_ID, chapter 11. -/
abbrev USB_USB_ID : Nat := 0xD0008
/-- USB.USB_ID2, chapter 11. -/
abbrev USB_USB_ID2 : Nat := 0xD000C
/-- USB.WAKE_SRC, chapter 11. -/
abbrev USB_WAKE_SRC : Nat := 0xD0010
/-- USB.EVT, chapter 11. -/
abbrev USB_EVT : Nat := 0xD0014
/-- USB.JSTREAM, chapter 11. -/
abbrev USB_JSTREAM : Nat := 0xD0040
/-- USB.IMG_SEL_LO, chapter 11. -/
abbrev USB_IMG_SEL_LO : Nat := 0xD0048
/-- USB.IMG_SEL_HI, chapter 11. -/
abbrev USB_IMG_SEL_HI : Nat := 0xD004C
/-- USB.DS_STAT, chapter 11. -/
abbrev USB_DS_STAT (i : Nat) : Nat := 0xD0024 + 0x4 * i
/-- USB.MISSED_EP1, chapter 11. -/
abbrev USB_MISSED_EP1 : Nat := 0xD0100
/-- USB.MISSED_EP5, chapter 11. -/
abbrev USB_MISSED_EP5 : Nat := 0xD0104
/-- USB.IMG_TRUNC, chapter 11. -/
abbrev USB_IMG_TRUNC : Nat := 0xD0108
/-- USB.EVT_LOST, chapter 11. -/
abbrev USB_EVT_LOST : Nat := 0xD010C
/-- USB.TUN_DROP, chapter 11. -/
abbrev USB_TUN_DROP : Nat := 0xD0110
/-- USB.TUN_MSG_BAD, chapter 11. -/
abbrev USB_TUN_MSG_BAD : Nat := 0xD0114
/-- USB.CTRL_ABORT_CNT, chapter 11. -/
abbrev USB_CTRL_ABORT_CNT : Nat := 0xD0118
/-- USB.BABBLE_CNT, chapter 11. -/
abbrev USB_BABBLE_CNT : Nat := 0xD011C
/-- USB.OC_CNT, chapter 11. -/
abbrev USB_OC_CNT : Nat := 0xD0120
/-- USB.BUS_RESET_CNT, chapter 11. -/
abbrev USB_BUS_RESET_CNT : Nat := 0xD0124
/-- USB.RWAKE_CNT, chapter 11. -/
abbrev USB_RWAKE_CNT : Nat := 0xD0128
/-- TIME.TIME_CTL, chapter 12. -/
abbrev TIME_TIME_CTL : Nat := 0xE0000
/-- TIME.TIME_CMD, chapter 12. -/
abbrev TIME_TIME_CMD : Nat := 0xE0004
/-- TIME.TIME_STAT, chapter 12. -/
abbrev TIME_TIME_STAT : Nat := 0xE0008
/-- TIME.NOW_LO, chapter 12. -/
abbrev TIME_NOW_LO : Nat := 0xE0010
/-- TIME.NOW_HI, chapter 12. -/
abbrev TIME_NOW_HI : Nat := 0xE0014
/-- TIME.NOW_FRAC, chapter 12. -/
abbrev TIME_NOW_FRAC : Nat := 0xE0018
/-- TIME.TIME_SET_LO, chapter 12. -/
abbrev TIME_TIME_SET_LO : Nat := 0xE0020
/-- TIME.TIME_SET_HI, chapter 12. -/
abbrev TIME_TIME_SET_HI : Nat := 0xE0024
/-- TIME.INCR_FRAC, chapter 12. -/
abbrev TIME_INCR_FRAC : Nat := 0xE0028
/-- TIME.INCR_NS, chapter 12. -/
abbrev TIME_INCR_NS : Nat := 0xE002C
/-- TIME.JUMP_THRESHOLD, chapter 12. -/
abbrev TIME_JUMP_THRESHOLD : Nat := 0xE0030
/-- TIME.SLEW_LIMIT, chapter 12. -/
abbrev TIME_SLEW_LIMIT : Nat := 0xE0034
/-- TIME.SERVO_CFG, chapter 12. -/
abbrev TIME_SERVO_CFG : Nat := 0xE0038
/-- DOM.DOM_CFG, chapter 12. -/
abbrev DOM_DOM_CFG (i : Nat) : Nat := 0xE0040 + 0x20 * i
/-- DOM.OFS, chapter 12. -/
abbrev DOM_OFS (i : Nat) : Nat := 0xE0044 + 0x20 * i
/-- DOM.RATE, chapter 12. -/
abbrev DOM_RATE (i : Nat) : Nat := 0xE0048 + 0x20 * i
/-- DOM.ANN, chapter 12. -/
abbrev DOM_ANN (i : Nat) : Nat := 0xE004C + 0x20 * i
/-- DOM.GM_ID_LO, chapter 12. -/
abbrev DOM_GM_ID_LO (i : Nat) : Nat := 0xE0050 + 0x20 * i
/-- DOM.GM_ID_HI, chapter 12. -/
abbrev DOM_GM_ID_HI (i : Nat) : Nat := 0xE0054 + 0x20 * i
/-- DOM.GM_CFG, chapter 12. -/
abbrev DOM_GM_CFG (i : Nat) : Nat := 0xE0058 + 0x20 * i
/-- PD.PD_CFG, chapter 12. -/
abbrev PD_PD_CFG (i : Nat) : Nat := 0xE0100 + 0x20 * i
/-- PD.LD, chapter 12. -/
abbrev PD_LD (i : Nat) : Nat := 0xE0104 + 0x20 * i
/-- PD.LD_STAT, chapter 12. -/
abbrev PD_LD_STAT (i : Nat) : Nat := 0xE0108 + 0x20 * i
/-- PD.ASYM, chapter 12. -/
abbrev PD_ASYM (i : Nat) : Nat := 0xE010C + 0x20 * i
/-- PD.LD_INIT, chapter 12. -/
abbrev PD_LD_INIT (i : Nat) : Nat := 0xE0110 + 0x20 * i
/-- PIC.PIC_CTL, chapter 12. -/
abbrev PIC_PIC_CTL (i : Nat) : Nat := 0xE0800 + 0x40 * i
/-- PIC.START_LO, chapter 12. -/
abbrev PIC_START_LO (i : Nat) : Nat := 0xE0804 + 0x40 * i
/-- PIC.START_HI, chapter 12. -/
abbrev PIC_START_HI (i : Nat) : Nat := 0xE0808 + 0x40 * i
/-- PIC.PERIOD_NS, chapter 12. -/
abbrev PIC_PERIOD_NS (i : Nat) : Nat := 0xE080C + 0x40 * i
/-- PIC.PERIOD_FRAC, chapter 12. -/
abbrev PIC_PERIOD_FRAC (i : Nat) : Nat := 0xE0810 + 0x40 * i
/-- PIC.WIDTH, chapter 12. -/
abbrev PIC_WIDTH (i : Nat) : Nat := 0xE0814 + 0x40 * i
/-- PIC.COUNT, chapter 12. -/
abbrev PIC_COUNT (i : Nat) : Nat := 0xE0818 + 0x40 * i
/-- PIC.PIC_STAT, chapter 12. -/
abbrev PIC_PIC_STAT (i : Nat) : Nat := 0xE081C + 0x40 * i
/-- PIC.FIRED, chapter 12. -/
abbrev PIC_FIRED (i : Nat) : Nat := 0xE0820 + 0x40 * i
/-- PIC.SKIP, chapter 12. -/
abbrev PIC_SKIP (i : Nat) : Nat := 0xE0824 + 0x40 * i
/-- PIC.JLOST, chapter 12. -/
abbrev PIC_JLOST (i : Nat) : Nat := 0xE0828 + 0x40 * i
/-- TIME.SYNC_RX_A, chapter 12. -/
abbrev TIME_SYNC_RX_A : Nat := 0xE0200
/-- TIME.SYNC_RX_B, chapter 12. -/
abbrev TIME_SYNC_RX_B : Nat := 0xE0204
/-- TIME.TIME_DUP, chapter 12. -/
abbrev TIME_TIME_DUP : Nat := 0xE0208
/-- TIME.DOM_OTHER, chapter 12. -/
abbrev TIME_DOM_OTHER : Nat := 0xE020C
/-- TIME.MSG_DROP, chapter 12. -/
abbrev TIME_MSG_DROP : Nat := 0xE0210
/-- TIME.JUMP_REFUSED_CNT, chapter 12. -/
abbrev TIME_JUMP_REFUSED_CNT : Nat := 0xE0214
/-- TIME.STEP_CNT, chapter 12. -/
abbrev TIME_STEP_CNT : Nat := 0xE0218
/-- TIME.SWITCH_CNT, chapter 12. -/
abbrev TIME_SWITCH_CNT : Nat := 0xE021C
/-- TIME.SPUR_INJ, chapter 12. -/
abbrev TIME_SPUR_INJ : Nat := 0xE0220
/-- TIME.GM_TX, chapter 12. -/
abbrev TIME_GM_TX : Nat := 0xE0224
/-- TIME.PD_BAD, chapter 12. -/
abbrev TIME_PD_BAD : Nat := 0xE0228
/-- TIME.PD_FAIL, chapter 12. -/
abbrev TIME_PD_FAIL (i : Nat) : Nat := 0xE0230 + 0x4 * i
/-- FEED.MEAS, chapter 13. -/
abbrev FEED_MEAS (i : Nat) : Nat := 0xF0040 + 0x100 * i
/-- NBUS.MEAS, chapter 13. -/
abbrev NBUS_MEAS : Nat := 0xF0240
/-- BR.MEAS, chapter 13. -/
abbrev BR_MEAS (i : Nat) : Nat := 0xF1040 + 0x100 * i
/-- FEED.POWER, chapter 13. -/
abbrev FEED_POWER (i : Nat) : Nat := 0xF0044 + 0x100 * i
/-- NBUS.POWER, chapter 13. -/
abbrev NBUS_POWER : Nat := 0xF0244
/-- BR.POWER, chapter 13. -/
abbrev BR_POWER (i : Nat) : Nat := 0xF1044 + 0x100 * i
/-- FEED.ENERGY_LO, chapter 13. -/
abbrev FEED_ENERGY_LO (i : Nat) : Nat := 0xF0048 + 0x100 * i
/-- NBUS.ENERGY_LO, chapter 13. -/
abbrev NBUS_ENERGY_LO : Nat := 0xF0248
/-- BR.ENERGY_LO, chapter 13. -/
abbrev BR_ENERGY_LO (i : Nat) : Nat := 0xF1048 + 0x100 * i
/-- FEED.ENERGY_HI, chapter 13. -/
abbrev FEED_ENERGY_HI (i : Nat) : Nat := 0xF004C + 0x100 * i
/-- NBUS.ENERGY_HI, chapter 13. -/
abbrev NBUS_ENERGY_HI : Nat := 0xF024C
/-- BR.ENERGY_HI, chapter 13. -/
abbrev BR_ENERGY_HI (i : Nat) : Nat := 0xF104C + 0x100 * i
/-- FEED.SHUNT, chapter 13. -/
abbrev FEED_SHUNT (i : Nat) : Nat := 0xF0050 + 0x100 * i
/-- NBUS.SHUNT, chapter 13. -/
abbrev NBUS_SHUNT : Nat := 0xF0250
/-- BR.SHUNT, chapter 13. -/
abbrev BR_SHUNT (i : Nat) : Nat := 0xF1050 + 0x100 * i
/-- FEED.I_PEAK, chapter 13. -/
abbrev FEED_I_PEAK (i : Nat) : Nat := 0xF0054 + 0x100 * i
/-- NBUS.I_PEAK, chapter 13. -/
abbrev NBUS_I_PEAK : Nat := 0xF0254
/-- BR.I_PEAK, chapter 13. -/
abbrev BR_I_PEAK (i : Nat) : Nat := 0xF1054 + 0x100 * i
/-- FEED.ECLR, chapter 13. -/
abbrev FEED_ECLR (i : Nat) : Nat := 0xF0058 + 0x100 * i
/-- NBUS.ECLR, chapter 13. -/
abbrev NBUS_ECLR : Nat := 0xF0258
/-- BR.ECLR, chapter 13. -/
abbrev BR_ECLR (i : Nat) : Nat := 0xF1058 + 0x100 * i
/-- FEED.F_CFG, chapter 13. -/
abbrev FEED_F_CFG (i : Nat) : Nat := 0xF0000 + 0x100 * i
/-- FEED.F_CFG2, chapter 13. -/
abbrev FEED_F_CFG2 (i : Nat) : Nat := 0xF0004 + 0x100 * i
/-- FEED.F_STAT, chapter 13. -/
abbrev FEED_F_STAT (i : Nat) : Nat := 0xF0008 + 0x100 * i
/-- FEED.REV_CNT, chapter 13. -/
abbrev FEED_REV_CNT (i : Nat) : Nat := 0xF0080 + 0x100 * i
/-- FEED.UV_CNT, chapter 13. -/
abbrev FEED_UV_CNT (i : Nat) : Nat := 0xF0084 + 0x100 * i
/-- FEED.OV_CNT, chapter 13. -/
abbrev FEED_OV_CNT (i : Nat) : Nat := 0xF0088 + 0x100 * i
/-- BR.BR_CTL, chapter 13. -/
abbrev BR_BR_CTL (i : Nat) : Nat := 0xF1000 + 0x100 * i
/-- BR.BR_LIMIT, chapter 13. -/
abbrev BR_BR_LIMIT (i : Nat) : Nat := 0xF1004 + 0x100 * i
/-- BR.BR_START, chapter 13. -/
abbrev BR_BR_START (i : Nat) : Nat := 0xF1008 + 0x100 * i
/-- BR.BR_RETRY, chapter 13. -/
abbrev BR_BR_RETRY (i : Nat) : Nat := 0xF100C + 0x100 * i
/-- BR.BR_CLEAR, chapter 13. -/
abbrev BR_BR_CLEAR (i : Nat) : Nat := 0xF1010 + 0x100 * i
/-- BR.BR_PG, chapter 13. -/
abbrev BR_BR_PG (i : Nat) : Nat := 0xF1014 + 0x100 * i
/-- BR.BR_STAT, chapter 13. -/
abbrev BR_BR_STAT (i : Nat) : Nat := 0xF1018 + 0x100 * i
/-- PWR.PWR_STAT, chapter 13. -/
abbrev PWR_PWR_STAT : Nat := 0xF0400
/-- PWR.HOLD_CFG, chapter 13. -/
abbrev PWR_HOLD_CFG : Nat := 0xF0404
/-- BR.TRIP_CNT, chapter 13. -/
abbrev BR_TRIP_CNT (i : Nat) : Nat := 0xF1080 + 0x100 * i
/-- BR.FAST_CNT, chapter 13. -/
abbrev BR_FAST_CNT (i : Nat) : Nat := 0xF1084 + 0x100 * i
/-- BR.START_CNT, chapter 13. -/
abbrev BR_START_CNT (i : Nat) : Nat := 0xF1088 + 0x100 * i
/-- BR.LATCH_CNT, chapter 13. -/
abbrev BR_LATCH_CNT (i : Nat) : Nat := 0xF108C + 0x100 * i
/-- BR.PG_LOSS_CNT, chapter 13. -/
abbrev BR_PG_LOSS_CNT (i : Nat) : Nat := 0xF1090 + 0x100 * i
/-- PWR.PLK_CRC_ERR, chapter 13. -/
abbrev PWR_PLK_CRC_ERR : Nat := 0xF0480
/-- PWR.PLK_NOANS, chapter 13. -/
abbrev PWR_PLK_NOANS : Nat := 0xF0484
/-- PWR.EVQ_LOST, chapter 13. -/
abbrev PWR_EVQ_LOST : Nat := 0xF0488
/-- PWR.ACT_CLASH, chapter 13. -/
abbrev PWR_ACT_CLASH : Nat := 0xF048C
/-- PWR.COLD_CNT, chapter 13. -/
abbrev PWR_COLD_CNT : Nat := 0xF0490
/-- TWIN.TWIN_CFG, chapter 14. -/
abbrev TWIN_TWIN_CFG : Nat := 0x100000
/-- TWIN.TWIN_STAT, chapter 14. -/
abbrev TWIN_TWIN_STAT : Nat := 0x100004
/-- TWIN.TWIN_CMD, chapter 14. -/
abbrev TWIN_TWIN_CMD : Nat := 0x100008
/-- TWIN.DRILL_AT_LO, chapter 14. -/
abbrev TWIN_DRILL_AT_LO : Nat := 0x100010
/-- TWIN.DRILL_AT_HI, chapter 14. -/
abbrev TWIN_DRILL_AT_HI : Nat := 0x100014
/-- TWIN.DRILL_STAT, chapter 14. -/
abbrev TWIN_DRILL_STAT : Nat := 0x100018
/-- TWIN.DIGEST_LO, chapter 14. -/
abbrev TWIN_DIGEST_LO : Nat := 0x100020
/-- TWIN.DIGEST_HI, chapter 14. -/
abbrev TWIN_DIGEST_HI : Nat := 0x100024
/-- TWIN.PARTNER_DIGEST_LO, chapter 14. -/
abbrev TWIN_PARTNER_DIGEST_LO : Nat := 0x100028
/-- TWIN.PARTNER_DIGEST_HI, chapter 14. -/
abbrev TWIN_PARTNER_DIGEST_HI : Nat := 0x10002C
/-- TWIN.DRIVE_FAULT, chapter 14. -/
abbrev TWIN_DRIVE_FAULT (i : Nat) : Nat := 0x100040 + 0x4 * i
/-- TWIN.IN_DIFF, chapter 14. -/
abbrev TWIN_IN_DIFF (i : Nat) : Nat := 0x100060 + 0x4 * i
/-- TWIN.GRANT_TAB, chapter 14. -/
abbrev TWIN_GRANT_TAB (i : Nat) : Nat := 0x101000 + 0x4 * i
/-- TWIN.TAKEOVER_CNT, chapter 14. -/
abbrev TWIN_TAKEOVER_CNT : Nat := 0x100100
/-- TWIN.CLAIM_TX, chapter 14. -/
abbrev TWIN_CLAIM_TX : Nat := 0x100104
/-- TWIN.REVERT_CNT, chapter 14. -/
abbrev TWIN_REVERT_CNT : Nat := 0x100108
/-- TWIN.TETHER_LOSS_CNT, chapter 14. -/
abbrev TWIN_TETHER_LOSS_CNT : Nat := 0x10010C
/-- TWIN.QUIET_DROP, chapter 14. -/
abbrev TWIN_QUIET_DROP : Nat := 0x100110
/-- TWIN.DRIVE_FAULT_CNT, chapter 14. -/
abbrev TWIN_DRIVE_FAULT_CNT : Nat := 0x100114
/-- TWIN.TWIN_GRANT_CNT, chapter 14. -/
abbrev TWIN_TWIN_GRANT_CNT : Nat := 0x100118
/-- MEM.MEM_CFG, chapter 15. -/
abbrev MEM_MEM_CFG : Nat := 0x110000
/-- MEM.MEM_STAT, chapter 15. -/
abbrev MEM_MEM_STAT : Nat := 0x110004
/-- MEM.SCRUB_POS_LO, chapter 15. -/
abbrev MEM_SCRUB_POS_LO : Nat := 0x110010
/-- MEM.SCRUB_POS_HI, chapter 15. -/
abbrev MEM_SCRUB_POS_HI : Nat := 0x110014
/-- MEM.CE_ADDR_LO, chapter 15. -/
abbrev MEM_CE_ADDR_LO : Nat := 0x110018
/-- MEM.CE_ADDR_HI, chapter 15. -/
abbrev MEM_CE_ADDR_HI : Nat := 0x11001C
/-- MEM.UE_ADDR_LO, chapter 15. -/
abbrev MEM_UE_ADDR_LO : Nat := 0x110020
/-- MEM.UE_ADDR_HI, chapter 15. -/
abbrev MEM_UE_ADDR_HI : Nat := 0x110024
/-- MEM.CHURN_OWN, chapter 15. -/
abbrev MEM_CHURN_OWN (i : Nat) : Nat := 0x110100 + 0x4 * i
/-- MEM.REPAIR_CHURN_LO, chapter 15. -/
abbrev MEM_REPAIR_CHURN_LO : Nat := 0x110180
/-- MEM.REPAIR_CHURN_HI, chapter 15. -/
abbrev MEM_REPAIR_CHURN_HI : Nat := 0x110184
/-- MEM.REPAIR_MISC, chapter 15. -/
abbrev MEM_REPAIR_MISC : Nat := 0x110188
/-- MEM.Q_MODE, chapter 15. -/
abbrev MEM_Q_MODE : Nat := 0x110200
/-- HOST.HOST_CFG, chapter 15. -/
abbrev HOST_HOST_CFG : Nat := 0x130100
/-- HOST.H_STAT, chapter 15. -/
abbrev HOST_H_STAT : Nat := 0x130000
/-- HOST.H_IRQ_PEND, chapter 15. -/
abbrev HOST_H_IRQ_PEND : Nat := 0x130004
/-- HOST.H_IRQ_EN, chapter 15. -/
abbrev HOST_H_IRQ_EN : Nat := 0x130008
/-- HOST.DOORBELL_IN, chapter 15. -/
abbrev HOST_DOORBELL_IN : Nat := 0x13000C
/-- HOST.DOORBELL_OUT, chapter 15. -/
abbrev HOST_DOORBELL_OUT : Nat := 0x130010
/-- HOST.MB_COUNT, chapter 15. -/
abbrev HOST_MB_COUNT : Nat := 0x130014
/-- MEM.DRAM_CORR1, chapter 15. -/
abbrev MEM_DRAM_CORR1 : Nat := 0x110400
/-- MEM.DRAM_CORR2, chapter 15. -/
abbrev MEM_DRAM_CORR2 : Nat := 0x110404
/-- MEM.DRAM_UE, chapter 15. -/
abbrev MEM_DRAM_UE : Nat := 0x110408
/-- MEM.CHURN_CORR, chapter 15. -/
abbrev MEM_CHURN_CORR : Nat := 0x11040C
/-- MEM.CHURN_UE, chapter 15. -/
abbrev MEM_CHURN_UE : Nat := 0x110410
/-- MEM.WIN_PERR, chapter 15. -/
abbrev MEM_WIN_PERR : Nat := 0x110414
/-- MEM.QPERR, chapter 15. -/
abbrev MEM_QPERR : Nat := 0x110418
/-- MEM.QCORR, chapter 15. -/
abbrev MEM_QCORR : Nat := 0x11041C
/-- MEM.QUE, chapter 15. -/
abbrev MEM_QUE : Nat := 0x110420
/-- HOST.COLLIDE_CNT, chapter 15. -/
abbrev HOST_COLLIDE_CNT : Nat := 0x130200
/-- HOST.MB_BAD_MSG, chapter 15. -/
abbrev HOST_MB_BAD_MSG : Nat := 0x130204
/-- HOST.VOID_CNT, chapter 15. -/
abbrev HOST_VOID_CNT : Nat := 0x130208
/-- SYS.MODE_CTL, chapter 16. -/
abbrev SYS_MODE_CTL : Nat := 0x0
/-- SYS.MODE_STAT, chapter 16. -/
abbrev SYS_MODE_STAT : Nat := 0x4
/-- SYS.BOOT_STAT, chapter 16. -/
abbrev SYS_BOOT_STAT : Nat := 0x10
/-- SYS.FW_VERSION, chapter 16. -/
abbrev SYS_FW_VERSION : Nat := 0x14
/-- SYS.STRAP, chapter 16. -/
abbrev SYS_STRAP : Nat := 0x18
/-- SYS.CFG_STAT, chapter 16. -/
abbrev SYS_CFG_STAT : Nat := 0x20
/-- SYS.CFG_REV, chapter 16. -/
abbrev SYS_CFG_REV : Nat := 0x24
/-- SYS.CONFLICT_INFO, chapter 16. -/
abbrev SYS_CONFLICT_INFO : Nat := 0x28
/-- SYS.WDOG_CFG, chapter 16. -/
abbrev SYS_WDOG_CFG : Nat := 0x40
/-- SYS.WDOG_KICK, chapter 16. -/
abbrev SYS_WDOG_KICK : Nat := 0x44
/-- SYS.DRW_CFG, chapter 16. -/
abbrev SYS_DRW_CFG : Nat := 0x200
/-- SYS.DRW_WAKE_AT_LO, chapter 16. -/
abbrev SYS_DRW_WAKE_AT_LO : Nat := 0x204
/-- SYS.DRW_WAKE_AT_HI, chapter 16. -/
abbrev SYS_DRW_WAKE_AT_HI : Nat := 0x208
/-- SYS.DRW_WAKE_SRC, chapter 16. -/
abbrev SYS_DRW_WAKE_SRC : Nat := 0x20C
/-- SYS.DRW_ENTRY_CNT, chapter 16. -/
abbrev SYS_DRW_ENTRY_CNT : Nat := 0x280
/-- SYS.WAKE_CNT, chapter 16. -/
abbrev SYS_WAKE_CNT : Nat := 0x284
/-- SYS.WAKE_IGNORED, chapter 16. -/
abbrev SYS_WAKE_IGNORED : Nat := 0x288
/-- SYS.SAFE_HOLD_CNT, chapter 16. -/
abbrev SYS_SAFE_HOLD_CNT : Nat := 0x28C
/-- SYS.WRONG_MODE_CNT, chapter 16. -/
abbrev SYS_WRONG_MODE_CNT : Nat := 0x290
/-- UPD.UPD_CFG, chapter 17. -/
abbrev UPD_UPD_CFG : Nat := 0x120000
/-- UPD.UPD_STAT, chapter 17. -/
abbrev UPD_UPD_STAT : Nat := 0x120004
/-- UPD.UPD_OWNER, chapter 17. -/
abbrev UPD_UPD_OWNER : Nat := 0x120008
/-- UPD.UPD_TOTAL, chapter 17. -/
abbrev UPD_UPD_TOTAL : Nat := 0x12000C
/-- UPD.DIGEST, chapter 17. -/
abbrev UPD_DIGEST (i : Nat) : Nat := 0x120010 + 0x4 * i
/-- UPD.ACT_AT_LO, chapter 17. -/
abbrev UPD_ACT_AT_LO : Nat := 0x120030
/-- UPD.ACT_AT_HI, chapter 17. -/
abbrev UPD_ACT_AT_HI : Nat := 0x120034
/-- UPD.OPENED_LO, chapter 17. -/
abbrev UPD_OPENED_LO : Nat := 0x120038
/-- UPD.OPENED_HI, chapter 17. -/
abbrev UPD_OPENED_HI : Nat := 0x12003C
/-- UPD.EPOCH, chapter 17. -/
abbrev UPD_EPOCH : Nat := 0x120050
/-- UPD.SRC_ALLOW, chapter 17. -/
abbrev UPD_SRC_ALLOW (i : Nat) : Nat := 0x120040 + 0x4 * i
/-- UPD.CHUNK_RX, chapter 17. -/
abbrev UPD_CHUNK_RX : Nat := 0x120100
/-- UPD.CHUNK_DUP, chapter 17. -/
abbrev UPD_CHUNK_DUP : Nat := 0x120104
/-- UPD.CHUNK_BAD, chapter 17. -/
abbrev UPD_CHUNK_BAD : Nat := 0x120108
/-- UPD.CHUNK_EARLY, chapter 17. -/
abbrev UPD_CHUNK_EARLY : Nat := 0x12010C
/-- UPD.CHUNK_BUSY, chapter 17. -/
abbrev UPD_CHUNK_BUSY : Nat := 0x120110
/-- UPD.CHUNK_DENIED, chapter 17. -/
abbrev UPD_CHUNK_DENIED : Nat := 0x120114
/-- UPD.CHUNK_DROP, chapter 17. -/
abbrev UPD_CHUNK_DROP : Nat := 0x120118
/-- UPD.SESSION_OPEN, chapter 17. -/
abbrev UPD_SESSION_OPEN : Nat := 0x12011C
/-- UPD.SESSION_REJECT, chapter 17. -/
abbrev UPD_SESSION_REJECT : Nat := 0x120120
/-- UPD.SESSION_EXPIRE, chapter 17. -/
abbrev UPD_SESSION_EXPIRE : Nat := 0x120124
/-- UPD.ACTIVATE_CNT, chapter 17. -/
abbrev UPD_ACTIVATE_CNT : Nat := 0x120128
/-- UPD.STATUS_TX, chapter 17. -/
abbrev UPD_STATUS_TX : Nat := 0x12012C
/-- UPD.WRONG_MODE_CNT, chapter 17. -/
abbrev UPD_WRONG_MODE_CNT : Nat := 0x120130
/-- SYS.UNIT_RST_BUSY, chapter 01. -/
abbrev SYS_UNIT_RST_BUSY : Nat := 0x124
end Reg

namespace Fd
abbrev SYS_CLK_CTL_BOBCLK_CLEAN : Fld := ⟨Reg.SYS_CLK_CTL, 4, 1⟩
abbrev SYS_CLK_CTL_SPREAD : Fld := ⟨Reg.SYS_CLK_CTL, 0, 2⟩
abbrev SYS_CLK_STAT_BOBCLK_IS_CLEAN : Fld := ⟨Reg.SYS_CLK_STAT, 4, 1⟩
abbrev SYS_CLK_STAT_CLK_FAIL : Fld := ⟨Reg.SYS_CLK_STAT, 3, 1⟩
abbrev SYS_CLK_STAT_REFCLK_OK : Fld := ⟨Reg.SYS_CLK_STAT, 2, 1⟩
abbrev SYS_CLK_STAT_SPREAD_LOCK : Fld := ⟨Reg.SYS_CLK_STAT, 1, 1⟩
abbrev SYS_CLK_STAT_CLEAN_LOCK : Fld := ⟨Reg.SYS_CLK_STAT, 0, 1⟩
abbrev SYS_RST_CTL_KEY : Fld := ⟨Reg.SYS_RST_CTL, 16, 16⟩
abbrev SYS_RST_CTL_MAIN_RST : Fld := ⟨Reg.SYS_RST_CTL, 0, 1⟩
abbrev SYS_RST_CAUSE_CP_UE : Fld := ⟨Reg.SYS_RST_CAUSE, 7, 1⟩
abbrev SYS_RST_CAUSE_TWIN_REL : Fld := ⟨Reg.SYS_RST_CAUSE, 6, 1⟩
abbrev SYS_RST_CAUSE_ACTIVATE : Fld := ⟨Reg.SYS_RST_CAUSE, 5, 1⟩
abbrev SYS_RST_CAUSE_WDOG : Fld := ⟨Reg.SYS_RST_CAUSE, 4, 1⟩
abbrev SYS_RST_CAUSE_SOFT : Fld := ⟨Reg.SYS_RST_CAUSE, 3, 1⟩
abbrev SYS_RST_CAUSE_CLK_FAIL : Fld := ⟨Reg.SYS_RST_CAUSE, 2, 1⟩
abbrev SYS_RST_CAUSE_SYS_RST : Fld := ⟨Reg.SYS_RST_CAUSE, 1, 1⟩
abbrev SYS_RST_CAUSE_POR : Fld := ⟨Reg.SYS_RST_CAUSE, 0, 1⟩
abbrev SYS_UNIT_RST_CAN : Fld := ⟨Reg.SYS_UNIT_RST, 8, 8⟩
abbrev SYS_UNIT_RST_JRN : Fld := ⟨Reg.SYS_UNIT_RST, 6, 1⟩
abbrev SYS_UNIT_RST_CYC : Fld := ⟨Reg.SYS_UNIT_RST, 5, 1⟩
abbrev SYS_UNIT_RST_USB : Fld := ⟨Reg.SYS_UNIT_RST, 4, 1⟩
abbrev SYS_UNIT_RST_STB : Fld := ⟨Reg.SYS_UNIT_RST, 3, 1⟩
abbrev SYS_UNIT_RST_PCS_SPUR : Fld := ⟨Reg.SYS_UNIT_RST, 2, 1⟩
abbrev SYS_UNIT_RST_PCS_WEST : Fld := ⟨Reg.SYS_UNIT_RST, 1, 1⟩
abbrev SYS_UNIT_RST_PCS_EAST : Fld := ⟨Reg.SYS_UNIT_RST, 0, 1⟩
abbrev PORT_CTL_LOOP_PCS (i : Nat) : Fld := ⟨Reg.PORT_CTL i, 5, 1⟩
abbrev PORT_CTL_TXDIS_FORCE (i : Nat) : Fld := ⟨Reg.PORT_CTL i, 4, 1⟩
abbrev PORT_CTL_AN37_EN (i : Nat) : Fld := ⟨Reg.PORT_CTL i, 3, 1⟩
abbrev PORT_CTL_SPEED (i : Nat) : Fld := ⟨Reg.PORT_CTL i, 0, 2⟩
abbrev PORT_STAT_MOD_BAD (i : Nat) : Fld := ⟨Reg.PORT_STAT i, 11, 1⟩
abbrev PORT_STAT_AN_MISMATCH (i : Nat) : Fld := ⟨Reg.PORT_STAT i, 10, 1⟩
abbrev PORT_STAT_REMOTE_FAULT (i : Nat) : Fld := ⟨Reg.PORT_STAT i, 9, 1⟩
abbrev PORT_STAT_DAMPED (i : Nat) : Fld := ⟨Reg.PORT_STAT i, 8, 1⟩
abbrev PORT_STAT_SPEED_ACT (i : Nat) : Fld := ⟨Reg.PORT_STAT i, 6, 2⟩
abbrev PORT_STAT_TXDIS (i : Nat) : Fld := ⟨Reg.PORT_STAT i, 5, 1⟩
abbrev PORT_STAT_MOD_READY (i : Nat) : Fld := ⟨Reg.PORT_STAT i, 4, 1⟩
abbrev PORT_STAT_MOD_PRESENT (i : Nat) : Fld := ⟨Reg.PORT_STAT i, 3, 1⟩
abbrev PORT_STAT_LOS (i : Nat) : Fld := ⟨Reg.PORT_STAT i, 2, 1⟩
abbrev PORT_STAT_RX_LOCK (i : Nat) : Fld := ⟨Reg.PORT_STAT i, 1, 1⟩
abbrev PORT_STAT_LINK_UP (i : Nat) : Fld := ⟨Reg.PORT_STAT i, 0, 1⟩
abbrev PORT_EVT_VERIFY_FAIL (i : Nat) : Fld := ⟨Reg.PORT_EVT i, 7, 1⟩
abbrev PORT_EVT_DAMP_ENTER (i : Nat) : Fld := ⟨Reg.PORT_EVT i, 6, 1⟩
abbrev PORT_EVT_DDM_ALARM (i : Nat) : Fld := ⟨Reg.PORT_EVT i, 5, 1⟩
abbrev PORT_EVT_MOD_BAD (i : Nat) : Fld := ⟨Reg.PORT_EVT i, 4, 1⟩
abbrev PORT_EVT_MOD_REMOVED (i : Nat) : Fld := ⟨Reg.PORT_EVT i, 3, 1⟩
abbrev PORT_EVT_MOD_INSERTED (i : Nat) : Fld := ⟨Reg.PORT_EVT i, 2, 1⟩
abbrev PORT_EVT_LINK_DOWN_SEEN (i : Nat) : Fld := ⟨Reg.PORT_EVT i, 1, 1⟩
abbrev PORT_EVT_LINK_UP_SEEN (i : Nat) : Fld := ⟨Reg.PORT_EVT i, 0, 1⟩
abbrev PORT_FLAP_DAMP_CLR (i : Nat) : Fld := ⟨Reg.PORT_FLAP i, 31, 1⟩
abbrev PORT_FLAP_DAMP_TIME (i : Nat) : Fld := ⟨Reg.PORT_FLAP i, 16, 12⟩
abbrev PORT_FLAP_FLAP_WINDOW (i : Nat) : Fld := ⟨Reg.PORT_FLAP i, 8, 8⟩
abbrev PORT_FLAP_FLAP_MAX (i : Nat) : Fld := ⟨Reg.PORT_FLAP i, 0, 4⟩
abbrev PORT_PREEMPT_CTL_VERIFY_LIMIT (i : Nat) : Fld := ⟨Reg.PORT_PREEMPT_CTL i, 16, 4⟩
abbrev PORT_PREEMPT_CTL_VERIFY_TIME (i : Nat) : Fld := ⟨Reg.PORT_PREEMPT_CTL i, 8, 8⟩
abbrev PORT_PREEMPT_CTL_VERIFY_DIS (i : Nat) : Fld := ⟨Reg.PORT_PREEMPT_CTL i, 1, 1⟩
abbrev PORT_PREEMPT_CTL_PREEMPT_EN (i : Nat) : Fld := ⟨Reg.PORT_PREEMPT_CTL i, 0, 1⟩
abbrev PORT_PREEMPT_STAT_ACTIVE (i : Nat) : Fld := ⟨Reg.PORT_PREEMPT_STAT i, 3, 1⟩
abbrev PORT_PREEMPT_STAT_VERIFY_STATE (i : Nat) : Fld := ⟨Reg.PORT_PREEMPT_STAT i, 0, 3⟩
abbrev PORT_MOD_CTL_DDM_PERIOD (i : Nat) : Fld := ⟨Reg.PORT_MOD_CTL i, 8, 8⟩
abbrev PORT_MOD_CTL_DDM_EN (i : Nat) : Fld := ⟨Reg.PORT_MOD_CTL i, 2, 1⟩
abbrev PORT_MOD_CTL_FAST (i : Nat) : Fld := ⟨Reg.PORT_MOD_CTL i, 1, 1⟩
abbrev PORT_MOD_CTL_MM_EN (i : Nat) : Fld := ⟨Reg.PORT_MOD_CTL i, 0, 1⟩
abbrev PORT_MOD_ACC_WDATA (i : Nat) : Fld := ⟨Reg.PORT_MOD_ACC i, 16, 8⟩
abbrev PORT_MOD_ACC_BUSY (i : Nat) : Fld := ⟨Reg.PORT_MOD_ACC i, 13, 1⟩
abbrev PORT_MOD_ACC_NAK (i : Nat) : Fld := ⟨Reg.PORT_MOD_ACC i, 12, 1⟩
abbrev PORT_MOD_ACC_DONE (i : Nat) : Fld := ⟨Reg.PORT_MOD_ACC i, 11, 1⟩
abbrev PORT_MOD_ACC_GO (i : Nat) : Fld := ⟨Reg.PORT_MOD_ACC i, 10, 1⟩
abbrev PORT_MOD_ACC_WRITE (i : Nat) : Fld := ⟨Reg.PORT_MOD_ACC i, 9, 1⟩
abbrev PORT_MOD_ACC_PAGE (i : Nat) : Fld := ⟨Reg.PORT_MOD_ACC i, 8, 1⟩
abbrev PORT_MOD_ACC_OFFSET (i : Nat) : Fld := ⟨Reg.PORT_MOD_ACC i, 0, 8⟩
abbrev PORT_MOD_DATA_RDATA (i : Nat) : Fld := ⟨Reg.PORT_MOD_DATA i, 0, 8⟩
abbrev PORT_MOD_FLAGS_WARN (i : Nat) : Fld := ⟨Reg.PORT_MOD_FLAGS i, 16, 16⟩
abbrev PORT_MOD_FLAGS_ALARM (i : Nat) : Fld := ⟨Reg.PORT_MOD_FLAGS i, 0, 16⟩
abbrev PORT_MOD_DDM2_RXPWR (i : Nat) : Fld := ⟨Reg.PORT_MOD_DDM2 i, 0, 32⟩
abbrev PORT_SPUR_CTL_VID : Fld := ⟨Reg.PORT_SPUR_CTL, 8, 12⟩
abbrev PORT_SPUR_CTL_PEER_RING : Fld := ⟨Reg.PORT_SPUR_CTL, 2, 6⟩
abbrev PORT_SPUR_CTL_ROLE : Fld := ⟨Reg.PORT_SPUR_CTL, 0, 2⟩
abbrev WARDEN_RING_CTL_PATH_INIT : Fld := ⟨Reg.WARDEN_RING_CTL, 26, 1⟩
abbrev WARDEN_RING_CTL_GATEWAY_NODE : Fld := ⟨Reg.WARDEN_RING_CTL, 16, 10⟩
abbrev WARDEN_RING_CTL_ROLE : Fld := ⟨Reg.WARDEN_RING_CTL, 14, 2⟩
abbrev WARDEN_RING_CTL_HOP_BUDGET : Fld := ⟨Reg.WARDEN_RING_CTL, 0, 10⟩
abbrev WARDEN_RING_ID_RING : Fld := ⟨Reg.WARDEN_RING_ID, 10, 6⟩
abbrev WARDEN_RING_ID_NODE : Fld := ⟨Reg.WARDEN_RING_ID, 1, 9⟩
abbrev WARDEN_RING_STAT_JOINED : Fld := ⟨Reg.WARDEN_RING_STAT, 31, 1⟩
abbrev WARDEN_RING_STAT_WARDEN_ACTIVE : Fld := ⟨Reg.WARDEN_RING_STAT, 30, 1⟩
abbrev WARDEN_RING_STAT_BEACON_OK : Fld := ⟨Reg.WARDEN_RING_STAT, 29, 1⟩
abbrev WARDEN_RING_STAT_CLOSED : Fld := ⟨Reg.WARDEN_RING_STAT, 28, 1⟩
abbrev WARDEN_RING_STAT_PATH_MODE : Fld := ⟨Reg.WARDEN_RING_STAT, 27, 1⟩
abbrev WARDEN_RING_STAT_PENDING : Fld := ⟨Reg.WARDEN_RING_STAT, 26, 1⟩
abbrev WARDEN_RING_STAT_FENCE_ACTIVE : Fld := ⟨Reg.WARDEN_RING_STAT, 25, 1⟩
abbrev WARDEN_RING_STAT_BREAK_OVF : Fld := ⟨Reg.WARDEN_RING_STAT, 24, 1⟩
abbrev WARDEN_RING_STAT_BREAK_CNT : Fld := ⟨Reg.WARDEN_RING_STAT, 20, 4⟩
abbrev WARDEN_RTT_RTT : Fld := ⟨Reg.WARDEN_RTT, 0, 32⟩
abbrev WARDEN_SETTLE_FIXED : Fld := ⟨Reg.WARDEN_SETTLE, 31, 1⟩
abbrev WARDEN_SETTLE_TIME : Fld := ⟨Reg.WARDEN_SETTLE, 0, 24⟩
abbrev WARDEN_SEED_SEED : Fld := ⟨Reg.WARDEN_SEED, 0, 16⟩
abbrev WARDEN_ABSENT_CLEAR_TIME : Fld := ⟨Reg.WARDEN_ABSENT_CLEAR, 0, 7⟩
abbrev WARDEN_MODE_REQ_GO : Fld := ⟨Reg.WARDEN_MODE_REQ, 31, 1⟩
abbrev WARDEN_MODE_REQ_MODE : Fld := ⟨Reg.WARDEN_MODE_REQ, 16, 1⟩
abbrev WARDEN_MODE_REQ_SEED : Fld := ⟨Reg.WARDEN_MODE_REQ, 0, 16⟩
abbrev WARDEN_MODE_AT_LO_AT : Fld := ⟨Reg.WARDEN_MODE_AT_LO, 0, 32⟩
abbrev WARDEN_MODE_AT_HI_AT : Fld := ⟨Reg.WARDEN_MODE_AT_HI, 0, 32⟩
abbrev WARDEN_REPORT_DST_EN : Fld := ⟨Reg.WARDEN_REPORT_DST, 16, 1⟩
abbrev WARDEN_REPORT_DST_RING : Fld := ⟨Reg.WARDEN_REPORT_DST, 10, 6⟩
abbrev WARDEN_REPORT_DST_NODE : Fld := ⟨Reg.WARDEN_REPORT_DST, 1, 9⟩
abbrev WARDEN_BREAK_VALID (i : Nat) : Fld := ⟨Reg.WARDEN_BREAK i, 15, 1⟩
abbrev WARDEN_BREAK_POS (i : Nat) : Fld := ⟨Reg.WARDEN_BREAK i, 0, 9⟩
abbrev WARDEN_ORDER_VALID (i : Nat) : Fld := ⟨Reg.WARDEN_ORDER i, 31, 1⟩
abbrev WARDEN_ORDER_NODE (i : Nat) : Fld := ⟨Reg.WARDEN_ORDER i, 0, 9⟩
abbrev SWC_SWC_STAT_LOCAL_WAITING : Fld := ⟨Reg.SWC_SWC_STAT, 2, 1⟩
abbrev SWC_SWC_STAT_PATH : Fld := ⟨Reg.SWC_SWC_STAT, 0, 2⟩
abbrev SWC_CT_MAP_SPUR : Fld := ⟨Reg.SWC_CT_MAP, 16, 8⟩
abbrev SWC_CT_MAP_WEST : Fld := ⟨Reg.SWC_CT_MAP, 8, 8⟩
abbrev SWC_CT_MAP_EAST : Fld := ⟨Reg.SWC_CT_MAP, 0, 8⟩
abbrev SWC_CLASS_MAP_C6 (i : Nat) : Fld := ⟨Reg.SWC_CLASS_MAP i, 18, 3⟩
abbrev SWC_CLASS_MAP_C5 (i : Nat) : Fld := ⟨Reg.SWC_CLASS_MAP i, 15, 3⟩
abbrev SWC_CLASS_MAP_C4 (i : Nat) : Fld := ⟨Reg.SWC_CLASS_MAP i, 12, 3⟩
abbrev SWC_CLASS_MAP_C3 (i : Nat) : Fld := ⟨Reg.SWC_CLASS_MAP i, 9, 3⟩
abbrev SWC_CLASS_MAP_C2 (i : Nat) : Fld := ⟨Reg.SWC_CLASS_MAP i, 6, 3⟩
abbrev SWC_CLASS_MAP_C1 (i : Nat) : Fld := ⟨Reg.SWC_CLASS_MAP i, 3, 3⟩
abbrev SWC_CLASS_MAP_C0 (i : Nat) : Fld := ⟨Reg.SWC_CLASS_MAP i, 0, 3⟩
abbrev SWC_DRR_W_LO_W3 (i : Nat) : Fld := ⟨Reg.SWC_DRR_W_LO i, 24, 8⟩
abbrev SWC_DRR_W_LO_W2 (i : Nat) : Fld := ⟨Reg.SWC_DRR_W_LO i, 16, 8⟩
abbrev SWC_DRR_W_LO_W1 (i : Nat) : Fld := ⟨Reg.SWC_DRR_W_LO i, 8, 8⟩
abbrev SWC_DRR_W_LO_W0 (i : Nat) : Fld := ⟨Reg.SWC_DRR_W_LO i, 0, 8⟩
abbrev SWC_DRR_W_HI_W5 (i : Nat) : Fld := ⟨Reg.SWC_DRR_W_HI i, 8, 8⟩
abbrev SWC_DRR_W_HI_W4 (i : Nat) : Fld := ⟨Reg.SWC_DRR_W_HI i, 0, 8⟩
abbrev SWC_TABLE_EPOCH_EPOCH : Fld := ⟨Reg.SWC_TABLE_EPOCH, 0, 16⟩
abbrev SWC_EPOCH_STAT_OLDEST : Fld := ⟨Reg.SWC_EPOCH_STAT, 16, 16⟩
abbrev SWC_EPOCH_STAT_DRAINED : Fld := ⟨Reg.SWC_EPOCH_STAT, 0, 1⟩
abbrev SWC_POOL_FREE_FREE : Fld := ⟨Reg.SWC_POOL_FREE, 0, 15⟩
abbrev SWC_POOL_MIN_FREE_MIN : Fld := ⟨Reg.SWC_POOL_MIN_FREE, 0, 15⟩
abbrev SWC_RESERVE_CELLS : Fld := ⟨Reg.SWC_RESERVE, 0, 15⟩
abbrev SWC_LOCAL_WAIT_MAX_TIME : Fld := ⟨Reg.SWC_LOCAL_WAIT_MAX, 0, 16⟩
abbrev TXN_TXN_STAT_SERVING : Fld := ⟨Reg.TXN_TXN_STAT, 16, 9⟩
abbrev TXN_TXN_STAT_LOCKS : Fld := ⟨Reg.TXN_TXN_STAT, 8, 4⟩
abbrev TXN_TXN_STAT_QUIESCE_DONE : Fld := ⟨Reg.TXN_TXN_STAT, 1, 1⟩
abbrev TXN_TXN_STAT_QUIESCING : Fld := ⟨Reg.TXN_TXN_STAT, 0, 1⟩
abbrev TXN_EVT_LATE_OVF : Fld := ⟨Reg.TXN_EVT, 2, 1⟩
abbrev TXN_EVT_LATE_REC : Fld := ⟨Reg.TXN_EVT, 1, 1⟩
abbrev TXN_EVT_LATE_ERR : Fld := ⟨Reg.TXN_EVT, 0, 1⟩
abbrev TXN_INIT_CFG_UNRESTRICTED (i : Nat) : Fld := ⟨Reg.TXN_INIT_CFG i, 16, 1⟩
abbrev TXN_INIT_CFG_QUOTA (i : Nat) : Fld := ⟨Reg.TXN_INIT_CFG i, 0, 10⟩
abbrev TXN_TIMEOUT_TIME (i : Nat) : Fld := ⟨Reg.TXN_TIMEOUT i, 0, 20⟩
abbrev TXN_OUTST_COUNT (i : Nat) : Fld := ⟨Reg.TXN_OUTST i, 0, 10⟩
abbrev TXN_PEAK_OUT_PEAK (i : Nat) : Fld := ⟨Reg.TXN_PEAK_OUT i, 0, 10⟩
abbrev TXN_SERVE_PEAK_PEAK : Fld := ⟨Reg.TXN_SERVE_PEAK, 0, 9⟩
abbrev TXN_NOTICE_GAP_TIME : Fld := ⟨Reg.TXN_NOTICE_GAP, 0, 10⟩
abbrev TXN_LATE_WR_INDEX : Fld := ⟨Reg.TXN_LATE_WR, 0, 6⟩
abbrev TXN_NOTICE_LAST_PAYLOAD (i : Nat) : Fld := ⟨Reg.TXN_NOTICE_LAST i, 0, 32⟩
abbrev TXN_EGR_EN (i : Nat) (j : Nat) : Fld := ⟨Reg.TXN_EGR i j, 31, 1⟩
abbrev TXN_EGR_R (i : Nat) (j : Nat) : Fld := ⟨Reg.TXN_EGR i j, 30, 1⟩
abbrev TXN_EGR_W (i : Nat) (j : Nat) : Fld := ⟨Reg.TXN_EGR i j, 29, 1⟩
abbrev TXN_EGR_L (i : Nat) (j : Nat) : Fld := ⟨Reg.TXN_EGR i j, 28, 1⟩
abbrev TXN_EGR_A (i : Nat) (j : Nat) : Fld := ⟨Reg.TXN_EGR i j, 27, 1⟩
abbrev TXN_EGR_ANY_RING (i : Nat) (j : Nat) : Fld := ⟨Reg.TXN_EGR i j, 26, 1⟩
abbrev TXN_EGR_RING (i : Nat) (j : Nat) : Fld := ⟨Reg.TXN_EGR i j, 20, 6⟩
abbrev TXN_EGR_NODE_HI (i : Nat) (j : Nat) : Fld := ⟨Reg.TXN_EGR i j, 9, 9⟩
abbrev TXN_EGR_NODE_LO (i : Nat) (j : Nat) : Fld := ⟨Reg.TXN_EGR i j, 0, 9⟩
abbrev TXN_LATE0_TIME_LO (i : Nat) : Fld := ⟨Reg.TXN_LATE0 i, 0, 32⟩
abbrev TXN_LATE4_TIME_HI (i : Nat) : Fld := ⟨Reg.TXN_LATE4 i, 0, 32⟩
abbrev TXN_LATE8_ADDR_LO (i : Nat) : Fld := ⟨Reg.TXN_LATE8 i, 0, 32⟩
abbrev TXN_LATEC_VALID (i : Nat) : Fld := ⟨Reg.TXN_LATEC i, 31, 1⟩
abbrev TXN_LATEC_CLASS (i : Nat) : Fld := ⟨Reg.TXN_LATEC i, 22, 3⟩
abbrev TXN_LATEC_FLOW (i : Nat) : Fld := ⟨Reg.TXN_LATEC i, 16, 6⟩
abbrev TXN_LATEC_INIT (i : Nat) : Fld := ⟨Reg.TXN_LATEC i, 12, 4⟩
abbrev TXN_LATEC_STATUS (i : Nat) : Fld := ⟨Reg.TXN_LATEC i, 8, 4⟩
abbrev TXN_LATEC_ADDR_HI (i : Nat) : Fld := ⟨Reg.TXN_LATEC i, 0, 8⟩
abbrev TXN_LATE10_BCAST (i : Nat) : Fld := ⟨Reg.TXN_LATE10 i, 25, 1⟩
abbrev TXN_LATE10_NOTIFIED (i : Nat) : Fld := ⟨Reg.TXN_LATE10 i, 24, 1⟩
abbrev TXN_LATE10_SRC_NODE (i : Nat) : Fld := ⟨Reg.TXN_LATE10 i, 15, 9⟩
abbrev TXN_LATE10_SRC_RING (i : Nat) : Fld := ⟨Reg.TXN_LATE10 i, 9, 6⟩
abbrev TXN_LATE10_BYTES (i : Nat) : Fld := ⟨Reg.TXN_LATE10 i, 0, 9⟩
abbrev CYC_CYC_CTL_EN : Fld := ⟨Reg.CYC_CYC_CTL, 31, 1⟩
abbrev CYC_CYC_CTL_CHURN : Fld := ⟨Reg.CYC_CYC_CTL, 0, 4⟩
abbrev CYC_CYC_STAT_HALF : Fld := ⟨Reg.CYC_CYC_STAT, 1, 1⟩
abbrev CYC_CYC_STAT_ACTIVE : Fld := ⟨Reg.CYC_CYC_STAT, 0, 1⟩
abbrev CYC_PUB_CFG_EN : Fld := ⟨Reg.CYC_PUB_CFG, 31, 1⟩
abbrev CYC_PUB_CFG_STREAM : Fld := ⟨Reg.CYC_PUB_CFG, 24, 5⟩
abbrev CYC_PUB_CFG_SLOT : Fld := ⟨Reg.CYC_PUB_CFG, 0, 8⟩
abbrev CYC_SNAP_OFS_TIME : Fld := ⟨Reg.CYC_SNAP_OFS, 0, 26⟩
abbrev CYC_PUB_ITEM_EN (i : Nat) : Fld := ⟨Reg.CYC_PUB_ITEM i, 31, 1⟩
abbrev CYC_PUB_ITEM_KIND (i : Nat) : Fld := ⟨Reg.CYC_PUB_ITEM i, 28, 3⟩
abbrev CYC_PUB_ITEM_COUNT (i : Nat) : Fld := ⟨Reg.CYC_PUB_ITEM i, 16, 7⟩
abbrev CYC_PUB_ITEM_INDEX (i : Nat) : Fld := ⟨Reg.CYC_PUB_ITEM i, 0, 12⟩
abbrev CYC_SUB_FRESH_LO_FRESH : Fld := ⟨Reg.CYC_SUB_FRESH_LO, 0, 32⟩
abbrev CYC_SUB_FRESH_HI_FRESH : Fld := ⟨Reg.CYC_SUB_FRESH_HI, 0, 32⟩
abbrev CYC_STR_CFG_EN (i : Nat) : Fld := ⟨Reg.CYC_STR_CFG i, 31, 1⟩
abbrev CYC_STR_CFG_ROLE (i : Nat) : Fld := ⟨Reg.CYC_STR_CFG i, 28, 2⟩
abbrev CYC_STR_CFG_NSLOT (i : Nat) : Fld := ⟨Reg.CYC_STR_CFG i, 16, 8⟩
abbrev CYC_STR_CFG_SLOT_LEN (i : Nat) : Fld := ⟨Reg.CYC_STR_CFG i, 0, 9⟩
abbrev CYC_PERIOD_TIME (i : Nat) : Fld := ⟨Reg.CYC_PERIOD i, 0, 26⟩
abbrev CYC_BASE_LO_BASE (i : Nat) : Fld := ⟨Reg.CYC_BASE_LO i, 0, 32⟩
abbrev CYC_BASE_HI_BASE (i : Nat) : Fld := ⟨Reg.CYC_BASE_HI i, 0, 32⟩
abbrev CYC_LAUNCH_OFS_TIME (i : Nat) : Fld := ⟨Reg.CYC_LAUNCH_OFS i, 0, 26⟩
abbrev CYC_APPLY_OFS_TIME (i : Nat) : Fld := ⟨Reg.CYC_APPLY_OFS i, 0, 26⟩
abbrev CYC_CNUM_CNUM (i : Nat) : Fld := ⟨Reg.CYC_CNUM i, 0, 32⟩
abbrev CYC_STR_STAT_LAUNCHING (i : Nat) : Fld := ⟨Reg.CYC_STR_STAT i, 2, 1⟩
abbrev CYC_STR_STAT_W_RET (i : Nat) : Fld := ⟨Reg.CYC_STR_STAT i, 1, 1⟩
abbrev CYC_STR_STAT_E_RET (i : Nat) : Fld := ⟨Reg.CYC_STR_STAT i, 0, 1⟩
abbrev CYC_SUB_CFG_EN (i : Nat) : Fld := ⟨Reg.CYC_SUB_CFG i, 31, 1⟩
abbrev CYC_SUB_CFG_STREAM (i : Nat) : Fld := ⟨Reg.CYC_SUB_CFG i, 24, 5⟩
abbrev CYC_SUB_CFG_SLOT (i : Nat) : Fld := ⟨Reg.CYC_SUB_CFG i, 16, 8⟩
abbrev CYC_SUB_CFG_LEN (i : Nat) : Fld := ⟨Reg.CYC_SUB_CFG i, 0, 9⟩
abbrev CYC_SUB_DEST_KIND (i : Nat) : Fld := ⟨Reg.CYC_SUB_DEST i, 30, 2⟩
abbrev CYC_SUB_DEST_HOLD_MAX (i : Nat) : Fld := ⟨Reg.CYC_SUB_DEST i, 16, 8⟩
abbrev CYC_SUB_DEST_INDEX (i : Nat) : Fld := ⟨Reg.CYC_SUB_DEST i, 0, 9⟩
abbrev CYC_SUB_STAT_STALE_RUN (i : Nat) : Fld := ⟨Reg.CYC_SUB_STAT i, 16, 16⟩
abbrev CYC_SUB_STAT_CNUM_LAST (i : Nat) : Fld := ⟨Reg.CYC_SUB_STAT i, 0, 15⟩
abbrev PB_BANK_CFG_VSEL (i : Nat) : Fld := ⟨Reg.PB_BANK_CFG i, 0, 2⟩
abbrev PB_BANK_STAT_VIO_FAIL (i : Nat) : Fld := ⟨Reg.PB_BANK_STAT i, 1, 1⟩
abbrev PB_BANK_STAT_VIO_OK (i : Nat) : Fld := ⟨Reg.PB_BANK_STAT i, 0, 1⟩
abbrev PB_IN_LEVEL (i : Nat) : Fld := ⟨Reg.PB_IN i, 0, 16⟩
abbrev PB_OUT_VALUE (i : Nat) : Fld := ⟨Reg.PB_OUT i, 0, 16⟩
abbrev PB_OUT_SET_VALUE (i : Nat) : Fld := ⟨Reg.PB_OUT_SET i, 0, 16⟩
abbrev PB_OUT_CLR_VALUE (i : Nat) : Fld := ⟨Reg.PB_OUT_CLR i, 0, 16⟩
abbrev PB_OUT_TGL_VALUE (i : Nat) : Fld := ⟨Reg.PB_OUT_TGL i, 0, 16⟩
abbrev PB_OWNED_OWNED (i : Nat) : Fld := ⟨Reg.PB_OWNED i, 0, 16⟩
abbrev PIN_CFG_DROWSE (i : Nat) : Fld := ⟨Reg.PIN_CFG i, 30, 2⟩
abbrev PIN_CFG_SAFE (i : Nat) : Fld := ⟨Reg.PIN_CFG i, 28, 2⟩
abbrev PIN_CFG_WAKE_EN (i : Nat) : Fld := ⟨Reg.PIN_CFG i, 27, 1⟩
abbrev PIN_CFG_JFALL (i : Nat) : Fld := ⟨Reg.PIN_CFG i, 26, 1⟩
abbrev PIN_CFG_JRISE (i : Nat) : Fld := ⟨Reg.PIN_CFG i, 25, 1⟩
abbrev PIN_CFG_OD (i : Nat) : Fld := ⟨Reg.PIN_CFG i, 10, 1⟩
abbrev PIN_CFG_PULL (i : Nat) : Fld := ⟨Reg.PIN_CFG i, 8, 2⟩
abbrev PIN_CFG_SLEW (i : Nat) : Fld := ⟨Reg.PIN_CFG i, 6, 2⟩
abbrev PIN_CFG_DRIVE (i : Nat) : Fld := ⟨Reg.PIN_CFG i, 4, 2⟩
abbrev PIN_CFG_FUNC (i : Nat) : Fld := ⟨Reg.PIN_CFG i, 0, 2⟩
abbrev PIN_FILT_FBASE (i : Nat) : Fld := ⟨Reg.PIN_FILT i, 16, 1⟩
abbrev PIN_FILT_COUNT (i : Nat) : Fld := ⟨Reg.PIN_FILT i, 0, 16⟩
abbrev PIN_STAT_OWNER (i : Nat) : Fld := ⟨Reg.PIN_STAT i, 28, 4⟩
abbrev PIN_STAT_OWNER_IDX (i : Nat) : Fld := ⟨Reg.PIN_STAT i, 22, 6⟩
abbrev PIN_STAT_RAW (i : Nat) : Fld := ⟨Reg.PIN_STAT i, 2, 1⟩
abbrev PIN_STAT_DRIVING (i : Nat) : Fld := ⟨Reg.PIN_STAT i, 1, 1⟩
abbrev PIN_STAT_LEVEL (i : Nat) : Fld := ⟨Reg.PIN_STAT i, 0, 1⟩
abbrev PIN_CNT_LOST_EDGE (i : Nat) : Fld := ⟨Reg.PIN_CNT i, 16, 16⟩
abbrev PIN_CNT_GLITCH_CNT (i : Nat) : Fld := ⟨Reg.PIN_CNT i, 0, 16⟩
abbrev FPIN_IMAGE_LEVEL (i : Nat) : Fld := ⟨Reg.FPIN_IMAGE i, 0, 32⟩
abbrev FPIN_OWN_BUSY_COUNT : Fld := ⟨Reg.FPIN_OWN_BUSY, 0, 32⟩
abbrev FPIN_FPIN_EVT_VIO_FAIL : Fld := ⟨Reg.FPIN_FPIN_EVT, 0, 16⟩
abbrev JRN_JRN_CTL_EN : Fld := ⟨Reg.JRN_JRN_CTL, 31, 1⟩
abbrev JRN_JRN_CTL_FLUSH : Fld := ⟨Reg.JRN_JRN_CTL, 0, 8⟩
abbrev JRN_BASE_MIB : Fld := ⟨Reg.JRN_BASE, 0, 20⟩
abbrev JRN_SIZE_MIB : Fld := ⟨Reg.JRN_SIZE, 0, 14⟩
abbrev JRN_WR_TOTAL_LO_POS : Fld := ⟨Reg.JRN_WR_TOTAL_LO, 0, 32⟩
abbrev JRN_WR_TOTAL_HI_POS : Fld := ⟨Reg.JRN_WR_TOTAL_HI, 0, 32⟩
abbrev JRN_CAP_RECORDS : Fld := ⟨Reg.JRN_CAP, 0, 32⟩
abbrev JRN_EVT_RESTARTED : Fld := ⟨Reg.JRN_EVT, 8, 1⟩
abbrev JRN_EVT_RD_OVR : Fld := ⟨Reg.JRN_EVT, 4, 4⟩
abbrev JRN_EVT_RD_LEVEL : Fld := ⟨Reg.JRN_EVT, 0, 4⟩
abbrev RD_RD_POS_LO_POS (i : Nat) : Fld := ⟨Reg.RD_RD_POS_LO i, 0, 32⟩
abbrev RD_RD_POS_HI_POS (i : Nat) : Fld := ⟨Reg.RD_RD_POS_HI i, 0, 32⟩
abbrev RD_RD_LEVEL_RECORDS (i : Nat) : Fld := ⟨Reg.RD_RD_LEVEL i, 0, 32⟩
abbrev RD_RD_STAT_EMPTY (i : Nat) : Fld := ⟨Reg.RD_RD_STAT i, 1, 1⟩
abbrev RD_RD_STAT_OVR (i : Nat) : Fld := ⟨Reg.RD_RD_STAT i, 0, 1⟩
abbrev BOB_CMD_RESUME (i : Nat) : Fld := ⟨Reg.BOB_CMD i, 2, 1⟩
abbrev BOB_CMD_STOP (i : Nat) : Fld := ⟨Reg.BOB_CMD i, 1, 1⟩
abbrev BOB_CMD_START (i : Nat) : Fld := ⟨Reg.BOB_CMD i, 0, 1⟩
abbrev BOB_STAT_EVT_SEEN (i : Nat) : Fld := ⟨Reg.BOB_STAT i, 19, 1⟩
abbrev BOB_STAT_POISON_SEEN (i : Nat) : Fld := ⟨Reg.BOB_STAT i, 18, 1⟩
abbrev BOB_STAT_TX_OVF (i : Nat) : Fld := ⟨Reg.BOB_STAT i, 17, 1⟩
abbrev BOB_STAT_PRICK_WERR (i : Nat) : Fld := ⟨Reg.BOB_STAT i, 16, 1⟩
abbrev BOB_STAT_MAP (i : Nat) : Fld := ⟨Reg.BOB_STAT i, 13, 1⟩
abbrev BOB_STAT_STATE (i : Nat) : Fld := ⟨Reg.BOB_STAT i, 8, 5⟩
abbrev BOB_STAT_STOP_CAUSE (i : Nat) : Fld := ⟨Reg.BOB_STAT i, 4, 4⟩
abbrev BOB_STAT_PRICK_DIRTY (i : Nat) : Fld := ⟨Reg.BOB_STAT i, 3, 1⟩
abbrev BOB_STAT_LENT (i : Nat) : Fld := ⟨Reg.BOB_STAT i, 2, 1⟩
abbrev BOB_STAT_RUN (i : Nat) : Fld := ⟨Reg.BOB_STAT i, 0, 2⟩
abbrev BOB_CFG_PICOT_SEL (i : Nat) : Fld := ⟨Reg.BOB_CFG i, 16, 4⟩
abbrev BOB_CFG_AUTOSTART (i : Nat) : Fld := ⟨Reg.BOB_CFG i, 12, 1⟩
abbrev BOB_CFG_POISON_STOP (i : Nat) : Fld := ⟨Reg.BOB_CFG i, 11, 1⟩
abbrev BOB_CFG_DSEL (i : Nat) : Fld := ⟨Reg.BOB_CFG i, 9, 2⟩
abbrev BOB_CFG_JEVT (i : Nat) : Fld := ⟨Reg.BOB_CFG i, 8, 1⟩
abbrev BOB_CFG_START_STATE (i : Nat) : Fld := ⟨Reg.BOB_CFG i, 0, 5⟩
abbrev BOB_SHIFT_CFG_OUT_SLOT (i : Nat) : Fld := ⟨Reg.BOB_SHIFT_CFG i, 16, 3⟩
abbrev BOB_SHIFT_CFG_IN_SLOT (i : Nat) : Fld := ⟨Reg.BOB_SHIFT_CFG i, 12, 3⟩
abbrev BOB_SHIFT_CFG_DIR (i : Nat) : Fld := ⟨Reg.BOB_SHIFT_CFG i, 8, 1⟩
abbrev BOB_SHIFT_CFG_BITS (i : Nat) : Fld := ⟨Reg.BOB_SHIFT_CFG i, 0, 6⟩
abbrev BOB_CNT_CFG0_PRE (i : Nat) : Fld := ⟨Reg.BOB_CNT_CFG0 i, 16, 8⟩
abbrev BOB_CNT_CFG0_RELOAD (i : Nat) : Fld := ⟨Reg.BOB_CNT_CFG0 i, 0, 16⟩
abbrev BOB_CNT_CFG1_PRE (i : Nat) : Fld := ⟨Reg.BOB_CNT_CFG1 i, 16, 8⟩
abbrev BOB_CNT_CFG1_RELOAD (i : Nat) : Fld := ⟨Reg.BOB_CNT_CFG1 i, 0, 16⟩
abbrev BOB_SLOT_EN (i : Nat) (j : Nat) : Fld := ⟨Reg.BOB_SLOT i j, 10, 1⟩
abbrev BOB_SLOT_DRIVE (i : Nat) (j : Nat) : Fld := ⟨Reg.BOB_SLOT i j, 9, 1⟩
abbrev BOB_SLOT_INV (i : Nat) (j : Nat) : Fld := ⟨Reg.BOB_SLOT i j, 8, 1⟩
abbrev BOB_SLOT_PIN (i : Nat) (j : Nat) : Fld := ⟨Reg.BOB_SLOT i j, 0, 6⟩
abbrev BOB_CNT_VAL_C1 (i : Nat) : Fld := ⟨Reg.BOB_CNT_VAL i, 16, 16⟩
abbrev BOB_CNT_VAL_C0 (i : Nat) : Fld := ⟨Reg.BOB_CNT_VAL i, 0, 16⟩
abbrev BOB_SR_SR (i : Nat) : Fld := ⟨Reg.BOB_SR i, 0, 32⟩
abbrev BOB_EXEC_BITCNT (i : Nat) : Fld := ⟨Reg.BOB_EXEC i, 16, 6⟩
abbrev BOB_EXEC_ROW (i : Nat) : Fld := ⟨Reg.BOB_EXEC i, 0, 10⟩
abbrev BOB_QCFG_JOIN (i : Nat) : Fld := ⟨Reg.BOB_QCFG i, 0, 2⟩
abbrev BOB_QSTAT_DEPTH (i : Nat) : Fld := ⟨Reg.BOB_QSTAT i, 16, 2⟩
abbrev BOB_QSTAT_RX_COUNT (i : Nat) : Fld := ⟨Reg.BOB_QSTAT i, 8, 5⟩
abbrev BOB_QSTAT_TX_COUNT (i : Nat) : Fld := ⟨Reg.BOB_QSTAT i, 0, 5⟩
abbrev BOB_QPEAK_RX_PEAK (i : Nat) : Fld := ⟨Reg.BOB_QPEAK i, 8, 5⟩
abbrev BOB_QPEAK_TX_PEAK (i : Nat) : Fld := ⟨Reg.BOB_QPEAK i, 0, 5⟩
abbrev BOB_RX_LAST_DATA (i : Nat) : Fld := ⟨Reg.BOB_RX_LAST i, 0, 32⟩
abbrev BOB_TXQ_LO_DATA (i : Nat) : Fld := ⟨Reg.BOB_TXQ_LO i, 0, 32⟩
abbrev BOB_TXQ_HI_LAST (i : Nat) : Fld := ⟨Reg.BOB_TXQ_HI i, 2, 1⟩
abbrev BOB_RXQ_LO_DATA (i : Nat) : Fld := ⟨Reg.BOB_RXQ_LO i, 0, 32⟩
abbrev BOBG_START_LO_BOB : Fld := ⟨Reg.BOBG_START_LO, 0, 32⟩
abbrev BOBG_START_HI_BOB : Fld := ⟨Reg.BOBG_START_HI, 0, 32⟩
abbrev BOBG_STOP_LO_BOB : Fld := ⟨Reg.BOBG_STOP_LO, 0, 32⟩
abbrev BOBG_STOP_HI_BOB : Fld := ⟨Reg.BOBG_STOP_HI, 0, 32⟩
abbrev BOBG_RESUME_LO_BOB : Fld := ⟨Reg.BOBG_RESUME_LO, 0, 32⟩
abbrev BOBG_RESUME_HI_BOB : Fld := ⟨Reg.BOBG_RESUME_HI, 0, 32⟩
abbrev BOBG_RUN_LO_BOB : Fld := ⟨Reg.BOBG_RUN_LO, 0, 32⟩
abbrev BOBG_RUN_HI_BOB : Fld := ⟨Reg.BOBG_RUN_HI, 0, 32⟩
abbrev BOBG_IRQ_PEND_LO_BOB : Fld := ⟨Reg.BOBG_IRQ_PEND_LO, 0, 32⟩
abbrev BOBG_IRQ_PEND_HI_BOB : Fld := ⟨Reg.BOBG_IRQ_PEND_HI, 0, 32⟩
abbrev BOBG_IRQ_EN_CP_LO_BOB : Fld := ⟨Reg.BOBG_IRQ_EN_CP_LO, 0, 32⟩
abbrev BOBG_IRQ_EN_CP_HI_BOB : Fld := ⟨Reg.BOBG_IRQ_EN_CP_HI, 0, 32⟩
abbrev BOBG_IRQ_EN_HOST_LO_BOB : Fld := ⟨Reg.BOBG_IRQ_EN_HOST_LO, 0, 32⟩
abbrev BOBG_IRQ_EN_HOST_HI_BOB : Fld := ⟨Reg.BOBG_IRQ_EN_HOST_HI, 0, 32⟩
abbrev BOBG_SYNC_PULSE_CUSHION : Fld := ⟨Reg.BOBG_SYNC_PULSE, 0, 4⟩
abbrev BOBG_SYNC_CFG_SRC (i : Nat) : Fld := ⟨Reg.BOBG_SYNC_CFG i, 8, 1⟩
abbrev BOBG_SYNC_CFG_PIN (i : Nat) : Fld := ⟨Reg.BOBG_SYNC_CFG i, 0, 6⟩
abbrev BOBG_DROWSE_RUN_LO_BOB : Fld := ⟨Reg.BOBG_DROWSE_RUN_LO, 0, 32⟩
abbrev BOBG_DROWSE_RUN_HI_BOB : Fld := ⟨Reg.BOBG_DROWSE_RUN_HI, 0, 32⟩
abbrev CAN_CTL_CATCH_OBJ (i : Nat) : Fld := ⟨Reg.CAN_CTL i, 16, 9⟩
abbrev CAN_CTL_CLASH_MAX (i : Nat) : Fld := ⟨Reg.CAN_CTL i, 8, 4⟩
abbrev CAN_CTL_CATCH_EN (i : Nat) : Fld := ⟨Reg.CAN_CTL i, 6, 1⟩
abbrev CAN_CTL_JTX (i : Nat) : Fld := ⟨Reg.CAN_CTL i, 5, 1⟩
abbrev CAN_CTL_JSTATE (i : Nat) : Fld := ⟨Reg.CAN_CTL i, 4, 1⟩
abbrev CAN_CTL_TDC_EN (i : Nat) : Fld := ⟨Reg.CAN_CTL i, 3, 1⟩
abbrev CAN_CTL_OPMODE (i : Nat) : Fld := ⟨Reg.CAN_CTL i, 1, 2⟩
abbrev CAN_CTL_EN (i : Nat) : Fld := ⟨Reg.CAN_CTL i, 0, 1⟩
abbrev CAN_CMD_ABORT_HEAD (i : Nat) : Fld := ⟨Reg.CAN_CMD i, 0, 1⟩
abbrev CAN_STAT_TXQ_COUNT (i : Nat) : Fld := ⟨Reg.CAN_STAT i, 8, 6⟩
abbrev CAN_STAT_TX_ACTIVE (i : Nat) : Fld := ⟨Reg.CAN_STAT i, 7, 1⟩
abbrev CAN_STAT_ABORT_PEND (i : Nat) : Fld := ⟨Reg.CAN_STAT i, 6, 1⟩
abbrev CAN_STAT_TDC_ERR (i : Nat) : Fld := ⟨Reg.CAN_STAT i, 5, 1⟩
abbrev CAN_STAT_TX_OVF (i : Nat) : Fld := ⟨Reg.CAN_STAT i, 4, 1⟩
abbrev CAN_STAT_ID_CLASH (i : Nat) : Fld := ⟨Reg.CAN_STAT i, 3, 1⟩
abbrev CAN_STAT_STATE (i : Nat) : Fld := ⟨Reg.CAN_STAT i, 0, 2⟩
abbrev CAN_ERR_CNT_REC (i : Nat) : Fld := ⟨Reg.CAN_ERR_CNT i, 16, 9⟩
abbrev CAN_ERR_CNT_TEC (i : Nat) : Fld := ⟨Reg.CAN_ERR_CNT i, 0, 9⟩
abbrev CAN_NBT_NSJW (i : Nat) : Fld := ⟨Reg.CAN_NBT i, 24, 7⟩
abbrev CAN_NBT_NTSEG2 (i : Nat) : Fld := ⟨Reg.CAN_NBT i, 16, 7⟩
abbrev CAN_NBT_NTSEG1 (i : Nat) : Fld := ⟨Reg.CAN_NBT i, 8, 8⟩
abbrev CAN_NBT_NBRP (i : Nat) : Fld := ⟨Reg.CAN_NBT i, 0, 5⟩
abbrev CAN_DBT_DSJW (i : Nat) : Fld := ⟨Reg.CAN_DBT i, 24, 4⟩
abbrev CAN_DBT_DTSEG2 (i : Nat) : Fld := ⟨Reg.CAN_DBT i, 16, 4⟩
abbrev CAN_DBT_DTSEG1 (i : Nat) : Fld := ⟨Reg.CAN_DBT i, 8, 5⟩
abbrev CAN_DBT_DBRP (i : Nat) : Fld := ⟨Reg.CAN_DBT i, 0, 5⟩
abbrev CAN_TDC_CFG_TDCV (i : Nat) : Fld := ⟨Reg.CAN_TDC_CFG i, 16, 8⟩
abbrev CAN_TDC_CFG_TDCO (i : Nat) : Fld := ⟨Reg.CAN_TDC_CFG i, 0, 7⟩
abbrev CAN_QPEAK_PEAK (i : Nat) : Fld := ⟨Reg.CAN_QPEAK i, 0, 6⟩
abbrev CAN_CLASH_RUN_RUN (i : Nat) : Fld := ⟨Reg.CAN_CLASH_RUN i, 0, 4⟩
abbrev CAN_OBJ_NEW_NEW (i : Nat) (j : Nat) : Fld := ⟨Reg.CAN_OBJ_NEW i j, 0, 32⟩
abbrev STB_STB_CTL_RST_OUT : Fld := ⟨Reg.STB_STB_CTL, 1, 1⟩
abbrev STB_STB_CTL_EN : Fld := ⟨Reg.STB_STB_CTL, 0, 1⟩
abbrev STB_STB_STAT_QUEUE : Fld := ⟨Reg.STB_STB_STAT, 16, 5⟩
abbrev STB_STB_STAT_LOCKED : Fld := ⟨Reg.STB_STB_STAT, 8, 1⟩
abbrev STB_STB_STAT_CLK_RUN : Fld := ⟨Reg.STB_STB_STAT, 2, 1⟩
abbrev STB_STB_STAT_BUS_ACTIVE : Fld := ⟨Reg.STB_STB_STAT, 1, 1⟩
abbrev STB_STB_STAT_RST_LEVEL : Fld := ⟨Reg.STB_STB_STAT, 0, 1⟩
abbrev STB_EVT_PF_SENS : Fld := ⟨Reg.STB_EVT, 3, 1⟩
abbrev STB_EVT_LOCK_BRK : Fld := ⟨Reg.STB_EVT, 2, 1⟩
abbrev STB_EVT_TMO : Fld := ⟨Reg.STB_EVT, 1, 1⟩
abbrev STB_EVT_ERR : Fld := ⟨Reg.STB_EVT, 0, 1⟩
abbrev STB_PF_SENS_ADDR_LO_ADDR : Fld := ⟨Reg.STB_PF_SENS_ADDR_LO, 0, 32⟩
abbrev STB_PF_SENS_ADDR_HI_WIN : Fld := ⟨Reg.STB_PF_SENS_ADDR_HI, 16, 4⟩
abbrev STB_PF_SENS_ADDR_HI_ADDR : Fld := ⟨Reg.STB_PF_SENS_ADDR_HI, 0, 8⟩
abbrev STB_ERR_INFO_LO_ADDR : Fld := ⟨Reg.STB_ERR_INFO_LO, 0, 32⟩
abbrev STB_ERR_INFO_HI_CAUSE : Fld := ⟨Reg.STB_ERR_INFO_HI, 20, 1⟩
abbrev STB_ERR_INFO_HI_WIN : Fld := ⟨Reg.STB_ERR_INFO_HI, 16, 4⟩
abbrev STB_ERR_INFO_HI_ADDR : Fld := ⟨Reg.STB_ERR_INFO_HI, 0, 8⟩
abbrev STB_IRQ_CFG_EDGE : Fld := ⟨Reg.STB_IRQ_CFG, 0, 4⟩
abbrev STB_IRQ_STAT_LOW : Fld := ⟨Reg.STB_IRQ_STAT, 0, 4⟩
abbrev STB_IRQ_PEND_PEND : Fld := ⟨Reg.STB_IRQ_PEND, 0, 4⟩
abbrev STB_IRQ_EN_CP_EN : Fld := ⟨Reg.STB_IRQ_EN_CP, 0, 4⟩
abbrev STB_IRQ_EN_HOST_EN : Fld := ⟨Reg.STB_IRQ_EN_HOST, 0, 4⟩
abbrev STB_QPEAK_PEAK : Fld := ⟨Reg.STB_QPEAK, 0, 5⟩
abbrev WIN_WIN_CFG_EN (i : Nat) : Fld := ⟨Reg.WIN_WIN_CFG i, 31, 1⟩
abbrev WIN_WIN_CFG_PF_DEPTH (i : Nat) : Fld := ⟨Reg.WIN_WIN_CFG i, 24, 2⟩
abbrev WIN_WIN_CFG_WS (i : Nat) : Fld := ⟨Reg.WIN_WIN_CFG i, 20, 4⟩
abbrev WIN_WIN_CFG_RDY_EN (i : Nat) : Fld := ⟨Reg.WIN_WIN_CFG i, 19, 1⟩
abbrev WIN_WIN_CFG_BURST (i : Nat) : Fld := ⟨Reg.WIN_WIN_CFG i, 18, 1⟩
abbrev WIN_WIN_CFG_LOCKABLE (i : Nat) : Fld := ⟨Reg.WIN_WIN_CFG i, 17, 1⟩
abbrev WIN_WIN_CFG_PREFETCH (i : Nat) : Fld := ⟨Reg.WIN_WIN_CFG i, 16, 1⟩
abbrev WIN_WIN_CFG_BORDER (i : Nat) : Fld := ⟨Reg.WIN_WIN_CFG i, 12, 2⟩
abbrev WIN_WIN_CFG_WIDTH (i : Nat) : Fld := ⟨Reg.WIN_WIN_CFG i, 8, 2⟩
abbrev WIN_WIN_CFG_CS (i : Nat) : Fld := ⟨Reg.WIN_WIN_CFG i, 0, 3⟩
abbrev WIN_BASE_BASE_PG (i : Nat) : Fld := ⟨Reg.WIN_BASE i, 0, 28⟩
abbrev WIN_SIZE_LOG2 (i : Nat) : Fld := ⟨Reg.WIN_SIZE i, 0, 6⟩
abbrev WIN_TGT_BASE_BUS_PG (i : Nat) : Fld := ⟨Reg.WIN_TGT_BASE i, 12, 20⟩
abbrev WIN_TMO_TIME (i : Nat) : Fld := ⟨Reg.WIN_TMO i, 0, 16⟩
abbrev USB_USB_CTL_OC_BLANK : Fld := ⟨Reg.USB_USB_CTL, 8, 8⟩
abbrev USB_USB_CTL_FS_ONLY : Fld := ⟨Reg.USB_USB_CTL, 2, 1⟩
abbrev USB_USB_CTL_RWAKE_EVT : Fld := ⟨Reg.USB_USB_CTL, 1, 1⟩
abbrev USB_USB_CTL_EN : Fld := ⟨Reg.USB_USB_CTL, 0, 1⟩
abbrev USB_USB_STAT_ALT : Fld := ⟨Reg.USB_USB_STAT, 17, 2⟩
abbrev USB_USB_STAT_ADDRESS : Fld := ⟨Reg.USB_USB_STAT, 10, 7⟩
abbrev USB_USB_STAT_IN_RESUME : Fld := ⟨Reg.USB_USB_STAT, 9, 1⟩
abbrev USB_USB_STAT_RWAKE_ARMED : Fld := ⟨Reg.USB_USB_STAT, 8, 1⟩
abbrev USB_USB_STAT_SUSPENDED : Fld := ⟨Reg.USB_USB_STAT, 7, 1⟩
abbrev USB_USB_STAT_CONFIGURED : Fld := ⟨Reg.USB_USB_STAT, 6, 1⟩
abbrev USB_USB_STAT_SPEED : Fld := ⟨Reg.USB_USB_STAT, 4, 2⟩
abbrev USB_USB_STAT_CONNECTED : Fld := ⟨Reg.USB_USB_STAT, 1, 1⟩
abbrev USB_USB_STAT_VBUS : Fld := ⟨Reg.USB_USB_STAT, 0, 1⟩
abbrev USB_USB_ID_PID_FN : Fld := ⟨Reg.USB_USB_ID, 16, 16⟩
abbrev USB_USB_ID_VID : Fld := ⟨Reg.USB_USB_ID, 0, 16⟩
abbrev USB_USB_ID2_PID_HUB : Fld := ⟨Reg.USB_USB_ID2, 0, 16⟩
abbrev USB_WAKE_SRC_DISC_IN_RESUME : Fld := ⟨Reg.USB_WAKE_SRC, 9, 1⟩
abbrev USB_WAKE_SRC_RESET_IN_RESUME : Fld := ⟨Reg.USB_WAKE_SRC, 8, 1⟩
abbrev USB_WAKE_SRC_DS_REMOTE : Fld := ⟨Reg.USB_WAKE_SRC, 3, 4⟩
abbrev USB_WAKE_SRC_FN_SERVED : Fld := ⟨Reg.USB_WAKE_SRC, 2, 1⟩
abbrev USB_WAKE_SRC_FN_REMOTE : Fld := ⟨Reg.USB_WAKE_SRC, 1, 1⟩
abbrev USB_WAKE_SRC_HOST_RESUME : Fld := ⟨Reg.USB_WAKE_SRC, 0, 1⟩
abbrev USB_EVT_CONFIG_CHG : Fld := ⟨Reg.USB_EVT, 4, 1⟩
abbrev USB_EVT_CTRL_ABORT : Fld := ⟨Reg.USB_EVT, 3, 1⟩
abbrev USB_EVT_RESUME : Fld := ⟨Reg.USB_EVT, 2, 1⟩
abbrev USB_EVT_SUSPEND : Fld := ⟨Reg.USB_EVT, 1, 1⟩
abbrev USB_EVT_BUS_RESET : Fld := ⟨Reg.USB_EVT, 0, 1⟩
abbrev USB_JSTREAM_EN : Fld := ⟨Reg.USB_JSTREAM, 0, 1⟩
abbrev USB_IMG_SEL_LO_SEL : Fld := ⟨Reg.USB_IMG_SEL_LO, 0, 32⟩
abbrev USB_IMG_SEL_HI_SEL : Fld := ⟨Reg.USB_IMG_SEL_HI, 0, 32⟩
abbrev USB_DS_STAT_OC_SEEN (i : Nat) : Fld := ⟨Reg.USB_DS_STAT i, 9, 1⟩
abbrev USB_DS_STAT_PORT_BABBLE (i : Nat) : Fld := ⟨Reg.USB_DS_STAT i, 8, 1⟩
abbrev USB_DS_STAT_SPEED (i : Nat) : Fld := ⟨Reg.USB_DS_STAT i, 6, 2⟩
abbrev USB_DS_STAT_POWER (i : Nat) : Fld := ⟨Reg.USB_DS_STAT i, 5, 1⟩
abbrev USB_DS_STAT_RESET (i : Nat) : Fld := ⟨Reg.USB_DS_STAT i, 4, 1⟩
abbrev USB_DS_STAT_OVER_CURRENT (i : Nat) : Fld := ⟨Reg.USB_DS_STAT i, 3, 1⟩
abbrev USB_DS_STAT_SUSPEND (i : Nat) : Fld := ⟨Reg.USB_DS_STAT i, 2, 1⟩
abbrev USB_DS_STAT_ENABLE (i : Nat) : Fld := ⟨Reg.USB_DS_STAT i, 1, 1⟩
abbrev USB_DS_STAT_CONNECT (i : Nat) : Fld := ⟨Reg.USB_DS_STAT i, 0, 1⟩
abbrev TIME_TIME_CTL_REVERT : Fld := ⟨Reg.TIME_TIME_CTL, 7, 1⟩
abbrev TIME_TIME_CTL_PREFER : Fld := ⟨Reg.TIME_TIME_CTL, 6, 1⟩
abbrev TIME_TIME_CTL_SPUR_IN : Fld := ⟨Reg.TIME_TIME_CTL, 5, 1⟩
abbrev TIME_TIME_CTL_SERVO_EN : Fld := ⟨Reg.TIME_TIME_CTL, 0, 1⟩
abbrev TIME_TIME_CMD_DISARM : Fld := ⟨Reg.TIME_TIME_CMD, 1, 1⟩
abbrev TIME_TIME_CMD_ACCEPT_STEP : Fld := ⟨Reg.TIME_TIME_CMD, 0, 1⟩
abbrev TIME_TIME_STAT_STEPPED : Fld := ⟨Reg.TIME_TIME_STAT, 12, 1⟩
abbrev TIME_TIME_STAT_INITIAL : Fld := ⟨Reg.TIME_TIME_STAT, 11, 1⟩
abbrev TIME_TIME_STAT_STEP_ARMED : Fld := ⟨Reg.TIME_TIME_STAT, 10, 1⟩
abbrev TIME_TIME_STAT_JUMP_PERSIST : Fld := ⟨Reg.TIME_TIME_STAT, 9, 1⟩
abbrev TIME_TIME_STAT_JUMP_REFUSED : Fld := ⟨Reg.TIME_TIME_STAT, 8, 1⟩
abbrev TIME_TIME_STAT_HOLDOVER : Fld := ⟨Reg.TIME_TIME_STAT, 7, 1⟩
abbrev TIME_TIME_STAT_SLEWING : Fld := ⟨Reg.TIME_TIME_STAT, 6, 1⟩
abbrev TIME_TIME_STAT_SEL : Fld := ⟨Reg.TIME_TIME_STAT, 5, 1⟩
abbrev TIME_TIME_STAT_UNLOCKED : Fld := ⟨Reg.TIME_TIME_STAT, 4, 1⟩
abbrev TIME_TIME_STAT_PRESENT_B : Fld := ⟨Reg.TIME_TIME_STAT, 3, 1⟩
abbrev TIME_TIME_STAT_PRESENT_A : Fld := ⟨Reg.TIME_TIME_STAT, 2, 1⟩
abbrev TIME_TIME_STAT_LOCK_B : Fld := ⟨Reg.TIME_TIME_STAT, 1, 1⟩
abbrev TIME_TIME_STAT_LOCK_A : Fld := ⟨Reg.TIME_TIME_STAT, 0, 1⟩
abbrev TIME_NOW_LO_NS : Fld := ⟨Reg.TIME_NOW_LO, 0, 32⟩
abbrev TIME_NOW_HI_NS : Fld := ⟨Reg.TIME_NOW_HI, 0, 32⟩
abbrev TIME_NOW_FRAC_FRAC : Fld := ⟨Reg.TIME_NOW_FRAC, 0, 32⟩
abbrev TIME_TIME_SET_LO_NS : Fld := ⟨Reg.TIME_TIME_SET_LO, 0, 32⟩
abbrev TIME_TIME_SET_HI_NS : Fld := ⟨Reg.TIME_TIME_SET_HI, 0, 32⟩
abbrev TIME_INCR_FRAC_FRAC : Fld := ⟨Reg.TIME_INCR_FRAC, 0, 32⟩
abbrev TIME_INCR_NS_NS : Fld := ⟨Reg.TIME_INCR_NS, 0, 8⟩
abbrev TIME_JUMP_THRESHOLD_TIME : Fld := ⟨Reg.TIME_JUMP_THRESHOLD, 0, 24⟩
abbrev TIME_SLEW_LIMIT_PPM : Fld := ⟨Reg.TIME_SLEW_LIMIT, 0, 10⟩
abbrev TIME_SERVO_CFG_BW : Fld := ⟨Reg.TIME_SERVO_CFG, 16, 2⟩
abbrev TIME_SERVO_CFG_LOCK_WINDOW : Fld := ⟨Reg.TIME_SERVO_CFG, 0, 16⟩
abbrev DOM_DOM_CFG_EN (i : Nat) : Fld := ⟨Reg.DOM_DOM_CFG i, 31, 1⟩
abbrev DOM_DOM_CFG_SYNC_LOSS (i : Nat) : Fld := ⟨Reg.DOM_DOM_CFG i, 16, 12⟩
abbrev DOM_DOM_CFG_DOMAIN_NUM (i : Nat) : Fld := ⟨Reg.DOM_DOM_CFG i, 0, 8⟩
abbrev DOM_OFS_NS (i : Nat) : Fld := ⟨Reg.DOM_OFS i, 0, 32⟩
abbrev DOM_RATE_PPB (i : Nat) : Fld := ⟨Reg.DOM_RATE i, 0, 32⟩
abbrev DOM_ANN_CLOCK_CLASS (i : Nat) : Fld := ⟨Reg.DOM_ANN i, 16, 8⟩
abbrev DOM_ANN_UTC_OFFSET (i : Nat) : Fld := ⟨Reg.DOM_ANN i, 0, 16⟩
abbrev DOM_GM_ID_LO_ID (i : Nat) : Fld := ⟨Reg.DOM_GM_ID_LO i, 0, 32⟩
abbrev DOM_GM_ID_HI_ID (i : Nat) : Fld := ⟨Reg.DOM_GM_ID_HI i, 0, 32⟩
abbrev DOM_GM_CFG_GM_EN (i : Nat) : Fld := ⟨Reg.DOM_GM_CFG i, 31, 1⟩
abbrev DOM_GM_CFG_LOG_SYNC (i : Nat) : Fld := ⟨Reg.DOM_GM_CFG i, 24, 3⟩
abbrev DOM_GM_CFG_CLOCK_CLASS (i : Nat) : Fld := ⟨Reg.DOM_GM_CFG i, 16, 8⟩
abbrev DOM_GM_CFG_UTC_OFFSET (i : Nat) : Fld := ⟨Reg.DOM_GM_CFG i, 0, 16⟩
abbrev PD_PD_CFG_EN (i : Nat) : Fld := ⟨Reg.PD_PD_CFG i, 31, 1⟩
abbrev PD_PD_CFG_LOG_INT (i : Nat) : Fld := ⟨Reg.PD_PD_CFG i, 24, 3⟩
abbrev PD_LD_DELAY (i : Nat) : Fld := ⟨Reg.PD_LD i, 0, 32⟩
abbrev PD_LD_STAT_N (i : Nat) : Fld := ⟨Reg.PD_LD_STAT i, 4, 4⟩
abbrev PD_LD_STAT_LD_VALID (i : Nat) : Fld := ⟨Reg.PD_LD_STAT i, 0, 1⟩
abbrev PD_ASYM_NS (i : Nat) : Fld := ⟨Reg.PD_ASYM i, 0, 16⟩
abbrev PD_LD_INIT_NS (i : Nat) : Fld := ⟨Reg.PD_LD_INIT i, 0, 16⟩
abbrev PIC_PIC_CTL_EN (i : Nat) : Fld := ⟨Reg.PIC_PIC_CTL i, 31, 1⟩
abbrev PIC_PIC_CTL_MODE (i : Nat) : Fld := ⟨Reg.PIC_PIC_CTL i, 30, 1⟩
abbrev PIC_PIC_CTL_POL (i : Nat) : Fld := ⟨Reg.PIC_PIC_CTL i, 29, 1⟩
abbrev PIC_PIC_CTL_PIN_EN (i : Nat) : Fld := ⟨Reg.PIC_PIC_CTL i, 28, 1⟩
abbrev PIC_PIC_CTL_JSTART (i : Nat) : Fld := ⟨Reg.PIC_PIC_CTL i, 27, 1⟩
abbrev PIC_PIC_CTL_JEND (i : Nat) : Fld := ⟨Reg.PIC_PIC_CTL i, 26, 1⟩
abbrev PIC_PIC_CTL_PIN (i : Nat) : Fld := ⟨Reg.PIC_PIC_CTL i, 0, 8⟩
abbrev PIC_START_LO_NS (i : Nat) : Fld := ⟨Reg.PIC_START_LO i, 0, 32⟩
abbrev PIC_START_HI_NS (i : Nat) : Fld := ⟨Reg.PIC_START_HI i, 0, 32⟩
abbrev PIC_PERIOD_NS_NS (i : Nat) : Fld := ⟨Reg.PIC_PERIOD_NS i, 0, 32⟩
abbrev PIC_PERIOD_FRAC_FRAC (i : Nat) : Fld := ⟨Reg.PIC_PERIOD_FRAC i, 0, 16⟩
abbrev PIC_WIDTH_NS (i : Nat) : Fld := ⟨Reg.PIC_WIDTH i, 0, 32⟩
abbrev PIC_COUNT_PULSES (i : Nat) : Fld := ⟨Reg.PIC_COUNT i, 0, 32⟩
abbrev PIC_PIC_STAT_RUNNING (i : Nat) : Fld := ⟨Reg.PIC_PIC_STAT i, 31, 1⟩
abbrev PIC_PIC_STAT_DONE (i : Nat) : Fld := ⟨Reg.PIC_PIC_STAT i, 30, 1⟩
abbrev PIC_PIC_STAT_LEVEL (i : Nat) : Fld := ⟨Reg.PIC_PIC_STAT i, 29, 1⟩
abbrev PIC_FIRED_PULSES (i : Nat) : Fld := ⟨Reg.PIC_FIRED i, 0, 32⟩
abbrev PIC_SKIP_PULSES (i : Nat) : Fld := ⟨Reg.PIC_SKIP i, 0, 32⟩
abbrev PIC_JLOST_RECORDS (i : Nat) : Fld := ⟨Reg.PIC_JLOST i, 0, 32⟩
abbrev FEED_MEAS_I (i : Nat) : Fld := ⟨Reg.FEED_MEAS i, 16, 16⟩
abbrev FEED_MEAS_V (i : Nat) : Fld := ⟨Reg.FEED_MEAS i, 0, 16⟩
abbrev NBUS_MEAS_I : Fld := ⟨Reg.NBUS_MEAS, 16, 16⟩
abbrev NBUS_MEAS_V : Fld := ⟨Reg.NBUS_MEAS, 0, 16⟩
abbrev BR_MEAS_I (i : Nat) : Fld := ⟨Reg.BR_MEAS i, 16, 16⟩
abbrev BR_MEAS_V (i : Nat) : Fld := ⟨Reg.BR_MEAS i, 0, 16⟩
abbrev FEED_POWER_MW (i : Nat) : Fld := ⟨Reg.FEED_POWER i, 0, 32⟩
abbrev NBUS_POWER_MW : Fld := ⟨Reg.NBUS_POWER, 0, 32⟩
abbrev BR_POWER_MW (i : Nat) : Fld := ⟨Reg.BR_POWER i, 0, 32⟩
abbrev FEED_ENERGY_LO_UJ (i : Nat) : Fld := ⟨Reg.FEED_ENERGY_LO i, 0, 32⟩
abbrev NBUS_ENERGY_LO_UJ : Fld := ⟨Reg.NBUS_ENERGY_LO, 0, 32⟩
abbrev BR_ENERGY_LO_UJ (i : Nat) : Fld := ⟨Reg.BR_ENERGY_LO i, 0, 32⟩
abbrev FEED_ENERGY_HI_UJ (i : Nat) : Fld := ⟨Reg.FEED_ENERGY_HI i, 0, 32⟩
abbrev NBUS_ENERGY_HI_UJ : Fld := ⟨Reg.NBUS_ENERGY_HI, 0, 32⟩
abbrev BR_ENERGY_HI_UJ (i : Nat) : Fld := ⟨Reg.BR_ENERGY_HI i, 0, 32⟩
abbrev FEED_SHUNT_IUNIT (i : Nat) : Fld := ⟨Reg.FEED_SHUNT i, 16, 1⟩
abbrev FEED_SHUNT_UOHM (i : Nat) : Fld := ⟨Reg.FEED_SHUNT i, 0, 16⟩
abbrev NBUS_SHUNT_IUNIT : Fld := ⟨Reg.NBUS_SHUNT, 16, 1⟩
abbrev NBUS_SHUNT_UOHM : Fld := ⟨Reg.NBUS_SHUNT, 0, 16⟩
abbrev BR_SHUNT_IUNIT (i : Nat) : Fld := ⟨Reg.BR_SHUNT i, 16, 1⟩
abbrev BR_SHUNT_UOHM (i : Nat) : Fld := ⟨Reg.BR_SHUNT i, 0, 16⟩
abbrev FEED_I_PEAK_I (i : Nat) : Fld := ⟨Reg.FEED_I_PEAK i, 0, 16⟩
abbrev NBUS_I_PEAK_I : Fld := ⟨Reg.NBUS_I_PEAK, 0, 16⟩
abbrev BR_I_PEAK_I (i : Nat) : Fld := ⟨Reg.BR_I_PEAK i, 0, 16⟩
abbrev FEED_ECLR_CLR (i : Nat) : Fld := ⟨Reg.FEED_ECLR i, 0, 1⟩
abbrev NBUS_ECLR_CLR : Fld := ⟨Reg.NBUS_ECLR, 0, 1⟩
abbrev BR_ECLR_CLR (i : Nat) : Fld := ⟨Reg.BR_ECLR i, 0, 1⟩
abbrev FEED_F_CFG_OV (i : Nat) : Fld := ⟨Reg.FEED_F_CFG i, 16, 12⟩
abbrev FEED_F_CFG_UV (i : Nat) : Fld := ⟨Reg.FEED_F_CFG i, 0, 12⟩
abbrev FEED_F_CFG2_EN (i : Nat) : Fld := ⟨Reg.FEED_F_CFG2 i, 8, 1⟩
abbrev FEED_F_CFG2_DVDT (i : Nat) : Fld := ⟨Reg.FEED_F_CFG2 i, 0, 7⟩
abbrev FEED_F_STAT_OV_SEEN (i : Nat) : Fld := ⟨Reg.FEED_F_STAT i, 10, 1⟩
abbrev FEED_F_STAT_UV_SEEN (i : Nat) : Fld := ⟨Reg.FEED_F_STAT i, 9, 1⟩
abbrev FEED_F_STAT_REV_SEEN (i : Nat) : Fld := ⟨Reg.FEED_F_STAT i, 8, 1⟩
abbrev FEED_F_STAT_INRUSH (i : Nat) : Fld := ⟨Reg.FEED_F_STAT i, 5, 1⟩
abbrev FEED_F_STAT_OV (i : Nat) : Fld := ⟨Reg.FEED_F_STAT i, 4, 1⟩
abbrev FEED_F_STAT_UV (i : Nat) : Fld := ⟨Reg.FEED_F_STAT i, 3, 1⟩
abbrev FEED_F_STAT_REVERSE (i : Nat) : Fld := ⟨Reg.FEED_F_STAT i, 2, 1⟩
abbrev FEED_F_STAT_IN_RANGE (i : Nat) : Fld := ⟨Reg.FEED_F_STAT i, 1, 1⟩
abbrev FEED_F_STAT_CONDUCTING (i : Nat) : Fld := ⟨Reg.FEED_F_STAT i, 0, 1⟩
abbrev FEED_REV_CNT_COUNT (i : Nat) : Fld := ⟨Reg.FEED_REV_CNT i, 0, 32⟩
abbrev FEED_UV_CNT_COUNT (i : Nat) : Fld := ⟨Reg.FEED_UV_CNT i, 0, 32⟩
abbrev FEED_OV_CNT_COUNT (i : Nat) : Fld := ⟨Reg.FEED_OV_CNT i, 0, 32⟩
abbrev BR_BR_CTL_HOLD_KEEP (i : Nat) : Fld := ⟨Reg.BR_BR_CTL i, 3, 1⟩
abbrev BR_BR_CTL_RESTART (i : Nat) : Fld := ⟨Reg.BR_BR_CTL i, 1, 1⟩
abbrev BR_BR_CTL_ON (i : Nat) : Fld := ⟨Reg.BR_BR_CTL i, 0, 1⟩
abbrev BR_BR_LIMIT_FAULT_TIME (i : Nat) : Fld := ⟨Reg.BR_BR_LIMIT i, 16, 9⟩
abbrev BR_BR_LIMIT_LIMIT (i : Nat) : Fld := ⟨Reg.BR_BR_LIMIT i, 0, 16⟩
abbrev BR_BR_START_START_TIME (i : Nat) : Fld := ⟨Reg.BR_BR_START i, 16, 10⟩
abbrev BR_BR_START_DVDT (i : Nat) : Fld := ⟨Reg.BR_BR_START i, 0, 7⟩
abbrev BR_BR_RETRY_RETRY_MAX (i : Nat) : Fld := ⟨Reg.BR_BR_RETRY i, 16, 8⟩
abbrev BR_BR_RETRY_DUTY_RATIO (i : Nat) : Fld := ⟨Reg.BR_BR_RETRY i, 0, 12⟩
abbrev BR_BR_CLEAR_CLEAR_TIME (i : Nat) : Fld := ⟨Reg.BR_BR_CLEAR i, 0, 16⟩
abbrev BR_BR_PG_PG_DELAY (i : Nat) : Fld := ⟨Reg.BR_BR_PG i, 16, 10⟩
abbrev BR_BR_PG_PG_THRESH (i : Nat) : Fld := ⟨Reg.BR_BR_PG i, 0, 7⟩
abbrev BR_BR_STAT_LAST_CAUSE (i : Nat) : Fld := ⟨Reg.BR_BR_STAT i, 18, 2⟩
abbrev BR_BR_STAT_TRIPPED (i : Nat) : Fld := ⟨Reg.BR_BR_STAT i, 16, 1⟩
abbrev BR_BR_STAT_RETRY_COUNT (i : Nat) : Fld := ⟨Reg.BR_BR_STAT i, 8, 8⟩
abbrev BR_BR_STAT_PG (i : Nat) : Fld := ⟨Reg.BR_BR_STAT i, 3, 1⟩
abbrev BR_BR_STAT_STATE (i : Nat) : Fld := ⟨Reg.BR_BR_STAT i, 0, 3⟩
abbrev PWR_PWR_STAT_ACTIVE : Fld := ⟨Reg.PWR_PWR_STAT, 5, 1⟩
abbrev PWR_PWR_STAT_OWNER : Fld := ⟨Reg.PWR_PWR_STAT, 4, 1⟩
abbrev PWR_PWR_STAT_HOLDOVER_SEEN : Fld := ⟨Reg.PWR_PWR_STAT, 3, 1⟩
abbrev PWR_PWR_STAT_COLD : Fld := ⟨Reg.PWR_PWR_STAT, 2, 1⟩
abbrev PWR_PWR_STAT_PLK_BACK : Fld := ⟨Reg.PWR_PWR_STAT, 1, 1⟩
abbrev PWR_PWR_STAT_PLK_LOST : Fld := ⟨Reg.PWR_PWR_STAT, 0, 1⟩
abbrev PWR_HOLD_CFG_HOLD_UNLIM : Fld := ⟨Reg.PWR_HOLD_CFG, 16, 1⟩
abbrev PWR_HOLD_CFG_HOLD_TIME : Fld := ⟨Reg.PWR_HOLD_CFG, 0, 10⟩
abbrev TWIN_TWIN_CFG_EN : Fld := ⟨Reg.TWIN_TWIN_CFG, 31, 1⟩
abbrev TWIN_TWIN_CFG_REVERT_EN : Fld := ⟨Reg.TWIN_TWIN_CFG, 30, 1⟩
abbrev TWIN_TWIN_CFG_HOLDOFF : Fld := ⟨Reg.TWIN_TWIN_CFG, 16, 8⟩
abbrev TWIN_TWIN_CFG_QUIET : Fld := ⟨Reg.TWIN_TWIN_CFG, 8, 8⟩
abbrev TWIN_TWIN_CFG_DRILL_HOLD : Fld := ⟨Reg.TWIN_TWIN_CFG, 0, 8⟩
abbrev TWIN_TWIN_STAT_POS : Fld := ⟨Reg.TWIN_TWIN_STAT, 31, 1⟩
abbrev TWIN_TWIN_STAT_STATE : Fld := ⟨Reg.TWIN_TWIN_STAT, 28, 3⟩
abbrev TWIN_TWIN_STAT_REVERT_LIMIT : Fld := ⟨Reg.TWIN_TWIN_STAT, 27, 1⟩
abbrev TWIN_TWIN_STAT_CFG_MISMATCH : Fld := ⟨Reg.TWIN_TWIN_STAT, 26, 1⟩
abbrev TWIN_TWIN_STAT_TETHER_OK : Fld := ⟨Reg.TWIN_TWIN_STAT, 25, 1⟩
abbrev TWIN_TWIN_STAT_PARTNER_READY : Fld := ⟨Reg.TWIN_TWIN_STAT, 24, 1⟩
abbrev TWIN_TWIN_STAT_PARTNER_ACT : Fld := ⟨Reg.TWIN_TWIN_STAT, 23, 1⟩
abbrev TWIN_TWIN_STAT_LAST_EVIDENCE : Fld := ⟨Reg.TWIN_TWIN_STAT, 20, 3⟩
abbrev TWIN_TWIN_STAT_REL_CAUSE : Fld := ⟨Reg.TWIN_TWIN_STAT, 16, 4⟩
abbrev TWIN_TWIN_STAT_GSEQ : Fld := ⟨Reg.TWIN_TWIN_STAT, 0, 16⟩
abbrev TWIN_TWIN_CMD_CLR_LIMIT : Fld := ⟨Reg.TWIN_TWIN_CMD, 1, 1⟩
abbrev TWIN_TWIN_CMD_DRILL : Fld := ⟨Reg.TWIN_TWIN_CMD, 0, 1⟩
abbrev TWIN_DRILL_AT_LO_NS : Fld := ⟨Reg.TWIN_DRILL_AT_LO, 0, 32⟩
abbrev TWIN_DRILL_AT_HI_NS : Fld := ⟨Reg.TWIN_DRILL_AT_HI, 0, 32⟩
abbrev TWIN_DRILL_STAT_UNPROVED : Fld := ⟨Reg.TWIN_DRILL_STAT, 5, 5⟩
abbrev TWIN_DRILL_STAT_FAIL_PART : Fld := ⟨Reg.TWIN_DRILL_STAT, 2, 3⟩
abbrev TWIN_DRILL_STAT_PASS : Fld := ⟨Reg.TWIN_DRILL_STAT, 1, 1⟩
abbrev TWIN_DRILL_STAT_PENDING : Fld := ⟨Reg.TWIN_DRILL_STAT, 0, 1⟩
abbrev TWIN_DIGEST_LO_BYTES : Fld := ⟨Reg.TWIN_DIGEST_LO, 0, 32⟩
abbrev TWIN_DIGEST_HI_BYTES : Fld := ⟨Reg.TWIN_DIGEST_HI, 0, 32⟩
abbrev TWIN_PARTNER_DIGEST_LO_BYTES : Fld := ⟨Reg.TWIN_PARTNER_DIGEST_LO, 0, 32⟩
abbrev TWIN_PARTNER_DIGEST_HI_BYTES : Fld := ⟨Reg.TWIN_PARTNER_DIGEST_HI, 0, 32⟩
abbrev TWIN_DRIVE_FAULT_PINS (i : Nat) : Fld := ⟨Reg.TWIN_DRIVE_FAULT i, 0, 32⟩
abbrev TWIN_IN_DIFF_PINS (i : Nat) : Fld := ⟨Reg.TWIN_IN_DIFF i, 0, 32⟩
abbrev TWIN_GRANT_TAB_VALID (i : Nat) : Fld := ⟨Reg.TWIN_GRANT_TAB i, 31, 1⟩
abbrev TWIN_GRANT_TAB_HOLDER (i : Nat) : Fld := ⟨Reg.TWIN_GRANT_TAB i, 30, 1⟩
abbrev TWIN_GRANT_TAB_PARTNER_READY (i : Nat) : Fld := ⟨Reg.TWIN_GRANT_TAB i, 29, 1⟩
abbrev TWIN_GRANT_TAB_HB_AGE (i : Nat) : Fld := ⟨Reg.TWIN_GRANT_TAB i, 16, 10⟩
abbrev TWIN_GRANT_TAB_GSEQ (i : Nat) : Fld := ⟨Reg.TWIN_GRANT_TAB i, 0, 16⟩
abbrev MEM_MEM_CFG_SCRUB_HOURS : Fld := ⟨Reg.MEM_MEM_CFG, 8, 8⟩
abbrev MEM_MEM_CFG_SIZE : Fld := ⟨Reg.MEM_MEM_CFG, 0, 2⟩
abbrev MEM_MEM_STAT_FUSE_OK : Fld := ⟨Reg.MEM_MEM_STAT, 4, 1⟩
abbrev MEM_MEM_STAT_PASS_DONE : Fld := ⟨Reg.MEM_MEM_STAT, 3, 1⟩
abbrev MEM_MEM_STAT_SCRUBBING : Fld := ⟨Reg.MEM_MEM_STAT, 2, 1⟩
abbrev MEM_MEM_STAT_SELF_REFRESH : Fld := ⟨Reg.MEM_MEM_STAT, 1, 1⟩
abbrev MEM_MEM_STAT_TRAINED : Fld := ⟨Reg.MEM_MEM_STAT, 0, 1⟩
abbrev MEM_SCRUB_POS_LO_BLOCK : Fld := ⟨Reg.MEM_SCRUB_POS_LO, 6, 26⟩
abbrev MEM_SCRUB_POS_HI_BLOCK : Fld := ⟨Reg.MEM_SCRUB_POS_HI, 0, 1⟩
abbrev MEM_CE_ADDR_LO_WORD : Fld := ⟨Reg.MEM_CE_ADDR_LO, 3, 29⟩
abbrev MEM_CE_ADDR_HI_WORD : Fld := ⟨Reg.MEM_CE_ADDR_HI, 0, 1⟩
abbrev MEM_UE_ADDR_LO_WORD : Fld := ⟨Reg.MEM_UE_ADDR_LO, 3, 29⟩
abbrev MEM_UE_ADDR_HI_VALID : Fld := ⟨Reg.MEM_UE_ADDR_HI, 31, 1⟩
abbrev MEM_UE_ADDR_HI_WORD : Fld := ⟨Reg.MEM_UE_ADDR_HI, 0, 1⟩
abbrev MEM_CHURN_OWN_PENDING (i : Nat) : Fld := ⟨Reg.MEM_CHURN_OWN i, 8, 1⟩
abbrev MEM_CHURN_OWN_OWNER (i : Nat) : Fld := ⟨Reg.MEM_CHURN_OWN i, 0, 3⟩
abbrev MEM_REPAIR_CHURN_LO_USED : Fld := ⟨Reg.MEM_REPAIR_CHURN_LO, 0, 32⟩
abbrev MEM_REPAIR_CHURN_HI_USED : Fld := ⟨Reg.MEM_REPAIR_CHURN_HI, 0, 32⟩
abbrev MEM_REPAIR_MISC_PRICK3 : Fld := ⟨Reg.MEM_REPAIR_MISC, 20, 4⟩
abbrev MEM_REPAIR_MISC_PRICK2 : Fld := ⟨Reg.MEM_REPAIR_MISC, 16, 4⟩
abbrev MEM_REPAIR_MISC_PRICK1 : Fld := ⟨Reg.MEM_REPAIR_MISC, 12, 4⟩
abbrev MEM_REPAIR_MISC_PRICK0 : Fld := ⟨Reg.MEM_REPAIR_MISC, 8, 4⟩
abbrev MEM_REPAIR_MISC_SBUF1 : Fld := ⟨Reg.MEM_REPAIR_MISC, 4, 4⟩
abbrev MEM_REPAIR_MISC_SBUF0 : Fld := ⟨Reg.MEM_REPAIR_MISC, 0, 4⟩
abbrev MEM_Q_MODE_SECDED : Fld := ⟨Reg.MEM_Q_MODE, 0, 1⟩
abbrev HOST_HOST_CFG_QPI : Fld := ⟨Reg.HOST_HOST_CFG, 8, 1⟩
abbrev HOST_HOST_CFG_DUMMY : Fld := ⟨Reg.HOST_HOST_CFG, 4, 4⟩
abbrev HOST_HOST_CFG_EN : Fld := ⟨Reg.HOST_HOST_CFG, 0, 1⟩
abbrev HOST_H_STAT_MODE : Fld := ⟨Reg.HOST_H_STAT, 8, 3⟩
abbrev HOST_H_STAT_PERR : Fld := ⟨Reg.HOST_H_STAT, 3, 1⟩
abbrev HOST_H_STAT_COLLIDE : Fld := ⟨Reg.HOST_H_STAT, 2, 1⟩
abbrev HOST_H_STAT_MB_OVF : Fld := ⟨Reg.HOST_H_STAT, 1, 1⟩
abbrev HOST_H_STAT_SERVING : Fld := ⟨Reg.HOST_H_STAT, 0, 1⟩
abbrev HOST_H_IRQ_PEND_PEND : Fld := ⟨Reg.HOST_H_IRQ_PEND, 0, 6⟩
abbrev HOST_H_IRQ_EN_EN : Fld := ⟨Reg.HOST_H_IRQ_EN, 0, 6⟩
abbrev HOST_DOORBELL_IN_VALUE : Fld := ⟨Reg.HOST_DOORBELL_IN, 0, 32⟩
abbrev HOST_DOORBELL_OUT_VALUE : Fld := ⟨Reg.HOST_DOORBELL_OUT, 0, 32⟩
abbrev HOST_MB_COUNT_CPL_PEAK : Fld := ⟨Reg.HOST_MB_COUNT, 16, 8⟩
abbrev HOST_MB_COUNT_CPL : Fld := ⟨Reg.HOST_MB_COUNT, 8, 8⟩
abbrev HOST_MB_COUNT_REQ : Fld := ⟨Reg.HOST_MB_COUNT, 0, 8⟩
abbrev SYS_MODE_CTL_CLR_HOLD : Fld := ⟨Reg.SYS_MODE_CTL, 2, 1⟩
abbrev SYS_MODE_CTL_TARGET : Fld := ⟨Reg.SYS_MODE_CTL, 0, 2⟩
abbrev SYS_MODE_STAT_ENTERING : Fld := ⟨Reg.SYS_MODE_STAT, 11, 1⟩
abbrev SYS_MODE_STAT_WAKING : Fld := ⟨Reg.SYS_MODE_STAT, 10, 1⟩
abbrev SYS_MODE_STAT_SAFE_HOLD : Fld := ⟨Reg.SYS_MODE_STAT, 9, 1⟩
abbrev SYS_MODE_STAT_ACTIVATING : Fld := ⟨Reg.SYS_MODE_STAT, 8, 1⟩
abbrev SYS_MODE_STAT_PREV : Fld := ⟨Reg.SYS_MODE_STAT, 4, 3⟩
abbrev SYS_MODE_STAT_MODE : Fld := ⟨Reg.SYS_MODE_STAT, 0, 3⟩
abbrev SYS_BOOT_STAT_FAIL_RUN : Fld := ⟨Reg.SYS_BOOT_STAT, 16, 8⟩
abbrev SYS_BOOT_STAT_HDR_DEFAULT : Fld := ⟨Reg.SYS_BOOT_STAT, 13, 1⟩
abbrev SYS_BOOT_STAT_SLOT_FALLBACK : Fld := ⟨Reg.SYS_BOOT_STAT, 12, 1⟩
abbrev SYS_BOOT_STAT_SLOT1_OK : Fld := ⟨Reg.SYS_BOOT_STAT, 9, 1⟩
abbrev SYS_BOOT_STAT_SLOT0_OK : Fld := ⟨Reg.SYS_BOOT_STAT, 8, 1⟩
abbrev SYS_BOOT_STAT_SLOT : Fld := ⟨Reg.SYS_BOOT_STAT, 0, 1⟩
abbrev SYS_FW_VERSION_VERSION : Fld := ⟨Reg.SYS_FW_VERSION, 0, 32⟩
abbrev SYS_STRAP_SVC : Fld := ⟨Reg.SYS_STRAP, 1, 1⟩
abbrev SYS_STRAP_TWIN_POS : Fld := ⟨Reg.SYS_STRAP, 0, 1⟩
abbrev SYS_CFG_STAT_CONFIG_CONFLICT : Fld := ⟨Reg.SYS_CFG_STAT, 31, 1⟩
abbrev SYS_CFG_STAT_CONFIG_MISSING : Fld := ⟨Reg.SYS_CFG_STAT, 30, 1⟩
abbrev SYS_CFG_STAT_MIGRATED : Fld := ⟨Reg.SYS_CFG_STAT, 29, 1⟩
abbrev SYS_CFG_STAT_TD80 : Fld := ⟨Reg.SYS_CFG_STAT, 28, 1⟩
abbrev SYS_CFG_STAT_WRITEBACK_FAIL : Fld := ⟨Reg.SYS_CFG_STAT, 27, 1⟩
abbrev SYS_CFG_STAT_SLOT : Fld := ⟨Reg.SYS_CFG_STAT, 24, 1⟩
abbrev SYS_CFG_STAT_FORMAT_MAX : Fld := ⟨Reg.SYS_CFG_STAT, 16, 8⟩
abbrev SYS_CFG_STAT_FORMAT : Fld := ⟨Reg.SYS_CFG_STAT, 8, 8⟩
abbrev SYS_CFG_REV_REVISION : Fld := ⟨Reg.SYS_CFG_REV, 0, 32⟩
abbrev SYS_CONFLICT_INFO_CHECK : Fld := ⟨Reg.SYS_CONFLICT_INFO, 24, 8⟩
abbrev SYS_CONFLICT_INFO_INDEX : Fld := ⟨Reg.SYS_CONFLICT_INFO, 0, 24⟩
abbrev SYS_WDOG_CFG_TIMEOUT : Fld := ⟨Reg.SYS_WDOG_CFG, 0, 16⟩
abbrev SYS_WDOG_KICK_KEY : Fld := ⟨Reg.SYS_WDOG_KICK, 0, 16⟩
abbrev SYS_DRW_CFG_WAKE_TIMER : Fld := ⟨Reg.SYS_DRW_CFG, 2, 1⟩
abbrev SYS_DRW_CFG_WAKE_BCAST : Fld := ⟨Reg.SYS_DRW_CFG, 1, 1⟩
abbrev SYS_DRW_CFG_WAKE_FRAME : Fld := ⟨Reg.SYS_DRW_CFG, 0, 1⟩
abbrev SYS_DRW_WAKE_AT_LO_NS : Fld := ⟨Reg.SYS_DRW_WAKE_AT_LO, 0, 32⟩
abbrev SYS_DRW_WAKE_AT_HI_NS : Fld := ⟨Reg.SYS_DRW_WAKE_AT_HI, 0, 32⟩
abbrev SYS_DRW_WAKE_SRC_PIN : Fld := ⟨Reg.SYS_DRW_WAKE_SRC, 8, 8⟩
abbrev SYS_DRW_WAKE_SRC_TIMER : Fld := ⟨Reg.SYS_DRW_WAKE_SRC, 4, 1⟩
abbrev SYS_DRW_WAKE_SRC_HOST : Fld := ⟨Reg.SYS_DRW_WAKE_SRC, 3, 1⟩
abbrev SYS_DRW_WAKE_SRC_USB : Fld := ⟨Reg.SYS_DRW_WAKE_SRC, 2, 1⟩
abbrev SYS_DRW_WAKE_SRC_PIN_EDGE : Fld := ⟨Reg.SYS_DRW_WAKE_SRC, 1, 1⟩
abbrev SYS_DRW_WAKE_SRC_FRAME : Fld := ⟨Reg.SYS_DRW_WAKE_SRC, 0, 1⟩
abbrev UPD_UPD_CFG_HELP_EN : Fld := ⟨Reg.UPD_UPD_CFG, 8, 1⟩
abbrev UPD_UPD_CFG_EXPIRY_DAYS : Fld := ⟨Reg.UPD_UPD_CFG, 0, 8⟩
abbrev UPD_UPD_STAT_N_HELD : Fld := ⟨Reg.UPD_UPD_STAT, 16, 12⟩
abbrev UPD_UPD_STAT_REJECT : Fld := ⟨Reg.UPD_UPD_STAT, 12, 4⟩
abbrev UPD_UPD_STAT_LAST_END : Fld := ⟨Reg.UPD_UPD_STAT, 8, 4⟩
abbrev UPD_UPD_STAT_IMG_TYPE : Fld := ⟨Reg.UPD_UPD_STAT, 6, 2⟩
abbrev UPD_UPD_STAT_OWNER : Fld := ⟨Reg.UPD_UPD_STAT, 4, 2⟩
abbrev UPD_UPD_STAT_STATE : Fld := ⟨Reg.UPD_UPD_STAT, 0, 4⟩
abbrev UPD_UPD_OWNER_NODE : Fld := ⟨Reg.UPD_UPD_OWNER, 0, 16⟩
abbrev UPD_UPD_TOTAL_N_TOTAL : Fld := ⟨Reg.UPD_UPD_TOTAL, 0, 12⟩
abbrev UPD_DIGEST_BYTES (i : Nat) : Fld := ⟨Reg.UPD_DIGEST i, 0, 32⟩
abbrev UPD_ACT_AT_LO_NS : Fld := ⟨Reg.UPD_ACT_AT_LO, 0, 32⟩
abbrev UPD_ACT_AT_HI_NS : Fld := ⟨Reg.UPD_ACT_AT_HI, 0, 32⟩
abbrev UPD_OPENED_LO_NS : Fld := ⟨Reg.UPD_OPENED_LO, 0, 32⟩
abbrev UPD_OPENED_HI_NS : Fld := ⟨Reg.UPD_OPENED_HI, 0, 32⟩
abbrev UPD_EPOCH_FUSED : Fld := ⟨Reg.UPD_EPOCH, 0, 6⟩
abbrev UPD_SRC_ALLOW_EN (i : Nat) : Fld := ⟨Reg.UPD_SRC_ALLOW i, 31, 1⟩
abbrev UPD_SRC_ALLOW_ANY_RING (i : Nat) : Fld := ⟨Reg.UPD_SRC_ALLOW i, 26, 1⟩
abbrev UPD_SRC_ALLOW_RING (i : Nat) : Fld := ⟨Reg.UPD_SRC_ALLOW i, 20, 6⟩
abbrev UPD_SRC_ALLOW_NODE_HI (i : Nat) : Fld := ⟨Reg.UPD_SRC_ALLOW i, 9, 9⟩
abbrev UPD_SRC_ALLOW_NODE_LO (i : Nat) : Fld := ⟨Reg.UPD_SRC_ALLOW i, 0, 9⟩
abbrev SYS_UNIT_RST_BUSY_CAN : Fld := ⟨Reg.SYS_UNIT_RST_BUSY, 8, 8⟩
abbrev SYS_UNIT_RST_BUSY_JRN : Fld := ⟨Reg.SYS_UNIT_RST_BUSY, 6, 1⟩
abbrev SYS_UNIT_RST_BUSY_CYC : Fld := ⟨Reg.SYS_UNIT_RST_BUSY, 5, 1⟩
abbrev SYS_UNIT_RST_BUSY_USB : Fld := ⟨Reg.SYS_UNIT_RST_BUSY, 4, 1⟩
abbrev SYS_UNIT_RST_BUSY_STB : Fld := ⟨Reg.SYS_UNIT_RST_BUSY, 3, 1⟩
abbrev SYS_UNIT_RST_BUSY_PCS_SPUR : Fld := ⟨Reg.SYS_UNIT_RST_BUSY, 2, 1⟩
abbrev SYS_UNIT_RST_BUSY_PCS_WEST : Fld := ⟨Reg.SYS_UNIT_RST_BUSY, 1, 1⟩
abbrev SYS_UNIT_RST_BUSY_PCS_EAST : Fld := ⟨Reg.SYS_UNIT_RST_BUSY, 0, 1⟩
end Fd

/-- Register rows of SYS, part 0. -/
def rowsSYS0 : List RegRow :=
  [ ⟨0x100, 0x0, 1, 0x0, 1, 0x13, 0x0, 0x0, 0x0, 0x0, 0x2, .main⟩,
    ⟨0x104, 0x0, 1, 0x0, 1, 0x0, 0x8, 0x0, 0x0, 0x0, 0x0, .keepAlive⟩,
    ⟨0x110, 0x0, 1, 0x0, 1, 0x0, 0x0, 0x0, 0x0, 0xFFFF0001, 0x0, .main⟩,
    ⟨0x114, 0x0, 1, 0x0, 1, 0x0, 0xFF, 0x0, 0x0, 0x0, 0x1, .keepAlive⟩,
    ⟨0x120, 0x0, 1, 0x0, 1, 0x0, 0x0, 0x0, 0x0, 0xFF7F, 0x0, .main⟩,
    ⟨0x128, 0x0, 1, 0x0, 1, 0x0, 0x0, 0x0, 0x0, 0xFFFFFFFF, 0x0, .main⟩,
    ⟨0x12C, 0x0, 1, 0x0, 1, 0x0, 0x0, 0x0, 0x0, 0xFFFFFFFF, 0x0, .main⟩,
    ⟨0x130, 0x0, 1, 0x0, 1, 0x0, 0x0, 0x0, 0x0, 0x0, 0x0, .main⟩,
    ⟨0x134, 0x0, 1, 0x0, 1, 0x0, 0x0, 0x0, 0x0, 0x0, 0x0, .main⟩,
    ⟨0x138, 0x0, 1, 0x0, 1, 0x0, 0x0, 0x0, 0xFFFFFFFF, 0x0, 0x0, .main⟩,
    ⟨0x0, 0x0, 1, 0x0, 1, 0x0, 0x0, 0x0, 0x0, 0x7, 0x0, .main⟩,
    ⟨0x4, 0x0, 1, 0x0, 1, 0x0, 0x0, 0x0, 0x0, 0x0, 0x0, .main⟩,
    ⟨0x10, 0x0, 1, 0x0, 1, 0x0, 0x0, 0x0, 0x0, 0x0, 0x0, .keepAlive⟩,
    ⟨0x14, 0x0, 1, 0x0, 1, 0x0, 0x0, 0x0, 0x0, 0x0, 0x0, .main⟩,
    ⟨0x18, 0x0, 1, 0x0, 1, 0x0, 0x0, 0x0, 0x0, 0x0, 0x0, .keepAlive⟩,
    ⟨0x20, 0x0, 1, 0x0, 1, 0x0, 0x0, 0x0, 0x0, 0x0, 0x0, .main⟩,
    ⟨0x24, 0x0, 1, 0x0, 1, 0x0, 0x0, 0x0, 0x0, 0x0, 0x0, .main⟩,
    ⟨0x28, 0x0, 1, 0x0, 1, 0x0, 0x0, 0x0, 0x0, 0x0, 0x0, .main⟩,
    ⟨0x40, 0x0, 1, 0x0, 1, 0xFFFF, 0x0, 0x0, 0x0, 0x0, 0x3E8, .main⟩,
    ⟨0x44, 0x0, 1, 0x0, 1, 0x0, 0x0, 0x0, 0x0, 0xFFFF, 0x0, .main⟩ ]
/-- Register rows of SYS, part 1. -/
def rowsSYS1 : List RegRow :=
  [ ⟨0x200, 0x0, 1, 0x0, 1, 0x7, 0x0, 0x0, 0x0, 0x0, 0x1, .main⟩,
    ⟨0x204, 0x0, 1, 0x0, 1, 0xFFFFFFFF, 0x0, 0x0, 0x0, 0x0, 0x0, .main⟩,
    ⟨0x208, 0x0, 1, 0x0, 1, 0xFFFFFFFF, 0x0, 0x0, 0x0, 0x0, 0x0, .main⟩,
    ⟨0x20C, 0x0, 1, 0x0, 1, 0x0, 0x1F, 0x0, 0x0, 0x0, 0x0, .main⟩,
    ⟨0x280, 0x0, 1, 0x0, 1, 0x0, 0x0, 0x0, 0xFFFFFFFF, 0x0, 0x0, .main⟩,
    ⟨0x284, 0x0, 1, 0x0, 1, 0x0, 0x0, 0x0, 0xFFFFFFFF, 0x0, 0x0, .main⟩,
    ⟨0x288, 0x0, 1, 0x0, 1, 0x0, 0x0, 0x0, 0xFFFFFFFF, 0x0, 0x0, .main⟩,
    ⟨0x28C, 0x0, 1, 0x0, 1, 0x0, 0x0, 0x0, 0xFFFFFFFF, 0x0, 0x0, .keepAlive⟩,
    ⟨0x290, 0x0, 1, 0x0, 1, 0x0, 0x0, 0x0, 0xFFFFFFFF, 0x0, 0x0, .main⟩,
    ⟨0x124, 0x0, 1, 0x0, 1, 0x0, 0x0, 0x0, 0x0, 0x0, 0x0, .main⟩ ]
/-- Register rows of PORT, part 0. -/
def rowsPORT0 : List RegRow :=
  [ ⟨0x10000, 0x1000, 3, 0x0, 1, 0x3B, 0x0, 0x0, 0x0, 0x0, 0xB, .keepAlive⟩,
    ⟨0x10004, 0x1000, 3, 0x0, 1, 0x0, 0x0, 0x0, 0x0, 0x0, 0x20, .keepAlive⟩,
    ⟨0x10008, 0x1000, 3, 0x0, 1, 0x0, 0xFF, 0x0, 0x0, 0x0, 0x0, .keepAlive⟩,
    ⟨0x10010, 0x1000, 3, 0x0, 1, 0xFFFFF0F, 0x0, 0x0, 0x0, 0x80000000, 0x3C0A05, .keepAlive⟩,
    ⟨0x10014, 0x1000, 3, 0x0, 1, 0xFFF03, 0x0, 0x0, 0x0, 0x0, 0x30A01, .keepAlive⟩,
    ⟨0x10018, 0x1000, 3, 0x0, 1, 0x0, 0x0, 0x0, 0x0, 0x0, 0x0, .keepAlive⟩,
    ⟨0x10020, 0x1000, 3, 0x0, 1, 0xFF07, 0x0, 0x0, 0x0, 0x0, 0xA05, .keepAlive⟩,
    ⟨0x10024, 0x1000, 3, 0x0, 1, 0xFF03FF, 0x0, 0x400, 0x0, 0x0, 0x0, .keepAlive⟩,
    ⟨0x10028, 0x1000, 3, 0x0, 1, 0x0, 0x0, 0x0, 0x0, 0x0, 0x0, .keepAlive⟩,
    ⟨0x1002C, 0x1000, 3, 0x0, 1, 0x0, 0x0, 0x0, 0x0, 0x0, 0x0, .keepAlive⟩,
    ⟨0x10030, 0x1000, 3, 0x0, 1, 0x0, 0x0, 0x0, 0x0, 0x0, 0x0, .keepAlive⟩,
    ⟨0x10034, 0x1000, 3, 0x0, 1, 0x0, 0x0, 0x0, 0x0, 0x0, 0x0, .keepAlive⟩,
    ⟨0x10038, 0x1000, 3, 0x0, 1, 0x0, 0x0, 0x0, 0x0, 0x0, 0x0, .keepAlive⟩,
    ⟨0x12040, 0x0, 1, 0x0, 1, 0xFFFFF, 0x0, 0x0, 0x0, 0x0, 0x0, .keepAlive⟩,
    ⟨0x10100, 0x1000, 3, 0x0, 1, 0x0, 0x0, 0x0, 0xFFFFFFFF, 0x0, 0x0, .keepAlive⟩,
    ⟨0x10104, 0x1000, 3, 0x0, 1, 0x0, 0x0, 0x0, 0xFFFFFFFF, 0x0, 0x0, .keepAlive⟩,
    ⟨0x10108, 0x1000, 3, 0x0, 1, 0x0, 0x0, 0x0, 0xFFFFFFFF, 0x0, 0x0, .keepAlive⟩,
    ⟨0x1010C, 0x1000, 3, 0x0, 1, 0x0, 0x0, 0x0, 0xFFFFFFFF, 0x0, 0x0, .keepAlive⟩,
    ⟨0x10110, 0x1000, 3, 0x0, 1, 0x0, 0x0, 0x0, 0xFFFFFFFF, 0x0, 0x0, .keepAlive⟩,
    ⟨0x10114, 0x1000, 3, 0x0, 1, 0x0, 0x0, 0x0, 0xFFFFFFFF, 0x0, 0x0, .keepAlive⟩ ]
/-- Register rows of PORT, part 1. -/
def rowsPORT1 : List RegRow :=
  [ ⟨0x10118, 0x1000, 3, 0x0, 1, 0x0, 0x0, 0x0, 0xFFFFFFFF, 0x0, 0x0, .keepAlive⟩,
    ⟨0x1011C, 0x1000, 3, 0x0, 1, 0x0, 0x0, 0x0, 0xFFFFFFFF, 0x0, 0x0, .keepAlive⟩,
    ⟨0x10120, 0x1000, 3, 0x0, 1, 0x0, 0x0, 0x0, 0xFFFFFFFF, 0x0, 0x0, .keepAlive⟩,
    ⟨0x10124, 0x1000, 3, 0x0, 1, 0x0, 0x0, 0x0, 0xFFFFFFFF, 0x0, 0x0, .keepAlive⟩,
    ⟨0x10128, 0x1000, 3, 0x0, 1, 0x0, 0x0, 0x0, 0xFFFFFFFF, 0x0, 0x0, .keepAlive⟩,
    ⟨0x1012C, 0x1000, 3, 0x0, 1, 0x0, 0x0, 0x0, 0xFFFFFFFF, 0x0, 0x0, .keepAlive⟩,
    ⟨0x10130, 0x1000, 3, 0x0, 1, 0x0, 0x0, 0x0, 0xFFFFFFFF, 0x0, 0x0, .keepAlive⟩,
    ⟨0x10134, 0x1000, 3, 0x0, 1, 0x0, 0x0, 0x0, 0xFFFFFFFF, 0x0, 0x0, .keepAlive⟩,
    ⟨0x10138, 0x1000, 3, 0x0, 1, 0x0, 0x0, 0x0, 0xFFFFFFFF, 0x0, 0x0, .keepAlive⟩,
    ⟨0x1013C, 0x1000, 3, 0x0, 1, 0x0, 0x0, 0x0, 0xFFFFFFFF, 0x0, 0x0, .keepAlive⟩,
    ⟨0x10140, 0x1000, 3, 0x0, 1, 0x0, 0x0, 0x0, 0xFFFFFFFF, 0x0, 0x0, .keepAlive⟩,
    ⟨0x10144, 0x1000, 3, 0x0, 1, 0x0, 0x0, 0x0, 0xFFFFFFFF, 0x0, 0x0, .keepAlive⟩,
    ⟨0x10148, 0x1000, 3, 0x0, 1, 0x0, 0x0, 0x0, 0xFFFFFFFF, 0x0, 0x0, .keepAlive⟩,
    ⟨0x1014C, 0x1000, 3, 0x0, 1, 0x0, 0x0, 0x0, 0xFFFFFFFF, 0x0, 0x0, .keepAlive⟩,
    ⟨0x10150, 0x1000, 3, 0x0, 1, 0x0, 0x0, 0x0, 0xFFFFFFFF, 0x0, 0x0, .keepAlive⟩,
    ⟨0x10154, 0x1000, 3, 0x0, 1, 0x0, 0x0, 0x0, 0xFFFFFFFF, 0x0, 0x0, .keepAlive⟩,
    ⟨0x10158, 0x1000, 3, 0x0, 1, 0x0, 0x0, 0x0, 0xFFFFFFFF, 0x0, 0x0, .keepAlive⟩ ]
/-- Register rows of WARDEN, part 0. -/
def rowsWARDEN0 : List RegRow :=
  [ ⟨0x140000, 0x0, 1, 0x0, 1, 0x7FFC3FF, 0x0, 0x0, 0x0, 0x0, 0x1FE, .keepAlive⟩,
    ⟨0x140004, 0x0, 1, 0x0, 1, 0x0, 0x0, 0x0, 0x0, 0x0, 0x0, .keepAlive⟩,
    ⟨0x140008, 0x0, 1, 0x0, 1, 0x0, 0x0, 0x0, 0x0, 0x0, 0x0, .keepAlive⟩,
    ⟨0x14000C, 0x0, 1, 0x0, 1, 0x0, 0x0, 0x0, 0x0, 0x0, 0x0, .keepAlive⟩,
    ⟨0x140010, 0x0, 1, 0x0, 1, 0x80FFFFFF, 0x0, 0x0, 0x0, 0x0, 0x2710, .keepAlive⟩,
    ⟨0x140014, 0x0, 1, 0x0, 1, 0x0, 0x0, 0x0, 0x0, 0x0, 0x0, .keepAlive⟩,
    ⟨0x140018, 0x0, 1, 0x0, 1, 0x7F, 0x0, 0x0, 0x0, 0x0, 0x5, .keepAlive⟩,
    ⟨0x140040, 0x0, 1, 0x0, 1, 0x1FFFF, 0x0, 0x0, 0x0, 0x80000000, 0x0, .keepAlive⟩,
    ⟨0x140044, 0x0, 1, 0x0, 1, 0xFFFFFFFF, 0x0, 0x0, 0x0, 0x0, 0x0, .keepAlive⟩,
    ⟨0x140048, 0x0, 1, 0x0, 1, 0xFFFFFFFF, 0x0, 0x0, 0x0, 0x0, 0x0, .keepAlive⟩,
    ⟨0x140050, 0x0, 1, 0x0, 1, 0x1FFFE, 0x0, 0x0, 0x0, 0x0, 0x0, .keepAlive⟩,
    ⟨0x140060, 0x4, 8, 0x0, 1, 0x0, 0x0, 0x0, 0x0, 0x0, 0x0, .keepAlive⟩,
    ⟨0x140080, 0x4, 16, 0x0, 1, 0x0, 0x0, 0x0, 0x0, 0x0, 0x0, .keepAlive⟩,
    ⟨0x140400, 0x4, 64, 0x0, 1, 0x1FF, 0x0, 0x0, 0x0, 0x0, 0x0, .keepAlive⟩,
    ⟨0x141000, 0x4, 512, 0x0, 1, 0x800001FF, 0x0, 0x0, 0x0, 0x0, 0x0, .keepAlive⟩,
    ⟨0x140100, 0x0, 1, 0x0, 1, 0x0, 0x0, 0x0, 0xFFFFFFFF, 0x0, 0x0, .keepAlive⟩,
    ⟨0x140104, 0x0, 1, 0x0, 1, 0x0, 0x0, 0x0, 0xFFFFFFFF, 0x0, 0x0, .keepAlive⟩,
    ⟨0x140108, 0x0, 1, 0x0, 1, 0x0, 0x0, 0x0, 0xFFFFFFFF, 0x0, 0x0, .keepAlive⟩,
    ⟨0x14010C, 0x0, 1, 0x0, 1, 0x0, 0x0, 0x0, 0xFFFFFFFF, 0x0, 0x0, .keepAlive⟩,
    ⟨0x140110, 0x0, 1, 0x0, 1, 0x0, 0x0, 0x0, 0xFFFFFFFF, 0x0, 0x0, .keepAlive⟩ ]
/-- Register rows of WARDEN, part 1. -/
def rowsWARDEN1 : List RegRow :=
  [ ⟨0x140114, 0x0, 1, 0x0, 1, 0x0, 0x0, 0x0, 0xFFFFFFFF, 0x0, 0x0, .keepAlive⟩,
    ⟨0x140118, 0x0, 1, 0x0, 1, 0x0, 0x0, 0x0, 0xFFFFFFFF, 0x0, 0x0, .keepAlive⟩,
    ⟨0x14011C, 0x0, 1, 0x0, 1, 0x0, 0x0, 0x0, 0xFFFFFFFF, 0x0, 0x0, .keepAlive⟩,
    ⟨0x140120, 0x0, 1, 0x0, 1, 0x0, 0x0, 0x0, 0xFFFFFFFF, 0x0, 0x0, .keepAlive⟩,
    ⟨0x140124, 0x0, 1, 0x0, 1, 0x0, 0x0, 0x0, 0xFFFFFFFF, 0x0, 0x0, .keepAlive⟩,
    ⟨0x140128, 0x0, 1, 0x0, 1, 0x0, 0x0, 0x0, 0xFFFFFFFF, 0x0, 0x0, .keepAlive⟩,
    ⟨0x14012C, 0x0, 1, 0x0, 1, 0x0, 0x0, 0x0, 0xFFFFFFFF, 0x0, 0x0, .keepAlive⟩,
    ⟨0x140130, 0x0, 1, 0x0, 1, 0x0, 0x0, 0x0, 0xFFFFFFFF, 0x0, 0x0, .keepAlive⟩,
    ⟨0x140134, 0x0, 1, 0x0, 1, 0x0, 0x0, 0x0, 0xFFFFFFFF, 0x0, 0x0, .keepAlive⟩,
    ⟨0x140138, 0x0, 1, 0x0, 1, 0x0, 0x0, 0x0, 0xFFFFFFFF, 0x0, 0x0, .keepAlive⟩,
    ⟨0x14013C, 0x0, 1, 0x0, 1, 0x0, 0x0, 0x0, 0xFFFFFFFF, 0x0, 0x0, .keepAlive⟩,
    ⟨0x140140, 0x0, 1, 0x0, 1, 0x0, 0x0, 0x0, 0xFFFFFFFF, 0x0, 0x0, .keepAlive⟩,
    ⟨0x140144, 0x0, 1, 0x0, 1, 0x0, 0x0, 0x0, 0xFFFFFFFF, 0x0, 0x0, .keepAlive⟩,
    ⟨0x140148, 0x0, 1, 0x0, 1, 0x0, 0x0, 0x0, 0xFFFFFFFF, 0x0, 0x0, .keepAlive⟩,
    ⟨0x14014C, 0x0, 1, 0x0, 1, 0x0, 0x0, 0x0, 0xFFFFFFFF, 0x0, 0x0, .keepAlive⟩,
    ⟨0x140150, 0x0, 1, 0x0, 1, 0x0, 0x0, 0x0, 0xFFFFFFFF, 0x0, 0x0, .keepAlive⟩,
    ⟨0x140154, 0x0, 1, 0x0, 1, 0x0, 0x0, 0x0, 0xFFFFFFFF, 0x0, 0x0, .keepAlive⟩,
    ⟨0x140158, 0x0, 1, 0x0, 1, 0x0, 0x0, 0x0, 0xFFFFFFFF, 0x0, 0x0, .keepAlive⟩ ]
/-- Register rows of SWC, part 0. -/
def rowsSWC0 : List RegRow :=
  [ ⟨0x20000, 0x0, 1, 0x0, 1, 0x0, 0x0, 0x0, 0x0, 0x0, 0x1, .main⟩,
    ⟨0x20010, 0x0, 1, 0x0, 1, 0xFFFFFF, 0x0, 0x0, 0x0, 0x0, 0xFFFFFF, .main⟩,
    ⟨0x20020, 0x4, 3, 0x0, 1, 0x1FFFFF, 0x0, 0x0, 0x0, 0x0, 0x1AC688, .main⟩,
    ⟨0x20040, 0x8, 4, 0x0, 1, 0xFFFFFFFF, 0x0, 0x0, 0x0, 0x0, 0x18181818, .main⟩,
    ⟨0x20044, 0x8, 4, 0x0, 1, 0xFFFF, 0x0, 0x0, 0x0, 0x0, 0x1818, .main⟩,
    ⟨0x20060, 0x0, 1, 0x0, 1, 0x0, 0x0, 0x0, 0x0, 0x0, 0x0, .main⟩,
    ⟨0x20064, 0x0, 1, 0x0, 1, 0x0, 0x0, 0x0, 0x0, 0x0, 0x1, .main⟩,
    ⟨0x20070, 0x0, 1, 0x0, 1, 0x0, 0x0, 0x0, 0x0, 0x0, 0x6000, .main⟩,
    ⟨0x20074, 0x0, 1, 0x0, 1, 0x0, 0x0, 0x0, 0x7FFF, 0x0, 0x6000, .main⟩,
    ⟨0x20078, 0x0, 1, 0x0, 1, 0x0, 0x0, 0x0, 0x0, 0x0, 0x400, .main⟩,
    ⟨0x2007C, 0x0, 1, 0x0, 1, 0xFFFF, 0x0, 0x0, 0x0, 0x0, 0x64, .main⟩,
    ⟨0x20100, 0x4, 32, 0x0, 1, 0x7FFF, 0x0, 0x0, 0x0, 0x0, 0x800, .main⟩,
    ⟨0x20200, 0x4, 32, 0x0, 1, 0x0, 0x0, 0x0, 0x0, 0x0, 0x0, .main⟩,
    ⟨0x20280, 0x4, 32, 0x0, 1, 0x0, 0x0, 0x0, 0x7FFF, 0x0, 0x0, .main⟩,
    ⟨0x20300, 0x4, 32, 0x0, 1, 0x0, 0x0, 0x0, 0xFFFFFFFF, 0x0, 0x0, .main⟩,
    ⟨0x20380, 0x4, 4, 0x0, 1, 0x0, 0x0, 0x0, 0xFFFFFFFF, 0x0, 0x0, .main⟩,
    ⟨0x20400, 0x0, 1, 0x0, 1, 0x0, 0x0, 0x0, 0xFFFFFFFF, 0x0, 0x0, .main⟩,
    ⟨0x20404, 0x0, 1, 0x0, 1, 0x0, 0x0, 0x0, 0xFFFFFFFF, 0x0, 0x0, .main⟩,
    ⟨0x20408, 0x0, 1, 0x0, 1, 0x0, 0x0, 0x0, 0xFFFFFFFF, 0x0, 0x0, .main⟩,
    ⟨0x2040C, 0x0, 1, 0x0, 1, 0x0, 0x0, 0x0, 0xFFFFFFFF, 0x0, 0x0, .main⟩ ]
/-- Register rows of SWC, part 1. -/
def rowsSWC1 : List RegRow :=
  [ ⟨0x20410, 0x0, 1, 0x0, 1, 0x0, 0x0, 0x0, 0xFFFFFFFF, 0x0, 0x0, .main⟩,
    ⟨0x20414, 0x0, 1, 0x0, 1, 0x0, 0x0, 0x0, 0xFFFFFFFF, 0x0, 0x0, .main⟩,
    ⟨0x20418, 0x0, 1, 0x0, 1, 0x0, 0x0, 0x0, 0xFFFFFFFF, 0x0, 0x0, .main⟩,
    ⟨0x2041C, 0x0, 1, 0x0, 1, 0x0, 0x0, 0x0, 0xFFFFFFFF, 0x0, 0x0, .main⟩,
    ⟨0x20420, 0x0, 1, 0x0, 1, 0x0, 0x0, 0x0, 0xFFFFFFFF, 0x0, 0x0, .main⟩,
    ⟨0x20480, 0x0, 1, 0x0, 1, 0x0, 0x0, 0x0, 0xFFFFFFFF, 0x0, 0x0, .keepAlive⟩,
    ⟨0x20484, 0x0, 1, 0x0, 1, 0x0, 0x0, 0x0, 0xFFFFFFFF, 0x0, 0x0, .keepAlive⟩,
    ⟨0x20488, 0x0, 1, 0x0, 1, 0x0, 0x0, 0x0, 0xFFFFFFFF, 0x0, 0x0, .keepAlive⟩,
    ⟨0x2048C, 0x0, 1, 0x0, 1, 0x0, 0x0, 0x0, 0xFFFFFFFF, 0x0, 0x0, .keepAlive⟩ ]
/-- Register rows of TXN, part 0. -/
def rowsTXN0 : List RegRow :=
  [ ⟨0x30000, 0x0, 1, 0x0, 1, 0x0, 0x0, 0x0, 0x0, 0x0, 0x0, .main⟩,
    ⟨0x30004, 0x0, 1, 0x0, 1, 0x0, 0x7, 0x0, 0x0, 0x0, 0x0, .main⟩,
    ⟨0x30010, 0x10, 3, 0x0, 1, 0x103FF, 0x0, 0x0, 0x0, 0x0, 0x10100, .main⟩,
    ⟨0x30014, 0x10, 3, 0x0, 1, 0xFFFFF, 0x0, 0x0, 0x0, 0x0, 0x7D0, .main⟩,
    ⟨0x30018, 0x10, 3, 0x0, 1, 0x0, 0x0, 0x0, 0x0, 0x0, 0x0, .main⟩,
    ⟨0x3001C, 0x10, 3, 0x0, 1, 0x0, 0x0, 0x0, 0x3FF, 0x0, 0x0, .main⟩,
    ⟨0x30040, 0x0, 1, 0x0, 1, 0x0, 0x0, 0x0, 0x1FF, 0x0, 0x0, .main⟩,
    ⟨0x30044, 0x0, 1, 0x0, 1, 0x3FF, 0x0, 0x0, 0x0, 0x0, 0xA, .main⟩,
    ⟨0x30050, 0x0, 1, 0x0, 1, 0x0, 0x0, 0x0, 0x0, 0x0, 0x0, .main⟩,
    ⟨0x30060, 0x4, 6, 0x0, 1, 0x0, 0x0, 0x0, 0x0, 0x0, 0x0, .main⟩,
    ⟨0x30400, 0x20, 3, 0x4, 8, 0xFFF3FFFF, 0x0, 0x0, 0x0, 0x0, 0x0, .main⟩,
    ⟨0x30800, 0x20, 64, 0x0, 1, 0x0, 0x0, 0x0, 0x0, 0x0, 0x0, .main⟩,
    ⟨0x30804, 0x20, 64, 0x0, 1, 0x0, 0x0, 0x0, 0x0, 0x0, 0x0, .main⟩,
    ⟨0x30808, 0x20, 64, 0x0, 1, 0x0, 0x0, 0x0, 0x0, 0x0, 0x0, .main⟩,
    ⟨0x3080C, 0x20, 64, 0x0, 1, 0x0, 0x80000000, 0x0, 0x0, 0x0, 0x0, .main⟩,
    ⟨0x30810, 0x20, 64, 0x0, 1, 0x0, 0x0, 0x0, 0x0, 0x0, 0x0, .main⟩,
    ⟨0x30100, 0x0, 1, 0x0, 1, 0x0, 0x0, 0x0, 0xFFFFFFFF, 0x0, 0x0, .main⟩,
    ⟨0x30104, 0x0, 1, 0x0, 1, 0x0, 0x0, 0x0, 0xFFFFFFFF, 0x0, 0x0, .main⟩,
    ⟨0x30108, 0x0, 1, 0x0, 1, 0x0, 0x0, 0x0, 0xFFFFFFFF, 0x0, 0x0, .main⟩,
    ⟨0x3010C, 0x0, 1, 0x0, 1, 0x0, 0x0, 0x0, 0xFFFFFFFF, 0x0, 0x0, .main⟩ ]
/-- Register rows of TXN, part 1. -/
def rowsTXN1 : List RegRow :=
  [ ⟨0x30110, 0x0, 1, 0x0, 1, 0x0, 0x0, 0x0, 0xFFFFFFFF, 0x0, 0x0, .main⟩,
    ⟨0x30114, 0x0, 1, 0x0, 1, 0x0, 0x0, 0x0, 0xFFFFFFFF, 0x0, 0x0, .main⟩,
    ⟨0x30118, 0x0, 1, 0x0, 1, 0x0, 0x0, 0x0, 0xFFFFFFFF, 0x0, 0x0, .main⟩,
    ⟨0x3011C, 0x0, 1, 0x0, 1, 0x0, 0x0, 0x0, 0xFFFFFFFF, 0x0, 0x0, .main⟩,
    ⟨0x30120, 0x0, 1, 0x0, 1, 0x0, 0x0, 0x0, 0xFFFFFFFF, 0x0, 0x0, .main⟩,
    ⟨0x30124, 0x0, 1, 0x0, 1, 0x0, 0x0, 0x0, 0xFFFFFFFF, 0x0, 0x0, .main⟩,
    ⟨0x30128, 0x0, 1, 0x0, 1, 0x0, 0x0, 0x0, 0xFFFFFFFF, 0x0, 0x0, .main⟩,
    ⟨0x3012C, 0x0, 1, 0x0, 1, 0x0, 0x0, 0x0, 0xFFFFFFFF, 0x0, 0x0, .main⟩,
    ⟨0x30130, 0x0, 1, 0x0, 1, 0x0, 0x0, 0x0, 0xFFFFFFFF, 0x0, 0x0, .main⟩,
    ⟨0x30134, 0x0, 1, 0x0, 1, 0x0, 0x0, 0x0, 0xFFFFFFFF, 0x0, 0x0, .main⟩,
    ⟨0x30138, 0x0, 1, 0x0, 1, 0x0, 0x0, 0x0, 0xFFFFFFFF, 0x0, 0x0, .main⟩,
    ⟨0x3013C, 0x0, 1, 0x0, 1, 0x0, 0x0, 0x0, 0xFFFFFFFF, 0x0, 0x0, .main⟩,
    ⟨0x30140, 0x0, 1, 0x0, 1, 0x0, 0x0, 0x0, 0xFFFFFFFF, 0x0, 0x0, .main⟩ ]
/-- Register rows of CYC, part 0. -/
def rowsCYC0 : List RegRow :=
  [ ⟨0x40000, 0x0, 1, 0x0, 1, 0x8000000F, 0x0, 0x0, 0x0, 0x0, 0x0, .main⟩,
    ⟨0x40004, 0x0, 1, 0x0, 1, 0x0, 0x0, 0x0, 0x0, 0x0, 0x0, .main⟩,
    ⟨0x40010, 0x0, 1, 0x0, 1, 0x9F0000FF, 0x0, 0x0, 0x0, 0x0, 0x0, .main⟩,
    ⟨0x40014, 0x0, 1, 0x0, 1, 0x3FFFFFF, 0x0, 0x0, 0x0, 0x0, 0x0, .main⟩,
    ⟨0x40020, 0x4, 4, 0x0, 1, 0xF07F0FFF, 0x0, 0x0, 0x0, 0x0, 0x0, .main⟩,
    ⟨0x40040, 0x0, 1, 0x0, 1, 0x0, 0x0, 0x0, 0x0, 0x0, 0x0, .main⟩,
    ⟨0x40044, 0x0, 1, 0x0, 1, 0x0, 0x0, 0x0, 0x0, 0x0, 0x0, .main⟩,
    ⟨0x40100, 0x20, 32, 0x0, 1, 0xB0FF01FF, 0x0, 0x0, 0x0, 0x0, 0x0, .main⟩,
    ⟨0x40104, 0x20, 32, 0x0, 1, 0x3FFFFFF, 0x0, 0x0, 0x0, 0x0, 0x7A12, .main⟩,
    ⟨0x40108, 0x20, 32, 0x0, 1, 0xFFFFFFFF, 0x0, 0x0, 0x0, 0x0, 0x0, .main⟩,
    ⟨0x4010C, 0x20, 32, 0x0, 1, 0xFFFFFFFF, 0x0, 0x0, 0x0, 0x0, 0x0, .main⟩,
    ⟨0x40110, 0x20, 32, 0x0, 1, 0x3FFFFFF, 0x0, 0x0, 0x0, 0x0, 0x0, .main⟩,
    ⟨0x40114, 0x20, 32, 0x0, 1, 0x3FFFFFF, 0x0, 0x0, 0x0, 0x0, 0x0, .main⟩,
    ⟨0x40118, 0x20, 32, 0x0, 1, 0x0, 0x0, 0x0, 0x0, 0x0, 0x0, .main⟩,
    ⟨0x4011C, 0x20, 32, 0x0, 1, 0x0, 0x0, 0x0, 0x0, 0x0, 0x0, .main⟩,
    ⟨0x40800, 0x10, 64, 0x0, 1, 0x9FFF01FF, 0x0, 0x0, 0x0, 0x0, 0x0, .main⟩,
    ⟨0x40804, 0x10, 64, 0x0, 1, 0xC0FF01FF, 0x0, 0x0, 0x0, 0x0, 0x0, .main⟩,
    ⟨0x40808, 0x10, 64, 0x0, 1, 0x0, 0x0, 0x0, 0x0, 0x0, 0x0, .main⟩,
    ⟨0x400C0, 0x0, 1, 0x0, 1, 0x0, 0x0, 0x0, 0xFFFFFFFF, 0x0, 0x0, .main⟩,
    ⟨0x400C4, 0x0, 1, 0x0, 1, 0x0, 0x0, 0x0, 0xFFFFFFFF, 0x0, 0x0, .main⟩ ]
/-- Register rows of CYC, part 1. -/
def rowsCYC1 : List RegRow :=
  [ ⟨0x400C8, 0x0, 1, 0x0, 1, 0x0, 0x0, 0x0, 0xFFFFFFFF, 0x0, 0x0, .main⟩,
    ⟨0x400CC, 0x0, 1, 0x0, 1, 0x0, 0x0, 0x0, 0xFFFFFFFF, 0x0, 0x0, .main⟩,
    ⟨0x400D0, 0x0, 1, 0x0, 1, 0x0, 0x0, 0x0, 0xFFFFFFFF, 0x0, 0x0, .main⟩,
    ⟨0x400D4, 0x0, 1, 0x0, 1, 0x0, 0x0, 0x0, 0xFFFFFFFF, 0x0, 0x0, .main⟩,
    ⟨0x400D8, 0x0, 1, 0x0, 1, 0x0, 0x0, 0x0, 0xFFFFFFFF, 0x0, 0x0, .main⟩,
    ⟨0x400DC, 0x0, 1, 0x0, 1, 0x0, 0x0, 0x0, 0xFFFFFFFF, 0x0, 0x0, .main⟩,
    ⟨0x400E0, 0x0, 1, 0x0, 1, 0x0, 0x0, 0x0, 0xFFFFFFFF, 0x0, 0x0, .main⟩,
    ⟨0x400E4, 0x0, 1, 0x0, 1, 0x0, 0x0, 0x0, 0xFFFFFFFF, 0x0, 0x0, .main⟩ ]
/-- Register rows of PB, part 0. -/
def rowsPB0 : List RegRow :=
  [ ⟨0x50000, 0x100, 16, 0x0, 1, 0x3, 0x0, 0x0, 0x0, 0x0, 0x2, .main⟩,
    ⟨0x50004, 0x100, 16, 0x0, 1, 0x0, 0x2, 0x0, 0x0, 0x0, 0x0, .main⟩,
    ⟨0x50008, 0x100, 16, 0x0, 1, 0x0, 0x0, 0x0, 0x0, 0x0, 0x0, .main⟩,
    ⟨0x5000C, 0x100, 16, 0x0, 1, 0xFFFF, 0x0, 0x0, 0x0, 0x0, 0x0, .main⟩,
    ⟨0x50010, 0x100, 16, 0x0, 1, 0x0, 0x0, 0xFFFF, 0x0, 0x0, 0x0, .main⟩,
    ⟨0x50014, 0x100, 16, 0x0, 1, 0x0, 0xFFFF, 0x0, 0x0, 0x0, 0x0, .main⟩,
    ⟨0x50018, 0x100, 16, 0x0, 1, 0x0, 0x0, 0x0, 0x0, 0xFFFF, 0x0, .main⟩,
    ⟨0x5001C, 0x100, 16, 0x0, 1, 0x0, 0x0, 0x0, 0x0, 0x0, 0x0, .main⟩ ]
/-- Register rows of PIN, part 0. -/
def rowsPIN0 : List RegRow :=
  [ ⟨0x58000, 0x10, 256, 0x0, 1, 0xFE0007F3, 0x0, 0x0, 0x0, 0x0, 0x0, .main⟩,
    ⟨0x58004, 0x10, 256, 0x0, 1, 0x1FFFF, 0x0, 0x0, 0x0, 0x0, 0x0, .main⟩,
    ⟨0x58008, 0x10, 256, 0x0, 1, 0x0, 0x0, 0x0, 0x0, 0x0, 0x0, .main⟩,
    ⟨0x5800C, 0x10, 256, 0x0, 1, 0x0, 0x0, 0x0, 0xFFFFFFFF, 0x0, 0x0, .main⟩ ]
/-- Register rows of FPIN, part 0. -/
def rowsFPIN0 : List RegRow :=
  [ ⟨0x52000, 0x4, 8, 0x0, 1, 0x0, 0x0, 0x0, 0x0, 0x0, 0x0, .main⟩,
    ⟨0x52040, 0x0, 1, 0x0, 1, 0x0, 0x0, 0x0, 0xFFFFFFFF, 0x0, 0x0, .main⟩,
    ⟨0x52044, 0x0, 1, 0x0, 1, 0x0, 0xFFFF, 0x0, 0x0, 0x0, 0x0, .main⟩ ]
/-- Register rows of JRN, part 0. -/
def rowsJRN0 : List RegRow :=
  [ ⟨0x60000, 0x0, 1, 0x0, 1, 0x800000FF, 0x0, 0x0, 0x0, 0x0, 0xA, .keepAlive⟩,
    ⟨0x60008, 0x0, 1, 0x0, 1, 0xFFFFF, 0x0, 0x0, 0x0, 0x0, 0x0, .keepAlive⟩,
    ⟨0x6000C, 0x0, 1, 0x0, 1, 0x3FFF, 0x0, 0x0, 0x0, 0x0, 0x0, .keepAlive⟩,
    ⟨0x60010, 0x0, 1, 0x0, 1, 0x0, 0x0, 0x0, 0x0, 0x0, 0x0, .keepAlive⟩,
    ⟨0x60014, 0x0, 1, 0x0, 1, 0x0, 0x0, 0x0, 0x0, 0x0, 0x0, .keepAlive⟩,
    ⟨0x60018, 0x0, 1, 0x0, 1, 0x0, 0x0, 0x0, 0x0, 0x0, 0x0, .keepAlive⟩,
    ⟨0x60020, 0x0, 1, 0x0, 1, 0x0, 0x1FF, 0x0, 0x0, 0x0, 0x0, .main⟩,
    ⟨0x60200, 0x0, 1, 0x0, 1, 0x0, 0x0, 0x0, 0xFFFFFFFF, 0x0, 0x0, .main⟩,
    ⟨0x60204, 0x0, 1, 0x0, 1, 0x0, 0x0, 0x0, 0xFFFFFFFF, 0x0, 0x0, .main⟩,
    ⟨0x60208, 0x0, 1, 0x0, 1, 0x0, 0x0, 0x0, 0xFFFFFFFF, 0x0, 0x0, .main⟩ ]
/-- Register rows of RD, part 0. -/
def rowsRD0 : List RegRow :=
  [ ⟨0x60100, 0x20, 4, 0x0, 1, 0xFFFFFFFF, 0x0, 0x0, 0x0, 0x0, 0x0, .keepAlive⟩,
    ⟨0x60104, 0x20, 4, 0x0, 1, 0xFFFFFFFF, 0x0, 0x0, 0x0, 0x0, 0x0, .keepAlive⟩,
    ⟨0x60108, 0x20, 4, 0x0, 1, 0xFFFFFFFF, 0x0, 0x0, 0x0, 0x0, 0x0, .keepAlive⟩,
    ⟨0x6010C, 0x20, 4, 0x0, 1, 0x0, 0x1, 0x0, 0x0, 0x0, 0x2, .keepAlive⟩ ]
/-- Register rows of BOB, part 0. -/
def rowsBOB0 : List RegRow :=
  [ ⟨0x80000, 0x100, 64, 0x0, 1, 0x0, 0x0, 0x0, 0x0, 0x7, 0x0, .main⟩,
    ⟨0x80004, 0x100, 64, 0x0, 1, 0x0, 0xF0000, 0x0, 0x0, 0x0, 0x8, .main⟩,
    ⟨0x80008, 0x100, 64, 0x0, 1, 0xF1F1F, 0x0, 0x0, 0x0, 0x0, 0x800, .main⟩,
    ⟨0x8000C, 0x100, 64, 0x0, 1, 0x7713F, 0x0, 0x0, 0x0, 0x0, 0x20, .main⟩,
    ⟨0x80010, 0x100, 64, 0x0, 1, 0xFFFFF, 0x0, 0x0, 0x0, 0x0, 0xFFFFF, .main⟩,
    ⟨0x80014, 0x100, 64, 0x0, 1, 0xFFFFF, 0x0, 0x0, 0x0, 0x0, 0xFFFFF, .main⟩,
    ⟨0x80018, 0x100, 64, 0x0, 1, 0xFFFFFF, 0x0, 0x0, 0x0, 0x0, 0x0, .main⟩,
    ⟨0x8001C, 0x100, 64, 0x0, 1, 0xFFFFFF, 0x0, 0x0, 0x0, 0x0, 0x0, .main⟩,
    ⟨0x80020, 0x100, 64, 0x4, 8, 0x73F, 0x0, 0x0, 0x0, 0x0, 0x0, .main⟩,
    ⟨0x80040, 0x100, 64, 0x0, 1, 0x0, 0x0, 0x0, 0x0, 0x0, 0x0, .main⟩,
    ⟨0x80044, 0x100, 64, 0x0, 1, 0x0, 0x0, 0x0, 0x0, 0x0, 0x0, .main⟩,
    ⟨0x80048, 0x100, 64, 0x0, 1, 0x0, 0x0, 0x0, 0x0, 0x0, 0x200000, .main⟩,
    ⟨0x80050, 0x100, 64, 0x0, 1, 0x3, 0x0, 0x0, 0x0, 0x0, 0x0, .main⟩,
    ⟨0x80054, 0x100, 64, 0x0, 1, 0x0, 0x0, 0x0, 0x0, 0x0, 0x0, .main⟩,
    ⟨0x80058, 0x100, 64, 0x0, 1, 0x0, 0x0, 0x0, 0x1F1F, 0x0, 0x0, .main⟩,
    ⟨0x8005C, 0x100, 64, 0x0, 1, 0x0, 0x0, 0x0, 0x0, 0x0, 0x0, .main⟩,
    ⟨0x80060, 0x100, 64, 0x0, 1, 0x0, 0x0, 0x0, 0x0, 0xFFFFFFFF, 0x0, .main⟩,
    ⟨0x80064, 0x100, 64, 0x0, 1, 0x0, 0x0, 0x0, 0x0, 0x4, 0x0, .main⟩,
    ⟨0x80068, 0x100, 64, 0x0, 1, 0x0, 0x0, 0x0, 0xFFFFFFFF, 0x0, 0x0, .main⟩,
    ⟨0x8006C, 0x100, 64, 0x0, 1, 0x0, 0x0, 0x0, 0x7, 0x0, 0x0, .main⟩ ]
/-- Register rows of BOB, part 1. -/
def rowsBOB1 : List RegRow :=
  [ ⟨0x80080, 0x100, 64, 0x0, 1, 0x0, 0x0, 0x0, 0xFFFFFFFF, 0x0, 0x0, .main⟩,
    ⟨0x80084, 0x100, 64, 0x0, 1, 0x0, 0x0, 0x0, 0xFFFFFFFF, 0x0, 0x0, .main⟩,
    ⟨0x80088, 0x100, 64, 0x0, 1, 0x0, 0x0, 0x0, 0xFFFFFFFF, 0x0, 0x0, .main⟩,
    ⟨0x8008C, 0x100, 64, 0x0, 1, 0x0, 0x0, 0x0, 0xFFFFFFFF, 0x0, 0x0, .main⟩ ]
/-- Register rows of BOBG, part 0. -/
def rowsBOBG0 : List RegRow :=
  [ ⟨0x88000, 0x0, 1, 0x0, 1, 0x0, 0x0, 0x0, 0x0, 0xFFFFFFFF, 0x0, .main⟩,
    ⟨0x88004, 0x0, 1, 0x0, 1, 0x0, 0x0, 0x0, 0x0, 0xFFFFFFFF, 0x0, .main⟩,
    ⟨0x88008, 0x0, 1, 0x0, 1, 0x0, 0x0, 0x0, 0x0, 0xFFFFFFFF, 0x0, .main⟩,
    ⟨0x8800C, 0x0, 1, 0x0, 1, 0x0, 0x0, 0x0, 0x0, 0xFFFFFFFF, 0x0, .main⟩,
    ⟨0x88010, 0x0, 1, 0x0, 1, 0x0, 0x0, 0x0, 0x0, 0xFFFFFFFF, 0x0, .main⟩,
    ⟨0x88014, 0x0, 1, 0x0, 1, 0x0, 0x0, 0x0, 0x0, 0xFFFFFFFF, 0x0, .main⟩,
    ⟨0x88020, 0x0, 1, 0x0, 1, 0x0, 0x0, 0x0, 0x0, 0x0, 0x0, .main⟩,
    ⟨0x88024, 0x0, 1, 0x0, 1, 0x0, 0x0, 0x0, 0x0, 0x0, 0x0, .main⟩,
    ⟨0x88030, 0x0, 1, 0x0, 1, 0x0, 0xFFFFFFFF, 0x0, 0x0, 0x0, 0x0, .main⟩,
    ⟨0x88034, 0x0, 1, 0x0, 1, 0x0, 0xFFFFFFFF, 0x0, 0x0, 0x0, 0x0, .main⟩,
    ⟨0x88040, 0x0, 1, 0x0, 1, 0xFFFFFFFF, 0x0, 0x0, 0x0, 0x0, 0x0, .main⟩,
    ⟨0x88044, 0x0, 1, 0x0, 1, 0xFFFFFFFF, 0x0, 0x0, 0x0, 0x0, 0x0, .main⟩,
    ⟨0x88048, 0x0, 1, 0x0, 1, 0xFFFFFFFF, 0x0, 0x0, 0x0, 0x0, 0x0, .main⟩,
    ⟨0x8804C, 0x0, 1, 0x0, 1, 0xFFFFFFFF, 0x0, 0x0, 0x0, 0x0, 0x0, .main⟩,
    ⟨0x88060, 0x0, 1, 0x0, 1, 0x0, 0x0, 0x0, 0x0, 0xF, 0x0, .main⟩,
    ⟨0x88070, 0x4, 4, 0x0, 1, 0x13F, 0x0, 0x0, 0x0, 0x0, 0x0, .main⟩,
    ⟨0x88080, 0x0, 1, 0x0, 1, 0x0, 0x0, 0x0, 0x0, 0x0, 0x0, .main⟩,
    ⟨0x88084, 0x0, 1, 0x0, 1, 0x0, 0x0, 0x0, 0x0, 0x0, 0x0, .main⟩ ]
/-- Register rows of CAN, part 0. -/
def rowsCAN0 : List RegRow :=
  [ ⟨0xA0000, 0x1000, 8, 0x0, 1, 0x1FF0F7F, 0x0, 0x0, 0x0, 0x0, 0x10, .main⟩,
    ⟨0xA0004, 0x1000, 8, 0x0, 1, 0x0, 0x0, 0x0, 0x0, 0x1, 0x0, .main⟩,
    ⟨0xA0008, 0x1000, 8, 0x0, 1, 0x0, 0x38, 0x0, 0x0, 0x0, 0x0, .main⟩,
    ⟨0xA000C, 0x1000, 8, 0x0, 1, 0x0, 0x0, 0x0, 0x0, 0x0, 0x0, .main⟩,
    ⟨0xA0010, 0x1000, 8, 0x0, 1, 0x7F7FFF1F, 0x0, 0x0, 0x0, 0x0, 0x26269A01, .main⟩,
    ⟨0xA0014, 0x1000, 8, 0x0, 1, 0xF0F1F1F, 0x0, 0x0, 0x0, 0x0, 0x8081C00, .main⟩,
    ⟨0xA0018, 0x1000, 8, 0x0, 1, 0x7F, 0x0, 0x0, 0x0, 0x0, 0x1E, .main⟩,
    ⟨0xA0020, 0x1000, 8, 0x0, 1, 0x0, 0x0, 0x0, 0x3F, 0x0, 0x0, .main⟩,
    ⟨0xA0024, 0x1000, 8, 0x0, 1, 0x0, 0x0, 0x0, 0x0, 0x0, 0x0, .main⟩,
    ⟨0xA0100, 0x1000, 8, 0x4, 16, 0x0, 0x0, 0x0, 0x0, 0x0, 0x0, .main⟩,
    ⟨0xA0200, 0x1000, 8, 0x0, 1, 0x0, 0x0, 0x0, 0xFFFFFFFF, 0x0, 0x0, .main⟩,
    ⟨0xA0204, 0x1000, 8, 0x0, 1, 0x0, 0x0, 0x0, 0xFFFFFFFF, 0x0, 0x0, .main⟩,
    ⟨0xA0208, 0x1000, 8, 0x0, 1, 0x0, 0x0, 0x0, 0xFFFFFFFF, 0x0, 0x0, .main⟩,
    ⟨0xA020C, 0x1000, 8, 0x0, 1, 0x0, 0x0, 0x0, 0xFFFFFFFF, 0x0, 0x0, .main⟩,
    ⟨0xA0210, 0x1000, 8, 0x0, 1, 0x0, 0x0, 0x0, 0xFFFFFFFF, 0x0, 0x0, .main⟩,
    ⟨0xA0214, 0x1000, 8, 0x0, 1, 0x0, 0x0, 0x0, 0xFFFFFFFF, 0x0, 0x0, .main⟩,
    ⟨0xA0218, 0x1000, 8, 0x0, 1, 0x0, 0x0, 0x0, 0xFFFFFFFF, 0x0, 0x0, .main⟩,
    ⟨0xA021C, 0x1000, 8, 0x0, 1, 0x0, 0x0, 0x0, 0xFFFFFFFF, 0x0, 0x0, .main⟩,
    ⟨0xA0220, 0x1000, 8, 0x0, 1, 0x0, 0x0, 0x0, 0xFFFFFFFF, 0x0, 0x0, .main⟩,
    ⟨0xA0224, 0x1000, 8, 0x0, 1, 0x0, 0x0, 0x0, 0xFFFFFFFF, 0x0, 0x0, .main⟩ ]
/-- Register rows of CAN, part 1. -/
def rowsCAN1 : List RegRow :=
  [ ⟨0xA0228, 0x1000, 8, 0x0, 1, 0x0, 0x0, 0x0, 0xFFFFFFFF, 0x0, 0x0, .main⟩,
    ⟨0xA022C, 0x1000, 8, 0x0, 1, 0x0, 0x0, 0x0, 0xFFFFFFFF, 0x0, 0x0, .main⟩,
    ⟨0xA0230, 0x1000, 8, 0x0, 1, 0x0, 0x0, 0x0, 0xFFFFFFFF, 0x0, 0x0, .main⟩,
    ⟨0xA0234, 0x1000, 8, 0x0, 1, 0x0, 0x0, 0x0, 0xFFFFFFFF, 0x0, 0x0, .main⟩ ]
/-- Register rows of STB, part 0. -/
def rowsSTB0 : List RegRow :=
  [ ⟨0xC0000, 0x0, 1, 0x0, 1, 0x3, 0x0, 0x0, 0x0, 0x0, 0x0, .main⟩,
    ⟨0xC0004, 0x0, 1, 0x0, 1, 0x0, 0x0, 0x0, 0x0, 0x0, 0x0, .main⟩,
    ⟨0xC0008, 0x0, 1, 0x0, 1, 0x0, 0xF, 0x0, 0x0, 0x0, 0x0, .main⟩,
    ⟨0xC0010, 0x0, 1, 0x0, 1, 0x0, 0x0, 0x0, 0x0, 0x0, 0x0, .main⟩,
    ⟨0xC0014, 0x0, 1, 0x0, 1, 0x0, 0x0, 0x0, 0x0, 0x0, 0x0, .main⟩,
    ⟨0xC0018, 0x0, 1, 0x0, 1, 0x0, 0x0, 0x0, 0x0, 0x0, 0x0, .main⟩,
    ⟨0xC001C, 0x0, 1, 0x0, 1, 0x0, 0x0, 0x0, 0x0, 0x0, 0x0, .main⟩,
    ⟨0xC0030, 0x0, 1, 0x0, 1, 0xF, 0x0, 0x0, 0x0, 0x0, 0x0, .main⟩,
    ⟨0xC0034, 0x0, 1, 0x0, 1, 0x0, 0x0, 0x0, 0x0, 0x0, 0x0, .main⟩,
    ⟨0xC0038, 0x0, 1, 0x0, 1, 0x0, 0xF, 0x0, 0x0, 0x0, 0x0, .main⟩,
    ⟨0xC003C, 0x0, 1, 0x0, 1, 0xF, 0x0, 0x0, 0x0, 0x0, 0x0, .main⟩,
    ⟨0xC0040, 0x0, 1, 0x0, 1, 0xF, 0x0, 0x0, 0x0, 0x0, 0x0, .main⟩,
    ⟨0xC0044, 0x0, 1, 0x0, 1, 0x0, 0x0, 0x0, 0x1F, 0x0, 0x0, .main⟩,
    ⟨0xC0100, 0x0, 1, 0x0, 1, 0x0, 0x0, 0x0, 0xFFFFFFFF, 0x0, 0x0, .main⟩,
    ⟨0xC0104, 0x0, 1, 0x0, 1, 0x0, 0x0, 0x0, 0xFFFFFFFF, 0x0, 0x0, .main⟩,
    ⟨0xC0108, 0x0, 1, 0x0, 1, 0x0, 0x0, 0x0, 0xFFFFFFFF, 0x0, 0x0, .main⟩,
    ⟨0xC010C, 0x0, 1, 0x0, 1, 0x0, 0x0, 0x0, 0xFFFFFFFF, 0x0, 0x0, .main⟩,
    ⟨0xC0110, 0x0, 1, 0x0, 1, 0x0, 0x0, 0x0, 0xFFFFFFFF, 0x0, 0x0, .main⟩,
    ⟨0xC0114, 0x0, 1, 0x0, 1, 0x0, 0x0, 0x0, 0xFFFFFFFF, 0x0, 0x0, .main⟩,
    ⟨0xC0118, 0x0, 1, 0x0, 1, 0x0, 0x0, 0x0, 0xFFFFFFFF, 0x0, 0x0, .main⟩ ]
/-- Register rows of STB, part 1. -/
def rowsSTB1 : List RegRow :=
  [ ⟨0xC011C, 0x0, 1, 0x0, 1, 0x0, 0x0, 0x0, 0xFFFFFFFF, 0x0, 0x0, .main⟩,
    ⟨0xC0120, 0x0, 1, 0x0, 1, 0x0, 0x0, 0x0, 0xFFFFFFFF, 0x0, 0x0, .main⟩,
    ⟨0xC0124, 0x0, 1, 0x0, 1, 0x0, 0x0, 0x0, 0xFFFFFFFF, 0x0, 0x0, .main⟩,
    ⟨0xC0128, 0x0, 1, 0x0, 1, 0x0, 0x0, 0x0, 0xFFFFFFFF, 0x0, 0x0, .main⟩ ]
/-- Register rows of WIN, part 0. -/
def rowsWIN0 : List RegRow :=
  [ ⟨0xC0400, 0x40, 16, 0x0, 1, 0x83FF3307, 0x0, 0x0, 0x0, 0x0, 0xC0200, .main⟩,
    ⟨0xC0404, 0x40, 16, 0x0, 1, 0xFFFFFFF, 0x0, 0x0, 0x0, 0x0, 0x0, .main⟩,
    ⟨0xC0408, 0x40, 16, 0x0, 1, 0x3F, 0x0, 0x0, 0x0, 0x0, 0xC, .main⟩,
    ⟨0xC040C, 0x40, 16, 0x0, 1, 0xFFFFF000, 0x0, 0x0, 0x0, 0x0, 0x0, .main⟩,
    ⟨0xC0410, 0x40, 16, 0x0, 1, 0xFFFF, 0x0, 0x0, 0x0, 0x0, 0x64, .main⟩ ]
/-- Register rows of USB, part 0. -/
def rowsUSB0 : List RegRow :=
  [ ⟨0xD0000, 0x0, 1, 0x0, 1, 0xFF07, 0x0, 0x0, 0x0, 0x0, 0x203, .main⟩,
    ⟨0xD0004, 0x0, 1, 0x0, 1, 0x0, 0x0, 0x0, 0x0, 0x0, 0x0, .main⟩,
    ⟨0xD0008, 0x0, 1, 0x0, 1, 0xFFFFFFFF, 0x0, 0x0, 0x0, 0x0, 0x41612F1C, .main⟩,
    ⟨0xD000C, 0x0, 1, 0x0, 1, 0xFFFF, 0x0, 0x0, 0x0, 0x0, 0x4160, .main⟩,
    ⟨0xD0010, 0x0, 1, 0x0, 1, 0x0, 0x37F, 0x0, 0x0, 0x0, 0x0, .main⟩,
    ⟨0xD0014, 0x0, 1, 0x0, 1, 0x0, 0x1F, 0x0, 0x0, 0x0, 0x0, .main⟩,
    ⟨0xD0040, 0x0, 1, 0x0, 1, 0x0, 0x0, 0x0, 0x0, 0x0, 0x0, .main⟩,
    ⟨0xD0048, 0x0, 1, 0x0, 1, 0xFFFFFFFF, 0x0, 0x0, 0x0, 0x0, 0x0, .main⟩,
    ⟨0xD004C, 0x0, 1, 0x0, 1, 0xFFFFFFFF, 0x0, 0x0, 0x0, 0x0, 0x0, .main⟩,
    ⟨0xD0024, 0x4, 4, 0x0, 1, 0x0, 0x300, 0x0, 0x0, 0x0, 0x0, .main⟩,
    ⟨0xD0100, 0x0, 1, 0x0, 1, 0x0, 0x0, 0x0, 0xFFFFFFFF, 0x0, 0x0, .main⟩,
    ⟨0xD0104, 0x0, 1, 0x0, 1, 0x0, 0x0, 0x0, 0xFFFFFFFF, 0x0, 0x0, .main⟩,
    ⟨0xD0108, 0x0, 1, 0x0, 1, 0x0, 0x0, 0x0, 0xFFFFFFFF, 0x0, 0x0, .main⟩,
    ⟨0xD010C, 0x0, 1, 0x0, 1, 0x0, 0x0, 0x0, 0xFFFFFFFF, 0x0, 0x0, .main⟩,
    ⟨0xD0110, 0x0, 1, 0x0, 1, 0x0, 0x0, 0x0, 0xFFFFFFFF, 0x0, 0x0, .main⟩,
    ⟨0xD0114, 0x0, 1, 0x0, 1, 0x0, 0x0, 0x0, 0xFFFFFFFF, 0x0, 0x0, .main⟩,
    ⟨0xD0118, 0x0, 1, 0x0, 1, 0x0, 0x0, 0x0, 0xFFFFFFFF, 0x0, 0x0, .main⟩,
    ⟨0xD011C, 0x0, 1, 0x0, 1, 0x0, 0x0, 0x0, 0xFFFFFFFF, 0x0, 0x0, .main⟩,
    ⟨0xD0120, 0x0, 1, 0x0, 1, 0x0, 0x0, 0x0, 0xFFFFFFFF, 0x0, 0x0, .main⟩,
    ⟨0xD0124, 0x0, 1, 0x0, 1, 0x0, 0x0, 0x0, 0xFFFFFFFF, 0x0, 0x0, .main⟩ ]
/-- Register rows of USB, part 1. -/
def rowsUSB1 : List RegRow :=
  [ ⟨0xD0128, 0x0, 1, 0x0, 1, 0x0, 0x0, 0x0, 0xFFFFFFFF, 0x0, 0x0, .main⟩ ]
/-- Register rows of TIME, part 0. -/
def rowsTIME0 : List RegRow :=
  [ ⟨0xE0000, 0x0, 1, 0x0, 1, 0xE1, 0x0, 0x0, 0x0, 0x0, 0x1, .keepAlive⟩,
    ⟨0xE0004, 0x0, 1, 0x0, 1, 0x0, 0x0, 0x0, 0x0, 0x3, 0x0, .keepAlive⟩,
    ⟨0xE0008, 0x0, 1, 0x0, 1, 0x0, 0x1300, 0x0, 0x0, 0x0, 0x810, .keepAlive⟩,
    ⟨0xE0010, 0x0, 1, 0x0, 1, 0x0, 0x0, 0x0, 0x0, 0x0, 0x0, .keepAlive⟩,
    ⟨0xE0014, 0x0, 1, 0x0, 1, 0x0, 0x0, 0x0, 0x0, 0x0, 0x0, .keepAlive⟩,
    ⟨0xE0018, 0x0, 1, 0x0, 1, 0x0, 0x0, 0x0, 0x0, 0x0, 0x0, .keepAlive⟩,
    ⟨0xE0020, 0x0, 1, 0x0, 1, 0x0, 0x0, 0x0, 0x0, 0xFFFFFFFF, 0x0, .keepAlive⟩,
    ⟨0xE0024, 0x0, 1, 0x0, 1, 0x0, 0x0, 0x0, 0x0, 0xFFFFFFFF, 0x0, .keepAlive⟩,
    ⟨0xE0028, 0x0, 1, 0x0, 1, 0xFFFFFFFF, 0x0, 0x0, 0x0, 0x0, 0x8F5C28F6, .keepAlive⟩,
    ⟨0xE002C, 0x0, 1, 0x0, 1, 0xFF, 0x0, 0x0, 0x0, 0x0, 0x2, .keepAlive⟩,
    ⟨0xE0030, 0x0, 1, 0x0, 1, 0xFFFFFF, 0x0, 0x0, 0x0, 0x0, 0x3E8, .keepAlive⟩,
    ⟨0xE0034, 0x0, 1, 0x0, 1, 0x3FF, 0x0, 0x0, 0x0, 0x0, 0x64, .keepAlive⟩,
    ⟨0xE0038, 0x0, 1, 0x0, 1, 0x3FFFF, 0x0, 0x0, 0x0, 0x0, 0x10032, .keepAlive⟩,
    ⟨0xE0200, 0x0, 1, 0x0, 1, 0x0, 0x0, 0x0, 0xFFFFFFFF, 0x0, 0x0, .keepAlive⟩,
    ⟨0xE0204, 0x0, 1, 0x0, 1, 0x0, 0x0, 0x0, 0xFFFFFFFF, 0x0, 0x0, .keepAlive⟩,
    ⟨0xE0208, 0x0, 1, 0x0, 1, 0x0, 0x0, 0x0, 0xFFFFFFFF, 0x0, 0x0, .keepAlive⟩,
    ⟨0xE020C, 0x0, 1, 0x0, 1, 0x0, 0x0, 0x0, 0xFFFFFFFF, 0x0, 0x0, .keepAlive⟩,
    ⟨0xE0210, 0x0, 1, 0x0, 1, 0x0, 0x0, 0x0, 0xFFFFFFFF, 0x0, 0x0, .keepAlive⟩,
    ⟨0xE0214, 0x0, 1, 0x0, 1, 0x0, 0x0, 0x0, 0xFFFFFFFF, 0x0, 0x0, .keepAlive⟩,
    ⟨0xE0218, 0x0, 1, 0x0, 1, 0x0, 0x0, 0x0, 0xFFFFFFFF, 0x0, 0x0, .keepAlive⟩ ]
/-- Register rows of TIME, part 1. -/
def rowsTIME1 : List RegRow :=
  [ ⟨0xE021C, 0x0, 1, 0x0, 1, 0x0, 0x0, 0x0, 0xFFFFFFFF, 0x0, 0x0, .keepAlive⟩,
    ⟨0xE0220, 0x0, 1, 0x0, 1, 0x0, 0x0, 0x0, 0xFFFFFFFF, 0x0, 0x0, .keepAlive⟩,
    ⟨0xE0224, 0x0, 1, 0x0, 1, 0x0, 0x0, 0x0, 0xFFFFFFFF, 0x0, 0x0, .keepAlive⟩,
    ⟨0xE0228, 0x0, 1, 0x0, 1, 0x0, 0x0, 0x0, 0xFFFFFFFF, 0x0, 0x0, .keepAlive⟩,
    ⟨0xE0230, 0x4, 3, 0x0, 1, 0x0, 0x0, 0x0, 0xFFFFFFFF, 0x0, 0x0, .keepAlive⟩ ]
/-- Register rows of DOM, part 0. -/
def rowsDOM0 : List RegRow :=
  [ ⟨0xE0040, 0x20, 2, 0x0, 1, 0x8FFF00FF, 0x0, 0x0, 0x0, 0x0, 0x81F40000, .keepAlive⟩,
    ⟨0xE0044, 0x20, 2, 0x0, 1, 0x0, 0x0, 0x0, 0x0, 0x0, 0x0, .keepAlive⟩,
    ⟨0xE0048, 0x20, 2, 0x0, 1, 0x0, 0x0, 0x0, 0x0, 0x0, 0x0, .keepAlive⟩,
    ⟨0xE004C, 0x20, 2, 0x0, 1, 0x0, 0x0, 0x0, 0x0, 0x0, 0x0, .keepAlive⟩,
    ⟨0xE0050, 0x20, 2, 0x0, 1, 0x0, 0x0, 0x0, 0x0, 0x0, 0x0, .keepAlive⟩,
    ⟨0xE0054, 0x20, 2, 0x0, 1, 0x0, 0x0, 0x0, 0x0, 0x0, 0x0, .keepAlive⟩,
    ⟨0xE0058, 0x20, 2, 0x0, 1, 0x87FFFFFF, 0x0, 0x0, 0x0, 0x0, 0x3F80025, .keepAlive⟩ ]
/-- Register rows of PD, part 0. -/
def rowsPD0 : List RegRow :=
  [ ⟨0xE0100, 0x20, 3, 0x0, 1, 0x87000000, 0x0, 0x0, 0x0, 0x0, 0x83000000, .keepAlive⟩,
    ⟨0xE0104, 0x20, 3, 0x0, 1, 0x0, 0x0, 0x0, 0x0, 0x0, 0x0, .keepAlive⟩,
    ⟨0xE0108, 0x20, 3, 0x0, 1, 0x0, 0x0, 0x0, 0x0, 0x0, 0x0, .keepAlive⟩,
    ⟨0xE010C, 0x20, 3, 0x0, 1, 0xFFFF, 0x0, 0x0, 0x0, 0x0, 0x0, .keepAlive⟩,
    ⟨0xE0110, 0x20, 3, 0x0, 1, 0xFFFF, 0x0, 0x0, 0x0, 0x0, 0x0, .keepAlive⟩ ]
/-- Register rows of PIC, part 0. -/
def rowsPIC0 : List RegRow :=
  [ ⟨0xE0800, 0x40, 16, 0x0, 1, 0xFC0000FF, 0x0, 0x0, 0x0, 0x0, 0x0, .main⟩,
    ⟨0xE0804, 0x40, 16, 0x0, 1, 0xFFFFFFFF, 0x0, 0x0, 0x0, 0x0, 0x0, .main⟩,
    ⟨0xE0808, 0x40, 16, 0x0, 1, 0xFFFFFFFF, 0x0, 0x0, 0x0, 0x0, 0x0, .main⟩,
    ⟨0xE080C, 0x40, 16, 0x0, 1, 0xFFFFFFFF, 0x0, 0x0, 0x0, 0x0, 0x0, .main⟩,
    ⟨0xE0810, 0x40, 16, 0x0, 1, 0xFFFF, 0x0, 0x0, 0x0, 0x0, 0x0, .main⟩,
    ⟨0xE0814, 0x40, 16, 0x0, 1, 0xFFFFFFFF, 0x0, 0x0, 0x0, 0x0, 0x0, .main⟩,
    ⟨0xE0818, 0x40, 16, 0x0, 1, 0xFFFFFFFF, 0x0, 0x0, 0x0, 0x0, 0x0, .main⟩,
    ⟨0xE081C, 0x40, 16, 0x0, 1, 0x0, 0x40000000, 0x0, 0x0, 0x0, 0x0, .main⟩,
    ⟨0xE0820, 0x40, 16, 0x0, 1, 0x0, 0x0, 0x0, 0x0, 0x0, 0x0, .main⟩,
    ⟨0xE0824, 0x40, 16, 0x0, 1, 0x0, 0x0, 0x0, 0xFFFFFFFF, 0x0, 0x0, .main⟩,
    ⟨0xE0828, 0x40, 16, 0x0, 1, 0x0, 0x0, 0x0, 0xFFFFFFFF, 0x0, 0x0, .main⟩ ]
/-- Register rows of FEED, part 0. -/
def rowsFEED0 : List RegRow :=
  [ ⟨0xF0040, 0x100, 2, 0x0, 1, 0x0, 0x0, 0x0, 0x0, 0x0, 0x0, .main⟩,
    ⟨0xF0044, 0x100, 2, 0x0, 1, 0x0, 0x0, 0x0, 0x0, 0x0, 0x0, .power⟩,
    ⟨0xF0048, 0x100, 2, 0x0, 1, 0x0, 0x0, 0x0, 0x0, 0x0, 0x0, .power⟩,
    ⟨0xF004C, 0x100, 2, 0x0, 1, 0x0, 0x0, 0x0, 0x0, 0x0, 0x0, .power⟩,
    ⟨0xF0050, 0x100, 2, 0x0, 1, 0x1FFFF, 0x0, 0x0, 0x0, 0x0, 0x7D0, .power⟩,
    ⟨0xF0054, 0x100, 2, 0x0, 1, 0x0, 0x0, 0x0, 0xFFFF, 0x0, 0x0, .power⟩,
    ⟨0xF0058, 0x100, 2, 0x0, 1, 0x0, 0x0, 0x0, 0x0, 0x1, 0x0, .power⟩,
    ⟨0xF0000, 0x100, 2, 0x0, 1, 0xFFF0FFF, 0x0, 0x0, 0x0, 0x0, 0x25800B4, .power⟩,
    ⟨0xF0004, 0x100, 2, 0x0, 1, 0x17F, 0x0, 0x0, 0x0, 0x0, 0x10A, .power⟩,
    ⟨0xF0008, 0x100, 2, 0x0, 1, 0x0, 0x700, 0x0, 0x0, 0x0, 0x0, .power⟩,
    ⟨0xF0080, 0x100, 2, 0x0, 1, 0x0, 0x0, 0x0, 0xFFFFFFFF, 0x0, 0x0, .power⟩,
    ⟨0xF0084, 0x100, 2, 0x0, 1, 0x0, 0x0, 0x0, 0xFFFFFFFF, 0x0, 0x0, .power⟩,
    ⟨0xF0088, 0x100, 2, 0x0, 1, 0x0, 0x0, 0x0, 0xFFFFFFFF, 0x0, 0x0, .power⟩ ]
/-- Register rows of NBUS, part 0. -/
def rowsNBUS0 : List RegRow :=
  [ ⟨0xF0240, 0x0, 1, 0x0, 1, 0x0, 0x0, 0x0, 0x0, 0x0, 0x0, .main⟩,
    ⟨0xF0244, 0x0, 1, 0x0, 1, 0x0, 0x0, 0x0, 0x0, 0x0, 0x0, .power⟩,
    ⟨0xF0248, 0x0, 1, 0x0, 1, 0x0, 0x0, 0x0, 0x0, 0x0, 0x0, .power⟩,
    ⟨0xF024C, 0x0, 1, 0x0, 1, 0x0, 0x0, 0x0, 0x0, 0x0, 0x0, .power⟩,
    ⟨0xF0250, 0x0, 1, 0x0, 1, 0x1FFFF, 0x0, 0x0, 0x0, 0x0, 0x7D0, .power⟩,
    ⟨0xF0254, 0x0, 1, 0x0, 1, 0x0, 0x0, 0x0, 0xFFFF, 0x0, 0x0, .power⟩,
    ⟨0xF0258, 0x0, 1, 0x0, 1, 0x0, 0x0, 0x0, 0x0, 0x1, 0x0, .power⟩ ]
/-- Register rows of BR, part 0. -/
def rowsBR0 : List RegRow :=
  [ ⟨0xF1040, 0x100, 16, 0x0, 1, 0x0, 0x0, 0x0, 0x0, 0x0, 0x0, .main⟩,
    ⟨0xF1044, 0x100, 16, 0x0, 1, 0x0, 0x0, 0x0, 0x0, 0x0, 0x0, .power⟩,
    ⟨0xF1048, 0x100, 16, 0x0, 1, 0x0, 0x0, 0x0, 0x0, 0x0, 0x0, .power⟩,
    ⟨0xF104C, 0x100, 16, 0x0, 1, 0x0, 0x0, 0x0, 0x0, 0x0, 0x0, .power⟩,
    ⟨0xF1050, 0x100, 16, 0x0, 1, 0x1FFFF, 0x0, 0x0, 0x0, 0x0, 0x7D0, .power⟩,
    ⟨0xF1054, 0x100, 16, 0x0, 1, 0x0, 0x0, 0x0, 0xFFFF, 0x0, 0x0, .power⟩,
    ⟨0xF1058, 0x100, 16, 0x0, 1, 0x0, 0x0, 0x0, 0x0, 0x1, 0x0, .power⟩,
    ⟨0xF1000, 0x100, 16, 0x0, 1, 0x9, 0x0, 0x0, 0x0, 0x2, 0x0, .power⟩,
    ⟨0xF1004, 0x100, 16, 0x0, 1, 0x1FFFFFF, 0x0, 0x0, 0x0, 0x0, 0x322710, .power⟩,
    ⟨0xF1008, 0x100, 16, 0x0, 1, 0x3FF007F, 0x0, 0x0, 0x0, 0x0, 0xC8000A, .power⟩,
    ⟨0xF100C, 0x100, 16, 0x0, 1, 0xFF0FFF, 0x0, 0x0, 0x0, 0x0, 0x30064, .power⟩,
    ⟨0xF1010, 0x100, 16, 0x0, 1, 0xFFFF, 0x0, 0x0, 0x0, 0x0, 0x64, .power⟩,
    ⟨0xF1014, 0x100, 16, 0x0, 1, 0x3FF007F, 0x0, 0x0, 0x0, 0x0, 0xA005A, .power⟩,
    ⟨0xF1018, 0x100, 16, 0x0, 1, 0x0, 0x10000, 0x0, 0x0, 0x0, 0x0, .power⟩,
    ⟨0xF1080, 0x100, 16, 0x0, 1, 0x0, 0x0, 0x0, 0xFFFFFFFF, 0x0, 0x0, .power⟩,
    ⟨0xF1084, 0x100, 16, 0x0, 1, 0x0, 0x0, 0x0, 0xFFFFFFFF, 0x0, 0x0, .power⟩,
    ⟨0xF1088, 0x100, 16, 0x0, 1, 0x0, 0x0, 0x0, 0xFFFFFFFF, 0x0, 0x0, .power⟩,
    ⟨0xF108C, 0x100, 16, 0x0, 1, 0x0, 0x0, 0x0, 0xFFFFFFFF, 0x0, 0x0, .power⟩,
    ⟨0xF1090, 0x100, 16, 0x0, 1, 0x0, 0x0, 0x0, 0xFFFFFFFF, 0x0, 0x0, .power⟩ ]
/-- Register rows of PWR, part 0. -/
def rowsPWR0 : List RegRow :=
  [ ⟨0xF0400, 0x0, 1, 0x0, 1, 0x0, 0xA, 0x0, 0x0, 0x0, 0x4, .main⟩,
    ⟨0xF0404, 0x0, 1, 0x0, 1, 0x103FF, 0x0, 0x0, 0x0, 0x0, 0xC8, .power⟩,
    ⟨0xF0480, 0x0, 1, 0x0, 1, 0x0, 0x0, 0x0, 0xFFFFFFFF, 0x0, 0x0, .main⟩,
    ⟨0xF0484, 0x0, 1, 0x0, 1, 0x0, 0x0, 0x0, 0xFFFFFFFF, 0x0, 0x0, .main⟩,
    ⟨0xF0488, 0x0, 1, 0x0, 1, 0x0, 0x0, 0x0, 0xFFFFFFFF, 0x0, 0x0, .power⟩,
    ⟨0xF048C, 0x0, 1, 0x0, 1, 0x0, 0x0, 0x0, 0xFFFFFFFF, 0x0, 0x0, .power⟩,
    ⟨0xF0490, 0x0, 1, 0x0, 1, 0x0, 0x0, 0x0, 0xFFFFFFFF, 0x0, 0x0, .main⟩ ]
/-- Register rows of TWIN, part 0. -/
def rowsTWIN0 : List RegRow :=
  [ ⟨0x100000, 0x0, 1, 0x0, 1, 0xC0FFFFFF, 0x0, 0x0, 0x0, 0x0, 0x400A0A01, .main⟩,
    ⟨0x100004, 0x0, 1, 0x0, 1, 0x0, 0x0, 0x0, 0x0, 0x0, 0x0, .main⟩,
    ⟨0x100008, 0x0, 1, 0x0, 1, 0x0, 0x0, 0x0, 0x0, 0x3, 0x0, .main⟩,
    ⟨0x100010, 0x0, 1, 0x0, 1, 0xFFFFFFFF, 0x0, 0x0, 0x0, 0x0, 0x0, .main⟩,
    ⟨0x100014, 0x0, 1, 0x0, 1, 0xFFFFFFFF, 0x0, 0x0, 0x0, 0x0, 0x0, .main⟩,
    ⟨0x100018, 0x0, 1, 0x0, 1, 0x0, 0x2, 0x0, 0x0, 0x0, 0x0, .main⟩,
    ⟨0x100020, 0x0, 1, 0x0, 1, 0x0, 0x0, 0x0, 0x0, 0x0, 0x0, .main⟩,
    ⟨0x100024, 0x0, 1, 0x0, 1, 0x0, 0x0, 0x0, 0x0, 0x0, 0x0, .main⟩,
    ⟨0x100028, 0x0, 1, 0x0, 1, 0x0, 0x0, 0x0, 0x0, 0x0, 0x0, .main⟩,
    ⟨0x10002C, 0x0, 1, 0x0, 1, 0x0, 0x0, 0x0, 0x0, 0x0, 0x0, .main⟩,
    ⟨0x100040, 0x4, 8, 0x0, 1, 0x0, 0xFFFFFFFF, 0x0, 0x0, 0x0, 0x0, .main⟩,
    ⟨0x100060, 0x4, 8, 0x0, 1, 0x0, 0xFFFFFFFF, 0x0, 0x0, 0x0, 0x0, .main⟩,
    ⟨0x101000, 0x4, 512, 0x0, 1, 0x0, 0x0, 0x0, 0x0, 0x0, 0x3FF0000, .main⟩,
    ⟨0x100100, 0x0, 1, 0x0, 1, 0x0, 0x0, 0x0, 0xFFFFFFFF, 0x0, 0x0, .main⟩,
    ⟨0x100104, 0x0, 1, 0x0, 1, 0x0, 0x0, 0x0, 0xFFFFFFFF, 0x0, 0x0, .main⟩,
    ⟨0x100108, 0x0, 1, 0x0, 1, 0x0, 0x0, 0x0, 0xFFFFFFFF, 0x0, 0x0, .main⟩,
    ⟨0x10010C, 0x0, 1, 0x0, 1, 0x0, 0x0, 0x0, 0xFFFFFFFF, 0x0, 0x0, .main⟩,
    ⟨0x100110, 0x0, 1, 0x0, 1, 0x0, 0x0, 0x0, 0xFFFFFFFF, 0x0, 0x0, .main⟩,
    ⟨0x100114, 0x0, 1, 0x0, 1, 0x0, 0x0, 0x0, 0xFFFFFFFF, 0x0, 0x0, .main⟩,
    ⟨0x100118, 0x0, 1, 0x0, 1, 0x0, 0x0, 0x0, 0xFFFFFFFF, 0x0, 0x0, .main⟩ ]
/-- Register rows of MEM, part 0. -/
def rowsMEM0 : List RegRow :=
  [ ⟨0x110000, 0x0, 1, 0x0, 1, 0xFF00, 0x0, 0x0, 0x0, 0x0, 0x1801, .main⟩,
    ⟨0x110004, 0x0, 1, 0x0, 1, 0x0, 0x8, 0x0, 0x0, 0x0, 0x10, .main⟩,
    ⟨0x110010, 0x0, 1, 0x0, 1, 0x0, 0x0, 0x0, 0x0, 0x0, 0x0, .main⟩,
    ⟨0x110014, 0x0, 1, 0x0, 1, 0x0, 0x0, 0x0, 0x0, 0x0, 0x0, .main⟩,
    ⟨0x110018, 0x0, 1, 0x0, 1, 0x0, 0x0, 0x0, 0x0, 0x0, 0x0, .main⟩,
    ⟨0x11001C, 0x0, 1, 0x0, 1, 0x0, 0x0, 0x0, 0x0, 0x0, 0x0, .main⟩,
    ⟨0x110020, 0x0, 1, 0x0, 1, 0x0, 0x0, 0x0, 0x0, 0x0, 0x0, .main⟩,
    ⟨0x110024, 0x0, 1, 0x0, 1, 0x0, 0x80000000, 0x0, 0x0, 0x0, 0x0, .main⟩,
    ⟨0x110100, 0x4, 16, 0x0, 1, 0x7, 0x0, 0x0, 0x0, 0x0, 0x0, .main⟩,
    ⟨0x110180, 0x0, 1, 0x0, 1, 0x0, 0x0, 0x0, 0x0, 0x0, 0x0, .main⟩,
    ⟨0x110184, 0x0, 1, 0x0, 1, 0x0, 0x0, 0x0, 0x0, 0x0, 0x0, .main⟩,
    ⟨0x110188, 0x0, 1, 0x0, 1, 0x0, 0x0, 0x0, 0x0, 0x0, 0x0, .main⟩,
    ⟨0x110200, 0x0, 1, 0x0, 1, 0x0, 0x0, 0x0, 0x0, 0x0, 0x1, .main⟩,
    ⟨0x110400, 0x0, 1, 0x0, 1, 0x0, 0x0, 0x0, 0xFFFFFFFF, 0x0, 0x0, .main⟩,
    ⟨0x110404, 0x0, 1, 0x0, 1, 0x0, 0x0, 0x0, 0xFFFFFFFF, 0x0, 0x0, .main⟩,
    ⟨0x110408, 0x0, 1, 0x0, 1, 0x0, 0x0, 0x0, 0xFFFFFFFF, 0x0, 0x0, .main⟩,
    ⟨0x11040C, 0x0, 1, 0x0, 1, 0x0, 0x0, 0x0, 0xFFFFFFFF, 0x0, 0x0, .main⟩,
    ⟨0x110410, 0x0, 1, 0x0, 1, 0x0, 0x0, 0x0, 0xFFFFFFFF, 0x0, 0x0, .main⟩,
    ⟨0x110414, 0x0, 1, 0x0, 1, 0x0, 0x0, 0x0, 0xFFFFFFFF, 0x0, 0x0, .main⟩,
    ⟨0x110418, 0x0, 1, 0x0, 1, 0x0, 0x0, 0x0, 0xFFFFFFFF, 0x0, 0x0, .main⟩ ]
/-- Register rows of MEM, part 1. -/
def rowsMEM1 : List RegRow :=
  [ ⟨0x11041C, 0x0, 1, 0x0, 1, 0x0, 0x0, 0x0, 0xFFFFFFFF, 0x0, 0x0, .main⟩,
    ⟨0x110420, 0x0, 1, 0x0, 1, 0x0, 0x0, 0x0, 0xFFFFFFFF, 0x0, 0x0, .main⟩ ]
/-- Register rows of HOST, part 0. -/
def rowsHOST0 : List RegRow :=
  [ ⟨0x130100, 0x0, 1, 0x0, 1, 0xF1, 0x0, 0x0, 0x0, 0x0, 0x81, .main⟩,
    ⟨0x130000, 0x0, 1, 0x0, 1, 0x0, 0xE, 0x0, 0x0, 0x0, 0x100, .main⟩,
    ⟨0x130004, 0x0, 1, 0x0, 1, 0x0, 0x3F, 0x0, 0x0, 0x0, 0x0, .main⟩,
    ⟨0x130008, 0x0, 1, 0x0, 1, 0x3F, 0x0, 0x0, 0x0, 0x0, 0x0, .main⟩,
    ⟨0x13000C, 0x0, 1, 0x0, 1, 0xFFFFFFFF, 0x0, 0x0, 0x0, 0x0, 0x0, .main⟩,
    ⟨0x130010, 0x0, 1, 0x0, 1, 0x0, 0x0, 0x0, 0x0, 0x0, 0x0, .main⟩,
    ⟨0x130014, 0x0, 1, 0x0, 1, 0x0, 0x0, 0x0, 0xFF0000, 0x0, 0x0, .main⟩,
    ⟨0x130200, 0x0, 1, 0x0, 1, 0x0, 0x0, 0x0, 0xFFFFFFFF, 0x0, 0x0, .main⟩,
    ⟨0x130204, 0x0, 1, 0x0, 1, 0x0, 0x0, 0x0, 0xFFFFFFFF, 0x0, 0x0, .main⟩,
    ⟨0x130208, 0x0, 1, 0x0, 1, 0x0, 0x0, 0x0, 0xFFFFFFFF, 0x0, 0x0, .main⟩ ]
/-- Register rows of UPD, part 0. -/
def rowsUPD0 : List RegRow :=
  [ ⟨0x120000, 0x0, 1, 0x0, 1, 0x1FF, 0x0, 0x0, 0x0, 0x0, 0x11E, .main⟩,
    ⟨0x120004, 0x0, 1, 0x0, 1, 0x0, 0x0, 0x0, 0x0, 0x0, 0x0, .main⟩,
    ⟨0x120008, 0x0, 1, 0x0, 1, 0x0, 0x0, 0x0, 0x0, 0x0, 0x0, .main⟩,
    ⟨0x12000C, 0x0, 1, 0x0, 1, 0x0, 0x0, 0x0, 0x0, 0x0, 0x0, .main⟩,
    ⟨0x120010, 0x4, 8, 0x0, 1, 0x0, 0x0, 0x0, 0x0, 0x0, 0x0, .main⟩,
    ⟨0x120030, 0x0, 1, 0x0, 1, 0x0, 0x0, 0x0, 0x0, 0x0, 0x0, .main⟩,
    ⟨0x120034, 0x0, 1, 0x0, 1, 0x0, 0x0, 0x0, 0x0, 0x0, 0x0, .main⟩,
    ⟨0x120038, 0x0, 1, 0x0, 1, 0x0, 0x0, 0x0, 0x0, 0x0, 0x0, .main⟩,
    ⟨0x12003C, 0x0, 1, 0x0, 1, 0x0, 0x0, 0x0, 0x0, 0x0, 0x0, .main⟩,
    ⟨0x120050, 0x0, 1, 0x0, 1, 0x0, 0x0, 0x0, 0x0, 0x0, 0x0, .main⟩,
    ⟨0x120040, 0x4, 2, 0x0, 1, 0x87F3FFFF, 0x0, 0x0, 0x0, 0x0, 0x0, .main⟩,
    ⟨0x120100, 0x0, 1, 0x0, 1, 0x0, 0x0, 0x0, 0xFFFFFFFF, 0x0, 0x0, .main⟩,
    ⟨0x120104, 0x0, 1, 0x0, 1, 0x0, 0x0, 0x0, 0xFFFFFFFF, 0x0, 0x0, .main⟩,
    ⟨0x120108, 0x0, 1, 0x0, 1, 0x0, 0x0, 0x0, 0xFFFFFFFF, 0x0, 0x0, .main⟩,
    ⟨0x12010C, 0x0, 1, 0x0, 1, 0x0, 0x0, 0x0, 0xFFFFFFFF, 0x0, 0x0, .main⟩,
    ⟨0x120110, 0x0, 1, 0x0, 1, 0x0, 0x0, 0x0, 0xFFFFFFFF, 0x0, 0x0, .main⟩,
    ⟨0x120114, 0x0, 1, 0x0, 1, 0x0, 0x0, 0x0, 0xFFFFFFFF, 0x0, 0x0, .main⟩,
    ⟨0x120118, 0x0, 1, 0x0, 1, 0x0, 0x0, 0x0, 0xFFFFFFFF, 0x0, 0x0, .main⟩,
    ⟨0x12011C, 0x0, 1, 0x0, 1, 0x0, 0x0, 0x0, 0xFFFFFFFF, 0x0, 0x0, .main⟩,
    ⟨0x120120, 0x0, 1, 0x0, 1, 0x0, 0x0, 0x0, 0xFFFFFFFF, 0x0, 0x0, .main⟩ ]
/-- Register rows of UPD, part 1. -/
def rowsUPD1 : List RegRow :=
  [ ⟨0x120124, 0x0, 1, 0x0, 1, 0x0, 0x0, 0x0, 0xFFFFFFFF, 0x0, 0x0, .main⟩,
    ⟨0x120128, 0x0, 1, 0x0, 1, 0x0, 0x0, 0x0, 0xFFFFFFFF, 0x0, 0x0, .main⟩,
    ⟨0x12012C, 0x0, 1, 0x0, 1, 0x0, 0x0, 0x0, 0xFFFFFFFF, 0x0, 0x0, .main⟩,
    ⟨0x120130, 0x0, 1, 0x0, 1, 0x0, 0x0, 0x0, 0xFFFFFFFF, 0x0, 0x0, .main⟩ ]
/-- The register blocks in search order: first offset, first offset past the block, rows. A sub-block stands before the block that holds it. -/
def regBlocks : List (Nat × Nat × List RegRow) :=
  [ (0x50000, 0x51000, rowsPB0),
    (0x58000, 0x59000, rowsPIN0),
    (0x60100, 0x60180, rowsRD0),
    (0x80000, 0x84000, rowsBOB0 ++ rowsBOB1),
    (0xC0400, 0xC0800, rowsWIN0),
    (0xE0040, 0xE0080, rowsDOM0),
    (0xE0100, 0xE0160, rowsPD0),
    (0xF0000, 0xF0200, rowsFEED0),
    (0xF0200, 0xF0300, rowsNBUS0),
    (0xF1000, 0xF2000, rowsBR0),
    (0x0, 0x10000, rowsSYS0 ++ rowsSYS1),
    (0x10000, 0x20000, rowsPORT0 ++ rowsPORT1),
    (0x20000, 0x30000, rowsSWC0 ++ rowsSWC1),
    (0x30000, 0x40000, rowsTXN0 ++ rowsTXN1),
    (0x40000, 0x50000, rowsCYC0 ++ rowsCYC1),
    (0x60000, 0x70000, rowsJRN0),
    (0x88000, 0xA0000, rowsBOBG0),
    (0xA0000, 0xC0000, rowsCAN0 ++ rowsCAN1),
    (0xC0000, 0xD0000, rowsSTB0 ++ rowsSTB1),
    (0xD0000, 0xE0000, rowsUSB0 ++ rowsUSB1),
    (0xE0000, 0xE0800, rowsTIME0 ++ rowsTIME1),
    (0xE0800, 0xF0000, rowsPIC0),
    (0xF0000, 0x100000, rowsPWR0),
    (0x100000, 0x110000, rowsTWIN0),
    (0x110000, 0x120000, rowsMEM0 ++ rowsMEM1),
    (0x120000, 0x130000, rowsUPD0 ++ rowsUPD1),
    (0x130000, 0x140000, rowsHOST0),
    (0x140000, 0x150000, rowsWARDEN0 ++ rowsWARDEN1),
    (0x50000, 0x60000, rowsFPIN0) ]

/-- Whether offset `a` is a register of row `r`. -/
def RegRow.covers (r : RegRow) (a : Nat) : Bool :=
  if r.n1 ≤ 1 then a == r.base
  else
    decide (r.base ≤ a) &&
      (let d := a - r.base
       decide (d / r.s1 < r.n1) &&
         (if r.n2 ≤ 1 then d % r.s1 == 0
          else decide (d % r.s1 / r.s2 < r.n2) && (d % r.s1 % r.s2 == 0)))

/-- The row that holds offset `a`, if a register stands there (R438). -/
def findRow (a : Nat) : Option RegRow :=
  regBlocks.findSome? fun b =>
    if b.1 ≤ a ∧ a < b.2.1 then b.2.2.find? (fun r => r.covers a) else none

/-- Reset values that differ from instance to instance of one register (PORT.CTL, PORT.PREEMPT_CTL,
SWC.QCAP, TXN.INIT_CFG, DOM.DOM_CFG, PD.PD_CFG), and STRAP, whose SVC_N is pulled up (R395). -/
def resetOverride (a : Nat) : Option Nat :=
  [ (0x12000, 0x8), (0x12014, 0x30A00), (0x2011C, 0x1000), (0x2013C, 0x1000), (0x2015C, 0x1000), (0x2017C, 0x1000), (0x30020, 0x80), (0x30030, 0x80), (0xE0060, 0x81F40001), (0xE0140, 0x3000000), (0x18, 0x2) ].lookup a

/-- The _LO registers of pairs that hold one 64-bit value (R443): first offset, stride, count. The queue registers, NOW and the
energies have rules of their own (08 R207, 12 R292, 13 R341). -/
def loRegs : List (Nat × Nat × Nat) :=
  [ (0x128, 0x0, 1), (0x130, 0x0, 1), (0x204, 0x0, 1), (0x10104, 0x1000, 3), (0x10110, 0x1000, 3), (0x20040, 0x8, 4),
    (0x30800, 0x20, 64), (0x40040, 0x0, 1), (0x40108, 0x20, 32), (0x60010, 0x0, 1), (0x60100, 0x20, 4), (0x88000, 0x0, 1),
    (0x88008, 0x0, 1), (0x88010, 0x0, 1), (0x88020, 0x0, 1), (0x88030, 0x0, 1), (0x88040, 0x0, 1), (0x88048, 0x0, 1),
    (0x88080, 0x0, 1), (0xC0010, 0x0, 1), (0xC0018, 0x0, 1), (0xD0048, 0x0, 1), (0xE0020, 0x0, 1), (0xE0050, 0x20, 2),
    (0xE0804, 0x40, 16), (0x100010, 0x0, 1), (0x100020, 0x0, 1), (0x100028, 0x0, 1), (0x110010, 0x0, 1), (0x110018, 0x0, 1),
    (0x110020, 0x0, 1), (0x110180, 0x0, 1), (0x120030, 0x0, 1), (0x120038, 0x0, 1), (0x140044, 0x0, 1) ]

/-- Whether offset `a` is the _LO register of such a pair. -/
def isLo (a : Nat) : Bool :=
  loRegs.any fun l => decide (l.1 ≤ a) && (if l.2.2 ≤ 1 then a == l.1 else (a - l.1) % l.2.1 == 0 && decide ((a - l.1) / l.2.1 < l.2.2))

/-- The value register offset `a` holds after a reset of its domain (R441); 0 where no register stands (R438). -/
def regReset (a : Nat) : BitVec 32 :=
  match resetOverride a with
  | some v => BitVec.ofNat 32 v
  | none =>
    match findRow a with
    | some r => BitVec.ofNat 32 r.reset
    | none => 0#32

/-- The reset domain of offset `a`. -/
def regDom (a : Nat) : Dom :=
  match findRow a with
  | some r => r.dom
  | none => .main

end Sys2Proof.Machine
end

