-- ==== Sys2Proof/Machine/State.lean ====
section
/-!
DEFINITION. The state of the OV4160 as plain data, its faults and refusals, and the state after reset.
Every register of the register map has one home, the list `regs`, keyed by its offset from 0x30_0000_0000
and holding only the registers that differ from their reset value. What the spec names beside the registers
stands in the groups below, one structure per unit.
-/

namespace Sys2Proof.Machine

/-- No command of the table ends in a fault: the spec gives each an effect. The constructor is the closed type's
only name and nothing raises it; were it raised it would be safe. -/
inductive Fault where
  | none
  deriving DecidableEq, Repr

/-- Refusals of the model. -/
inductive Refusal where
  /-- Raised by a dispatch arm whose command has no meaning yet. Safe: nothing is claimed about it. -/
  | notModelled (mnemonic : String)
  deriving DecidableEq, Repr

/-- A queue, buffer or table entry that expires, one name per kind of deadline. -/
inductive Timer where
  /-- 02 R35, 100 ms of x_MODABS_N low -/
  | modPresent (p : Nat)
  /-- 02 R35, 300 ms before the identity is read -/
  | modWait (p : Nat)
  /-- 02 R40, 10 ms without a break -/
  | linkUp (p : Nat)
  /-- 02 R37, DDM_PERIOD -/
  | ddm (p : Nat)
  /-- 02 R43, DAMP_TIME -/
  | damp (p : Nat)
  /-- 02 R45, verifyTime -/
  | verify (p : Nat)
  /-- 03 R70, ABSENT_CLEAR -/
  | absent (n : Nat)
  /-- 03 R85, 300 µs after the last beacon -/
  | beaconOk
  /-- 03 R85, 300 µs after the last ROLE 0 beacon -/
  | role0
  /-- 03 R84, the margin of a down alarm -/
  | heldDown (p : Nat)
  /-- 03 R84, the margin of an up alarm -/
  | heldUp (p : Nat)
  /-- 03 R86, 10 s -/
  | topo
  /-- 03 R88, SETTLE of every flow -/
  | fenceAll
  /-- 04 R93, 100 µs -/
  | drain
  /-- 04 R96, 24,576 FAB cycles -/
  | purge
  /-- 04 R99, LOCAL_WAIT_MAX -/
  | localWait (c : Nat)
  /-- 05 R131 -/
  | tagTimeout (t : Nat)
  /-- 05 R131 -/
  | tagQuarantine (t : Nat)
  /-- 05 R125, 20 µs -/
  | lock (k : Nat)
  /-- 05 R143 -/
  | noticeGap
  /-- 05 R148, 5 ms -/
  | quiesce
  /-- 12 R299, 2^−LOG_INT s from link up -/
  | pdReq (p : Nat)
  /-- 07 R188, FLUSH -/
  | flush
  /-- 10 R263, 20 µs -/
  | stitchLock
  /-- 11 R274, 12 ms -/
  | portReset (n : Nat)
  /-- 11 R273, OC_BLANK -/
  | ocBlank (n : Nat)
  /-- 12 R303, SYNC_LOSS -/
  | syncLoss (d : Nat)
  /-- 12 R298, 1 s -/
  | gmAnnounce (d : Nat)
  /-- 14 R353, 3 µs after the last valid heartbeat -/
  | tether
  /-- 14 R363, 100 µs between claims -/
  | claim
  /-- 16 R416, the watchdog -/
  | wdog
  /-- 16 R415, 1.8 ms -/
  | wake
  /-- 01 R24, 256 PERI cycles -/
  | unit (u : ResetUnit)
  deriving DecidableEq, Repr

/-- What leaves the part, in the order it leaves (newest first in `State.out`): the model's own record of the part's
answers and signals, read by nothing. -/
inductive Out where
  /-- A frame left port `port`; `inverted` when its FCS was sent inverted (04 R103). -/
  | frame (port : Nat) (f : Frame) (inverted : Bool)
  /-- A frame left the spur, with one 802.1Q tag of VID and PCP when VID is set (02 R51). -/
  | spurFrame (f : Frame) (tag : Option (BitVec 12 × BitVec 3)) (inverted : Bool)
  /-- Bytes `start` up to `stop` of a frame left the port as a fragment of it; the rest follows (04 R105). -/
  | fragment (port : Nat) (f : Frame) (start stop : Nat)
  /-- A frame on the wire was cut and ended with an error code (02 R41). -/
  | cutFrame (port : Nat) (f : Frame)
  /-- The Clause 37 base page that the port advertises (02 R32). -/
  | advert (port : Nat) (page : BitVec 16)
  /-- A preemption verify frame left the port (02 R45). -/
  | verifyFrame (port : Nat)
  /-- A completion at a local initiator (05 R131). -/
  | cpl (init : Nat) (tag : Option Nat) (status : Status) (data : List Byte)
  /-- The completion of a register command given as a command of its own. -/
  | answer (status : Status)
  /-- The completion of a read given as a command of its own. -/
  | data (status : Status) (bytes : List Byte)
  /-- An interrupt to the control processor; the number is the R438 block offset of its source. -/
  | irq (line : Nat)
  /-- Bus cycles of the stitch bus: the address on ST_AD, then ST_BE_N and write data of each beat (10 R246 to R250). -/
  | stitch (cs : Nat) (write : Bool) (cycles : List (Nat × List (Nat × Nat)))
  /-- A frame sent on CAN bus `bus`, with the identifier and its format (09 R228). -/
  | can (bus : Nat) (ide : Bool) (id : BitVec 29) (f : CanFrame)
  /-- A packet or message on an endpoint of the station function (11 R279 to R286). -/
  | usb (ep : Nat) (bytes : List Byte)
  /-- A STALL on EP0 (11 R286). -/
  | usbStall
  /-- A NAK (11 R279). -/
  | usbNak (ep : Nat)
  /-- A packet was accepted and none more is, for now: NYET (11 R279). -/
  | usbNyet (ep : Nat)
  /-- What the hub answers on its EP0; none stands for STALL (11 R272). -/
  | hubEp0 (bytes : Option (List Byte))
  /-- A power link transaction: the master's bytes and the answer, CRC bytes included (13 R339, R340). -/
  | plk (src : Bool) (master target : List Byte)
  /-- TWIN_REL_N is pulled low for 2 µs and REL goes out on the tether (14 R354). -/
  | relPulse
  /-- A state delta on the tether: local address and bytes of a write that the field holder accepted (14 R353). -/
  | delta (addr : Nat) (bytes : List Byte)
  /-- A handover message or a relayed GRANT payload on the tether (14 R352, R364, R366). -/
  | tether (msg : List Byte)
  /-- What a host command returned, and whether HOST_BUSY marks it void (15 R383, R384). -/
  | host (void : Bool) (bytes : List Byte)
  deriving DecidableEq, Repr

/-- One edge-journal record before the writer gives it a position (07 R181). -/
structure JRec where
  time : Nat
  lost : Bool
  kind : Nat
  unlocked : Bool
  domain : Bool
  level : Bool
  source : Nat
  detail : Nat
  deriving DecidableEq, Repr

/-- Clock and reset state of the logic die that no register shows (01_node_anatomy.md R16 to R27, R451). -/
structure Anatomy where
  /-- POR_N or SYS_RST_N low, or a clock or core-voltage failure: both logic domains are held (R20, R22, R451). -/
  kaHeld : Bool := false
  /-- What holds them: 0 POR_N or SYS_RST_N, 1 a clock failure, 2 the core voltage; and the RST_CAUSE that the restart loads
  (18 R441). -/
  heldBy : Nat := 0
  cause : BitVec 8 := 1#8
  /-- The main domain is held in reset (R22). -/
  mainHeld : Bool := false
  /-- The logic die has no power (R27). -/
  unpowered : Bool := false
  /-- The SPREAD depth in effect (R18); CLK_CTL.SPREAD may be ahead of it until the triangle stands at nominal. -/
  spreadNow : BitVec 2 := 2#2
  /-- Clock at which SPREAD_LOCK was set: the spread triangle started there at nominal frequency (R18). -/
  triangle : Nat := 0
  /-- Consecutive polls without a valid answer (R17). -/
  plkFailRun : Nat := 0
  /-- Every field output released to its keeper, and CAN_TXD recessive (R20, R27). -/
  outputsReleased : Bool := true
  /-- DRAM contents are kept in self-refresh while the main domain is in reset (R22, R27). -/
  dramSelfRefresh : Bool := false
  /-- The shared buffer is being purged: the full path takes nothing and requests are answered BUSY (04 R96). -/
  purging : Bool := false
  deriving DecidableEq, Repr

/-- What a port holds beside its registers (02_ring_and_spur_ports.md). -/
structure PortState where
  /-- Times (clk, ps) of the link-downs still inside FLAP_WINDOW, newest first (R43). -/
  flaps : List Nat := []
  /-- A0h bytes 0 to 95 as read at insertion (R35). -/
  ident : List Byte := []
  /-- Verify frames sent since link up (R45). -/
  verifyTries : Nat := 0
  /-- x_MODABS_N low since the insertion began (R35). -/
  modLow : Bool := false
  deriving DecidableEq, Repr

/-- A duplicate-discard window of one injecting node and class (03 R67). -/
structure Window where
  valid : Bool := false
  top : BitVec 16 := 0#16
  map : BitVec 128 := 0#128
  deriving DecidableEq, Repr

/-- The warden's present round (03 R78, R82). -/
structure Round where
  bseq : BitVec 16 := 0#16
  launch : Nat := 0
  isOpen : Bool := false
  sentE : Bool := false
  sentW : Bool := false
  retE : Bool := false
  retW : Bool := false
  seen : BitVec 512 := 0#512
  closedE : Bool := false
  broken : List Nat := []
  orderErr : Bool := false
  deriving DecidableEq, Repr

/-- What the last closed round gave (03 R82, R86): the material of the next published beacon and of the report; its number and when
it closed, ns of the time counter. -/
structure Closed where
  any : Bool := false
  closed : Bool := false
  broken : List Nat := []
  present : BitVec 512 := 0#512
  bseq : BitVec 16 := 0#16
  orderErr : Bool := false
  time : Nat := 0
  reported : Option (Bool × List Nat × BitVec 512) := none
  deriving DecidableEq, Repr

/-- A recomputation that changed what is reachable (03 R76): the nodes reachable eastward and westward before and after it, and the
clock at which SETTLE ends. -/
structure Repin where
  east0 : BitVec 512
  west0 : BitVec 512
  east1 : BitVec 512
  west1 : BitVec 512
  settled : Nat
  deriving DecidableEq, Repr

/-- Ring-path state of the keep-alive domain (03_ring_frames_and_paths.md). -/
structure Ring where
  /-- Windows by 8 × node + class; unlisted ones are invalid (R67). -/
  windows : List (Nat × Window) := []
  /-- The eight SEQ counters: the value the next frame of the class takes (R67). -/
  seqs : List (Nat × BitVec 16) := []
  /-- A beacon has been taken since the keep-alive reset (R70). -/
  firstBeacon : Bool := false
  /-- A ring port link has been up since the keep-alive reset (R85). -/
  linked : Bool := false
  /-- The links of the latest beacon taken, changed by alarms and own link events until the next one (R84). -/
  base : List Nat := []
  /-- The break set: `base` with the 1 ms margins applied, positions rising (R84). -/
  breaks : List Nat := []
  /-- SRC node and BSEQ of the last round taken, for ROLE 0 and ROLE 1 (R80). -/
  last0 : Option (Nat × BitVec 16) := none
  last1 : Option (Nat × BitVec 16) := none
  /-- The scheduled change: time (ns), mode (true Split), seed (R87, R88). -/
  change : Option (Nat × Bool × BitVec 16) := none
  /-- Recomputations whose re-pinned flows may still be held, newest first (R76). -/
  repins : List Repin := []
  /-- Frames held by a fence, oldest first, with their flow (64 × DA node + FLOW) and table epoch (R76). -/
  held : List (Nat × Frame × BitVec 16) := []
  /-- The warden's round, the last closed one, and the link events since the last launch: (down, position). -/
  round : Round := {}
  closed : Closed := {}
  events : List (Bool × Nat) := []
  deriving DecidableEq, Repr

/-- A frame stored once in the shared buffer or in a pass-through FIFO (04_switch_core.md R94, R108). `input` is 0 East,
1 West, 2 spur, 3 local. -/
structure Stored where
  id : Nat
  frame : Frame
  input : Nat
  size : Nat
  cells : Nat
  refs : Nat
  qcls : Nat
  epoch : BitVec 16
  /-- Clock when the frame's header came in (12 R296). -/
  since : Nat
  /-- Received whole, FCS checked (R102). -/
  whole : Bool
  /-- Errored, or its FCS must be sent inverted (R103). -/
  errored : Bool
  /-- Held on the pass-through path (R92). -/
  pt : Bool
  /-- Byte counts at which input fragments of it ended; the next one has not begun (R105). -/
  frags : List Nat := []
  gap : Bool := false
  deriving DecidableEq, Repr

/-- A copy of a stored frame in an output queue, or on the wire once started (R97, R101). -/
structure Copy where
  id : Nat
  port : Nat
  /-- Cut-through may start this copy (R102); otherwise it waits for the FCS check. -/
  cut : Bool
  started : Bool := false
  /-- Clock when the copy started (12 R296). -/
  startAt : Nat := 0
  /-- It started before the frame was whole, so its fragments follow those of the input (R105). -/
  through : Bool := false
  /-- A fragment of it has ended after `sent` bytes and the next one has not begun (R105). -/
  broken : Bool := false
  sent : Nat := 0
  deriving DecidableEq, Repr

/-- What follows for this node when a frame in reception has come to its end (03 R65). -/
inductive RxUse where
  /-- Nothing: it is forwarded or dropped. -/
  | done
  /-- It carries the node's own SA and is stripped (03 R65): a BEACON or CYCLE frame is read. -/
  | stripped
  /-- It is a BEACON that passes (03 R80). -/
  | beacon
  /-- It is a CYCLE copy that passes: the current cycle if it is of it, and whether it could not leave (06 R158, R164). -/
  | cycle (k : Option Nat) (stuck : Bool)
  /-- It is a TIME frame that passes (12 R294). -/
  | time
  /-- Its copy for the local port stands in the queue, to pass the window (03 R68). -/
  | queued
  /-- The responder on the pass-through path takes it when it has passed the window (04 R91). -/
  | direct
  /-- Its copy for the spur stands in the queue, to pass the window (03 R62). -/
  | exit
  /-- This is its exit node, but the spur cannot take it (03 R62). -/
  | exitDrop
  /-- It came by the spur and its flow is held by a fence (03 R63, R76). -/
  | inject
  deriving DecidableEq, Repr

/-- A frame in reception: decided at header time, finished by FRAME_RECEIVED_WHOLE (03 R65, R68). -/
structure Reception where
  port : Nat
  frame : Frame
  stored : Option Nat := none
  use : RxUse := .done
  /-- Table epoch when the header check completed (04 R109, R110). -/
  epoch : BitVec 16 := 0#16
  /-- Bytes of the 802.1Q tag stripped at ingress (02 R51). -/
  tag : Nat := 0
  /-- A fragment of it has ended and the next one has not begun (02 R47). -/
  paused : Bool := false
  deriving DecidableEq, Repr

/-- A frame at the entrance of the switch: where it comes from (0 East, 1 West, 2 spur, 3 local), the table epoch under which it was
decided (R110), and the clock when its header came in. -/
structure Arrival where
  frame : Frame
  input : Nat
  epoch : BitVec 16
  since : Nat
  deriving DecidableEq, Repr

/-- A local frame waiting for admission to its outputs (R99). -/
structure LocalFrame where
  item : Arrival
  outs : List Nat
  deriving DecidableEq, Repr

/-- The switch core (04_switch_core.md). -/
structure Switch where
  frames : List Stored := []
  /-- Copies in arrival order; queue q holds those of its port and class (R97). -/
  copies : List Copy := []
  nextId : Nat := 0
  /-- Frames in reception, newest first: an express frame may stand above a paused one of its port (R105). -/
  rx : List Reception := []
  waiting : List LocalFrame := []
  /-- DRR deficits by 8 × port + class (R101). -/
  deficit : List (Nat × Nat) := []
  /-- The class the round-robin of a port stands at (R101). -/
  drrAt : List (Nat × Nat) := []
  deriving DecidableEq, Repr

/-- A tag that is not free (05 R129, R131): the request it stands for, or a quarantine. -/
structure TagUse where
  quarantined : Bool
  init : Nat
  dstRing : BitVec 6
  dstNode : BitVec 9
  kind : ReqKind
  bytes : Nat
  /-- Tag of the mailbox or tunnel message (11 R283). -/
  ttag : Nat := 0
  /-- Its completion message will be discarded (11 R285). -/
  dropped : Bool := false
  deriving DecidableEq, Repr

/-- A completion message for the host mailbox or the USB tunnel (11 R283, 15 R385). -/
structure MsgCpl where
  init : Nat
  ttag : Nat
  /-- SRC of the completion. -/
  ring : BitVec 6
  node : BitVec 9
  status : Status
  data : List Byte
  deriving DecidableEq, Repr

/-- A lock (05 R125): its holder and its byte range [lo, hi). A stitch lock covers the whole bus. -/
structure Lock where
  ring : BitVec 6
  node : BitVec 9
  init : BitVec 4
  cls : BitVec 3
  flow : BitVec 6
  lo : Nat
  hi : Nat
  stitch : Bool
  deriving DecidableEq, Repr

/-- The transaction engine beside its registers (05_one_address_space.md). -/
structure Txn where
  /-- Requests that hold a serve entry, oldest first (R123). -/
  serve : List (ReqKind × Request) := []
  /-- Posted writes of the node's own initiators that found the serve table full (R123, R130); those of other nodes wait in the local
  output queue of the switch. -/
  backlog : List (ReqKind × Request) := []
  tags : List (Nat × TagUse) := []
  /-- Completion messages not yet taken by the mailbox or the tunnel, in order of arrival. -/
  cpls : List MsgCpl := []
  locks : List (Nat × Lock) := []
  /-- Frames formed by the node and not yet injected, oldest first. -/
  toInject : List Frame := []
  /-- Completions of served requests, as formed: their serve entries are taken until they enter the switch (R123). -/
  closing : List Frame := []
  /-- Frames delivered to the node that are no requests and wait for their consumer, oldest first. -/
  inbox : List Frame := []
  /-- Late-error records not notified since the previous NOTICE (R143). -/
  suppressed : Nat := 0
  /-- Access windows as they stood up to a table epoch, newest first (R138). -/
  oldWin : List (BitVec 16 × List Byte) := []
  /-- Late-error entries in the order in which they were written, oldest first (R142). -/
  lateOrder : List Nat := []
  deriving DecidableEq, Repr

/-- What the cycle engine holds of a stream beside its registers (06). `from_` is the first cycle it takes part in; `launchNext`
and `applyNext` are the first cycles not yet launched and applied. -/
structure StreamState where
  from_ : Nat := 0
  launchNext : Nat := 0
  applyNext : Nat := 0
  /-- One past the last cycle of which a copy arrived, and consecutive apply times without one (R153). -/
  seen : Nat := 0
  missed : Nat := 0
  /-- A backup launches the stream (R153). -/
  takeover : Bool := false
  /-- Of the last cycle launched: copies not yet absorbed, the returns and ECHO (R163). -/
  due : Nat := 0
  retE : Bool := false
  retW : Bool := false
  echo : BitVec 256 := 0#256
  deriving DecidableEq, Repr

/-- A copy whose subscribed slots wait for its FCS check (R159): entries with their bytes. -/
structure StagedCopy where
  port : Nat
  stream : Nat
  k : Nat
  slots : List (Nat × List Byte)
  deriving DecidableEq, Repr

/-- The cycle engine beside its registers. -/
structure Cycle where
  streams : List (Nat × StreamState) := []
  /-- First cycle of the publication, its next snapshot, and the last snapshot with its cycle. -/
  pubFrom : Nat := 0
  snapNext : Nat := 0
  snap : Option (Nat × List Byte) := none
  /-- First cycle of each subscription, and one past the cycle whose slot it has committed. -/
  subFrom : List (Nat × Nat) := []
  got : List (Nat × Nat) := []
  staged : List StagedCopy := []
  deriving DecidableEq, Repr

/-- What a field pin holds beside its registers (07_field_pins_and_edge_journal.md). -/
structure PinState where
  /-- PULL in force while a restart has taken the configuration from the registers (R178). -/
  pull : Nat := 0
  /-- Value and enable given by an owner that is not software (R174). -/
  value : Bool := false
  enable : Bool := false
  /-- The cycle engine has released the pin to its keeper (R179, 06 R161). -/
  keep : Bool := false
  /-- Rejected glitches since the pin's previous record (R181). -/
  glitches : Nat := 0
  deriving DecidableEq, Repr

/-- Field pins and journal writer. -/
structure Field where
  pins : List (Nat × PinState) := []
  /-- Banks that failed and have not returned: their filtered levels are frozen (R170). -/
  failed : List Nat := []
  /-- The journal writer runs: the mode that ends Load has been entered (R469). -/
  writerRuns : Bool := false
  /-- A wake edge of this Drowse is held in its FIFO (R186). -/
  wakeEdge : Bool := false
  /-- The FIFO that the writer served last (R184). -/
  served : Nat := 363
  /-- The next record written carries lost-before-this: a unit reset dropped records (01 R26). -/
  gap : Bool := false
  /-- System records held from before the writer's start that it has still to write before any other (R469). -/
  sysFirst : Nat := 0
  /-- BASE or SIZE has restarted the journal in this Load (R187). -/
  restarted : Bool := false
  deriving DecidableEq, Repr

/-- A word of a 40-bit queue (15 R389). -/
structure QWord where
  data : BitVec 32
  poison : Bool := false
  last : Bool := false
  /-- First word of a CAN entry or mailbox message. -/
  first : Bool := false
  /-- 0 clean; 1 and 2: the stored word fails its parity, or in Recovery and Load has 1 or 2 bits in error (R390). -/
  upset : Nat := 0
  deriving DecidableEq, Repr

/-- What a bobbin holds beside its registers (08_bobbin_engines.md). -/
structure BobState where
  /-- Prescalers of the two counters (R204). -/
  p0 : Nat := 0
  p1 : Nat := 0
  /-- The row at EXEC.ROW was not completed and is executed again first (R211). -/
  held : Bool := false
  /-- Value and enable of the driving slots (R195). -/
  out : BitVec 6 := 0#6
  oen : BitVec 6 := 0#6
  tx : List QWord := []
  rx : List QWord := []
  /-- The SYNC pulse stands for this bobbin's next cycle (R202). -/
  sync : Bool := false
  deriving DecidableEq, Repr

/-- A frame in reception whose identifier is complete (09 R234, R235). -/
structure CanRx where
  ide : Bool
  id : BitVec 29
  /-- The object it will be stored in; none when it is discarded. -/
  obj : Option Nat
  /-- Stored through the catch-all. -/
  catchAll : Bool
  /-- JRN of the entry that matched. -/
  jrn : Bool
  deriving DecidableEq, Repr

/-- What a CAN controller holds beside its registers (09_can_fd_buses.md). -/
structure CanState where
  /-- It waits for 11 consecutive recessive bits (R223). -/
  integrating : Bool := false
  /-- Transmit queue: entries of queue words, head first (R226, R228). -/
  queue : List (List QWord) := []
  rx : Option CanRx := none
  deriving DecidableEq, Repr

/-- The window that a stitch request is mapped to, as it stood when the request was mapped (10 R251). -/
structure StWin where
  win : Nat
  base : Nat
  size : Nat
  tgt : Nat
  cfg : BitVec 32
  tmo : Nat
  deriving DecidableEq, Repr

/-- A request in the bridge queue (10 R254). -/
structure StReq where
  kind : ReqKind
  req : Request
  map : StWin
  deriving DecidableEq, Repr

/-- A prefetch buffer: the 64-byte block at offset `block` of a window (10 R258 to R261). -/
structure PfBuf where
  map : StWin
  block : Nat
  data : List Byte
  /-- Words read with a side effect, and words returned to a request. -/
  sens : BitVec 16
  used : BitVec 16
  /-- Time counter, ns, when its fill ended. -/
  filled : Nat
  deriving DecidableEq, Repr

/-- The stitch bridge beside its registers. -/
structure Bridge where
  /-- Requests in arrival order, the head first. -/
  queue : List StReq := []
  /-- Requests that found 16 in the queue, in arrival order, with the window each was mapped to (10 R251, R254). -/
  waiting : List StReq := []
  /-- The head's bus cycles are running. -/
  running : Bool := false
  /-- Time counter, ns, at their first address phase (10 R256). -/
  began : Nat := 0
  /-- Blocks of the running READ that no buffer has served or received yet, and those of them hit by a write meanwhile. -/
  left : List Nat := []
  spoiled : List Nat := []
  /-- Blocks that have been served to the running READ. -/
  got : List (Nat × List Byte) := []
  /-- Valid buffers, most recently used first. -/
  bufs : List PfBuf := []
  /-- Blocks waiting to be read ahead. -/
  ahead : List (StWin × Nat) := []
  /-- ST_LOCK_N is low (10 R262, R263). -/
  lockLow : Bool := false
  deriving DecidableEq, Repr

/-- A station event (11 R282). -/
structure StEvent where
  code : Nat
  lost : Bool
  arg : Nat
  /-- Time counter [31:0], ns. -/
  time : Nat
  deriving DecidableEq, Repr

/-- USB hub and station function beside their registers. -/
structure Usb where
  /-- EP2 queue, oldest first; an event was dropped since the last one that entered (R282). -/
  events : List StEvent := []
  evLost : Bool := false
  /-- Remote wakes requested and not yet signalled: by the station function, by DS[1..4] (R277). -/
  wakeFn : Bool := false
  wakeDs : BitVec 4 := 0#4
  /-- The host drives resume K. -/
  hostK : Bool := false
  /-- The model's clock at suspend (R277). -/
  suspendedAt : Nat := 0
  /-- A chirp exchange is in progress (R271). -/
  chirping : Bool := false
  /-- Port 5 has no PORT_POWER: the station function is disconnected (R272). -/
  fnOff : Bool := false
  /-- A control transfer has not reached its status stage (R286). -/
  ctrlOpen : Bool := false
  /-- Port changes reported to the host and not taken back by it, by DS index. -/
  changes : List (Nat × PortChange) := []
  /-- The hub's own address and configuration (R270, R272). -/
  hubAddress : BitVec 7 := 0#7
  hubConf : Bool := false
  /-- Packets sent on EP1 in this microframe (R280). -/
  sent : Nat := 0
  /-- Bytes of an EP3 transfer that make no whole message yet, and the rest of the completion message on EP4 (R279, R283). -/
  ep3 : List Byte := []
  ep4 : List Byte := []
  /-- SWAP, PART and the entry records left of the snapshot (R281). -/
  swaps : Nat := 0
  part : Nat := 0
  snap : Option (List (List Byte)) := none
  deriving DecidableEq, Repr

/-- One PTP domain as the node tracks it (12 R302, R303). Offsets are in units of 2⁻¹⁶ ns. -/
structure DomainState where
  /-- sequenceId of the Syncs seen, newest first. -/
  seqs : List Nat := []
  /-- Consecutive accepted Syncs inside LOCK_WINDOW. -/
  run : Nat := 0
  /-- The servo holds an estimate. -/
  tracked : Bool := false
  /-- A two-step Sync that waits for its Follow_Up: sequenceId and t2 − c − d_in. -/
  twoStep : Option (Nat × Int) := none
  /-- The model's clock when the domain became locked. -/
  lockedAt : Nat := 0
  deriving DecidableEq, Repr

/-- Link delay measurement of a port (12 R299, R300). -/
structure PdState where
  seq : Nat := 0
  /-- The request without a valid response: its sequenceId and the model's clock at t1. -/
  req : Option (Nat × Nat) := none
  fails : Nat := 0
  /-- The last valid measurements, newest first, in 2⁻¹⁶ ns. -/
  meas : List Nat := []
  deriving DecidableEq, Repr

/-- A picot series (12 R310 to R315). -/
structure PicState where
  /-- k of the present or next pulse. -/
  k : Nat := 0
  /-- Pulses fired or skipped since EN. -/
  pulses : Nat := 0
  inPulse : Bool := false
  deriving DecidableEq, Repr

/-- Time beside its registers. -/
structure TimeState where
  doms : List (Nat × DomainState) := []
  pds : List (Nat × PdState) := []
  /-- The frequency term of the steering servo, in 2⁻³² ns per TICK (R302). -/
  freq : Nat := 10995116278
  /-- The offset of a switch being slewed away: clock at its start, signed size (R304). -/
  slew : Option (Nat × Int) := none
  /-- Clock of the first of the Syncs refused without an accepted one since, and the last refused offset (R306). -/
  refused : Option (Nat × Int) := none
  /-- Clock of the last record 0x009 (R309). -/
  recAt : Option Nat := none
  pics : List (Nat × PicState) := []
  /-- Time counter, ns, when INITIAL was last cleared (17 R428). -/
  clearAt : Nat := 0
  deriving DecidableEq, Repr

/-- An event of the power die (13 R347): when it was queued by the model's clock. -/
structure PEvent where
  code : Nat
  path : Nat
  level : Bool
  lost : Bool
  arg : Nat
  at_ : Nat
  deriving DecidableEq, Repr

/-- What the power die keeps of a branch beside its registers (13 R324 to R332). Instants are clock times. -/
structure BrState where
  /-- The fault timer as last held, ps. -/
  faultT : Nat := 0
  /-- Limiting since; not limiting since; soft start begun; end of the off-time; ON without limiting since; BR_VOUT at or above
  PG_THRESH since. -/
  limitAt : Option Nat := none
  idleAt : Option Nat := none
  startAt : Option Nat := none
  offEnd : Option Nat := none
  onAt : Option Nat := none
  pgAt : Option Nat := none
  deriving DecidableEq, Repr

/-- The latest sample of a path, its last products in µW, newest first, and the fraction of ENERGY in pJ (13 R333, R334). -/
structure PathMeas where
  v : BitVec 16 := 0#16
  i : Int := 0
  prods : List Int := []
  frac : Nat := 0
  deriving DecidableEq, Repr

/-- What the power die keeps per sender of the power link (13 R339, R341). -/
structure PlkSrc where
  /-- Clock of its last valid transaction. -/
  valid : Option Nat := none
  /-- The next MIDX of its rotation. -/
  next : Nat := 0
  /-- Hold-over since its previous transaction. -/
  held : Bool := false
  /-- The low half buffered, by link word address, and the halves latched. -/
  low : Option (Nat × BitVec 16) := none
  latch : List (Nat × BitVec 16) := []
  deriving DecidableEq, Repr

/-- The power die on the power link, beside its registers (13). It is powered and has just started cold at reset. -/
structure Power where
  up : Bool := true
  brs : List (Nat × BrState) := []
  meas : List (Nat × PathMeas) := []
  /-- Event queue, oldest first, and the paths whose next event carries LOST (R347). -/
  events : List PEvent := [⟨0xB, 2, false, false, 0, 0⟩]
  lostPaths : List Nat := []
  srcs : List (Nat × PlkSrc) := []
  /-- SRC of the owner, and the clock of its latest transaction with ACT = 1 (R342). -/
  owner : Option (Nat × Nat) := none
  /-- Clock of the latest valid transaction of either SRC, or of the cold start (R16). -/
  lastValid : Nat := 0
  /-- In hold-over; since when; limited by HOLD_TIME and not yet past it (R344). -/
  hold : Bool := false
  holdEnd : Option Nat := none
  /-- STAT.EVT of the last answer, kept in the logic die (R347). -/
  evt : Bool := false
  deriving DecidableEq, Repr

/-- Twin state beside the registers (14_twin_nodes.md). Instants are clock times but where stated. -/
structure Twin where
  /-- This package is a twin package that does not hold the shared identity (R356). -/
  noIdentity : Bool := false
  /-- The partner's last valid heartbeat, when it came, and since when heartbeats have come without a loss (R353). -/
  hb : Heartbeat := {}
  hbAt : Option Nat := none
  upSince : Option Nat := none
  /-- Ready when the tether was lost (R357 SILENT). -/
  wasReady : Bool := false
  /-- Consecutive input mirrors in which a pin differed (R353). -/
  diffs : List (Nat × Nat) := []
  /-- The partner's latest power link transaction, and its latest one with ACT = 1 since its last release (R357). -/
  slotAt : Option Nat := none
  actAt : Option Nat := none
  /-- Entry to service after a reset (R357 START), and the start of the present ready standby (R366). -/
  enteredAt : Option Nat := none
  readySince : Option Nat := none
  /-- A taking that waits for its output gap: evidence and the instant of the release (R359). -/
  take : Option (Nat × Nat) := none
  /-- R of R365, and the GRANT naming this package has come. -/
  relAt : Nat := 0
  granted : Bool := false
  /-- The identity at the latest taking follows this evidence (R363). -/
  evidence : Nat := 0
  /-- Reverts of the last 60 minutes, newest first (R367), and the agreed instant of one, ns of the time counter (R366). -/
  reverts : List Nat := []
  handAt : Option Nat := none
  /-- The original holder waits to take back (R369). -/
  drillRun : Bool := false
  /-- When the warden received the latest heartbeat of a node (R364). -/
  hbRx : List (Nat × Nat) := []
  deriving DecidableEq, Repr

/-- The host port beside its registers (15_memories_and_queues.md). -/
structure HostPort where
  /-- Words pushed of the message that has no LAST word yet (R385). -/
  req : List QWord := []
  /-- A word of that message was dropped (R385). -/
  dropped : Bool := false
  /-- Completion queue (R386). -/
  cpl : List QWord := []
  /-- The last command ended void: HOST_BUSY stays high until the next one (R384). -/
  void : Bool := false
  deriving DecidableEq, Repr

/-- A churn handover in progress (15 R377): the new owner, and the request whose completion waits for it, or that a register
command of its own started it. -/
structure Handover where
  owner : Nat
  req : Option (ReqKind × Request) := none
  direct : Bool := false
  deriving DecidableEq, Repr

/-- Start-up, modes and Drowse beside their registers (16_start_up_modes_and_drowse.md). -/
structure Boot where
  /-- ROM runs towards a firmware image (R398); false in Recovery proper and once the firmware runs. -/
  rom : Bool := true
  /-- No main-domain restart since the keep-alive reset (14 R357). -/
  cold : Bool := true
  /-- The control processor's local SRAM, as ROM loaded it (R399). -/
  sram : List Host.Cell := []
  /-- Signature verdicts of the firmware slots at ROM's last start (R398). -/
  slots : Slots := ⟨false, false⟩
  /-- START_MODE of the applied image: ring service (R401). -/
  startRing : Bool := false
  /-- The firmware writes registers in Load (R406). -/
  applying : Bool := false
  /-- Clock of the restarts counted under R409, newest first, and the next attempt ends in Pass-through. -/
  safeTimes : List Nat := []
  safeNext : Bool := false
  /-- What is left of the watchdog while Drowse pauses it, ps (R416). -/
  wdogLeft : Option Nat := none
  /-- The mode held before Drowse (R407). -/
  held : Mode := .isolated
  /-- DROWSE levels stand: from the end of the quiesce to the end of the wake (R412, R415). -/
  drowsy : Bool := false
  /-- A wake source came during the entry (R412); the wake was started by USB (R415). -/
  wakePend : Bool := false
  usbWake : Bool := false
  /-- WAKE_AT of an accepted WAKE frame, ns (R414). -/
  wakeAt : Option Nat := none
  deriving DecidableEq, Repr

/-- A chunk being assembled (17_image_updates_and_recovery.md R422): its parts, and the clock of the first. -/
structure Assembly where
  chunk : Nat
  digest : List Byte
  total : Nat
  parts : List (Nat × List Byte)
  since : Nat
  deriving DecidableEq, Repr

/-- The NVM and the update engine beside its registers (16 R396, 17_image_updates_and_recovery.md). -/
structure Upd where
  /-- NVM bytes by offset; an unlisted byte is erased, 0xFF. -/
  nvm : List (Nat × Byte) := []
  /-- Chunks being assembled, newest first (R422). -/
  asm : List Assembly := []
  /-- Broadcast QUERYs whose STATUS is due: asker and clock of the answer (R423). -/
  due : List (BitVec 6 × BitVec 9 × Nat) := []
  /-- Time counter, ns, when the session was resumed at a Load; none when it was opened since (R428). -/
  resumed : Option Nat := none
  /-- Clock of the last RECOVERY STATUS (R435). -/
  statusAt : Nat := 0
  /-- The neighbour that this node helps: its node, the next chunk and the clock of the last one (R435). -/
  help : Option (Nat × Nat × Nat) := none
  deriving DecidableEq, Repr

/-- The time counter, its increment and the time domain as they stood at an instant of the model's clock (07 R181, R183). -/
structure Instant where
  clk : Nat
  ctr : Nat
  incr : Nat
  unlocked : Bool
  domain : Bool
  deriving DecidableEq, Repr

/-- The whole machine. -/
structure State where
  /-- Registers that differ from their reset value, by offset from 0x30_0000_0000 (18 R438). -/
  regs : List (Nat × BitVec 32) := []
  /-- Memory by 40-bit local address: DRAM, churns, host window and tables (05 R113, 18 R439). -/
  mem : List Host.Cell := []
  /-- Check state of memory words that do not read clean (15 R373): by 8-byte word, 1 or 2 corrected bits, 3 uncorrectable. -/
  marks : List (Nat × Nat) := []
  /-- _HI halves latched by a read of _LO (18 R443), by offset of the _HI register. -/
  latches : List (Nat × BitVec 32) := []
  /-- The model's own clock, ps since reset. -/
  clk : Nat := 0
  /-- The time counter in units of 2⁻³² ns, modulo 2⁹⁶ (12 R290). -/
  ctr : Nat := 0
  /-- The instants from which time has passed, newest first, over the longest run of a glitch filter. The model's own. -/
  past : List Instant := []
  /-- Armed deadlines (ps of `clk`). -/
  timers : List (Timer × Nat) := []
  /-- What has left the part, newest first. The model's own record. -/
  out : List Out := []
  /-- Counter that gives each free value its own argument. The model's own. -/
  freeCtr : Nat := 0
  mode : Mode := .recovery
  anat : Anatomy := {}
  ports : List (Nat × PortState) := []
  ring : Ring := {}
  sw : Switch := {}
  txn : Txn := {}
  /-- Burst FIFOs of the journal by FIFO number in the writer's rotation: pins 0 to 255, bobbins 256 to 319, CAN 320 to
  327, picots 328 to 343, power 344 to 362, system 363 (07 R184). A reset of the keep-alive domain
  restarts the journal, whose first record has code 0x007 (07 R187). -/
  fifos : List (Nat × List JRec) := [(363, [⟨0, false, 4, true, false, false, 7, 0⟩])]
  /-- FIFOs whose next record carries LOST (07 R184). -/
  fifoLost : List Nat := []
  cyc : Cycle := {}
  field : Field := {}
  bobs : List (Nat × BobState) := []
  cans : List (Nat × CanState) := []
  stb : Bridge := {}
  usb : Usb := {}
  tim : TimeState := {}
  pow : Power := {}
  twin : Twin := {}
  host : HostPort := {}
  /-- Churn handovers in progress (15 R377). -/
  hand : List (Nat × Handover) := []
  boot : Boot := {}
  upd : Upd := {}
  /-- Commands that wait, first in first out. -/
  pending : List Instr := []
  deriving DecidableEq, Repr

/-- The machine right after reset: every register at its table's reset value (`regs` lists nothing), memory with
nothing listed, every queue empty, no command waiting. Fields whose value the spec does not give are named in the
assumption log. -/
def State.reset : State := {}

end Sys2Proof.Machine
end

