-- ==== Sys2Proof/Machine/Ops.lean ====
section
/-!
DEFINITION. The named operations over the state: sparse tables, registers and fields, counters, deadlines, the time
counter, memory bytes, and the records and signals that leave a unit.
-/

namespace Sys2Proof.Machine

variable {α : Type}

/-! ### Sparse tables: pairs of key and value, keys rising, no entry at the default value -/

/-- The value at key `a`, `d` where none is listed. -/
def Tab.get (d : α) : List (Nat × α) → Nat → α
  | [], _ => d
  | (k, v) :: t, a => if k = a then v else Tab.get d t a

/-- The table without key `a`. -/
def Tab.erase (t : List (Nat × α)) (a : Nat) : List (Nat × α) := t.filter fun e => e.1 != a

/-- `v` placed at key `a` before the first greater key. -/
def Tab.insert : List (Nat × α) → Nat → α → List (Nat × α)
  | [], a, v => [(a, v)]
  | (k, w) :: t, a, v => if a < k then (a, v) :: (k, w) :: t else (k, w) :: Tab.insert t a v

/-- The table with `v` at key `a`; storing the default `d` removes the entry. -/
def Tab.set [DecidableEq α] (d : α) (t : List (Nat × α)) (a : Nat) (v : α) : List (Nat × α) :=
  if v = d then Tab.erase t a else Tab.insert (Tab.erase t a) a v

/-- The canonical form: keys strictly rising, no entry at its default. -/
def Tab.wf [DecidableEq α] (d : Nat → α) : List (Nat × α) → Bool
  | [] => true
  | [(k, v)] => decide (v ≠ d k)
  | (k, v) :: (k', v') :: t => decide (v ≠ d k) && decide (k < k') && Tab.wf d ((k', v') :: t)

/-! ### Registers (00_scope.md R7 to R10) -/

/-- `n` bits of `w` from bit `lo`. -/
def bits (w : Word) (lo n : Nat) : Nat := (w.extractLsb' lo n).toNat

/-- `w` with `n` bits from bit `lo` replaced by the low bits of `v`. -/
def putBits (w : Word) (lo n v : Nat) : Word :=
  let m : Word := BitVec.ofNat 32 ((2 ^ n - 1) * 2 ^ lo)
  (w &&& ~~~m) ||| (BitVec.ofNat 32 (v % 2 ^ n * 2 ^ lo) &&& m)

/-- The register at offset `a`. -/
def State.rd (s : State) (a : Nat) : Word := Tab.get (regReset a) s.regs a

/-- The state with `v` in the register at offset `a`. -/
def State.wr (a : Nat) (v : Word) (s : State) : State := { s with regs := Tab.set (regReset a) s.regs a v }

/-- A register field as a number. -/
def State.fld (s : State) (f : Fld) : Nat := bits (s.rd f.reg) f.lo f.width

/-- Load a register field. -/
def State.setFld (f : Fld) (v : Nat) (s : State) : State := s.wr f.reg (putBits (s.rd f.reg) f.lo f.width v)

/-- A one-bit field. -/
def State.flag (s : State) (f : Fld) : Bool := s.fld f != 0

/-- Set a one-bit field. -/
def State.on (f : Fld) (s : State) : State := s.setFld f 1

/-- Clear a field. -/
def State.off (f : Fld) (s : State) : State := s.setFld f 0

/-- Load a one-bit field. -/
def State.setFlag (f : Fld) (b : Bool) (s : State) : State := s.setFld f (if b then 1 else 0)

/-- Add `n` to the counter in register `a`, saturating at all-ones (R9). -/
def State.bumpBy (a n : Nat) (s : State) : State :=
  s.wr a (BitVec.ofNat 32 (min ((s.rd a).toNat + n) 0xFFFFFFFF))

/-- Increment the counter in register `a` (R9). -/
def State.bump (a : Nat) (s : State) : State := s.bumpBy a 1

/-- Add to a counter that is a field of a register, saturating at all-ones (R9). -/
def State.bumpFld (f : Fld) (n : Nat) (s : State) : State := s.setFld f (min (s.fld f + n) (2 ^ f.width - 1))

/-- Raise a sticky peak held in a field (R10). -/
def State.peak (f : Fld) (v : Nat) (s : State) : State := if s.fld f < v then s.setFld f v else s

/-- Add to a 64-bit counter held in a _LO and _HI register, saturating at all-ones (R9). -/
def State.add64 (lo hi n : Nat) (s : State) : State :=
  let v := min ((s.rd lo).toNat + 2 ^ 32 * (s.rd hi).toNat + n) (2 ^ 64 - 1)
  (s.wr lo (BitVec.ofNat 32 v)).wr hi (BitVec.ofNat 32 (v / 2 ^ 32))

/-- The 64-bit value of a _LO and _HI register (18 R443). -/
def State.rd64 (s : State) (lo hi : Nat) : Nat := (s.rd lo).toNat + 2 ^ 32 * (s.rd hi).toNat

/-- Load a _LO and _HI register. -/
def State.wr64 (lo hi v : Nat) (s : State) : State :=
  (s.wr lo (BitVec.ofNat 32 v)).wr hi (BitVec.ofNat 32 (v / 2 ^ 32))

/-! ### Conditional updates -/

/-- Apply `f` when `c` holds. -/
def State.onlyIf (c : Bool) (f : State → State) (s : State) : State := if c then f s else s

/-- Apply `f` for each element in order. -/
def State.forEach {β : Type} (l : List β) (f : β → State → State) (s : State) : State := l.foldl (fun t b => f b t) s

/-! ### Clock, time counter and deadlines -/

/-- INCREMENT of the time counter per TICK, in units of 2⁻³² ns (12 R291). -/
def State.increment (s : State) : Nat :=
  s.fld Fd.TIME_INCR_NS_NS * 2 ^ 32 + (s.rd Reg.TIME_INCR_FRAC).toNat

/-- What is left of a slew at the model's clock, signed, in 2⁻¹⁶ ns: SLEW_LIMIT ppm take it away (12 R304). -/
def State.slewLeft (s : State) : Int :=
  match s.tim.slew with
  | none => 0
  | some (t, d) =>
    let gone := (s.clk - t) * s.fld Fd.TIME_SLEW_LIMIT_PPM * 65536 / 1000000000
    let left := d.natAbs - gone
    if 0 ≤ d then left else -(left : Int)

/-- The selected domain counts as locked (12 R303, R306). -/
def State.selLocked (s : State) : Bool :=
  (if s.flag Fd.TIME_TIME_STAT_SEL then s.flag Fd.TIME_TIME_STAT_LOCK_B else s.flag Fd.TIME_TIME_STAT_LOCK_A) &&
    !s.flag Fd.TIME_TIME_STAT_JUMP_PERSIST

/-- TIME_STAT.UNLOCKED (12 R303). -/
def State.unlocked (s : State) : Bool :=
  !s.selLocked || decide (s.fld Fd.TIME_SERVO_CFG_LOCK_WINDOW * 65536 < s.slewLeft.natAbs) ||
    s.flag Fd.TIME_TIME_STAT_INITIAL

/-- The present instant. The counter stands still while both domains are held (01 R21). -/
def State.instant (s : State) : Instant :=
  { clk := s.clk, ctr := s.ctr, incr := if s.anat.kaHeld then 0 else s.increment, unlocked := s.unlocked,
    domain := s.flag Fd.TIME_TIME_STAT_SEL }

/-- How far back instants are kept, ps: beyond the longest glitch filter (07 R471). -/
def historyPs : Nat := 100000000000

/-- The instants from clock `t` on, and the last one before. -/
def pastFrom (t : Nat) : List Instant → List Instant
  | [] => []
  | e :: l => if e.clk ≤ t then [e] else e :: pastFrom t l

/-- The history of the time counter, with the present instant. -/
def State.history (s : State) : List Instant := s.instant :: pastFrom (s.clk - historyPs) s.past

/-- The instant at clock `c`, not beyond the present: the counter has moved evenly since the instant kept before it. -/
def State.instantAt (s : State) (c : Nat) : Instant :=
  match s.history.find? (·.clk ≤ c) with
  | some e => { e with clk := c, ctr := (e.ctr + (c - e.clk) * e.incr / 2560) % 2 ^ 96 }
  | none => s.history.getLastD s.instant

/-- Let `d` ps pass: the model's clock and, out of reset, the time counter move on (12 R290, 01 R21). A TICK lasts 2,560 ps. -/
def State.advance (d : Nat) (s : State) : State :=
  { s with
    clk := s.clk + d
    ctr := if s.anat.kaHeld then s.ctr else (s.ctr + d * s.increment / 2560) % 2 ^ 96
    past := s.history }

/-- The time counter in ns (12 R290). -/
def State.now (s : State) : Nat := s.ctr / 2 ^ 32

/-- Let time pass until the time counter stands at `ns` or beyond. -/
def State.toTime (ns : Nat) (s : State) : State :=
  if ns * 2 ^ 32 ≤ s.ctr then s
  else
    { s with
      clk := s.clk + (ns * 2 ^ 32 - s.ctr) * 2560 / (max s.increment 1)
      ctr := ns * 2 ^ 32
      past := s.history }

def usPs : Nat := 1000000
def msPs : Nat := 1000 * usPs
def secPs : Nat := 1000 * msPs
/-- One PERI period, in ps (01 R18, unspread). -/
def periPs : Nat := 5120

/-- The deadline of `t`, if armed. -/
def State.deadline (s : State) (t : Timer) : Option Nat := s.timers.lookup t

/-- Whether `t` is armed. -/
def State.armed (s : State) (t : Timer) : Bool := (s.deadline t).isSome

/-- Whether the deadline of `t` lies ahead. -/
def State.live (s : State) (t : Timer) : Bool :=
  match s.deadline t with
  | some d => decide (s.clk < d)
  | none => false

/-- Disarm `t`. -/
def State.cancel (t : Timer) (s : State) : State := { s with timers := s.timers.filter fun e => e.1 != t }

/-- Arm `t` to expire after `d` ps, replacing an earlier deadline. -/
def State.arm (t : Timer) (d : Nat) (s : State) : State :=
  { s with timers := (t, s.clk + d) :: s.timers.filter fun e => e.1 != t }

/-- The expiry of `t`: the clock stands at its deadline or beyond, and `t` is disarmed. -/
def State.expire (t : Timer) (s : State) : State :=
  (match s.deadline t with
   | some d => s.advance (d - s.clk)
   | none => s).cancel t

/-- An event that is the expiry of `t`: it takes place only while `t` is armed. -/
def State.expiry (t : Timer) (f : State → State) (s : State) : State :=
  if s.armed t then f (s.expire t) else s

/-! ### Memory bytes -/

/-- One byte of memory; a byte that nothing has written reads 0. -/
def State.byte (s : State) (a : Nat) : Byte := Tab.get 0#8 s.mem a

/-- Store one byte. -/
def State.setByte (a : Nat) (b : Byte) (s : State) : State := { s with mem := Tab.set 0#8 s.mem a b }

/-- `n` bytes from address `a`. -/
def State.readBytes (s : State) (a n : Nat) : List Byte := (List.range n).map fun i => s.byte (a + i)

/-- Store bytes from address `a` up. -/
def State.writeBytes : Nat → List Byte → State → State
  | _, [], s => s
  | a, b :: bs, s => State.writeBytes (a + 1) bs (s.setByte a b)

/-- The canonical form of the memory list. -/
def Memory.wf (m : List Host.Cell) : Bool := Tab.wf (fun _ => 0#8) m

/-- The check state of the word at `w`: 0 clean, 1 or 2 corrected bits, 3 uncorrectable (15 R373). -/
def State.mark (s : State) (w : Nat) : Nat := Tab.get 0 s.marks w

/-- Set the check state of the word at `w`. -/
def State.setMark (w g : Nat) (s : State) : State := { s with marks := Tab.set 0 s.marks w g }

/-- A number from bytes, least significant first (00 R6). -/
def leVal : List Byte → Nat
  | [] => 0
  | b :: bs => b.toNat + 256 * leVal bs

/-- `n` bytes of a number, least significant first (00 R6). -/
def leBytes : Nat → Nat → List Byte
  | 0, _ => []
  | n + 1, v => BitVec.ofNat 8 v :: leBytes n (v / 256)

/-- A number from bytes, most significant first (00 R6). -/
def beVal (l : List Byte) : Nat := l.foldl (fun a b => a * 256 + b.toNat) 0

/-- `n` bytes of a number, most significant first (00 R6). -/
def beBytes (n v : Nat) : List Byte := (leBytes n v).reverse

/-! ### What leaves a unit -/

/-- Append to the record of what has left the part. -/
def State.emit (o : Out) (s : State) : State := { s with out := o :: s.out }

/-- Interrupt the control processor from the block at offset `line`. -/
def State.irq (line : Nat) (s : State) : State := s.emit (.irq line)

/-- The control processor is interrupted where a bit of `active` has risen since `before`: a pending bit that is enabled, whichever
of the two came last (08 R218, 10 R266). -/
def State.irqRise (line : Nat) (active : State → Word) (s before : State) : State :=
  if active s &&& ~~~active before ≠ 0#32 then s.irq line else s

/-- The argument of the next free value. -/
def State.useFree (s : State) : Nat × State := (s.freeCtr, { s with freeCtr := s.freeCtr + 1 })

/-! ### Journal records (07 R181, R184) -/

/-- Capacity of burst FIFO `i`: 16 for the system FIFO, else 4 (07 R184). -/
def fifoCap (i : Nat) : Nat := if i = 363 then 16 else 4

/-- The register that counts records lost by FIFO `i`, and the field within it (07 R184). -/
def lostCounter (i : Nat) : Option Fld :=
  if i < 256 then some (Fd.PIN_CNT_LOST_EDGE i)
  else if i < 320 then some ⟨Reg.BOB_JLOST (i - 256), 0, 32⟩
  else if i < 328 then some ⟨Reg.CAN_JLOST (i - 320), 0, 32⟩
  else if i < 344 then some ⟨Reg.PIC_JLOST (i - 328), 0, 32⟩
  else none

/-- Put a record into burst FIFO `i`, or lose it (07 R184). The next record of a source that lost one carries LOST. -/
def State.pushRec (i : Nat) (r : JRec) (s : State) : State :=
  let q := Tab.get [] s.fifos i
  if q.length < fifoCap i then
    { s with
      fifos := Tab.set [] s.fifos i (q ++ [{ r with lost := r.lost || s.fifoLost.contains i }])
      fifoLost := s.fifoLost.filter (· != i) }
  else
    let s := { s with fifoLost := i :: s.fifoLost.filter (· != i) }
    let s := s.bump Reg.JRN_LOST_TOTAL
    match lostCounter i with
    | some f => s.bumpFld f 1
    | none => s

/-- A record of KIND `k` whose event took place at instant `i` (07 R181). -/
def Instant.record (i : Instant) (k source detail : Nat) (level : Bool) : JRec :=
  { time := i.ctr / 2 ^ 32, lost := false, kind := k, unlocked := i.unlocked, domain := i.domain, level := level, source := source,
    detail := detail }

/-- A record of KIND `k` formed now. -/
def State.record (s : State) (k source detail : Nat) (level : Bool) : JRec := s.instant.record k source detail level

/-- A system event record with code `c` (07 R182). -/
def State.sysRec (c detail : Nat) (s : State) : State := s.pushRec 363 (s.record 4 c detail false)

end Sys2Proof.Machine
end

