-- ==== Sys2Proof/Machine/Operands.lean ====
section
/-!
DEFINITION. The forms in which commands carry their operands: the Crealend header and its check, MAC addresses,
request and completion payloads, and the fields of the beacon.
-/

namespace Sys2Proof.Machine

/-! ### CRC-16 (03 R56, R73) -/

/-- One bit of the CRC-16 with polynomial 0x1021, no reflection. -/
def crc16Bit (c : BitVec 16) : BitVec 16 :=
  if c.msb then (c <<< 1) ^^^ 0x1021#16 else c <<< 1

/-- One byte of the CRC-16. -/
def crc16Byte (c : BitVec 16) (b : Byte) : BitVec 16 :=
  let c := c ^^^ (b.setWidth 16 <<< 8)
  crc16Bit (crc16Bit (crc16Bit (crc16Bit (crc16Bit (crc16Bit (crc16Bit (crc16Bit c)))))))

/-- The CRC-16 of `l` from initial value `c`, without final XOR. -/
def crc16 (c : BitVec 16) (l : List Byte) : BitVec 16 := l.foldl crc16Byte c

/-! ### The Crealend header (03 R55, R56) -/

/-- Header bytes 0 to 13 with `hops` in place of HOPS, the reserved bits as they are. -/
def Frame.headBytes (f : Frame) (hops : BitVec 10) : List Byte :=
  let r := fun (lo n : Nat) => (f.rsv.extractLsb' lo n).toNat
  [ f.ver ++ f.cls ++ BitVec.ofBool f.seam,
    f.kind ++ BitVec.ofBool f.dir ++ f.rsv.extractLsb' 9 2 ] ++
  beBytes 2 (hops.toNat * 64 + f.flow.toNat) ++
  beBytes 2 (f.srcRing.toNat * 1024 + f.srcNode.toNat * 2 + r 8 1) ++
  beBytes 2 (f.dstRing.toNat * 1024 + f.dstNode.toNat * 2 + r 7 1) ++
  beBytes 2 f.seq.toNat ++
  beBytes 2 (f.tag.toNat * 128 + f.status.toNat * 8 + r 4 3) ++
  beBytes 2 (r 0 4 * 4096 + f.len.toNat)

/-- HCHK over header bytes 0 to 13 with HOPS taken as zero (R56). -/
def Frame.check (f : Frame) : BitVec 16 := crc16 0xFFFF#16 (f.headBytes 0#10)

/-- The frame with its HCHK computed. -/
def Frame.sealed (f : Frame) : Frame := { f with hchk := f.check }

/-- A plain PTP frame (02 R34). -/
def Frame.plainPtp (f : Frame) : Bool := f.etype == 0x88F7#16

/-- Frame length in bytes, padding and FCS included (04 R94): max(64, 34 + LEN) from a Crealend header, else the message with 14 bytes
of Ethernet header and the FCS. -/
def Frame.size (f : Frame) : Nat := max 64 (if f.plainPtp then 18 + f.payload.length else 34 + f.len.toNat)

/-- Cells that the frame takes at header time (04 R94). -/
def Frame.cells (f : Frame) : Nat := if f.plainPtp then 6 else (f.size + 255) / 256

/-! ### MAC addresses (03 R59) -/

def macNode (ring node : Nat) : BitVec 48 := BitVec.ofNat 48 (0x02C15E000000 + ring % 256 * 0x10000 + node % 65536)
def macBroadcast (ring : Nat) : BitVec 48 := BitVec.ofNat 48 (0x01C15E0001FF + ring % 256 * 0x10000)
def macGateway (ring : Nat) : BitVec 48 := macNode ring 0

/-- The node number in a node MAC. -/
def macNodeOf (m : BitVec 48) : Nat := m.toNat % 65536

/-- Bit 40 of a MAC: a group address. -/
def isGroup (m : BitVec 48) : Bool := m.toNat / 2 ^ 40 % 2 == 1

/-! ### KIND codes (03 R57) -/

namespace Kd
abbrev read : BitVec 5 := 0x01#5
abbrev write : BitVec 5 := 0x02#5
abbrev pwrite : BitVec 5 := 0x03#5
abbrev lread : BitVec 5 := 0x04#5
abbrev lwrite : BitVec 5 := 0x05#5
abbrev cas : BitVec 5 := 0x06#5
abbrev fadd : BitVec 5 := 0x07#5
abbrev cpl : BitVec 5 := 0x08#5
abbrev cycle : BitVec 5 := 0x09#5
abbrev beacon : BitVec 5 := 0x0A#5
abbrev notice : BitVec 5 := 0x0B#5
abbrev chunk : BitVec 5 := 0x0C#5
abbrev wake : BitVec 5 := 0x0D#5
abbrev twin : BitVec 5 := 0x0E#5
abbrev mgmt : BitVec 5 := 0x0F#5
abbrev time : BitVec 5 := 0x10#5
end Kd

/-- The request kind of a KIND code. -/
def reqKindOf (k : BitVec 5) : Option ReqKind :=
  if k = Kd.read then some .read else if k = Kd.write then some .write else if k = Kd.pwrite then some .pwrite
  else if k = Kd.lread then some .lread else if k = Kd.lwrite then some .lwrite else if k = Kd.cas then some .cas
  else if k = Kd.fadd then some .fadd else none

/-- The KIND code of a request kind. -/
def ReqKind.code : ReqKind → BitVec 5
  | .read => Kd.read | .write => Kd.write | .pwrite => Kd.pwrite | .lread => Kd.lread | .lwrite => Kd.lwrite
  | .cas => Kd.cas | .fadd => Kd.fadd

/-- KIND codes that R57 lists. -/
def kindKnown (k : BitVec 5) : Bool := decide (0x01#5 ≤ k ∧ k ≤ 0x10#5)

/-- Kinds carried only in class 7 (R57). -/
def kindIs7 (k : BitVec 5) : Bool :=
  k == Kd.cycle || k == Kd.beacon || k == Kd.time || k == Kd.twin || k == Kd.wake

/-- Kinds that bypass the windows (R57, R69). -/
def kindWindowed (k : BitVec 5) : Bool := !(k == Kd.cycle || k == Kd.beacon || k == Kd.time)

/-! ### Request and completion payloads (05 R117 to R120) -/

/-- A request read from its frame: the prefix, then the data. -/
def Frame.request (f : Frame) : Request :=
  let p := f.payload
  { srcRing := f.srcRing, srcNode := f.srcNode, cls := f.cls, flow := f.flow, tag := f.tag,
    bcast := f.dstNode == 511#9,
    init := BitVec.ofNat 4 (beVal ((p.drop 5).take 1) / 16),
    size := BitVec.ofNat 2 (beVal ((p.drop 5).take 1) / 4),
    addr := BitVec.ofNat 40 (beVal (p.take 5)),
    bytes := BitVec.ofNat 9 (beVal ((p.drop 6).take 2)),
    len := f.len, data := p.drop 8 }

/-- The payload of a request (R117, R118). -/
def Request.payload (q : Request) : List Byte :=
  beBytes 5 q.addr.toNat ++ [BitVec.ofNat 8 (q.init.toNat * 16 + q.size.toNat * 4)] ++ beBytes 2 q.bytes.toNat ++ q.data

/-- LEN that the table of R118 gives. -/
def reqLen (k : ReqKind) (bytes : Nat) : Nat :=
  match k with
  | .read | .lread => 8
  | .write | .pwrite | .lwrite | .fadd => 8 + bytes
  | .cas => 8 + 2 * bytes

/-- The format checks of R119 and R4. -/
def formatOk (k : ReqKind) (q : Request) : Bool :=
  let n := q.bytes.toNat
  decide (1 ≤ n ∧ n ≤ 256) && decide (q.len.toNat = reqLen k n) && decide (q.data.length = reqLen k n - 8) &&
  q.hi == 0#9 && decide (q.init.toNat < 3) &&
  (match k with
   | .cas | .fadd =>
     ((q.size == 2#2 && n == 4) || (q.size == 3#2 && n == 8)) && q.addr.toNat % n == 0
   | _ => q.size == 0#2)

/-! ### Byte fields of a payload, most significant byte first (00 R6) -/

/-- `n` bytes at `off` as a number. -/
def fieldBE (p : List Byte) (off n : Nat) : Nat := beVal ((p.drop off).take n)

/-- The payload with `n` bytes at `off` replaced. -/
def putBE (p : List Byte) (off n v : Nat) : List Byte := p.take off ++ beBytes n v ++ p.drop (off + n)

/-- Bit `n` of a map at `base`: bit (n mod 8) of byte base + n / 8 (03 R79). -/
def mapBit (p : List Byte) (base n : Nat) : Bool := (fieldBE p (base + n / 8) 1 / 2 ^ (n % 8)) % 2 == 1

/-- The payload with map bit `n` set. -/
def setMapBit (p : List Byte) (base n : Nat) : List Byte :=
  if mapBit p base n then p else putBE p (base + n / 8) 1 (fieldBE p (base + n / 8) 1 + 2 ^ (n % 8))

/-- A 512-bit map of a payload; bit n of the result is node n. -/
def mapAt (p : List Byte) (base : Nat) : BitVec 512 := BitVec.ofNat 512 (leVal ((p.drop base).take 64))

/-- The bytes of a 512-bit map. -/
def mapBytes (m : BitVec 512) : List Byte := leBytes 64 m.toNat

/-! ### The BEACON payload (03 R79) -/

def bRole (p : List Byte) : Nat := fieldBE p 0 1 / 64
def bTurned (p : List Byte) : Bool := fieldBE p 0 1 / 32 % 2 == 1
def bClosed (p : List Byte) : Bool := fieldBE p 0 1 / 16 % 2 == 1
def bMode (p : List Byte) : Bool := fieldBE p 0 1 / 8 % 2 == 1
def bPending (p : List Byte) : Bool := fieldBE p 0 1 / 4 % 2 == 1
def bOrderErr (p : List Byte) : Bool := fieldBE p 0 1 / 2 % 2 == 1
def bUp (p : List Byte) : Bool := fieldBE p 1 1 / 64 % 2 == 1
def bSeq (p : List Byte) : BitVec 16 := BitVec.ofNat 16 (fieldBE p 2 2)
def bLaunch (p : List Byte) : Nat := fieldBE p 4 8
def bRtt (p : List Byte) : Nat := fieldBE p 12 4
def bPendingAt (p : List Byte) : Nat := fieldBE p 16 8
def bPendingMode (p : List Byte) : Bool := fieldBE p 24 1 % 2 == 1
def bSeed (p : List Byte) : BitVec 16 := BitVec.ofNat 16 (fieldBE p 26 2)
def bTurner (p : List Byte) : Nat := fieldBE p 28 2 % 512
def bLast (p : List Byte) : Nat := fieldBE p 30 2 % 512
def bSeen (p : List Byte) : BitVec 512 := mapAt p 48
def bPresent (p : List Byte) : BitVec 512 := mapAt p 112

/-- The valid entries of BREAKS, as link positions. -/
def bBreaks (p : List Byte) : List Nat :=
  (List.range 8).filterMap fun i =>
    let e := fieldBE p (32 + 2 * i) 2
    if e / 2 ^ 15 = 1 then some (e % 512) else none

/-- BREAKS entries for a list of positions, unused entries 0. -/
def breakBytes (l : List Nat) : List Byte :=
  (List.range 8).flatMap fun i =>
    match l[i]? with
    | some p => beBytes 2 (2 ^ 15 + p % 512)
    | none => [0#8, 0#8]

end Sys2Proof.Machine
end

