-- ==== Sys2Proof/Machine/Flags.lean ====
section
/-!
DEFINITION. Status codes, modes as predicates, the node's own identity, and the answers that completions give.
-/

namespace Sys2Proof.Machine

/-- STATUS codes (00 R11). -/
def Status.code : Status → Nat
  | .ok => 0 | .unmapped => 1 | .denied => 2 | .farError => 3 | .timeout => 4 | .targetReset => 5 | .lockBroken => 6
  | .poisoned => 7 | .busy => 8 | .wrongMode => 9 | .badRequest => 10

/-- The status of a code; a reserved code is never sent (00 R11) and reads as BAD_REQUEST. -/
def Status.ofCode (n : Nat) : Status :=
  ([.ok, .unmapped, .denied, .farError, .timeout, .targetReset, .lockBroken, .poisoned, .busy, .wrongMode] : List Status).getD n
    .badRequest

/-- Codes of the mode field and of system record 0x00C (07 R182). -/
def Mode.code : Mode → Nat
  | .recovery => 0 | .load => 1 | .isolated => 2 | .seamless => 3 | .split => 4 | .standby => 5 | .passThrough => 6
  | .drowse => 7

/-- A result with its status: refusals leave the state as it was. -/
abbrev Res := Status × State

/-- Whether the node takes part in the ring: Seamless or Split. -/
def State.onRing (s : State) : Bool := s.mode == .seamless || s.mode == .split

/-- Field service modes: Isolated, Seamless, Split, Standby (04 R91). -/
def State.inService (s : State) : Bool := s.onRing || s.mode == .isolated || s.mode == .standby

/-- The main domain runs and its transaction engine serves the local port (01 R23, 04 R91). -/
def State.serving (s : State) : Bool := !s.anat.kaHeld && !s.anat.mainHeld && !s.anat.purging && s.inService

/-- The firmware applies the configuration in Load (16 R406). -/
def State.applying (s : State) : Bool := s.mode == .load && s.boot.applying

/-- Modes in which main-domain registers refuse runtime configuration: Recovery, Load, Drowse; the firmware's own writes in
Load are the exception (16 R406). -/
def State.asleepOrLoading (s : State) : Bool :=
  s.mode == .recovery || (s.mode == .load && !s.boot.applying) || s.mode == .drowse

def State.ownRing (s : State) : Nat := s.fld Fd.WARDEN_RING_ID_RING
def State.ownNode (s : State) : Nat := s.fld Fd.WARDEN_RING_ID_NODE
def State.ownMac (s : State) : BitVec 48 := macNode s.ownRing s.ownNode

/-- Path mode in force: true is Split (03 R87). -/
def State.splitPath (s : State) : Bool := s.flag Fd.WARDEN_RING_STAT_PATH_MODE

def State.linkIsUp (s : State) (p : Nat) : Bool := s.flag (Fd.PORT_STAT_LINK_UP p)

/-- A link over which the switch may send and take: up, and not in near-end loopback (02 R470). -/
def State.portUsable (s : State) (p : Nat) : Bool := s.linkIsUp p && !s.flag (Fd.PORT_CTL_LOOP_PCS p)

/-- The gateway role of the spur (02 R49). -/
def State.isGateway (s : State) : Bool := s.fld Fd.PORT_SPUR_CTL_ROLE == 1

def State.port (s : State) (p : Nat) : PortState := Tab.get {} s.ports p
def State.setPort (p : Nat) (v : PortState) (s : State) : State := { s with ports := Tab.set {} s.ports p v }

def State.pd (s : State) (p : Nat) : PdState := Tab.get {} s.tim.pds p
def State.setPd (p : Nat) (v : PdState) (s : State) : State :=
  { s with tim := { s.tim with pds := Tab.set {} s.tim.pds p v } }

/-- TABLE_EPOCH (04 R110). -/
def State.epoch (s : State) : BitVec 16 := (s.rd Reg.SWC_TABLE_EPOCH).setWidth 16

/-- The package holds the node's ring identity: any single package, and the identity holder of a twin (03 R66, 14 R356). -/
def State.hasIdentity (s : State) : Bool := !s.twin.noIdentity

/-- The busy bit of a unit's reset (01 R24). -/
def busyBit : ResetUnit → Fld
  | .pcs p => ⟨Reg.SYS_UNIT_RST_BUSY, p.val, 1⟩
  | .bobbin n => ⟨if n.val < 32 then Reg.SYS_BOB_RST_BUSY_LO else Reg.SYS_BOB_RST_BUSY_HI, n.val % 32, 1⟩
  | .can n => ⟨Reg.SYS_UNIT_RST_BUSY, 8 + n.val, 1⟩
  | .stitch => Fd.SYS_UNIT_RST_BUSY_STB
  | .usb => Fd.SYS_UNIT_RST_BUSY_USB
  | .cycle => Fd.SYS_UNIT_RST_BUSY_CYC
  | .journal => Fd.SYS_UNIT_RST_BUSY_JRN

/-! ### Serve entries (05 R123, R147) -/

/-- The same completion, before and after its header is filled at the injection. -/
def Frame.sameCpl (f g : Frame) : Bool :=
  f.kind == g.kind && f.dstRing == g.dstRing && f.dstNode == g.dstNode && f.tag == g.tag && f.cls == g.cls && f.flow == g.flow

/-- A completion has not entered the switch: it is not injected yet, waits at the local port (04 R99) or is held by a fence (03 R76). -/
def State.onItsWay (s : State) (f : Frame) : Bool :=
  s.txn.toInject.any f.sameCpl || s.sw.waiting.any (fun w => f.sameCpl w.item.frame) || s.ring.held.any fun h => f.sameCpl h.2.1

/-- Serve entries taken (R123): requests not yet executed, those in the bridge queue (10 R254), writes that a churn handover holds (15
R377), and requests whose completion has not entered the switch. -/
def State.serveCount (s : State) : Nat :=
  s.txn.serve.length + s.stb.queue.length + s.stb.waiting.length + (s.hand.filterMap fun h => h.2.req).eraseDups.length +
    (s.txn.closing.filter s.onItsWay).length

/-- Requests are refused with BUSY: a quiesce runs, or it has ended and Drowse follows (R147, 16 R412). -/
def State.quiescing (s : State) : Bool := s.flag Fd.TXN_TXN_STAT_QUIESCING || s.boot.drowsy

/-- A PWRITE of another node that finds all 256 entries taken stays in the local output queue (R123). -/
def State.entryFor (s : State) (f : Frame) : Bool :=
  !(s.serving && !s.quiescing && decide (256 ≤ s.serveCount) && f.kind == Kd.pwrite)

/-- A reset of the unit is in progress (01 R24). -/
def State.unitBusy (s : State) (u : ResetUnit) : Bool := s.flag (busyBit u)

/-- The second package of a twin (14 R350). -/
def State.second (s : State) : Bool := s.flag Fd.SYS_STRAP_TWIN_POS && s.flag Fd.TWIN_TWIN_CFG_EN

/-! ### Station events and host interrupts (11 R277, R282, 15 R386) -/

/-- A remote wake is requested by the station function or by a device on the suspended port DS `n`, while the bus is suspended (11 R277).
While the host drives K it counts as served. -/
def State.requestWake (ds : Option Nat) (s : State) : State :=
  if !s.flag Fd.USB_USB_STAT_SUSPENDED || !(ds.all fun n => s.flag (Fd.USB_DS_STAT_SUSPEND n)) then s
  else
    let s := match ds with
      | none => s.on Fd.USB_WAKE_SRC_FN_REMOTE
      | some n => s.on ⟨Reg.USB_WAKE_SRC, 3 + n, 1⟩
    if s.usb.hostK then (match ds with
      | none => s.on Fd.USB_WAKE_SRC_FN_SERVED
      | some _ => s)
    else
      match ds with
      | none => { s with usb := { s.usb with wakeFn := true } }
      | some n => { s with usb := { s.usb with wakeDs := s.usb.wakeDs ||| BitVec.ofNat 4 (2 ^ n) } }

/-- An event enters the EP2 queue, or is lost (11 R282); with RWAKE_EVT it requests a remote wake (R277). -/
def State.stationEvent (code arg : Nat) (s : State) : State :=
  if 32 ≤ s.usb.events.length then
    State.bump Reg.USB_EVT_LOST { s with usb := { s.usb with evLost := true } }
  else
    let e : StEvent := { code, lost := s.usb.evLost, arg, time := s.now % 2 ^ 32 }
    let s : State := { s with usb := { s.usb with events := s.usb.events ++ [e], evLost := false } }
    if s.flag Fd.USB_USB_CTL_RWAKE_EVT then s.requestWake none else s

/-- Set a source of H_IRQ_PEND (15 R386). -/
def State.hostPend (bit : Nat) (s : State) : State := s.on ⟨Reg.HOST_H_IRQ_PEND, bit, 1⟩

/-- Answer a register command given as a command of its own. -/
def answer (r : Res) : State := r.2.emit (.answer r.1)

/-- Count a refusal WRONG_MODE in TXN (00 R3). -/
def wrongMode (s : State) : Res := (.wrongMode, s.bump Reg.TXN_WRONG_MODE_CNT)

/-- Refuse with a status. -/
def refuse (st : Status) (s : State) : Res :=
  match st with
  | .wrongMode => wrongMode s
  | .badRequest => (.badRequest, s.bump Reg.TXN_BAD_REQ_CNT)
  | .unmapped => (.unmapped, s.bump Reg.TXN_UNMAPPED_CNT)
  | .poisoned => (.poisoned, s.bump Reg.TXN_POISONED_CNT)
  | .targetReset => (.targetReset, s.bump Reg.SYS_TGT_RESET_CNT)
  | st => (st, s)

/-- A register command that acts by `f`, in unit `u` if the register is a unit's: nothing reaches a register while both domains are
held; while the main domain or the unit is in reset it is answered TARGET_RESET (01 R23, R25), and in Load only the firmware's own
writes pass (16 R406). -/
def State.command (u : Option ResetUnit) (f : State → Res) (s : State) : State :=
  if s.anat.kaHeld then s
  else if s.anat.mainHeld || (u.map s.unitBusy).getD false then answer (refuse .targetReset s)
  else if s.mode == .load && !s.boot.applying then answer (refuse .wrongMode s)
  else answer (f s)

/-- A read command, in unit `u` if it is a unit's: `f` gives its status and data (01 R23, R25). -/
def State.query (u : Option ResetUnit) (f : State → Status × List Byte × State) (s : State) : State :=
  if s.anat.kaHeld then s
  else if s.anat.mainHeld || (u.map s.unitBusy).getD false then (refuse .targetReset s).2.emit (.data .targetReset [])
  else (f s).2.2.emit (.data (f s).1 (f s).2.1)

/-- A command of SYS that Load does not shut out: MODE_CTL and WDOG_KICK (16 R407, R416). -/
def State.sysCommand (f : State → Res) (s : State) : State :=
  if s.anat.kaHeld then s else if s.anat.mainHeld then answer (refuse .targetReset s) else answer (f s)

/-- A write of bytes at offset `off` of a table at `base` with entries of `size` bytes: the touched entries are written in ascending
order, each as `fix` leaves it, up to the first that `ok` refuses (18 R442). The first component says that an entry was written. -/
def State.entryWrite (base size off : Nat) (b : List Byte) (fix : List Byte → List Byte) (ok : List Byte → Bool) (s : State) :
    Bool × Res :=
  ((List.range ((off + b.length + size - 1) / size - off / size)).map fun i => off / size + i).foldl (fun r k =>
    match r with
    | (w, .ok, t) =>
      let e := (List.range size).map fun i =>
        let p := size * k + i
        if off ≤ p ∧ p < off + b.length then b.getD (p - off) 0#8 else t.byte (base + p)
      if ok (fix e) then (true, .ok, t.writeBytes (base + size * k) (fix e)) else (w, refuse .badRequest t)
    | r => r) (false, .ok, s)

end Sys2Proof.Machine
end

