-- ==== Sys2Proof/Machine/Power.lean ====
section
/-!
DEFINITION. Feeds, branches and metering (13_feeds_and_branches.md): the power die with its feeds, branch protection,
power-good, metering, hold-over and event queue, and the power link between the dies. Times of the power die are exact here.
-/

namespace Sys2Proof.Machine

/-! ### The power die's own state -/

def State.setPow (p : Power) (s : State) : State := { s with pow := p }
def State.br (s : State) (n : Nat) : BrState := Tab.get {} s.pow.brs n
def State.setBr (n : Nat) (b : BrState) (s : State) : State := s.setPow { s.pow with brs := Tab.set {} s.pow.brs n b }
def State.brState (s : State) (n : Nat) : Nat := s.fld (Fd.BR_BR_STAT_STATE n)
def State.setBrState (n v : Nat) (s : State) : State := s.setFld (Fd.BR_BR_STAT_STATE n) v
def State.plkSrc (s : State) (src : Nat) : PlkSrc := Tab.get {} s.pow.srcs src
def State.setPlkSrc (src : Nat) (p : PlkSrc) (s : State) : State := s.setPow { s.pow with srcs := Tab.set {} s.pow.srcs src p }

/-- The register `off` of path `k`: feed A, feed B, node bus, BRANCH[0..15] (R333). -/
def pathReg (k off : Nat) : Nat := if k < 3 then 0xF0000 + 0x100 * k + off else 0xF1000 + 0x100 * (k - 3) + off

/-- The gate of the branch is driven: SOFT_START, ON or LIMITING. -/
def State.brOn (s : State) (n : Nat) : Bool := decide (1 ≤ s.brState n ∧ s.brState n ≤ 3)

/-- Let time pass until the model's clock stands at `t` or beyond. -/
def State.toClk (t : Nat) (s : State) : State := s.advance (t - s.clk)

/-- 0.1 ms in ps. -/
def tenthMs : Nat := 100 * usPs

/-- An event enters the event queue, or is lost; the next of its path then carries LOST (R347). -/
def State.powEvent (code path : Nat) (level : Bool) (arg : Nat) (s : State) : State :=
  let p := s.pow
  if p.events.length < 64 then
    let e : PEvent := { code, path, level, lost := p.lostPaths.contains path, arg, at_ := s.clk }
    s.setPow { p with events := p.events ++ [e], lostPaths := p.lostPaths.filter (· != path) }
  else
    (s.bump Reg.PWR_EVQ_LOST).setPow { p with lostPaths := path :: p.lostPaths.filter (· != path) }

/-! ### Feeds (R320 to R322) -/

/-- The feed FET is off. -/
def State.feedOff (f : Nat) (s : State) : State := (s.off (Fd.FEED_F_STAT_CONDUCTING f)).off (Fd.FEED_F_STAT_INRUSH f)

/-- FEED_REVERSE: a forward drop below −5 mV turns the FET off (R320). -/
def State.feedReverse (f : Nat) (s : State) : State :=
  if s.pow.up && s.flag (Fd.FEED_F_STAT_CONDUCTING f) then
    ((((s.feedOff f).on (Fd.FEED_F_STAT_REVERSE f)).on (Fd.FEED_F_STAT_REV_SEEN f)).bump (Reg.FEED_REV_CNT f)).powEvent 0x7 f false 0
  else s
def execFeedReverse (f : Fin 2) (s : State) : Host.Outcome State Fault Refusal := .next (s.feedReverse f.val)

/-- FEED_CONDUCT: a forward drop above +20 mV turns the FET of a feed in range on again (R320). -/
def State.feedConduct (f : Nat) (s : State) : State :=
  if s.pow.up && s.flag (Fd.FEED_F_STAT_IN_RANGE f) && s.flag (Fd.FEED_F_CFG2_EN f) && !s.flag (Fd.FEED_F_STAT_CONDUCTING f) then
    ((s.off (Fd.FEED_F_STAT_REVERSE f)).on (Fd.FEED_F_STAT_CONDUCTING f)).powEvent 0x7 f true 0
  else s
def execFeedConduct (f : Fin 2) (s : State) : Host.Outcome State Fault Refusal := .next (s.feedConduct f.val)

/-- FEED_IN_RANGE: UV and OV clear with their events; an enabled feed conducts, by a ramp while the node bus is more than 1 V
below it (R321, R322). -/
def State.feedInRange (f drop : Nat) (s : State) : State :=
  if s.pow.up && !s.flag (Fd.FEED_F_STAT_IN_RANGE f) then
    let uv := s.flag (Fd.FEED_F_STAT_UV f)
    let ov := s.flag (Fd.FEED_F_STAT_OV f)
    let s := (s.on (Fd.FEED_F_STAT_IN_RANGE f)).onlyIf uv fun t => (t.off (Fd.FEED_F_STAT_UV f)).powEvent 0x8 f false 0
    let s := s.onlyIf ov fun t => (t.off (Fd.FEED_F_STAT_OV f)).powEvent 0x9 f false 0
    if s.flag (Fd.FEED_F_CFG2_EN f) && decide (drop < 2) then
      (s.on (Fd.FEED_F_STAT_CONDUCTING f)).setFlag (Fd.FEED_F_STAT_INRUSH f) (drop == 0)
    else s
  else s
def execFeedInRange (f : Fin 2) (drop : Fin 3) (s : State) : Host.Outcome State Fault Refusal :=
  .next (s.feedInRange f.val drop.val)

/-- A feed leaves the range (R321). -/
def State.feedOut (f : Nat) (now seen : Fld) (cnt code : Nat) (s : State) : State :=
  if s.pow.up && s.flag (Fd.FEED_F_STAT_IN_RANGE f) then
    let s := ((s.feedOff f).off (Fd.FEED_F_STAT_IN_RANGE f)).off (Fd.FEED_F_STAT_REVERSE f)
    (((s.on now).on seen).bump cnt).powEvent code f true 0
  else s

/-- FEED_UNDERVOLTAGE (R321). -/
def execFeedUndervoltage (f : Fin 2) (s : State) : Host.Outcome State Fault Refusal :=
  .next (s.feedOut f.val (Fd.FEED_F_STAT_UV f) (Fd.FEED_F_STAT_UV_SEEN f) (Reg.FEED_UV_CNT f) 0x8)

/-- FEED_OVERVOLTAGE (R321). -/
def execFeedOvervoltage (f : Fin 2) (s : State) : Host.Outcome State Fault Refusal :=
  .next (s.feedOut f.val (Fd.FEED_F_STAT_OV f) (Fd.FEED_F_STAT_OV_SEEN f) (Reg.FEED_OV_CNT f) 0x9)

/-- INRUSH_END: ideal-diode control follows the ramp (R322). -/
def execInrushEnd (f : Fin 2) (s : State) : Host.Outcome State Fault Refusal := .next (s.off (Fd.FEED_F_STAT_INRUSH f))

/-! ### Branches (R324 to R332) -/

/-- Path number of a branch (R333). -/
def brPath (n : Nat) : Nat := 3 + n

/-- The branch starts: SOFT_START with event 0x1 (R324). -/
def State.brStart (n : Nat) (s : State) : State :=
  ((s.setBrState n 1).setBr n { s.br n with startAt := some s.clk, offEnd := none, onAt := none }).powEvent 0x1 (brPath n) true
    (s.fld (Fd.BR_BR_STAT_RETRY_COUNT n))

/-- Limiting ends: the fault timer holds (R325). -/
def State.endLimit (n : Nat) (s : State) : State :=
  let b := s.br n
  match b.limitAt with
  | none => s
  | some t =>
    (s.setBr n { b with faultT := b.faultT + (s.clk - t), limitAt := none, idleAt := some s.clk }).powEvent 0x4 (brPath n) false 0

/-- Power-good falls, if it stands (R331). -/
def State.pgFall (n : Nat) (s : State) : State :=
  if s.flag (Fd.BR_BR_STAT_PG n) then
    ((s.off (Fd.BR_BR_STAT_PG n)).bump (Reg.BR_PG_LOSS_CNT n)).powEvent 0x3 (brPath n) false 0
  else s

/-- The gate is off: limiting, power-good and every running time of the branch end. -/
def State.gateOff (n : Nat) (s : State) : State :=
  let s := (s.endLimit n).pgFall n
  s.setBr n { s.br n with startAt := none, offEnd := none, onAt := none, pgAt := none }

/-- The branch is turned off: 0 by command, which clears RETRY_COUNT, 1 by the hold-over default (R328, R329, R344). -/
def State.brOff (n arg : Nat) (s : State) : State :=
  let s := ((s.gateOff n).setBrState n 0).powEvent 0x2 (brPath n) false arg
  if arg = 0 then s.setFld (Fd.BR_BR_STAT_RETRY_COUNT n) 0 else s

/-- T_f after a trip (R327), ps. -/
def State.faultTime (s : State) (n : Nat) (starting : Bool) : Nat :=
  (if starting then s.fld (Fd.BR_BR_START_START_TIME n) else s.fld (Fd.BR_BR_LIMIT_FAULT_TIME n)) * tenthMs

/-- A trip: 0 fault timer, 1 fast, 2 start. The branch latches off or waits out its off-time (R327). -/
def State.trip (n cause : Nat) (s : State) : State :=
  let s := (s.gateOff n).bump (Reg.BR_TRIP_CNT n)
  let s := s.onlyIf (cause == 1) (·.bump (Reg.BR_FAST_CNT n))
  let s := s.onlyIf (cause == 2) (·.bump (Reg.BR_START_CNT n))
  let s := ((s.on (Fd.BR_BR_STAT_TRIPPED n)).setFld (Fd.BR_BR_STAT_LAST_CAUSE n) cause).powEvent 0x5 (brPath n) false cause
  let r := s.fld (Fd.BR_BR_STAT_RETRY_COUNT n)
  let m := s.fld (Fd.BR_BR_RETRY_RETRY_MAX n)
  if r = m ∧ m ≠ 255 then
    ((s.setBrState n 5).bump (Reg.BR_LATCH_CNT n)).powEvent 0x6 (brPath n) false r
  else
    (s.setBrState n 4).setBr n
      { s.br n with offEnd := some (s.clk + s.faultTime n (cause == 2) * s.fld (Fd.BR_BR_RETRY_DUTY_RATIO n)) }

/-- A command to a branch: ON, RESTART (R329). -/
def State.brCommand (n : Nat) (on restart : Bool) (s : State) : State :=
  let st := s.brState n
  if !on then s.brOff n 0
  else if st = 0 then (s.onlyIf restart (State.setFld (Fd.BR_BR_STAT_RETRY_COUNT n) 0)).brStart n
  else if restart ∧ (st = 4 ∨ st = 5) then (s.setFld (Fd.BR_BR_STAT_RETRY_COUNT n) 0).brStart n
  else s

/-- SOFT_START_END: STATE becomes ON, or LIMITING while the branch limits (R324). -/
def State.softStartEnd (n : Nat) (s : State) : State :=
  if s.brState n = 1 then
    let b := s.br n
    (s.setBrState n (if b.limitAt.isSome then 3 else 2)).setBr n
      { b with startAt := none, onAt := if b.limitAt.isSome then none else some s.clk }
  else s
def execSoftStartEnd (n : Fin 16) (s : State) : Host.Outcome State Fault Refusal := .next (s.softStartEnd n.val)

/-- The longest soft start: NB_SENSE / DVDT + START_TIME (R324), ps. -/
def State.startLimit (s : State) (n : Nat) : Nat :=
  (Tab.get {} s.pow.meas 2).v.toNat * 2 * 10000000 / max 1 (s.fld (Fd.BR_BR_START_DVDT n)) + s.faultTime n true

/-- SOFT_START_TIMEOUT: a trip with cause 2 (R324). -/
def State.softStartTimeout (n : Nat) (s : State) : State :=
  match (s.br n).startAt with
  | some t => if s.brState n = 1 then (s.toClk (t + s.startLimit n)).trip n 2 else s
  | none => s
def execSoftStartTimeout (n : Fin 16) (s : State) : Host.Outcome State Fault Refusal := .next (s.softStartTimeout n.val)

/-- LIMIT_BEGIN: the fault timer counts, on from the held value within 10 ms; PG_DELAY restarts (R325, R332). -/
def State.limitBegin (n : Nat) (s : State) : State :=
  let b := s.br n
  if s.brOn n && b.limitAt.isNone then
    let keep := (b.idleAt.map fun t => decide (s.clk < t + 10 * msPs)).getD false
    let s := s.setBr n { b with
      faultT := if keep then b.faultT else 0
      limitAt := some s.clk
      idleAt := none
      onAt := none
      pgAt := none }
    (s.onlyIf (s.brState n == 2) (·.setBrState n 3)).powEvent 0x4 (brPath n) true 0
  else s
def execLimitBegin (n : Fin 16) (s : State) : Host.Outcome State Fault Refusal := .next (s.limitBegin n.val)

/-- LIMIT_END (R325). -/
def State.limitEnd (n : Nat) (s : State) : State :=
  if (s.br n).limitAt.isSome then
    let s := s.endLimit n
    if s.brState n = 3 then (s.setBrState n 2).setBr n { s.br n with onAt := some s.clk } else s
  else s
def execLimitEnd (n : Fin 16) (s : State) : Host.Outcome State Fault Refusal := .next (s.limitEnd n.val)

/-- FAULT_TIMER_CLEAR: 10 ms without limiting (R325). -/
def State.faultClear (n : Nat) (s : State) : State :=
  match (s.br n).idleAt with
  | some t => (s.toClk (t + 10 * msPs)).setBr n { s.br n with faultT := 0, idleAt := none }
  | none => s
def execFaultTimerClear (n : Fin 16) (s : State) : Host.Outcome State Fault Refusal := .next (s.faultClear n.val)

/-- FAULT_TIMER_EXPIRY: a trip with cause 0, or 2 during soft start (R325). -/
def State.faultExpiry (n : Nat) (s : State) : State :=
  let b := s.br n
  match b.limitAt with
  | some t =>
    let starting := s.brState n == 1
    (s.toClk (t + (s.faultTime n starting - b.faultT))).trip n (if starting then 2 else 0)
  | none => s
def execFaultTimerExpiry (n : Fin 16) (s : State) : Host.Outcome State Fault Refusal := .next (s.faultExpiry n.val)

/-- FAST_TRIP: a trip with cause 1, whatever the fault timer shows (R326). -/
def execFastTrip (n : Fin 16) (s : State) : Host.Outcome State Fault Refusal :=
  .next (if s.brOn n then s.trip n.val 1 else s)

/-- OFF_TIME_END: RETRY_COUNT increments and the branch starts (R327). -/
def State.offTimeEnd (n : Nat) (s : State) : State :=
  match (s.br n).offEnd with
  | some t => ((s.toClk t).bumpFld (Fd.BR_BR_STAT_RETRY_COUNT n) 1).brStart n
  | none => s
def execOffTimeEnd (n : Fin 16) (s : State) : Host.Outcome State Fault Refusal := .next (s.offTimeEnd n.val)

/-- CLEAR_TIME_END (R328). -/
def State.clearTimeEnd (n : Nat) (s : State) : State :=
  match (s.br n).onAt with
  | some t => (s.toClk (t + s.fld (Fd.BR_BR_CLEAR_CLEAR_TIME n) * 10 * msPs)).setFld (Fd.BR_BR_STAT_RETRY_COUNT n) 0
  | none => s
def execClearTimeEnd (n : Fin 16) (s : State) : Host.Outcome State Fault Refusal := .next (s.clearTimeEnd n.val)

/-- POWER_GOOD_RISE: BR_VOUT has stood at PG_THRESH for PG_DELAY with the fault timer idle (R331, R332). -/
def State.pgRise (n : Nat) (s : State) : State :=
  let b := s.br n
  match b.pgAt with
  | some t =>
    if s.brOn n && b.limitAt.isNone && !s.flag (Fd.BR_BR_STAT_PG n) then
      (((s.toClk (t + s.fld (Fd.BR_BR_PG_PG_DELAY n) * tenthMs)).on (Fd.BR_BR_STAT_PG n)).setBr n { b with pgAt := none }).powEvent
        0x3 (brPath n) true 0
    else s
  | none => s
def execPowerGoodRise (n : Fin 16) (s : State) : Host.Outcome State Fault Refusal := .next (s.pgRise n.val)

/-- The latest sample of the branch lies below PG_THRESH − 2 percent of the latest node bus sample (R331). -/
def State.pgBelow (s : State) (n : Nat) : Bool :=
  decide ((Tab.get {} s.pow.meas (brPath n)).v.toNat * 100 <
    (s.fld (Fd.BR_BR_PG_PG_THRESH n) - 2) * (Tab.get {} s.pow.meas 2).v.toNat)

/-- POWER_GOOD_FALL: judged, like the rise, by the samples (R331). -/
def execPowerGoodFall (n : Fin 16) (s : State) : Host.Outcome State Fault Refusal :=
  .next (if s.pgBelow n.val then s.pgFall n.val else s)

/-! ### Metering (R333, R334) -/

/-- A sample held to the full scale I_FS = 25 mV / Rs of its path, in IUNIT (R333). -/
def clampI (ifs : Nat) (i : Int) : Int := if (ifs : Int) < i then ifs else if i < -(ifs : Int) then -(ifs : Int) else i

/-- mA of one IUNIT of path `k`. -/
def State.iUnit (s : State) (k : Nat) : Nat := if bits (s.rd (pathReg k 0x50)) 16 1 = 1 then 10 else 1

/-- One sample of path `k`: V in 2 mV, I in IUNIT (R333, R334). A branch sample judges PG_THRESH (R331). -/
def State.meter (k : Nat) (v : BitVec 16) (i : BitVec 16) (s : State) : State :=
  if !s.pow.up then s
  else
    let u := s.iUnit k
    let c := clampI (25000000 / max 1 (bits (s.rd (pathReg k 0x50)) 0 16) / u) i.toInt
    let m := Tab.get {} s.pow.meas k
    let p : Int := (2 * u * v.toNat : Nat) * c
    let prods := (p :: m.prods).take 1024
    let mean := prods.foldl (· + ·) 0 / (prods.length : Int) / 1000
    let pj : Int := m.frac + p * 19
    let e := (s.rd64 (pathReg k 0x48) (pathReg k 0x4C) : Int) + pj / 1000000
    let s := s.setPow { s.pow with meas := Tab.set {} s.pow.meas k { v, i := c, prods, frac := (pj % 1000000).toNat } }
    let s := (s.wr (pathReg k 0x44) (BitVec.ofInt 32 mean)).wr64 (pathReg k 0x48) (pathReg k 0x4C) (e % 2 ^ 64).toNat
    let s := if (s.rd (pathReg k 0x54)).toNat < c.natAbs then s.wr (pathReg k 0x54) (BitVec.ofNat 32 c.natAbs) else s
    if k < 3 then s
    else
      let n := k - 3
      let b := s.br n
      let good := s.brOn n && b.limitAt.isNone && !s.flag (Fd.BR_BR_STAT_PG n) &&
        decide (s.fld (Fd.BR_BR_PG_PG_THRESH n) * (Tab.get {} s.pow.meas 2).v.toNat ≤ v.toNat * 100)
      if good then (if b.pgAt.isSome then s else s.setBr n { b with pgAt := some s.clk })
      else s.setBr n { b with pgAt := none }

/-- METERING_SAMPLE. -/
def execMeteringSample (k : Fin 19) (v i : BitVec 16) (s : State) : Host.Outcome State Fault Refusal := .next (s.meter k.val v i)

/-- Clear ENERGY of a path (R334). -/
def State.clearEnergy (k : Nat) (s : State) : State :=
  (s.wr64 (pathReg k 0x48) (pathReg k 0x4C) 0).setPow
    { s.pow with meas := Tab.set {} s.pow.meas k { Tab.get {} s.pow.meas k with frac := 0 } }

/-- The measurement record of the logic die (R336). -/
def State.measRecord (s : State) : List Byte :=
  let map := fun (f : Nat → Bool) => (List.range 16).foldl (fun a n => if f n then a + 2 ^ n else a) 0
  leBytes 2 (map s.brOn) ++ leBytes 2 (map fun n => s.flag (Fd.BR_BR_STAT_PG n)) ++
  (List.range 19).flatMap fun k => leBytes 4 (s.rd (pathReg k 0x40)).toNat

/-! ### Registers of the power die (R343, R348) -/

/-- A register held in the power die, by offset from the PWR block: it crosses the link (R341). -/
def dieReg (a : Nat) : Bool :=
  let o := a % 0x100
  if a < 0x300 then
    (decide (0x44 ≤ o ∧ o ≤ 0x58) && o % 4 == 0) ||
      (decide (a < 0x200) && ([0x00, 0x04, 0x08, 0x80, 0x84, 0x88] : List Nat).contains o)
  else if 0x1000 ≤ a ∧ a < 0x2000 then
    ((decide (0x44 ≤ o ∧ o ≤ 0x58) || decide (o ≤ 0x18) || decide (0x80 ≤ o ∧ o ≤ 0x90)) && o % 4 == 0)
  else a == 0x404 || a == 0x488 || a == 0x48C

/-- Value ranges that the tables and R321, R323 state for a write of `w` at offset `a`. -/
def State.pwrInRange (s : State) (a : Nat) (w : Word) : Bool :=
  let o := a % 0x100
  let inn := fun (lo n mn mx : Nat) => decide (mn ≤ bits w lo n ∧ bits w lo n ≤ mx)
  if a < 0x300 then
    if o = 0x50 then inn 0 16 100 65535
    else if o = 0x00 then inn 16 12 180 750 && inn 0 12 160 600 && decide (bits w 0 12 + 20 ≤ bits w 16 12)
    else if o = 0x04 then inn 0 7 1 100
    else true
  else if 0x1000 ≤ a then
    let n := (a - 0x1000) / 0x100
    let drop := fun (x y : Nat) => decide (5000000 ≤ x * y ∧ x * y ≤ 25000000)
    if o = 0x04 then inn 16 9 1 500 && inn 0 16 500 30000 && drop (bits w 0 16) (s.fld (Fd.BR_SHUNT_UOHM n))
    else if o = 0x08 then inn 16 10 1 1000 && inn 0 7 1 100
    else if o = 0x0C then inn 0 12 16 4095
    else if o = 0x10 then inn 0 16 1 65535
    else if o = 0x14 then inn 16 10 1 1000 && inn 0 7 50 100
    else if o = 0x50 then inn 0 16 100 65535 && drop (s.fld (Fd.BR_BR_LIMIT_LIMIT n)) (bits w 0 16)
    else true
  else if a = 0x404 then inn 0 10 0 1000
  else true

/-- The power die applies a whole register; the answer is 0x00, or 0x02 in a state that refuses SHUNT (R339, R348). -/
def State.dieApply (a : Nat) (w : Word) (s : State) : Nat × State :=
  let o := a % 0x100
  let put := fun (m : Word) => (0, s.wr (0xF0000 + a) (w &&& m))
  if !dieReg a || !s.pwrInRange a w then (0, s)
  else if o = 0x50 then
    let busy := if a < 0x200 then s.flag (Fd.FEED_F_CFG2_EN (a / 0x100))
      else if a < 0x300 then false
      else s.brState ((a - 0x1000) / 0x100) != 0 && s.brState ((a - 0x1000) / 0x100) != 5
    if busy then (2, s) else put 0x1FFFF#32
  else if o = 0x58 then
    (0, if w.getLsbD 0 then s.clearEnergy (if a < 0x300 then a / 0x100 else (a - 0x1000) / 0x100 + 3) else s)
  else if a < 0x200 then
    if o = 0x00 then put 0x0FFF0FFF#32
    else if o = 0x04 then
      let (_, t) := put 0x17F#32
      (0, if w.getLsbD 8 then t else (t.feedOff (a / 0x100)).off (Fd.FEED_F_STAT_REVERSE (a / 0x100)))
    else if o = 0x08 then (0, s.wr (0xF0000 + a) (s.rd (0xF0000 + a) &&& ~~~(w &&& 0x700#32)))
    else (0, s)
  else if a = 0x404 then put 0x103FF#32
  else if 0x1000 ≤ a then
    let n := (a - 0x1000) / 0x100
    if o = 0x00 then
      (0, (s.wr (0xF0000 + a) (w &&& 0x9#32)).brCommand n (w.getLsbD 0) (w.getLsbD 1))
    else if o = 0x04 then put 0x01FFFFFF#32
    else if o = 0x08 then put 0x03FF007F#32
    else if o = 0x0C then put 0x00FF0FFF#32
    else if o = 0x10 then put 0x0000FFFF#32
    else if o = 0x14 then put 0x03FF007F#32
    else if o = 0x18 then (0, s.wr (0xF0000 + a) (s.rd (0xF0000 + a) &&& ~~~(w &&& 0x10000#32)))
    else (0, s)
  else (0, s)

/-- RC registers of the power die (R334, R349). -/
def dieRc (a : Nat) : Bool :=
  let o := a % 0x100
  (decide (a < 0x300 ∨ 0x1000 ≤ a) && (o == 0x54 || decide (0x80 ≤ o))) || a == 0x488 || a == 0x48C

/-! ### The power link (R337 to R342) -/

/-- One bit of the CRC-8 with polynomial 0x07. -/
def crc8Bit (c : Byte) : Byte := if c.msb then (c <<< 1) ^^^ 0x07#8 else c <<< 1

/-- The CRC-8 of `l` from `c` (R340). -/
def crc8 (c : Byte) (l : List Byte) : Byte :=
  l.foldl (fun c b => (List.range 8).foldl (fun x _ => crc8Bit x) (c ^^^ b)) c

/-- The CMD byte (R339). -/
def plkCmd (op : Nat) (act : Bool) (src a : Nat) : Byte :=
  BitVec.ofNat 8 (op * 64 + (if act then 32 else 0) + src * 16 + a / 256)

/-- Write the bytes of a transaction to the record of what left the part: each part ends with its CRC (R340). -/
def State.plkOut (src : Nat) (master target : List Byte) (s : State) : State :=
  let c := crc8 0#8 master
  s.emit (.plk (src == 1) (master ++ [c]) (target ++ [crc8 c target]))

/-- The partner's ACT is seen (14 R357). -/
def State.partnerAct (s : State) : Bool :=
  match s.twin.actAt with
  | some t => decide (s.clk ≤ t + 20 * usPs)
  | none => false

/-- Let time pass to this package's next slot on the power link (R337, R339): the first package's begin at multiples of 10 µs,
the second's 5 µs later. -/
def State.toOwnSlot (s : State) : State :=
  let off := if s.flag Fd.SYS_STRAP_TWIN_POS then 5000 else 0
  s.toTime ((s.now + 10000 - off) / 10000 * 10000 + off)

/-- SRC of this package (R339), and whether it sets ACT: alone always, in a twin as the field holder (R342, 14 R355). Firmware
that applies the configuration in Load writes with ACT = 1 while no partner's ACT is seen (log 134). -/
def State.ownSrc (s : State) : Nat := if s.second then 1 else 0
def State.ownAct (s : State) : Bool :=
  if s.applying then !s.partnerAct
  else !s.flag Fd.TWIN_TWIN_CFG_EN || s.fld Fd.TWIN_TWIN_STAT_STATE == 3 || s.fld Fd.TWIN_TWIN_STAT_STATE == 4

/-- A transaction of `src` that the other SRC's ownership forbids to write (R342). -/
def State.actClash (s : State) (src : Nat) (act : Bool) : Bool :=
  !act || (match s.pow.owner with
    | some (o, t) => o != src && decide (s.clk ≤ t + 100 * usPs)
    | none => false)

/-- A valid transaction at the power die: it ends hold-over, and with ACT = 1 makes its SRC the owner (R16, R342, R344). A
twin package sees its partner's slot on the wires (14 R357). -/
def State.plkValid (src : Nat) (act : Bool) (s : State) : State :=
  let s := if s.pow.hold then (s.setPow { s.pow with hold := false, holdEnd := none }).powEvent 0xA 2 false 0 else s
  let s := (s.setPlkSrc src { s.plkSrc src with valid := some s.clk, held := false })
  let s := s.setPow { s.pow with lastValid := s.clk }
  let s : State := if src = s.ownSrc then s
    else { s with twin := { s.twin with slotAt := some s.clk, actAt := if act then some s.clk else s.twin.actAt } }
  if act then
    let s := s.setPow { s.pow with owner := some (src, s.clk) }
    (s.setFld Fd.PWR_PWR_STAT_OWNER src).setFlag Fd.PWR_PWR_STAT_ACTIVE (src == s.ownSrc)
  else s

/-- The logic die has a valid answer: PLK_LOST clears, PLK_BACK is set and a record is made (R17). -/
def State.plkAnswered (s : State) : State :=
  let s : State := { s with anat := { s.anat with plkFailRun := 0 } }
  if s.flag Fd.PWR_PWR_STAT_PLK_LOST then ((s.off Fd.PWR_PWR_STAT_PLK_LOST).on Fd.PWR_PWR_STAT_PLK_BACK).sysRec 0x002 0
  else s

/-- A transaction of this package without a valid answer (R17, R340). -/
def State.plkFailed (cnt : Nat) (s : State) : State :=
  State.bump cnt { s with anat := { s.anat with plkFailRun := s.anat.plkFailRun + 1 } }

/-- The frame of a transaction: what the target does with it, and what this package's master sees of its answer. Only a
master whose main domain is out of reset sends (R15, R343). -/
def State.plk (src : Nat) (act : Bool) (fate : PlkFate) (target : State → State) (answer : State → State) (s : State) : State :=
  let own := src == s.ownSrc
  if own && (s.anat.kaHeld || s.anat.mainHeld) then s
  else
    let act := if own then s.ownAct else act
    let heard := s.pow.up && fate != .masterLost
    let s := if heard then target (s.plkValid src act) else s
    if !own then s
    else if heard && fate == .answered then (answer s).plkAnswered
    else if heard && fate == .answerBad then s.plkFailed Reg.PWR_PLK_CRC_ERR
    else s.plkFailed Reg.PWR_PLK_NOANS

/-- What a POLL returns: STAT and MDATA (R339); `held` tells that hold-over came since the sender's previous transaction. -/
def State.pollAnswer (s : State) (src : Nat) (held : Bool) : Nat × Nat :=
  let p := s.plkSrc src
  let m := Tab.get {} s.pow.meas (p.next / 2)
  ((if s.pow.events.isEmpty then 0 else 128) + (if held then 64 else 0) + p.next,
    if p.next % 2 = 0 then m.v.toNat else (BitVec.ofInt 16 m.i).toNat)

/-- PLK_POLL. -/
def State.plkPoll (src : Nat) (act : Bool) (fate : PlkFate) (s : State) : State :=
  let cmdAct := if src == s.ownSrc then s.ownAct else act
  let held := (s.plkSrc src).held
  s.plk src act fate
    (fun t =>
      let (stat, d) := t.pollAnswer src held
      let p := t.plkSrc src
      (t.plkOut src [plkCmd 0 cmdAct src 0] (BitVec.ofNat 8 stat :: beBytes 2 d)).setPlkSrc src
        { p with next := (p.next + 1) % 38 })
    fun t =>
      let m := (s.plkSrc src).next
      let d := (s.pollAnswer src held).2
      let f : Fld := ⟨pathReg (m / 2) 0x40, if m % 2 = 0 then 0 else 16, 16⟩
      let t := (t.setFld f d).onlyIf held (·.on Fd.PWR_PWR_STAT_HOLDOVER_SEEN)
      t.setPow { t.pow with evt := !t.pow.events.isEmpty }
def execPlkPoll (src act : Bool) (fate : PlkFate) (s : State) : Host.Outcome State Fault Refusal :=
  .next (s.plkPoll src.toNat act fate)

/-- A half of a power die register (R341): a low half latches its high half, ENERGY_LO the whole of ENERGY. A read I_PEAK loads
the present magnitude (04 R100). -/
def State.dieRead (src a : Nat) (s : State) : BitVec 16 × State :=
  let p := s.plkSrc src
  match p.latch.lookup a with
  | some v => (v, s.setPlkSrc src { p with latch := p.latch.filter fun e => e.1 != a })
  | none =>
    let off := a / 2 * 4
    if !dieReg off then (0#16, s)
    else
      let w := s.rd (0xF0000 + off)
      let hi := w.extractLsb' 16 16
      if a % 2 = 1 then (hi, s)
      else
        let e := s.rd (0xF0000 + off + 4)
        let more := if off % 0x100 = 0x48 then [(a + 2, e.extractLsb' 0 16), (a + 3, e.extractLsb' 16 16)] else []
        let s := s.setPlkSrc src { p with latch := (a + 1, hi) :: more }
        let k := if off < 0x300 then off / 0x100 else (off - 0x1000) / 0x100 + 3
        let left := if off % 0x100 = 0x54 then BitVec.ofNat 32 (Tab.get {} s.pow.meas k).i.natAbs else 0#32
        (w.extractLsb' 0 16, if dieRc off then s.wr (0xF0000 + off) left else s)

/-- AGE of an event at its reading, in ns: whole µs up to 32,767 µs, then whole ms up to 32,767 ms (R347). -/
def eventAge (ps : Nat) : Nat :=
  if ps / usPs ≤ 32767 then ps / usPs * 1000 else min (ps / msPs) 32767 * 1000000

/-- The oldest event is read and journalled (R347). -/
def State.drainEvent (s : State) : State :=
  match s.pow.events with
  | [] => s
  | e :: t =>
    let s := s.setPow { s.pow with events := t }
    let r := s.record 2 e.path (e.code * 2 ^ 12 + e.arg) e.level
    let s := s.pushRec (344 + e.path) { r with time := s.now - eventAge (s.clk - e.at_), lost := e.lost }
    s.onlyIf (e.code == 0xB) (·.bump Reg.PWR_COLD_CNT)

/-- PLK_READ. A READ of the event queue by this package takes the oldest event, while STAT.EVT = 1 and the journal writer
runs; one by the other SRC takes it out of the queue for that package's journal (R347). -/
def State.plkRead (src : Nat) (act : Bool) (a : Nat) (fate : PlkFate) (s : State) : State :=
  let cmdAct := if src == s.ownSrc then s.ownAct else act
  s.plk src act fate
    (fun t =>
      let (v, u) := t.dieRead src a
      let u := u.onlyIf (a == 0x208 && src != u.ownSrc) fun u => u.setPow { u.pow with events := u.pow.events.tail }
      u.plkOut src [plkCmd 1 cmdAct src a, BitVec.ofNat 8 a] (beBytes 2 v.toNat))
    fun t => if a = 0x208 ∧ t.pow.evt = true ∧ t.field.writerRuns = true then t.drainEvent else t
def execPlkRead (src act : Bool) (a : BitVec 12) (fate : PlkFate) (s : State) : Host.Outcome State Fault Refusal :=
  .next (s.plkRead src.toNat act a.toNat fate)

/-- The power die takes a WRITE: RESULT and what it changes (R339, R341, R342). The low half is buffered, the high half
applies the register. -/
def State.dieWrite (src a : Nat) (clash : Bool) (d : BitVec 16) (s : State) : Nat × State :=
  if clash then (1, s.bump Reg.PWR_ACT_CLASH)
  else
    let p := s.plkSrc src
    if a % 2 = 0 then (0, s.setPlkSrc src { p with low := some (a, d) })
    else
      let lo := (match p.low with
        | some (b, v) => if b + 1 = a then v else 0#16
        | none => 0#16)
      (s.setPlkSrc src { p with low := none }).dieApply (a / 2 * 4) (d ++ lo)

/-- PLK_WRITE. -/
def State.plkWrite (src : Nat) (act : Bool) (a : Nat) (d : BitVec 16) (fate : PlkFate) (s : State) : State :=
  let cmdAct := if src == s.ownSrc then s.ownAct else act
  let clash := s.actClash src cmdAct
  s.plk src act fate
    (fun t =>
      let (r, u) := t.dieWrite src a clash d
      u.plkOut src ([plkCmd 2 cmdAct src a, BitVec.ofNat 8 a] ++ beBytes 2 d.toNat) [BitVec.ofNat 8 r])
    fun t => t
def execPlkWrite (src act : Bool) (a : BitVec 12) (data : BitVec 16) (fate : PlkFate) (s : State) :
    Host.Outcome State Fault Refusal := .next (s.plkWrite src.toNat act a.toNat data fate)

/-! ### Requests to PWR registers (R343) -/

/-- One attempt at the two WRITEs of a register by this package: the RESULT of the second, and the state. -/
def State.linkTry (a : Nat) (w : Word) (s : State) : Nat × State :=
  let src := s.ownSrc
  let act := s.ownAct
  let clash := s.actClash src act
  let one := fun (s : State) (b : Nat) (d : BitVec 16) =>
    let (r, u) := (s.plkValid src act).dieWrite src b clash d
    (r, (u.plkOut src ([plkCmd 2 act src b, BitVec.ofNat 8 b] ++ beBytes 2 d.toNat) [BitVec.ofNat 8 r]).plkAnswered)
  let (r, t) := one s (a / 2) (w.extractLsb' 0 16)
  if r ≠ 0 then (r, t) else one t (a / 2 + 1) (w.extractLsb' 16 16)

/-- WRITEs of a register by this package. One with ACT = 1 that is answered 0x01 is repeated in each own slot: 100 µs after the
partner's last transaction with ACT = 1 it is accepted (14 R360). -/
def State.linkRepeat : Nat → Nat → Word → State → Nat × State
  | 0, a, w, s => s.linkTry a w
  | k + 1, a, w, s =>
    let (r, t) := s.linkTry a w
    if r = 1 ∧ s.ownAct = true then State.linkRepeat k a w t.toOwnSlot else (r, t)
def State.linkWrite (a : Nat) (w : Word) (s : State) : Nat × State := s.linkRepeat 11 a w

/-- A read of a register that crosses the link is refused (R343). -/
def State.pwrRefuses (s : State) (a : Nat) : Bool := dieReg a && (s.flag Fd.PWR_PWR_STAT_PLK_LOST || !s.pow.up)

/-- A write to PWR: registers of the logic die are left to the common rules (R343, R348). -/
def State.pwrWrite (a : Nat) (w : Word) (s : State) : Option Res :=
  if !dieReg a then none
  else some (
    if s.pwrRefuses a || s.asleepOrLoading then refuse .wrongMode s
    else if !s.pwrInRange a w then refuse .badRequest s
    else
      let (r, t) := s.linkWrite a w
      if r = 0 then (.ok, t) else refuse .wrongMode t)

/-- A write of BR_CTL. -/
def State.brCtl (n : Nat) (w : Word) (s : State) : Res := (s.pwrWrite (0x1000 + 0x100 * n) w).getD (.ok, s)

/-- BRANCH_ON (R329). -/
def execBranchOn (n : Fin 16) (keep : Bool) (s : State) : Host.Outcome State Fault Refusal :=
  .next (s.command none fun t => t.brCtl n.val (if keep then 9#32 else 1#32))
/-- BRANCH_OFF (R329). -/
def execBranchOff (n : Fin 16) (keep : Bool) (s : State) : Host.Outcome State Fault Refusal :=
  .next (s.command none fun t => t.brCtl n.val (if keep then 8#32 else 0#32))
/-- RESTART (R329). -/
def execRestart (n : Fin 16) (keep : Bool) (s : State) : Host.Outcome State Fault Refusal :=
  .next (s.command none fun t => t.brCtl n.val (if keep then 11#32 else 3#32))

/-- ECLR (R334). -/
def execEclr (k : Fin 19) (s : State) : Host.Outcome State Fault Refusal :=
  .next (s.command none fun t => (t.pwrWrite (pathReg k.val 0x58 - 0xF0000) 1#32).getD (.ok, t))

/-! ### Hold-over and cold start (R344 to R346) -/

/-- The hold-over defaults are applied (R344). -/
def State.holdDefaults (s : State) : State :=
  (s.forEach (List.range 16) fun n t =>
    if t.flag (Fd.BR_BR_CTL_HOLD_KEEP n) || t.brState n == 0 then t else t.brOff n 1).powEvent 0xA 2 false 1

/-- HOLD_OVER_START: 50 µs without a valid poll (R16, R344, R345). -/
def State.holdOverStart (s : State) : State :=
  if !s.pow.up || s.pow.hold then s
  else
    let s := (s.toClk (s.pow.lastValid + 50 * usPs)).powEvent 0xA 2 true 0
    let recent := fun (src : Nat) => ((s.plkSrc src).valid.map fun t => decide (s.clk ≤ t + secPs)).getD false
    let s := s.forEach [0, 1] fun src t => t.setPlkSrc src { t.plkSrc src with held := true }
    let time := s.fld Fd.PWR_HOLD_CFG_HOLD_TIME
    if s.flag Fd.PWR_HOLD_CFG_HOLD_UNLIM && recent 0 && recent 1 then s.setPow { s.pow with hold := true, holdEnd := none }
    else if time = 0 then State.holdDefaults (s.setPow { s.pow with hold := true, holdEnd := none })
    else s.setPow { s.pow with hold := true, holdEnd := some (s.clk + time * 10 * msPs) }
def execHoldOverStart (s : State) : Host.Outcome State Fault Refusal := .next s.holdOverStart

/-- HOLD_TIME_END (R344). -/
def State.holdTimeEnd (s : State) : State :=
  match s.pow.holdEnd with
  | some t => (State.setPow { s.pow with holdEnd := none } (s.toClk t)).holdDefaults
  | none => s
def execHoldTimeEnd (s : State) : Host.Outcome State Fault Refusal := .next s.holdTimeEnd

/-- The firmware's write of HOLD_KEEP in Load: ON is not written, the branch keeps its state (R346). -/
def State.keepWrite (n : Nat) (keep : Bool) (s : State) : State :=
  if s.pwrRefuses (0x1000 + 0x100 * n) then s
  else
    let t := s.plkValid s.ownSrc s.ownAct
    if s.actClash s.ownSrc s.ownAct then t.bump Reg.PWR_ACT_CLASH else t.setFlag (Fd.BR_BR_CTL_HOLD_KEEP n) keep

/-- The branches named are commanded ON, 1 ms apart (R346). -/
def State.branchesOn : List (Nat × Bool) → State → State
  | [], s => s
  | (n, keep) :: l, s =>
    let t := (s.linkWrite (0x1000 + 0x100 * n) (if keep then 9#32 else 1#32)).2
    if l.isEmpty then t else State.branchesOn l (t.advance msPs)

/-- The end of the firmware's writes to the power die: COLD clears, and if it was 1 the branches that the configuration has on
start. A die that took none of the writes keeps COLD (R346). -/
def State.endCold (on : List (Nat × Bool)) (s : State) : State :=
  if s.pwrRefuses 0x1000 || s.actClash s.ownSrc s.ownAct then s
  else
    let t := s.off Fd.PWR_PWR_STAT_COLD
    if s.flag Fd.PWR_PWR_STAT_COLD then t.branchesOn on else t

/-- Every register of the power die at its reset value, COLD set (R346). -/
def State.dieRegsReset (s : State) : State :=
  State.on Fd.PWR_PWR_STAT_COLD
    { s with regs := s.regs.filter fun e => !(decide (0xF0000 ≤ e.1 ∧ e.1 < 0x100000) && dieReg (e.1 - 0xF0000)) }

/-- POWER_DIE_RESET (01 R21): the supply is below 15.5 V; the power die does nothing until it returns. -/
def State.powerDieReset (s : State) : State := s.dieRegsReset.setPow { up := false, events := [], evt := s.pow.evt }
def execPowerDieReset (s : State) : Host.Outcome State Fault Refusal := .next s.powerDieReset

/-- POWER_DIE_COLD_START (01 R21, R346). -/
def State.powerDieColdStart (s : State) : State :=
  s.dieRegsReset.setPow { events := [⟨0xB, 2, false, false, 0, s.clk⟩], lastValid := s.clk, evt := s.pow.evt }
def execPowerDieColdStart (s : State) : Host.Outcome State Fault Refusal := .next s.powerDieColdStart

/-- POWER_LINK_LOST: after 3 consecutive failed polls PLK_LOST is set and journalled (01 R17, 07 R182). -/
def State.powerLinkLost (s : State) : State :=
  if 3 ≤ s.anat.plkFailRun ∧ s.flag Fd.PWR_PWR_STAT_PLK_LOST = false then (s.on Fd.PWR_PWR_STAT_PLK_LOST).sysRec 0x002 1 else s
def execPowerLinkLost (s : State) : Host.Outcome State Fault Refusal := .next s.powerLinkLost

end Sys2Proof.Machine
end

