-- ==== Sys2Proof/Machine/Switch.lean ====
section
/-!
DEFINITION. The switch core (04_switch_core.md): storing and admitting frames, queues and cells, the choice of the next
frame, errors and stomps, the two paths and the buffer purge.
-/

namespace Sys2Proof.Machine

/-! ### Paths -/

/-- SWC_STAT.PATH: 0 full, 1 pass-through, 2 purge (R91). -/
def State.path (s : State) : Nat := s.fld Fd.SWC_SWC_STAT_PATH

/-- The forwarding path that mode and state call for (R91). -/
def State.pathFor (s : State) : Nat :=
  if s.anat.kaHeld || s.anat.mainHeld then 1 else if s.inService then 0 else 1

/-! ### Cells, queues and admission (R94, R97, R98) -/

def cellsOf (size : Nat) : Nat := (size + 255) / 256

/-- Queue class of header class `c` from input `i` (R97). -/
def State.queueClass (s : State) (i c : Nat) : Nat :=
  if c = 7 ∨ i = 3 then c else bits (s.rd (Reg.SWC_CLASS_MAP i)) (3 * c) 3

/-- Whether output `o` admits `n` cells of queue class `c` (R98). -/
def State.roomAt (s : State) (o c n : Nat) : Bool :=
  let q := 8 * o + c
  decide ((s.rd (Reg.SWC_DEPTH q)).toNat + n ≤ (s.rd (Reg.SWC_QCAP q)).toNat) &&
  (c == 7 || decide ((s.rd Reg.SWC_RESERVE).toNat + n ≤ (s.rd Reg.SWC_POOL_FREE).toNat)) &&
  decide (n ≤ (s.rd Reg.SWC_POOL_FREE).toNat)

/-- Load POOL_FREE and follow its sticky minimum (R100). -/
def State.setPool (v : Nat) (s : State) : State :=
  let s := s.wr Reg.SWC_POOL_FREE (BitVec.ofNat 32 v)
  if v < (s.rd Reg.SWC_POOL_MIN_FREE).toNat then s.wr Reg.SWC_POOL_MIN_FREE (BitVec.ofNat 32 v) else s

/-- Load DEPTH[q] and follow its sticky peak (R100). -/
def State.setDepth (q v : Nat) (s : State) : State :=
  let s := s.wr (Reg.SWC_DEPTH q) (BitVec.ofNat 32 v)
  if (s.rd (Reg.SWC_PEAK q)).toNat < v then s.wr (Reg.SWC_PEAK q) (BitVec.ofNat 32 v) else s

/-- Count a refused copy (R98, R108). -/
def State.countDrop (o c : Nat) (several : Bool) (s : State) : State :=
  (s.bump (Reg.SWC_DROP (8 * o + c))).onlyIf several (·.bump (Reg.SWC_MC_DROP o))

/-- Line mode in use at a port: STAT.SPEED_ACT (02 R30). -/
def State.speedAct (s : State) (p : Nat) : Nat := s.fld (Fd.PORT_STAT_SPEED_ACT p)

/-- Ports of different line modes force store-and-forward (02 R44). -/
def State.mixed (s : State) (i o : Nat) : Bool := decide (i < 3) && decide (o < 3) && s.speedAct i != s.speedAct o

def State.preemptActive (s : State) (p : Nat) : Bool := decide (p < 2) && s.flag (Fd.PORT_PREEMPT_STAT_ACTIVE p)

/-- Store-and-forward forced by preemption (R106). -/
def State.safPreempt (s : State) (i o c : Nat) : Bool :=
  decide (i < 2) && decide (o < 3) && decide (c < 7) && s.preemptActive i && !s.preemptActive o

/-- Whether CT_MAP selects cut-through for input `i` and queue class `c` (R102). -/
def State.ctMap (s : State) (i c : Nat) : Bool := decide (i < 3) && bits (s.rd Reg.SWC_CT_MAP) (8 * i + c) 1 == 1

/-- Whether cut-through may start the copy for output `o` (R102): not to the local port, not under R44 or R106, not a plain PTP frame, and
not a ring frame that leaves by the spur, which first passes the window (03 R62). -/
def State.cutThrough (s : State) (a : Arrival) (qcls : Nat) (pt : Bool) (o : Nat) : Bool :=
  (pt || s.ctMap a.input qcls && !s.safPreempt a.input o a.frame.cls.toNat) && !a.frame.plainPtp && o != 3 &&
    !(decide (a.input < 2) && o == 2) && !s.mixed a.input o

/-- Place a frame with its admitted copies (R98, R108): cells are taken once, DEPTH counts them in every queue. A frame of the local
port is whole. -/
def State.place (a : Arrival) (qcls : Nat) (pt : Bool) (outs : List Nat) (s : State) : State :=
  let n := a.frame.cells
  let id := s.sw.nextId
  let st : Stored := { id, frame := a.frame, input := a.input, size := a.frame.size, cells := n, refs := outs.length, qcls,
                       epoch := a.epoch, since := a.since, whole := a.input == 3, errored := false, pt }
  let cps := outs.map fun o => { id, port := o, cut := s.cutThrough a qcls pt o : Copy }
  let s := s.forEach (outs.filter fun o => s.mixed a.input o) (fun o => State.bump (Reg.PORT_SAF_FORCED o))
  let s := s.onlyIf (!pt && outs.any fun o => s.safPreempt a.input o a.frame.cls.toNat) (·.bump Reg.SWC_SAF_PREEMPT)
  let s : State := { s with sw := { s.sw with frames := s.sw.frames ++ [st], copies := s.sw.copies ++ cps, nextId := id + 1 } }
  if pt then s
  else
    (s.forEach outs fun o t => t.setDepth (8 * o + qcls) ((t.rd (Reg.SWC_DEPTH (8 * o + qcls))).toNat + n)).setPool
      ((s.rd Reg.SWC_POOL_FREE).toNat - n)

/-- Admission on the full path (R98): refused copies are counted, a frame with none admitted is discarded. -/
def State.admitFull (a : Arrival) (qcls : Nat) (outs : List Nat) (s : State) : Option Nat × State :=
  let n := a.frame.cells
  let good := outs.filter fun o => s.roomAt o qcls n
  let bad := outs.filter fun o => !s.roomAt o qcls n
  let t := s.forEach bad fun o t => t.countDrop o qcls (decide (1 < outs.length))
  if good.isEmpty then (none, t) else (some t.sw.nextId, t.place a qcls false good)

/-- Bytes held in the pass-through FIFO of output `o` for class 7 or for the other classes (R92). -/
def State.ptFill (s : State) (o : Nat) (seven : Bool) : Nat :=
  (s.sw.copies.filterMap fun c =>
    if c.port = o then
      (s.sw.frames.find? fun f => f.id == c.id && f.pt && ((f.qcls == 7) == seven)).map (·.size)
    else none).foldl (· + ·) 0

/-- Admission on the pass-through path (R92). -/
def State.admitPt (a : Arrival) (outs : List Nat) (s : State) : Option Nat × State :=
  let seven := a.frame.cls == 7#3
  let cap := if seven then 8192 else 24576
  let ok := fun o => decide (s.ptFill o seven + a.frame.size ≤ cap)
  let good := (outs.filter (· < 2)).filter ok
  let bad := (outs.filter (· < 2)).filter fun o => !ok o
  let t := s.forEach bad fun _ t => t.bump (if seven then Reg.SWC_PT_DROP7 else Reg.SWC_PT_DROP)
  if good.isEmpty then (none, t) else (some t.sw.nextId, t.place a a.frame.cls.toNat true good)

/-- Hand a frame to the path in use (R91), under the queue class of its input on the full path (R97). -/
def State.switchIn (a : Arrival) (outs : List Nat) (s : State) : Option Nat × State :=
  if outs.isEmpty then (none, s)
  else if s.path = 0 then s.admitFull a (s.queueClass a.input a.frame.cls.toNat) outs
  else s.admitPt a outs

/-- A frame whose header completes now on input `i`. -/
def State.arrival (s : State) (f : Frame) (i : Nat) : Arrival := { frame := f, input := i, epoch := s.epoch, since := s.clk }

/-! ### Copies leaving (R108) -/

/-- One copy is gone: DEPTH falls, and with the last copy the cells return to the pool. -/
def State.dropCopy (c : Copy) (s : State) : State :=
  match s.sw.frames.find? (·.id == c.id) with
  | none => { s with sw := { s.sw with copies := s.sw.copies.filter fun d => !(d.id == c.id && d.port == c.port) } }
  | some f =>
    let s : State := { s with sw := { s.sw with
      copies := s.sw.copies.filter fun d => !(d.id == c.id && d.port == c.port)
      frames := if f.refs ≤ 1 then s.sw.frames.filter (·.id != f.id)
                else s.sw.frames.map fun g => if g.id == f.id then { g with refs := g.refs - 1 } else g } }
    if f.pt then s
    else
      let q := 8 * c.port + f.qcls
      let s := s.setDepth q ((s.rd (Reg.SWC_DEPTH q)).toNat - f.cells)
      if f.refs ≤ 1 then s.setPool ((s.rd Reg.SWC_POOL_FREE).toNat + f.cells) else s

/-- A frame turns out errored (R103): copies not started are discarded, started ones will be stomped. -/
def State.spoil (id : Nat) (s : State) : State :=
  let s : State := { s with sw := { s.sw with
    frames := s.sw.frames.map fun f => if f.id == id then { f with errored := true, whole := true, gap := false } else f } }
  s.forEach (s.sw.copies.filter fun c => c.id == id && !c.started) fun c t =>
    (t.dropCopy c).bump Reg.SWC_TAIL_DISCARD

/-- A frame has been received whole: its store-and-forward copies may start (R102). `got` is its real length; unused
cells return at the tail (R94). -/
def State.complete (id got : Nat) (s : State) : State :=
  match s.sw.frames.find? (·.id == id) with
  | none => s
  | some f =>
    let spare := f.cells - min f.cells (cellsOf got)
    let s : State := { s with sw := { s.sw with
      frames := s.sw.frames.map fun g => if g.id == id then { g with whole := true, cells := g.cells - spare } else g } }
    if f.pt || spare == 0 then s
    else
      (s.forEach (s.sw.copies.filter (·.id == id)) fun c t =>
        t.setDepth (8 * c.port + f.qcls) ((t.rd (Reg.SWC_DEPTH (8 * c.port + f.qcls))).toNat - spare)).setPool
        ((s.rd Reg.SWC_POOL_FREE).toNat + spare)

/-! ### Local frames (R99) -/

/-- The oldest waiting local frame of class `c`. -/
def State.oldestWaiting (s : State) (c : Nat) : Option LocalFrame := s.sw.waiting.find? fun w => w.item.frame.cls.toNat == c

/-- SWC_STAT.LOCAL_WAITING follows the waiting list. -/
def State.noteWaiting (s : State) : State := s.setFlag Fd.SWC_SWC_STAT_LOCAL_WAITING (!s.sw.waiting.isEmpty)

def State.localWaitPs (s : State) : Nat := (s.rd Reg.SWC_LOCAL_WAIT_MAX).toNat * usPs

/-- A frame of this node goes to its outputs, under the epoch of its decision: admitted when every copy has room, else it waits (R99). The
pass-through path has no waiting. -/
def State.localIn (f : Frame) (epoch : BitVec 16) (outs : List Nat) (s : State) : State :=
  let a : Arrival := { s.arrival f 3 with epoch }
  let c := f.cls.toNat
  if s.path ≠ 0 || ((s.oldestWaiting c).isNone && outs.all fun o => s.roomAt o c f.cells) then (s.switchIn a outs).2
  else
    let first := (s.oldestWaiting c).isNone
    let s : State := State.noteWaiting { s with sw := { s.sw with waiting := s.sw.waiting ++ [{ item := a, outs }] } }
    s.onlyIf first (·.arm (.localWait c) s.localWaitPs)

/-- Take the oldest waiting frame of class `c` away; the next one's wait begins (R99). -/
def State.popWaiting (c : Nat) (s : State) : State :=
  let rec go : List LocalFrame → List LocalFrame
    | [] => []
    | w :: t => if w.item.frame.cls.toNat == c then t else w :: go t
  let s : State := { s with sw := { s.sw with waiting := go s.sw.waiting } }.noteWaiting
  if (s.oldestWaiting c).isSome then s.arm (.localWait c) s.localWaitPs else s.cancel (.localWait c)

/-- LOCAL_FRAME_ADMIT (R99). -/
def State.localAdmit (c : Nat) (s : State) : State :=
  match s.oldestWaiting c with
  | none => s
  | some w =>
    if s.path ≠ 0 || w.outs.all fun o => s.roomAt o c w.item.frame.cells then ((s.popWaiting c).switchIn w.item w.outs).2 else s

/-- LOCAL_WAIT_TIMEOUT (R99): admit what can be admitted, drop the rest. A dropped copy counts in DROP and MC_DROP. On the pass-through
path the rules of R92 admit it. -/
def State.localTimeout (c : Nat) (s : State) : State :=
  match s.oldestWaiting c with
  | none => s
  | some w =>
    let n := w.item.frame.cells
    let t := (s.popWaiting c).bump Reg.SWC_LOCAL_TIMEOUT
    if s.path ≠ 0 then (t.switchIn w.item w.outs).2
    else
      let good := w.outs.filter fun o => s.roomAt o c n
      let t := t.forEach (w.outs.filter fun o => !s.roomAt o c n) fun o t => t.countDrop o c true
      if good.isEmpty then t else t.place w.item c false good

/-! ### The next frame of an output (R101) -/

/-- Copies of queue `8 * o + c` on the full path, oldest first. -/
def State.queueOf (s : State) (o c : Nat) : List Copy :=
  s.sw.copies.filter fun k => k.port == o && (s.sw.frames.any fun f => f.id == k.id && !f.pt && f.qcls == c)

/-- Copies of output `o` in its pass-through FIFO for class 7 or the other classes. -/
def State.ptQueueOf (s : State) (o : Nat) (seven : Bool) : List Copy :=
  s.sw.copies.filter fun k => k.port == o && (s.sw.frames.any fun f => f.id == k.id && f.pt && ((f.qcls == 7) == seven))

/-- The stored frame of a copy. -/
def State.storedOf (s : State) (k : Copy) : Option Stored := s.sw.frames.find? (·.id == k.id)

/-- A head copy that can start (R101, R102); one for the local port only if the transaction engine takes it (05 R123). -/
def State.canStart (s : State) (k : Copy) : Bool :=
  !k.started && (s.sw.frames.any fun f => f.id == k.id && (f.whole || k.cut) && (k.port != 3 || s.entryFor f.frame))

def State.sizeOf (s : State) (k : Copy) : Nat := ((s.sw.frames.find? (·.id == k.id)).map (·.size)).getD 0

/-- The head of a queue, if it can start. -/
def State.headOf (s : State) (q : List Copy) : Option Copy :=
  match q.find? fun k => !k.started with
  | some k => if s.canStart k then some k else none
  | none => none

/-- WEIGHT of class `c` at output `o`, in bytes of quantum. -/
def State.quantum (s : State) (o c : Nat) : Nat :=
  (if c < 4 then bits (s.rd (Reg.SWC_DRR_W_LO o)) (8 * c) 8 else bits (s.rd (Reg.SWC_DRR_W_HI o)) (8 * (c - 4)) 8) * 64

/-- Deficit round robin over classes 0 to 5: `c` is the class whose turn it is, `fresh` that its quantum has not been
added in this turn. -/
def State.drr (o : Nat) : Nat → Nat → Bool → State → Option Copy × State
  | 0, _, _, s => (none, s)
  | fuel + 1, c, fresh, s =>
    let q := s.queueOf o c
    let k := 8 * o + c
    let d := Tab.get 0 s.sw.deficit k
    let next := (c + 1) % 6
    match s.headOf q with
    | none =>
      State.drr o fuel next true s
    | some h =>
      let d := if fresh then d + s.quantum o c else d
      let l := s.sizeOf h
      if l ≤ d then
        (some h, { s with sw := { s.sw with deficit := Tab.set 0 s.sw.deficit k (d - l),
                                             drrAt := Tab.set 0 s.sw.drrAt o (c + 1) } })
      else
        State.drr o fuel next true { s with sw := { s.sw with deficit := Tab.set 0 s.sw.deficit k d } }

/-- Choose among the full-path queues of output `o`: class 7, class 6, then deficit round robin (R101). A frame of at most 4,129 bytes
is reached within 65 rounds of the six classes, whatever their quanta. -/
def State.chooseFull (o : Nat) (s : State) : Option Copy × State :=
  match s.headOf (s.queueOf o 7) with
  | some k => (some k, s)
  | none =>
    match s.headOf (s.queueOf o 6) with
    | some k => (some k, s)
    | none =>
      if (List.range 6).any fun c => (s.headOf (s.queueOf o c)).isSome then
        let at_ := Tab.get 0 s.sw.drrAt o
        s.drr o 480 (if at_ = 0 then 0 else at_ - 1) (at_ == 0)
      else (none, s)

/-- Choose among the pass-through FIFOs of output `o` (R92). -/
def State.choosePt (o : Nat) (s : State) : Option Copy × State :=
  match s.headOf (s.ptQueueOf o true) with
  | some k => (some k, s)
  | none => (s.headOf (s.ptQueueOf o false), s)

/-- A class of output `o` that has emptied loses its deficit (R101). -/
def State.loseDeficits (o : Nat) (s : State) : State :=
  let d := (List.range 6).foldl (fun d c => if (s.queueOf o c).isEmpty then Tab.set 0 d (8 * o + c) 0 else d) s.sw.deficit
  { s with sw := { s.sw with deficit := d } }

/-- Output `o` still has copies on the full path, or on the pass-through path. -/
def State.anyFull (s : State) (o : Nat) : Bool := (List.range 8).any fun c => !(s.queueOf o c).isEmpty
def State.anyPt (s : State) (o : Nat) : Bool := !(s.ptQueueOf o true).isEmpty || !(s.ptQueueOf o false).isEmpty

/-- Output `o` takes its next frame from the full path: frames of the old path leave before the first of the new one (R93). -/
def State.servesFull (s : State) (o : Nat) : Bool := if s.path = 0 then !s.anyPt o else s.anyFull o

/-- The copy of output `o` that waits to be continued (R105). -/
def State.brokenAt (s : State) (o : Nat) : Option Copy := s.sw.copies.find? fun k => k.port == o && k.started && k.broken

/-- Bytes beyond the last fragment of a broken copy have come in (R105). -/
def State.canResume (s : State) (k : Copy) : Bool :=
  (s.storedOf k).any fun f => !(f.gap && f.frags.getLast? == some k.sent)

/-- The express head of output `o` (02 R45). -/
def State.expressHead (s : State) (o : Nat) : Option Copy :=
  s.headOf (if s.servesFull o then s.queueOf o 7 else s.ptQueueOf o true)

/-- The next copy of output `o`. A copy that waits to be continued goes before every other frame of classes 0 to 6 (R101). -/
def State.choose (o : Nat) (s : State) : Option Copy × State :=
  let s := s.loseDeficits o
  match s.brokenAt o with
  | some b =>
    (match s.expressHead o with
     | some k => (some k, s)
     | none => (if s.canResume b then some b else none, s))
  | none => if s.servesFull o then s.chooseFull o else s.choosePt o

/-- A signed number from `n` bits. -/
def signed (n v : Nat) : Int := if 2 ^ (n - 1) ≤ v % 2 ^ n then (v % 2 ^ n : Int) - 2 ^ n else v % 2 ^ n

/-- The ingress link delay d_in = L + ASYM of port `p`, in units of 2⁻¹⁶ ns (12 R300): LD once a measurement has been
valid since link up, else LD_INIT. -/
def State.dIn (s : State) (p : Nat) : Int :=
  (if s.fld (Fd.PD_LD_STAT_N p) = 0 then (s.fld (Fd.PD_LD_INIT_NS p) * 65536 : Int) else (s.rd (Reg.PD_LD p)).toNat) +
  signed 16 (s.fld (Fd.PD_ASYM_NS p)) * 65536

/-- A TIME frame that carries a Sync (12 R293, R295). -/
def Frame.isSync (f : Frame) : Bool := f.kind == Kd.time && fieldBE f.payload 0 1 == 1 && fieldBE f.payload 4 1 % 16 == 0

/-- Add a correction, in 2⁻¹⁶ ns, to the correctionField of a TIME frame (12 R295). -/
def addCorrection (p : List Byte) (c : Int) : List Byte :=
  putBE p 12 8 (((fieldBE p 12 8 : Int) + c) % 2 ^ 64).toNat

/-- `n` TICK cycles of 2.56 ns in units of 2⁻¹⁶ ns, truncated (12 R296). -/
def tickCorr (n : Nat) : Nat := n * 256 * 65536 / 100

/-- The frame as it leaves by port `o`. DIR and HCHK of a both-ways frame that this node injected are written per copy (R108). A
forwarded Sync gets d_in and its residence added (12 R295); one taken in from
the spur gets the spur's d_in (12 R297), and one of this node as grandmaster carries the copy's own egress time (12 R298). A Pdelay_Resp
carries its turnaround (12 R299). -/
def State.egressFrame (s : State) (f : Stored) (k : Copy) : Frame :=
  let g := if 2 ≤ f.input && f.frame.seam && decide (k.port < 2) then { f.frame with dir := k.port == 1 }.sealed else f.frame
  if g.plainPtp then
    if fieldBE g.payload 0 1 % 16 = 3 then { g with payload := putBE g.payload 8 8 (tickCorr ((k.startAt - f.since) / 2560)) } else g
  else if g.isSync && decide (k.port < 2) then
    if f.input < 3 then
      { g with payload := addCorrection g.payload (s.dIn f.input + tickCorr ((k.startAt - f.since) / 2560)) }
    else if fieldBE g.payload 1 1 % 2 = 1 then
      { g with payload := addCorrection g.payload (s.dIn 2 + tickCorr ((k.startAt - f.since) / 2560)) }
    else
      let at_ := s.ctr - (s.clk - k.startAt) * s.increment / 2560
      let ns := at_ / 2 ^ 32
      let pl := putBE (putBE g.payload 38 10 (ns / 1000000000 * 2 ^ 32 + ns % 1000000000)) 12 8 (at_ % 2 ^ 32 / 2 ^ 16)
      { g with payload := pl }
  else g

/-- The 802.1Q tag that a frame leaves the spur with (02 R51). -/
def State.spurTag (s : State) (f : Frame) : Option (BitVec 12 × BitVec 3) :=
  let vid := s.fld Fd.PORT_SPUR_CTL_VID
  if vid = 0 then none else some (BitVec.ofNat 12 vid, f.cls)

/-- The frame has left port `o` whole, its FCS inverted if it is errored: it is counted (R103, 02 R52). -/
def State.sent (o : Nat) (f : Stored) (k : Copy) (s : State) : State :=
  let g := s.egressFrame f k
  let tag := if o = 2 then s.spurTag g else none
  let s := s.bump (Reg.PORT_TX_FRAMES o)
  let s := s.add64 (Reg.PORT_TX_BYTES_LO o) (Reg.PORT_TX_BYTES_HI o) (f.size + if tag.isSome then 4 else 0)
  let s := s.onlyIf f.errored (·.bump (Reg.PORT_TX_STOMPED o))
  s.emit (if o = 2 then .spurFrame g tag f.errored else .frame o g f.errored)

/-- The copy on the wire of output `o`. -/
def State.onWire (s : State) (o : Nat) : Option Copy := s.sw.copies.find? fun k => k.port == o && k.started && !k.broken

/-- The copy on the wire of output `o` has been sent to its end (R103). -/
def State.sendEnd (o : Nat) (s : State) : State :=
  match s.onWire o with
  | none => s
  | some k =>
    match s.storedOf k with
    | none => s.dropCopy k
    | some f => (s.dropCopy k).onlyIf (decide (o < 3)) (State.sent o f k)

/-- Replace a copy. -/
def State.setCopy (k : Copy) (s : State) : State :=
  { s with sw := { s.sw with copies := s.sw.copies.map fun d => if d.id == k.id && d.port == k.port then k else d } }

/-- The next input fragment end that a copy on the wire follows (R105): only a copy that started by cut-through, at an output where
preemption is active. -/
def State.fragmentEnd? (s : State) (k : Copy) : Option Nat :=
  if k.through && s.preemptActive k.port then (s.storedOf k).bind fun f => f.frags.find? (k.sent < ·) else none

/-- A fragment of the copy on the wire ends after `n` bytes of the frame. -/
def State.breakCopy (k : Copy) (n : Nat) (s : State) : State :=
  let s := s.setCopy { k with broken := true, sent := n }
  match s.storedOf k with
  | some f => s.emit (.fragment k.port (s.egressFrame f k) k.sent n)
  | none => s

/-- Whether output `o` stands at a frame or fragment boundary: nothing is on the wire, or an input fragment end is reached that the copy
follows, or the frame on the wire has been received whole and so can be sent to its end. -/
def State.atBoundary (s : State) (o : Nat) : Bool :=
  match s.onWire o with
  | none => true
  | some k => (s.fragmentEnd? k).isSome || s.sw.frames.all fun f => f.id != k.id || f.whole

/-- What is on the wire of output `o` comes to its boundary: a fragment or the frame ends. -/
def State.wireEnd (o : Nat) (s : State) : State :=
  match s.onWire o with
  | none => s
  | some k =>
    match s.fragmentEnd? k with
    | some n => s.breakCopy k n
    | none => s.sendEnd o

/-- The express frame that may interrupt the copy on the wire of output `o` after `n` bytes (R105, 02 R45): preemption is active, the copy
is preemptable, an express head can start, at least 64 bytes of the present fragment have left, and at least 64 bytes remain of it, or
of the frame. -/
def State.mayPreempt (s : State) (o n : Nat) : Bool :=
  match s.onWire o with
  | none => false
  | some k =>
    s.preemptActive o && (s.storedOf k).any (fun f => f.frame.cls != 7#3 && decide (k.sent + 64 ≤ n) &&
      decide (n + 64 ≤ (s.fragmentEnd? k).getD f.size)) && (s.expressHead o).isSome

/-- A Pdelay_Req leaves port `p`: t1 of the measurement (12 R299, R300). -/
def State.pdelayLeaves (p : Nat) (f : Frame) (s : State) : State :=
  if f.plainPtp && fieldBE f.payload 0 1 % 16 == 2 then
    s.setPd p { s.pd p with req := some (fieldBE f.payload 30 2, s.clk) }
  else s

/-- Start a copy, or continue one with a further fragment, which counts in FRAG_TX (02 R52). -/
def State.startCopy (k : Copy) (s : State) : State :=
  match s.storedOf k with
  | none => s
  | some f =>
    if k.started then (s.setCopy { k with broken := false }).bump (Reg.PORT_FRAG_TX k.port)
    else (s.setCopy { k with started := true, startAt := s.clk, through := !f.whole }).pdelayLeaves k.port f.frame

/-- The copy on the wire is cut: the port ends it with an error code while its transmitter runs (02 R41). -/
def State.cutCopy (k : Copy) (s : State) : State :=
  let out := (s.storedOf k).map fun f => Out.cutFrame k.port (s.egressFrame f k)
  let s := s.dropCopy k
  match out with
  | some e => if k.started && !k.broken && !s.flag (Fd.PORT_STAT_TXDIS k.port) then s.emit e else s
  | none => s

/-! ### Buffer purge and change of path (R93, R96) -/

/-- Every frame of the full path is gone and the queues are empty; what is still being received into it is not consumed (R96). -/
def State.clearFull (s : State) : State :=
  let ids := (s.sw.frames.filter fun f => !f.pt).map (·.id)
  let s : State := { s with sw := { s.sw with
    frames := s.sw.frames.filter (·.pt)
    copies := s.sw.copies.filter fun k => !ids.contains k.id
    rx := s.sw.rx.map fun r => if (r.stored.map ids.contains).getD false then
        { r with stored := none, use := match r.use with
          | .queued | .exit => .done
          | u => u } else r } }
  s.forEach (List.range 32) fun q t => t.wr (Reg.SWC_DEPTH q) 0#32

/-- An uncorrectable control memory entry starts a buffer purge (R96). -/
def State.purge (s : State) : State :=
  let s := s.clearFull.bump Reg.SWC_PURGE_CNT
  let s := s.setFld Fd.SWC_SWC_STAT_PATH 2
  let s : State := { s with anat := { s.anat with purging := true } }
  (s.sysRec 0x004 0).arm .purge (24576 * 2560)

/-- The free list is rebuilt and the full path resumes (R96). -/
def State.purgeDone (s : State) : State :=
  let s : State := { s with anat := { s.anat with purging := false } }
  (s.setPool 24576).setFld Fd.SWC_SWC_STAT_PATH s.pathFor

/-- Ring-output copies that stand on the full path. -/
def State.fullRingCopies (s : State) : List Copy :=
  s.sw.copies.filter fun k => decide (k.port < 2) && s.sw.frames.any fun f => f.id == k.id && !f.pt

/-- From pass-through to full: each output sends the content of its pass-through FIFOs first (R93). -/
def State.toFull (s : State) : State := (s.setFld Fd.SWC_SWC_STAT_PATH 0).cancel .drain

/-- The ring-output frames left on the full path are lost, the one on the wire is cut, and each counts once (R93). -/
def State.dropFullRing (s : State) : State :=
  let l := s.fullRingCopies
  ((s.bumpBy Reg.SWC_HANDOVER_DROP (l.map (·.id)).eraseDups.length).forEach l State.cutCopy).cancel .drain

/-- A table commit (R110). -/
def State.commit (s : State) : State :=
  s.wr Reg.SWC_TABLE_EPOCH (BitVec.ofNat 32 (((s.rd Reg.SWC_TABLE_EPOCH).toNat + 1) % 65536))

/-- EPOCH_STAT.OLDEST: the oldest epoch inside, waiting and fenced frames and those in reception included (R110). -/
def State.oldestEpoch (s : State) : Nat :=
  let now := (s.rd Reg.SWC_TABLE_EPOCH).toNat
  let es := s.sw.frames.map (·.epoch.toNat) ++ s.sw.waiting.map (·.item.epoch.toNat) ++ (s.ring.held.map fun h => h.2.2.toNat) ++
    s.sw.rx.map (·.epoch.toNat)
  es.foldl (fun a e => if (now + 65536 - a) % 65536 < (now + 65536 - e) % 65536 then e else a) now

/-! ### The commands -/

/-- FULL_PATH_DRAIN_END: the ring-output queues are empty, or 100 µs have passed. -/
def execFullPathDrainEnd (s : State) : Host.Outcome State Fault Refusal :=
  .next (if s.armed .drain then
           (if s.fullRingCopies.isEmpty then s.cancel .drain else (s.expire .drain).dropFullRing)
         else s)

/-- LOCAL_FRAME_ADMIT. -/
def execLocalFrameAdmit (c : Fin 8) (s : State) : Host.Outcome State Fault Refusal := .next (s.localAdmit c)

/-- LOCAL_WAIT_TIMEOUT. -/
def execLocalWaitTimeout (c : Fin 8) (s : State) : Host.Outcome State Fault Refusal :=
  .next (s.expiry (.localWait c) (State.localTimeout c))

/-- BUFFER_PURGE_END. -/
def execBufferPurgeEnd (s : State) : Host.Outcome State Fault Refusal := .next (s.expiry .purge State.purgeDone)

end Sys2Proof.Machine
end

