-- ==== Sys2Proof/Machine/RingPath.lean ====
section
/-!
DEFINITION. The ring path (03_ring_frames_and_paths.md): ring order and reachability, chosen directions and fences,
sequence numbers and windows, and the injection of the node's own frames.
-/

namespace Sys2Proof.Machine

/-! ### Ring order, presence and reachability (R70, R75) -/

/-- Valid entries of the ring order table: (position, node). Unlisted entries are invalid at reset. -/
def State.order (s : State) : List (Nat × Nat) :=
  s.regs.filterMap fun e =>
    if Reg.WARDEN_ORDER 0 ≤ e.1 ∧ e.1 < Reg.WARDEN_ORDER 512 ∧ bits e.2 31 1 = 1 then
      some ((e.1 - Reg.WARDEN_ORDER 0) / 4, bits e.2 0 9)
    else none

/-- Position of node `n` in the ring order. -/
def State.posOf (s : State) (n : Nat) : Option Nat := (s.order.find? fun e => e.2 == n).map (·.1)

/-- Number of positions of the ring: one past the highest valid one. -/
def State.ringLen (s : State) : Nat := s.order.foldl (fun m e => max m (e.1 + 1)) 0

/-- Node at position `p`. -/
def State.nodeAt (s : State) (p : Nat) : Option Nat := (s.order.find? fun e => e.1 == p).map (·.2)

/-- The upstream neighbour of this node for a copy launched in direction `west` (R80). -/
def State.upstream (s : State) (west : Bool) : Option Nat :=
  match s.posOf s.ownNode with
  | none => none
  | some p =>
    let n := s.ringLen
    s.nodeAt (if west then (p + 1) % n else (p + n - 1) % n)

/-- Whether node `n` counts as present (R70): every node does until the first received beacon. -/
def State.present (s : State) (n : Nat) : Bool :=
  !s.ring.firstBeacon || bits (s.rd (Reg.WARDEN_PRESENT (n / 32))) (n % 32) 1 == 1

/-- The PRESENT bitmap as one map. -/
def State.presentMap (s : State) : BitVec 512 :=
  BitVec.ofNat 512 (leVal ((List.range 16).flatMap fun j => leBytes 4 (s.rd (Reg.WARDEN_PRESENT j)).toNat))

/-- Link position `l` lies on the way from position `a` east to position `d` on a ring of `n`. -/
def onWayEast (n a d l : Nat) : Bool := decide ((l + n - a) % n < (d + n - a) % n)

/-- Nodes to which the way in direction `west` passes a link of the break set. A node without a position, and every node while the own one
has none, is cut off by no break (R75). -/
def State.cutOff (s : State) (west : Bool) : BitVec 512 :=
  match s.posOf s.ownNode with
  | none => 0#512
  | some a =>
    let n := s.ringLen
    s.order.foldl (fun m e =>
      if s.ring.breaks.any fun l => if west then onWayEast n e.1 a l else onWayEast n a e.1 l then m ||| (1#512 <<< e.2) else m) 0#512

/-- Nodes that count as present (R70). -/
def State.presentNodes (s : State) : BitVec 512 := if s.ring.firstBeacon then s.presentMap else BitVec.allOnes 512

/-- Nodes reachable in direction `west` (R75). -/
def State.reachMap (s : State) (west : Bool) : BitVec 512 := s.presentNodes &&& ~~~s.cutOff west

/-- The hashed direction of a flow: true is westward (R73). -/
def State.hashDir (s : State) (da flow : Nat) : Bool :=
  (crc16 ((s.rd Reg.WARDEN_SEED).setWidth 16) (beBytes 2 s.ownNode ++ beBytes 2 da ++ [BitVec.ofNat 8 flow])).getLsbD 0

/-- The hashed direction where the node is reachable that way, else the other one where it is reachable, else none (R75). -/
def pickDir (east west hashed : Bool) : Option Bool :=
  if (if hashed then west else east) then some hashed else if (if hashed then east else west) then some (!hashed) else none

/-- The chosen direction of a flow (R75). -/
def State.chosen (s : State) (da flow : Nat) : Option Bool :=
  pickDir ((s.reachMap false).getLsbD da) ((s.reachMap true).getLsbD da) (s.hashDir da flow)

/-- Key of a flow: the DA node and FLOW. -/
def flowKey (da flow : Nat) : Nat := 64 * da + flow

/-! ### Fences (R76, R88) -/

/-- SETTLE, in ps (R76). -/
def State.settlePs (s : State) : Nat :=
  (s.fld Fd.WARDEN_SETTLE_TIME + if s.flag Fd.WARDEN_SETTLE_FIXED then 0 else (s.rd Reg.WARDEN_RTT).toNat) * 1000

/-- A recomputation changed the chosen direction of a flow of node `da` with that hashed direction. -/
def Repin.moves (r : Repin) (da : Nat) (hashed : Bool) : Bool :=
  pickDir (r.east0.getLsbD da) (r.west0.getLsbD da) hashed != pickDir (r.east1.getLsbD da) (r.west1.getLsbD da) hashed

/-- Clock at which SETTLE of a flow ends: the latest re-pin of it counts (R76). -/
def State.fenceEnd (s : State) (da flow : Nat) : Option Nat :=
  (s.ring.repins.find? fun r => r.moves da (s.hashDir da flow)).map (·.settled)

/-- SETTLE of the flow runs, by a re-pin or by a change of path mode or seed (R76, R88). -/
def State.fenced (s : State) (da flow : Nat) : Bool :=
  s.live .fenceAll || (s.fenceEnd da flow).any (s.clk < ·)

/-- RING_STAT.FENCE_ACTIVE: at least one flow is held. -/
def State.fenceActive (s : State) : Bool :=
  !s.ring.held.isEmpty || s.live .fenceAll || s.ring.repins.any (s.clk < ·.settled)

/-- The nodes that a flow of this node can have as its destination. -/
def State.flowNodes (s : State) : BitVec 512 := (BitVec.allOnes 512 >>> 2) <<< 1 &&& ~~~(1#512 <<< s.ownNode)

/-- Recompute every chosen direction after a change of the break set or of PRESENT, made since `old`; the flows whose direction changes
are re-pinned and held for SETTLE (R75, R76). Only Split pins flows. Whatever SEED and the two nodes are, bit 0 of the hash follows
bit 0 of FLOW, so where what is reachable changes some flow changes its direction. -/
def State.recompute (s old : State) : State :=
  let m := s.flowNodes
  let r : Repin := { east0 := old.reachMap false &&& m, west0 := old.reachMap true &&& m,
                     east1 := s.reachMap false &&& m, west1 := s.reachMap true &&& m, settled := s.clk + s.settlePs }
  if !s.splitPath || (r.east0 == r.east1 && r.west0 == r.west1) then s
  else
    State.bump Reg.WARDEN_REPIN_CNT
      { s with ring := { s.ring with repins := r :: s.ring.repins.filter (s.clk < ·.settled) } }

/-- Load the break set: BREAK_CNT follows it, and the chosen directions are recomputed (R75, R84). -/
def State.setBreaks (l : List Nat) (s : State) : State :=
  if l = s.ring.breaks then s
  else
    let t : State := { s with ring := { s.ring with breaks := l } }
    let t := (t.setFld Fd.WARDEN_RING_STAT_BREAK_CNT (min l.length 15)).setFlag Fd.WARDEN_RING_STAT_BREAK_OVF (decide (8 < l.length))
    t.recompute s

/-! ### Windows (R67, R68) -/

def State.window (s : State) (node cls : Nat) : Window := Tab.get {} s.ring.windows (8 * node + cls)
def State.setWindow (node cls : Nat) (w : Window) (s : State) : State :=
  { s with ring := { s.ring with windows := Tab.set {} s.ring.windows (8 * node + cls) w } }

/-- What the window test does with a frame (R68). -/
inductive WindowVerdict where
  | accept (w : Window)
  | dup
  | stale
  deriving DecidableEq, Repr

/-- The window test of R68 on a window and a SEQ. -/
def windowTest (w : Window) (seq : BitVec 16) : WindowVerdict :=
  if !w.valid then .accept { valid := true, top := seq, map := 1#128 }
  else
    let d := (seq - w.top).toNat
    if 1 ≤ d ∧ d ≤ 32767 then .accept { valid := true, top := seq, map := (w.map <<< d) ||| 1#128 }
    else
      let back := (w.top - seq).toNat
      if back ≤ 127 then
        if w.map.getLsbD back then .dup else .accept { w with map := w.map ||| (1#128 <<< back) }
      else .stale

/-- Whether a windowed frame is accepted, and the windows and counters after the test (R68). -/
def State.windowAccepts (f : Frame) (s : State) : Bool × State :=
  let n := macNodeOf f.sa
  if !s.present n then (false, s.bump Reg.WARDEN_ABSENT_DROP)
  else
    match windowTest (s.window n f.cls.toNat) f.seq with
    | .accept w => (true, s.setWindow n f.cls.toNat w)
    | .dup => (false, s.bump Reg.WARDEN_DUP_DISCARD)
    | .stale => (false, s.bump Reg.WARDEN_STALE_DISCARD)

/-- All eight windows of node `n` are set invalid (R70). -/
def State.clearWindows (n : Nat) (s : State) : State :=
  s.forEach (List.range 8) fun c t => t.setWindow n c {}

/-! ### Injection (R59 to R61, R67, R72 to R77) -/

/-- The DA of an injected frame (R61); none where the exit is unreachable. -/
def State.daFor (s : State) (ring node : Nat) : Option (BitVec 48) :=
  if ring = s.ownRing then
    if node = 0 then some (macGateway ring) else if node = 511 then some (macBroadcast ring) else some (macNode ring node)
  else
    let e := bits (s.rd (Reg.WARDEN_EXIT ring)) 0 9
    if e = 511 then none else if e = 0 then some (macGateway s.ownRing) else some (macNode s.ownRing e)

/-- The node whose MAC is the DA, the gateway MAC standing for GATEWAY_NODE (R73). -/
def State.daNode (s : State) (da : BitVec 48) : Nat :=
  if da = macGateway s.ownRing then s.fld Fd.WARDEN_RING_CTL_GATEWAY_NODE else macNodeOf da

/-- A frame of this node, before it takes its SEQ and its way. -/
def State.formFrame (s : State) (kind : BitVec 5) (cls : BitVec 3) (flow : BitVec 6) (dstRing : BitVec 6) (dstNode : BitVec 9)
    (tag : BitVec 9) (status : BitVec 4) (payload : List Byte) : Frame :=
  { da := 0#48, sa := s.ownMac, cls, kind, flow, srcRing := BitVec.ofNat 6 s.ownRing, srcNode := BitVec.ofNat 9 s.ownNode,
    dstRing, dstNode, tag, status, len := BitVec.ofNat 12 payload.length, payload }

/-- Queue a formed frame for injection. -/
def State.queueFrame (f : Frame) (s : State) : State := { s with txn := { s.txn with toInject := s.txn.toInject ++ [f] } }

/-- Take the next SEQ of a class (R67). -/
def State.takeSeq (c : Nat) (s : State) : BitVec 16 × State :=
  let q := Tab.get 0#16 s.ring.seqs c
  (q, { s with ring := { s.ring with seqs := Tab.set 0#16 s.ring.seqs c (q + 1#16) } })

/-- Ring ports over which a both-ways frame leaves (R72). -/
def State.ringOuts (s : State) : List Nat := [0, 1].filter s.portUsable

/-- A frame that has its DA takes its SEQ, HOPS, SEAM, DIR and HCHK (R63, R67, R72, R73). `west` is the one direction of a Split
unicast frame, none for both ways. The reserved bits are sent as 0 (R55). -/
def State.dress (f : Frame) (west : Option Bool) (s : State) : Frame × State :=
  let (q, s) := s.takeSeq f.cls.toNat
  ({ f with seq := q, hops := BitVec.ofNat 10 (s.fld Fd.WARDEN_RING_CTL_HOP_BUDGET), seam := west.isNone,
            dir := west.getD false, rsv := 0#11 }.sealed, s)

/-- The ring ports by which a frame leaves: those that are up of its one direction or of both (R72, R73). -/
def State.outsFor (s : State) (west : Option Bool) : List Nat :=
  match west with
  | none => s.ringOuts
  | some w => [if w then 1 else 0].filter s.portUsable

/-- Send a frame of this node that has its DA to the local port's queues (R63, R67, R72, R74). -/
def State.launch (f : Frame) (west : Option Bool) (epoch : BitVec 16) (s : State) : State :=
  let (g, s) := s.dress f west
  if (s.outsFor west).isEmpty then s.bump Reg.WARDEN_BREAK_DROP else s.localIn g epoch (s.outsFor west)

/-- The frame as it leaves by the spur of its exit node: new DA and SA, header bytes unchanged; none where the spur is down, has no
role, or leads to another ring (R62). The pass-through path does not reach the spur (04 R91). -/
def State.spurForm (s : State) (f : Frame) : Option Frame :=
  let role := s.fld Fd.PORT_SPUR_CTL_ROLE
  let peer := s.fld Fd.PORT_SPUR_CTL_PEER_RING
  if s.path ≠ 0 || role == 0 || !s.portUsable 2 then none
  else if role = 1 then some { f with da := macGateway f.dstRing.toNat, sa := macGateway s.ownRing }
  else if f.dstRing.toNat = peer then some { f with da := macGateway peer, sa := s.ownMac }
  else none

/-- ABSENT_CLEAR_EXPIRY (R70). -/
def execAbsentClearExpiry (n : BitVec 9) (s : State) : Host.Outcome State Fault Refusal :=
  .next (s.expiry (.absent n.toNat) (State.clearWindows n.toNat))

/-- A frame received on ring port `p` leaves by the opposite one, or is dropped and counted (R64). `extra` are its other outputs. -/
def State.forward (f : Frame) (p : Nat) (extra : List Nat) (s : State) : Option Nat × State :=
  let o := 1 - p
  if f.hops = 0#10 then (s.bump Reg.WARDEN_HOPS_EXPIRED).switchIn (s.arrival f p) extra
  else if !s.portUsable o then (s.bump Reg.WARDEN_BREAK_DROP).switchIn (s.arrival f p) extra
  else s.switchIn (s.arrival { f with hops := f.hops - 1#10 } p) (o :: extra)

end Sys2Proof.Machine
end

