-- ==== Sys2Proof/Machine/Passing.lean ====
section
/-!
DEFINITION. What a node writes into frames that pass: beacons are filled or turned (03 R80, R81), CYCLE copies take the node's segment
(06 R158). Both leave at header time like every other frame (04 R98).
-/

namespace Sys2Proof.Machine

/-! ### Beacons (03 R64, R80, R81) -/

/-- The payload filled by this node (R80): SEEN, ORDER_ERR on an unexpected upstream neighbour, LAST. -/
def State.fillBeacon (f : Frame) (s : State) : List Byte × State :=
  let p := setMapBit f.payload 48 s.ownNode
  let bad := (match s.upstream f.dir with
    | some u => u != bLast p
    | none => false)
  let p := if bad && !bOrderErr p then putBE p 0 1 (fieldBE p 0 1 + 2) else p
  (putBE p 30 2 s.ownNode, s.onlyIf bad (·.bump Reg.WARDEN_ORDER_ERR))

/-- Send a beacon on: filled and forwarded by the opposite port with HOPS reduced, or turned where that port is down (R64, R80, R81).
Another beacon that cannot leave is dropped. -/
def State.passBeacon (p : Nat) (f : Frame) (s : State) : Option Nat × State :=
  let b := f.payload
  if s.portUsable (1 - p) || !(decide (bRole b < 2) && !bTurned b) then
    if f.hops != 0#10 && s.portUsable (1 - p) && s.hasIdentity && decide (bRole b < 2) && !bTurned b then
      let (b', s) := s.fillBeacon f
      s.forward { f with payload := b' } p []
    else s.forward f p []
  else
    let b' := putBE (putBE b 0 1 (fieldBE b 0 1 + 32)) 28 2 s.ownNode
    s.switchIn (s.arrival { f with payload := b', hops := BitVec.ofNat 10 (s.fld Fd.WARDEN_RING_CTL_HOP_BUDGET) } p) [p]

/-! ### Streams and cycle numbers (06 R151) -/

def State.str (s : State) (t : Nat) : StreamState := Tab.get {} s.cyc.streams t
def State.setCyc (c : Cycle) (s : State) : State := { s with cyc := c }
def State.setStr (t : Nat) (v : StreamState) (s : State) : State := s.setCyc { s.cyc with streams := Tab.set {} s.cyc.streams t v }

def State.cycPeriod (s : State) (t : Nat) : Nat := max 1 (s.fld (Fd.CYC_PERIOD_TIME t))
def State.cycBase (s : State) (t : Nat) : Nat := s.rd64 (Reg.CYC_BASE_LO t) (Reg.CYC_BASE_HI t)
def State.slotLen (s : State) (t : Nat) : Nat := s.fld (Fd.CYC_STR_CFG_SLOT_LEN t)
def State.nslot (s : State) (t : Nat) : Nat := s.fld (Fd.CYC_STR_CFG_NSLOT t)

/-- T_k. -/
def State.cycStart (s : State) (t k : Nat) : Nat := s.cycBase t + k * s.cycPeriod t

/-- The current cycle; none while the time counter is below BASE. -/
def State.cycNow (s : State) (t : Nat) : Option Nat :=
  if s.now < s.cycBase t then none else some ((s.now - s.cycBase t) / s.cycPeriod t)

/-- The cycle that starts next (R166, R167). -/
def State.cycNext (s : State) (t : Nat) : Nat :=
  if s.now ≤ s.cycBase t then 0 else (s.now - s.cycBase t + s.cycPeriod t - 1) / s.cycPeriod t

/-- The cycle of an instant not before cycle `lo`: the current one or later. After a backward step cycle numbers follow the counter
(12 R308): a `lo` beyond the next cycle binds no more. -/
def State.cycFor (s : State) (t lo : Nat) : Nat :=
  match s.cycNow t with
  | none => 0
  | some c => if lo ≤ c + 1 then max lo c else c

/-- The stream takes part in its current cycle `k`: its first cycle has come, or lies beyond the next one after a backward step. -/
def State.cycTaken (s : State) (t k : Nat) : Bool := decide ((s.str t).from_ ≤ k) || decide (k + 1 < (s.str t).from_)

/-- The engine runs for stream `t` (R166): enabled, not in reset, the stream enabled. -/
def State.cycRuns (s : State) (t : Nat) : Bool :=
  s.flag Fd.CYC_CYC_CTL_EN && s.flag (Fd.CYC_STR_CFG_EN t) && !s.unitBusy .cycle && !s.anat.kaHeld && !s.anat.mainHeld

/-- The package fills cycle slots: as identity holder, or in twin state FIELD (14 R356). -/
def State.cycFills (s : State) : Bool := s.onRing && (s.hasIdentity || s.fld Fd.TWIN_TWIN_STAT_STATE == 3)

/-! ### Slots (06 R155, R156) -/

/-- Payload byte at which slot `n` starts. -/
def slotAt (slotLen n : Nat) : Nat := 48 + n * (slotLen + 2)

/-- Slot `n` holds a valid segment of cycle `k`. -/
def slotValid (p : List Byte) (slotLen n k : Nat) : Bool := fieldBE p (slotAt slotLen n) 2 == 2 ^ 15 + k % 2 ^ 15

/-- The payload with `data` in slot `n` for cycle `k`. -/
def fillSlot (p : List Byte) (slotLen n k : Nat) (data : List Byte) : List Byte :=
  let a := slotAt slotLen n
  p.take a ++ beBytes 2 (2 ^ 15 + k % 2 ^ 15) ++ data ++ p.drop (a + 2 + slotLen)

/-! ### Copies in passing (06 R158) -/

/-- What this node writes into a copy of cycle `k` of stream `t` (R158): its slot and data, if a snapshot of the cycle exists. -/
def State.ownSegment (s : State) (t k : Nat) : Option (Nat × List Byte) :=
  if s.cycRuns t && s.cycFills && s.flag Fd.CYC_PUB_CFG_EN && s.fld Fd.CYC_PUB_CFG_STREAM == t then
    match s.cyc.snap with
    | some (j, d) => if j = k then some (s.fld Fd.CYC_PUB_CFG_SLOT, d) else none
    | none => none
  else none

/-- The payload with this node's segment. -/
def State.filled (s : State) (t k : Nat) (p : List Byte) : List Byte :=
  match s.ownSegment t k with
  | some (n, d) => if slotAt (s.slotLen t) (n + 1) ≤ p.length then fillSlot p (s.slotLen t) n k d else p
  | none => p

/-- The current cycle of the stream, if the copy is of it (R158). -/
def State.copyCycle (s : State) (t cnum : Nat) : Option Nat := (s.cycNow t).filter fun k => k % 2 ^ 32 == cnum

/-- The engine takes part in the copies of stream `t` that pass: in Seamless, Split and Standby (06 R158, R166). -/
def State.cycReads (s : State) (t : Nat) : Bool := s.cycRuns t && (s.onRing || s.mode == .standby)

/-- Send a CYCLE copy on: a copy of the current cycle takes the node's segment unless it is a reflected one (R158, R164). Beside its place
in the switch: the cycle if the node reads the copy, and whether it could not leave. -/
def State.passCycle (p : Nat) (f : Frame) (s : State) : Option Nat × Option Nat × Bool × State :=
  let b := f.payload
  let t := fieldBE b 0 1 % 32
  let refl := fieldBE b 2 1 / 4 % 2 == 1
  let current := s.copyCycle t (fieldBE b 4 4)
  let k := if s.cycReads t then current.filter (s.cycTaken t) else none
  let s := s.onlyIf (s.cycReads t && current.isNone) (·.bump Reg.CYC_CNUM_BAD)
  let b' := match k with
    | some k => if refl then b else s.filled t k b
    | none => b
  let (id, u) := s.forward { f with payload := b' } p []
  (id, k, f.hops != 0#10 && !s.portUsable (1 - p), u)

end Sys2Proof.Machine
end

