-- ==== Sys2Proof/Machine/Fabric.lean ====
section
/-!
DEFINITION. Frames between the ports and the transaction engine: arrival at the local port, the keep-alive responder,
completions and NOTICEs, and the commands by which frames are received, received whole, and chosen for output
(03 R60 to R71, 04 R91 to R104, 05 R120, R123, R142 to R145, 01 R23).
-/

namespace Sys2Proof.Machine

/-! ### Completions (05 R120, R130, R131) -/

/-- A request of this node's own initiators (05 R130). -/
def State.ownReq (s : State) (q : Request) : Bool :=
  q.srcRing.toNat == s.ownRing && q.srcNode.toNat == s.ownNode

/-- Load OUTST[i] and follow PEAK_OUT[i]. -/
def State.setOutst (i v : Nat) (s : State) : State :=
  let s := s.wr (Reg.TXN_OUTST i) (BitVec.ofNat 32 v)
  if (s.rd (Reg.TXN_PEAK_OUT i)).toNat < v then s.wr (Reg.TXN_PEAK_OUT i) (BitVec.ofNat 32 v) else s

/-- Free tag `t`, held by an initiator (05 R131). -/
def State.freeTag (t : Nat) (s : State) : State :=
  match s.txn.tags.lookup t with
  | none => s
  | some u =>
    let s : State := { s with txn := { s.txn with tags := s.txn.tags.filter fun e => e.1 != t } }
    if u.quarantined then s
    else (s.cancel (.tagTimeout t)).setOutst u.init ((s.rd (Reg.TXN_OUTST u.init)).toNat - 1)

/-- A completion reaches an initiator: the control processor takes it; the mailbox and the tunnel get a completion message,
unless the tunnel's was dropped (15 R386, 11 R283, R285). -/
def State.initCpl (init : Nat) (tag : Option Nat) (u : Option TagUse) (st : Status) (data : List Byte) (s : State) : State :=
  let s := s.emit (.cpl init tag st data)
  match u with
  | none => s
  | some u =>
    if init = 0 then s
    else if u.dropped then s.bump Reg.USB_TUN_DROP
    else { s with txn := { s.txn with cpls := s.txn.cpls ++ [⟨init, u.ttag, u.dstRing, u.dstNode, st, data⟩] } }

/-- The CPL frame that answers a request of another node (R120). -/
def State.cplFrame (s : State) (q : Request) (st : Status) (data : List Byte) : Frame :=
  s.formFrame Kd.cpl q.cls q.flow q.srcRing q.srcNode q.tag (BitVec.ofNat 4 (Status.code st)) (if st = .ok then data else [])

/-- A request of an own initiator ends at the node itself: its tag must still be held for it, else the completion is late (R130, R131). -/
def State.ownCpl (q : Request) (st : Status) (data : List Byte) (s : State) : State :=
  match s.txn.tags.lookup q.tag.toNat with
  | some u =>
    if u.quarantined || u.dstRing != q.srcRing || u.dstNode != q.srcNode then s.bump Reg.TXN_LATE_CPL
    else (s.freeTag q.tag.toNat).initCpl u.init (some q.tag.toNat) (some u) st (if st = .ok then data else [])
  | none => s.bump Reg.TXN_LATE_CPL

/-- Answer a request that holds no serve entry: a CPL frame to another node, or the completion at the own initiator (R120, R130). PWRITE
has no completion. -/
def State.reply (k : ReqKind) (q : Request) (st : Status) (data : List Byte) (s : State) : State :=
  if k = .pwrite then s else if s.ownReq q then s.ownCpl q st data else s.queueFrame (s.cplFrame q st data)

/-- Complete a served request. Its entry is taken until the completion enters the switch (R123). -/
def State.complete1 (k : ReqKind) (q : Request) (st : Status) (data : List Byte) (s : State) : State :=
  if k = .pwrite ∨ s.ownReq q = true then s.reply k q st data
  else
    State.reply k q st data { s with txn := { s.txn with closing := s.txn.closing.filter s.onItsWay ++ [s.cplFrame q st data] } }

/-! ### Late errors and NOTICEs (05 R142 to R145) -/

/-- The NOTICE payload (R145). -/
def noticePayload (q : Request) (st : Status) (time supp : Nat) : List Byte :=
  [0x01#8, BitVec.ofNat 8 (Status.code st * 16 + q.init.toNat), q.flow.setWidth 8, q.cls.setWidth 8] ++
  beBytes 5 q.addr.toNat ++ [0#8] ++ beBytes 2 q.bytes.toNat ++ beBytes 8 time ++ beBytes 4 supp

/-- A late error is not notified; `rec` says that it has a record, which the next NOTICE counts (R143). -/
def State.unnotified (rec : Bool) (s : State) : State :=
  if rec then { s with txn := { s.txn with suppressed := s.txn.suppressed + 1 } } else s

/-- Send a NOTICE to the writer of a failed PWRITE unless the write was a broadcast or falls inside the gap (R142, R143, R145); `rec` says
that the failure has a late-error record. Answers whether it was sent. -/
def State.notice (rec : Bool) (q : Request) (st : Status) (s : State) : Bool × State :=
  if s.live .noticeGap then (false, (s.unnotified rec).onlyIf (rec || !q.bcast) (·.bump Reg.TXN_NOTICE_SUPP))
  else if q.bcast then (false, s.unnotified rec)
  else
    let f := s.formFrame Kd.notice 5#3 0#6 q.srcRing q.srcNode 0#9 0#4 (noticePayload q st s.now s.txn.suppressed)
    let s : State := { s with txn := { s.txn with suppressed := 0 } }
    (true, (((s.queueFrame f).bump Reg.TXN_NOTICE_TX).arm .noticeGap ((s.rd Reg.TXN_NOTICE_GAP).toNat * usPs)))

/-- The entry that the next late error uses: the first free one from LATE_WR on, else the oldest (R142). -/
def State.lateSlot (s : State) : Nat :=
  let p := (s.rd Reg.TXN_LATE_WR).toNat
  (((List.range 64).map fun i => (p + i) % 64).find? fun i => !s.flag (Fd.TXN_LATEC_VALID i)).getD (s.txn.lateOrder.headD p)

/-- Write the late-error record and send the NOTICE of a PWRITE that was not performed (R142). -/
def State.lateError (q : Request) (st : Status) (s : State) : State :=
  let k := s.lateSlot
  let full := (List.range 64).all fun i => s.flag (Fd.TXN_LATEC_VALID i)
  let t := s.now
  let (sent, s) := s.notice true q st
  let s := (s.wr (Reg.TXN_LATE0 k) (BitVec.ofNat 32 t)).wr (Reg.TXN_LATE4 k) (BitVec.ofNat 32 (t / 2 ^ 32))
  let s := s.wr (Reg.TXN_LATE8 k) (BitVec.ofNat 32 q.addr.toNat)
  let s := s.wr (Reg.TXN_LATEC k) (BitVec.ofNat 32 (2 ^ 31 + q.cls.toNat * 2 ^ 22 + q.flow.toNat * 2 ^ 16 + q.init.toNat * 2 ^ 12 +
    Status.code st * 2 ^ 8 + q.addr.toNat / 2 ^ 32))
  let s := s.wr (Reg.TXN_LATE10 k) (BitVec.ofNat 32 ((if q.bcast then 2 ^ 25 else 0) + (if sent then 2 ^ 24 else 0) +
    q.srcNode.toNat * 2 ^ 15 + q.srcRing.toNat * 2 ^ 9 + q.bytes.toNat))
  let s := (s.bump Reg.TXN_LATE_REC_CNT).on Fd.TXN_EVT_LATE_REC
  let s := if full then (s.bump Reg.TXN_LATE_OVF_CNT).on Fd.TXN_EVT_LATE_OVF else s
  let s : State := { s with txn := { s.txn with lateOrder := s.txn.lateOrder.filter (· != k) ++ [k] } }
  s.wr Reg.TXN_LATE_WR (BitVec.ofNat 32 ((k + 1) % 64))

/-- A request is refused or has failed: its completion, or the late-error path of a PWRITE (R121, R142). -/
def State.fail (k : ReqKind) (q : Request) (r : Res) : State :=
  if k = .pwrite then r.2.lateError q r.1 else r.2.complete1 k q r.1 []

/-! ### The keep-alive responder (01 R23, 04 R91, 05 R122) -/

/-- The answer of the responder while it is in charge; none while the transaction engine serves (R23). -/
def State.responder (s : State) : Option Status :=
  if s.serving then none
  else if s.anat.mainHeld then some .targetReset
  else if s.anat.purging then some .busy
  else some .wrongMode

/-- Answer a request from the keep-alive side with a status, counting it (R23, R25, 00 R3). A PWRITE so refused gets a NOTICE and no
late-error record (05 R144); a broadcast one, which gets neither completion nor NOTICE, counts all the same (DESIGN CHOICE, log 116).
With both domains held nothing answers, nor does a twin package without the identity (14 R356). -/
def State.answerKept (st : Status) (k : ReqKind) (q : Request) (s : State) : State :=
  if s.anat.kaHeld || (!s.hasIdentity && !s.ownReq q) then s
  else
    let s := match st with
      | .targetReset => s.bump Reg.SYS_TGT_RESET_CNT
      | .wrongMode => s.bump Reg.WARDEN_WRONG_MODE_CNT
      | _ => s
    if k = .pwrite then (s.notice false q st).2 else s.reply k q st []

/-- The responder answers one request (R23). -/
def State.respond (k : ReqKind) (q : Request) (s : State) : State :=
  match s.responder with
  | none => s
  | some st => s.answerKept st k q

/-! ### Arrival at the transaction engine (05 R123) -/

/-- Follow SERVE_PEAK. -/
def State.noteServe (s : State) : State :=
  if (s.rd Reg.TXN_SERVE_PEAK).toNat < s.serveCount then
    s.wr Reg.TXN_SERVE_PEAK (BitVec.ofNat 32 (min s.serveCount 256))
  else s

/-- The holder of a lock sends the request (R125). -/
def Lock.holds (l : Lock) (q : Request) : Bool :=
  l.ring == q.srcRing && l.node == q.srcNode && l.init == q.init && l.cls == q.cls && l.flow == q.flow

/-- A request that arrives is refused by a quiesce; an LWRITE of a holder passes (R147). -/
def State.quiesced (s : State) (k : ReqKind) (q : Request) : Bool :=
  s.serving && s.quiescing && !(k == .lwrite && s.txn.locks.any fun l => l.2.holds q)

/-- The first occurrence of a request taken out of a list of waiting ones. -/
def eraseReq (k : ReqKind) (q : Request) : List (ReqKind × Request) → List (ReqKind × Request)
  | [] => []
  | e :: t => if e = (k, q) then t else e :: eraseReq k q t

/-- Waiting PWRITEs take the free serve entries, in order (R123). -/
def State.pullBacklog (s : State) : State :=
  let n := 256 - s.serveCount
  { s with txn := { s.txn with serve := s.txn.serve ++ s.txn.backlog.take n, backlog := s.txn.backlog.drop n } }

/-- A request arrives: it takes a serve entry; a full table answers BUSY, or keeps a PWRITE waiting (R123); a quiesce refuses it
(R147). None passes a waiting PWRITE (R134). -/
def State.arrive (k : ReqKind) (q : Request) (s : State) : State :=
  if s.quiesced k q then
    let t := s.bump Reg.TXN_SERVE_BUSY
    if k = .pwrite then t.lateError q .busy else t.reply k q .busy []
  else
    let s := s.pullBacklog
    if s.serveCount < 256 || !s.serving then
      State.noteServe { s with txn := { s.txn with serve := s.txn.serve ++ [(k, q)] } }
    else if k = .pwrite then { s with txn := { s.txn with backlog := s.txn.backlog ++ [(k, q)] } }
    else (s.bump Reg.TXN_SERVE_BUSY).reply k q .busy []

/-- A request leaves its serve entry (R123). -/
def State.leaveServe (k : ReqKind) (q : Request) (s : State) : State :=
  State.pullBacklog { s with txn := { s.txn with serve := eraseReq k q s.txn.serve } }

/-- Deliver an accepted frame to its consumer: a request to the transaction engine or the responder, CHUNK to ROM or the
firmware, WAKE in every mode (16 R414), the rest to the running node (01 R23); a CHUNK in Load or Drowse is dropped (17 R424). MGMT is consumed by nobody (03 R86). -/
def State.deliver (f : Frame) (e : BitVec 16) (s : State) : State :=
  match reqKindOf f.kind with
  | some k => s.arrive k { f.request with epoch := e }
  | none =>
    if f.kind = Kd.mgmt then s.bump Reg.WARDEN_RX_UNKNOWN
    else
      let s := s.onlyIf (f.kind == Kd.chunk && (s.mode == .load || s.mode == .drowse)) (·.bump Reg.UPD_CHUNK_DROP)
      let takes := s.serving || (f.kind == Kd.chunk && (s.mode == .recovery || s.mode == .passThrough)) ||
        f.kind == Kd.wake
      if takes then { s with txn := { s.txn with inbox := s.txn.inbox ++ [f] } } else s

/-! ### Injection (03 R59 to R63, R67, R71 to R77) -/

/-- What becomes of a frame that this node puts onto its ring. -/
inductive Way where
  /-- Not sent: a windowed frame before JOINED (R71), or an exit that is unreachable (R61). -/
  | stays
  /-- It is addressed to this node, or this node is its exit node (R60, R62). -/
  | here
  | exit
  /-- Its flow is held by a fence (R76). -/
  | hold (flow : Nat)
  /-- Its flow has no chosen direction (R77). -/
  | noWay
  /-- It leaves both ways, or in one direction; true is westward (R72, R73). -/
  | both
  | one (west : Bool)
  deriving DecidableEq, Repr

/-- The way of a frame whose DA is `da` (R60 to R62, R71 to R77). In Split a unicast frame below class 7 follows its flow. -/
def State.wayOf (s : State) (da : BitVec 48) (f : Frame) : Way :=
  if kindWindowed f.kind && !s.flag Fd.WARDEN_RING_STAT_JOINED then .stays
  else if da = s.ownMac ∨ (da = macGateway s.ownRing ∧ s.isGateway = true) then
    if f.dstRing.toNat = s.ownRing then .here else .exit
  else if isGroup da || f.cls == 7#3 then .both
  else
    let d := s.daNode da
    let k := flowKey d f.flow.toNat
    if s.fenced d f.flow.toNat || s.ring.held.any (fun h => h.1 == k) then .hold k
    else if s.splitPath then
      match s.chosen d f.flow.toNat with
      | none => .noWay
      | some w => .one w
    else .both

/-- A frame of this node that is its own exit node leaves by the spur, with HOPS and HCHK set and no SEQ taken (DESIGN CHOICE, log 33). -/
def State.exitOwn (f : Frame) (epoch : BitVec 16) (s : State) : State :=
  let f := { f with hops := BitVec.ofNat 10 (s.fld Fd.WARDEN_RING_CTL_HOP_BUDGET) }.sealed
  match s.spurForm f with
  | some g => s.localIn g epoch [2]
  | none => s.bump Reg.WARDEN_SPUR_DROP

/-- Inject a formed frame, decided under `epoch` (R60 to R63, R71 to R77). -/
def State.inject (f : Frame) (epoch : BitVec 16) (s : State) : State :=
  match s.daFor f.dstRing.toNat f.dstNode.toNat with
  | none => s
  | some da =>
    let f := { f with da, sa := s.ownMac }
    match s.wayOf da f with
    | .stays => s
    | .here => s.deliver f epoch
    | .exit => s.exitOwn f epoch
    | .hold k => State.bump Reg.WARDEN_FENCE_HELD { s with ring := { s.ring with held := s.ring.held ++ [(k, f, epoch)] } }
    | .noWay => s.bump Reg.WARDEN_UNREACH
    | .both => s.launch f none epoch
    | .one w => s.launch f (some w) epoch

/-- FRAME_INJECT: the oldest formed frame is injected. -/
def execFrameInject (s : State) : Host.Outcome State Fault Refusal :=
  .next (match s.txn.toInject with
    | [] => s
    | f :: t => State.inject f s.epoch { s with txn := { s.txn with toInject := t } })

/-- A held frame leaves under the path mode of the release; it takes its SEQ now and keeps its epoch (R76, 04 R110). -/
def State.launchHeld (h : Nat × Frame × BitVec 16) (s : State) : State :=
  if s.splitPath then
    match s.chosen (h.1 / 64) (h.1 % 64) with
    | none => s.bump Reg.WARDEN_UNREACH
    | some w => s.launch h.2.1 (some w) h.2.2
  else s.launch h.2.1 none h.2.2

/-- Release the held frames of the flows that `p` picks, in order (R76). -/
def State.releaseHeld (p : Nat → Bool) (s : State) : State :=
  let go := s.ring.held.filter fun h => p h.1
  State.forEach go State.launchHeld { s with ring := { s.ring with held := s.ring.held.filter fun h => !p h.1 } }

/-- FENCE_RELEASE: SETTLE of one flow, or of every flow after a change of path mode, ends (R76, R88). A flow whose own SETTLE has
ended stays held while that of every flow runs, and the other way round. -/
def execFenceRelease (flow : Option (BitVec 9 × BitVec 6)) (s : State) : Host.Outcome State Fault Refusal :=
  .next (match flow with
    | some (da, fl) =>
      let s := s.advance (((s.fenceEnd da.toNat fl.toNat).getD 0) - s.clk)
      if s.live .fenceAll then s else s.releaseHeld (· == flowKey da.toNat fl.toNat)
    | none => s.expiry .fenceAll fun t => t.releaseHeld fun k => !t.fenced (k / 64) (k % 64))

/-! ### Reception at the ring ports (03 R65, R66) -/

/-- The frame fails R60. -/
def badHeader (f : Frame) : Bool :=
  f.srcRing == 0#6 || f.dstRing == 0#6 || f.srcNode == 0#9 || f.srcNode == 511#9

/-- KIND and class do not go together (03 R57). -/
def classMismatch (f : Frame) : Bool := kindIs7 f.kind != (f.cls == 7#3)

/-- VER and KIND are those of the OV4160 (03 R58). -/
def Frame.known (f : Frame) : Bool := f.ver == 2#4 && kindKnown f.kind

/-- The frame fails the check of its consumer (03 R54). -/
def Frame.lenBad (f : Frame) : Bool := decide (1488 < f.len.toNat) || decide (f.payload.length < f.len.toNat)

/-- The frame in reception on port `p` that came last. -/
def State.rxOf (s : State) (p : Nat) : Option Reception := s.sw.rx.find? fun r => r.port == p

/-- The copy of a frame in reception for output `o` that has not left. -/
def State.rxCopies (s : State) (r : Reception) (o : Nat) : List Copy :=
  s.sw.copies.filter fun k => some k.id == r.stored && k.port == o

/-- The newest reception of port `p` is over. -/
def State.endRx (p : Nat) (s : State) : State :=
  let rec go : List Reception → List Reception
    | [] => []
    | r :: t => if r.port = p then t else r :: go t
  { s with sw := { s.sw with rx := go s.sw.rx } }

/-- A frame in reception turns out errored: its cause counts at the input, its copies are spoiled (04 R103, R104). -/
def State.receiveBad (r : Reception) (cause : Nat) (s : State) : State :=
  let s := s.bump cause
  match r.stored with
  | some id => s.spoil id
  | none => s

/-- A header comes in on port `p`. A frame whose end has not come is interrupted by an express one at a fragment end only; any other order is
a reassembly error of the older frame (02 R47). -/
def State.startRx (p : Nat) (express : Bool) (s : State) : State :=
  match s.rxOf p with
  | none => s
  | some r => if r.paused && express then s else (s.endRx p).receiveBad r (Reg.PORT_FRAG_ERR p)

/-- Record a frame in reception, with the epoch under which it is decided. -/
def State.setRx (r : Reception) (s : State) : State :=
  { s with sw := { s.sw with rx := { r with epoch := s.epoch } :: s.sw.rx } }

/-- The checks at a ring port before the Crealend header is used (02 R34, 03 R56): false when the frame is dropped there. Plain PTP frames
are left to the commands of their messages. -/
def State.portCheck (p : Nat) (f : Frame) (s : State) : Bool × State :=
  if !s.portUsable p || f.plainPtp then (false, s)
  else if f.etype = 0x8808#16 then (false, s.bump (Reg.PORT_RX_PAUSE p))
  else if f.etype ≠ 0x88B5#16 then (false, s.bump (Reg.PORT_RX_FOREIGN p))
  else if f.hchk ≠ f.check then (false, s.bump (Reg.PORT_RX_HCHK_ERR p))
  else (true, s)

/-- The frame is addressed to this node, or to the gateway where it has that role (03 R65). -/
def State.addressed (s : State) (f : Frame) : Bool := f.da == s.ownMac || (f.da == macGateway s.ownRing && s.isGateway)

/-- A frame that this node consumes (03 R65): set for the local port or the responder, or for the spur of this exit node (R62). On the
pass-through path a frame for the spur is dropped at header time (04 R92). -/
def State.takeFrame (p : Nat) (f : Frame) (s : State) : Option Nat × RxUse × State :=
  if f.dstRing.toNat ≠ s.ownRing then
    if s.path ≠ 0 then (none, .done, s.bump Reg.WARDEN_SPUR_DROP)
    else
      match s.spurForm f with
      | none => (none, .exitDrop, s)
      | some g => let (id, t) := s.switchIn (s.arrival g p) [2]; (id, .exit, t)
  else if s.path ≠ 0 then (none, .direct, s)
  else let (id, t) := s.switchIn (s.arrival f p) [3]; (id, .queued, t)

/-- Header-time decision on a Crealend frame from ring port `p` (03 R65, R66): its place in the switch, and what follows at its end. -/
def State.decide65 (p : Nat) (f : Frame) (s : State) : Option Nat × RxUse × State :=
  let fwd := fun (s : State) => let (id, t) := s.forward f p []; (id, RxUse.done, t)
  if f.sa = s.ownMac ∧ s.hasIdentity = true then
    (none, .stripped, (s.bump Reg.WARDEN_STRIPPED).onlyIf (!isGroup f.da) (·.bump Reg.WARDEN_RET_UNICAST))
  else if !f.known then fwd (s.bump Reg.WARDEN_RX_UNKNOWN)
  else if classMismatch f then (none, .done, s.bump Reg.WARDEN_CLASS_MISUSE)
  else if badHeader f then (none, .done, s.bump Reg.WARDEN_HDR_BAD)
  else if f.kind = Kd.beacon then let (id, t) := s.passBeacon p f; (id, .beacon, t)
  else if f.kind = Kd.cycle then let (id, k, stuck, t) := s.passCycle p f; (id, .cycle k stuck, t)
  else if f.kind = Kd.time then let (id, t) := s.forward f p []; (id, if s.hasIdentity then .time else .done, t)
  else if !s.hasIdentity then
    fwd (s.onlyIf (s.addressed f && kindWindowed f.kind && s.fld Fd.TWIN_TWIN_STAT_STATE == 3) (·.bump Reg.TWIN_QUIET_DROP))
  else if s.addressed f then s.takeFrame p f
  else if f.da = macBroadcast s.ownRing then
    let (id, t) := s.forward f p (if s.path = 0 then [3] else [])
    (id, if s.path = 0 then .queued else .direct, t)
  else fwd s

/-- RING_FRAME_RX: a frame's header has come in on a ring port. -/
def State.ringFrame (p : Nat) (f : Frame) (s : State) : State :=
  match s.portCheck p f with
  | (false, s) => s
  | (true, s) =>
    let (stored, use, t) := (s.startRx p (f.cls == 7#3)).decide65 p f
    t.setRx { port := p, frame := f, stored, use }
def execRingFrameRx (p : Fin 2) (f : Frame) (s : State) : Host.Outcome State Fault Refusal := .next (s.ringFrame p.val f)

/-! ### The spur (02 R49 to R51, 03 R63) -/

/-- A VID is the one the spur accepts (02 R51). -/
def State.vidOk (s : State) (vid : Option (BitVec 12)) : Bool :=
  match vid with
  | none => s.fld Fd.PORT_SPUR_CTL_VID == 0
  | some v => s.fld Fd.PORT_SPUR_CTL_VID != 0 && v.toNat == s.fld Fd.PORT_SPUR_CTL_VID

/-- The checks of the spur port (02 R33, R50, R51, 03 R56): false when the frame is dropped there. On the pass-through path every frame
received counts in PT_SPUR_DROP (04 R92). Plain PTP frames are left to the commands of their messages. -/
def State.spurCheck (f : Frame) (vid : Option (BitVec 12)) (s : State) : Bool × State :=
  if !s.portUsable 2 || f.plainPtp then (false, s)
  else
    let s := s.onlyIf (s.path != 0) (·.bump Reg.SWC_PT_SPUR_DROP)
    let role := s.fld Fd.PORT_SPUR_CTL_ROLE
    if role = 0 then (false, s.bump (Reg.PORT_RX_ROLE_DROP 2))
    else if f.etype = 0x8808#16 then (false, s.bump (Reg.PORT_RX_PAUSE 2))
    else if f.etype ≠ 0x88B5#16 ∨ s.vidOk vid = false then (false, s.bump (Reg.PORT_RX_FOREIGN 2))
    else if f.hchk ≠ f.check then (false, s.bump (Reg.PORT_RX_HCHK_ERR 2))
    else if !(f.da == s.ownMac || f.da == macGateway s.ownRing || f.da == macBroadcast s.ownRing) ||
        (role == 2 && f.srcRing.toNat != s.fld Fd.PORT_SPUR_CTL_PEER_RING) then (false, s.bump (Reg.PORT_RX_ROLE_DROP 2))
    else (true, s)

/-- A frame from the spur enters the ring as a new frame (R63), beside the outputs `extra`; it is decided once, under the class map and the start
of the spur input (04 R97, R98, R102). -/
def State.enterRing (f : Frame) (extra : List Nat) (s : State) : Option Nat × RxUse × State :=
  let own := if extra.isEmpty then RxUse.done else .queued
  let go := fun (west : Option Bool) (g : Frame) =>
    let (h, t) := s.dress g west
    let t := t.onlyIf (t.outsFor west).isEmpty (·.bump Reg.WARDEN_BREAK_DROP)
    let (id, u) := t.switchIn (t.arrival h 2) (t.outsFor west ++ extra)
    (id, own, u)
  let stay := let (id, t) := s.switchIn (s.arrival f 2) extra; (id, own, t)
  match s.daFor f.dstRing.toNat f.dstNode.toNat with
  | none => stay
  | some da =>
    let g := { f with da, sa := s.ownMac }
    match s.wayOf da g with
    | .both => go none g
    | .one w => go (some w) g
    | .hold _ => (none, .inject, s)
    | .noWay => (none, .done, s.bump Reg.WARDEN_UNREACH)
    | _ => stay

/-- Header-time decision on a frame from the spur (R63): consumed by this node, or injected onto its ring. -/
def State.decide63 (f : Frame) (s : State) : Option Nat × RxUse × State :=
  let mine := f.dstNode == 0#9 || (f.dstNode.toNat == s.ownNode && f.dstNode != 511#9)
  if s.path ≠ 0 then (none, .done, s)
  else if f.known && classMismatch f then (none, .done, s.bump Reg.WARDEN_CLASS_MISUSE)
  else if f.known && badHeader f then (none, .done, s.bump Reg.WARDEN_HDR_BAD)
  else if f.dstRing.toNat ≠ s.ownRing then (none, .done, s.bump Reg.WARDEN_SPUR_DROP)
  else
    let s := s.onlyIf (!f.known) (·.bump Reg.WARDEN_RX_UNKNOWN)
    if mine then
      if f.known then let (id, t) := s.switchIn (s.arrival f 2) [3]; (id, .queued, t) else (none, .done, s)
    else s.enterRing f (if f.dstNode == 511#9 && f.known then [3] else [])

/-- SPUR_FRAME_RX: a frame's header has come in on the spur. -/
def State.spurFrame (f : Frame) (vid : Option (BitVec 12)) (s : State) : State :=
  match s.spurCheck f vid with
  | (false, s) => s
  | (true, s) =>
    let (stored, use, t) := (s.startRx 2 false).decide63 f
    t.setRx { port := 2, frame := f, stored, use, tag := if vid.isSome then 4 else 0 }
def execSpurFrameRx (f : Frame) (vid : Option (BitVec 12)) (s : State) : Host.Outcome State Fault Refusal :=
  .next (s.spurFrame f vid)

/-! ### The end of a reception (02 R34, R47, 03 R54, R68, R71, 04 R94, R102 to R105) -/

/-- Count a frame accepted at port `p` (02 R52). -/
def State.countRx (p size : Nat) (s : State) : State :=
  (s.bump (Reg.PORT_RX_FRAMES p)).add64 (Reg.PORT_RX_BYTES_LO p) (Reg.PORT_RX_BYTES_HI p) size

/-- The counter at input `p` of what makes a frame errored (04 R103, R104, 02 R34); none for a good one of 64 to 1,522 bytes, its tag apart. -/
def rxFault (p : Nat) (e : RxEnd) (size tag : Nat) : Option Nat :=
  match e with
  | .good => if size < 64 ∨ 1522 + tag < size then some (Reg.PORT_RX_LEN_ERR p) else none
  | .badFcs => some (Reg.PORT_RX_FCS_ERR p)
  | .stomped => some (Reg.PORT_RX_STOMPED p)
  | .pcsError => some (Reg.PORT_PCS_ERR p)
  | _ => some (Reg.PORT_FRAG_ERR p)

/-- The frame in reception has run beyond its cells (04 R94). -/
def State.overruns (s : State) (r : Reception) (size : Nat) : Bool :=
  s.sw.frames.any fun f => some f.id == r.stored && !f.pt && decide (f.cells * 256 + r.tag < size)

/-- A reception has come to its end after `size` bytes: the verdict, and the frame completed in the switch or spoiled (04 R94, R103). A
frame that ends while a fragment of it is still due is a reassembly error (02 R47). -/
def State.rxEnd (r : Reception) (e : RxEnd) (size : Nat) (s : State) : Bool × State :=
  let long := s.overruns r size
  let t := s.onlyIf long (·.bump Reg.SWC_LEN_OVERRUN)
  match rxFault r.port (if r.paused && e == .good then .reassembly else e) size r.tag with
  | some a => (false, t.receiveBad r a)
  | none =>
    let t := t.countRx r.port size
    match r.stored with
    | none => (true, t)
    | some id => if long then (false, t.spoil id) else (true, t.complete id (size - r.tag))

/-- A fragment of the frame in reception has ended after `size` bytes; it holds at least 64 (02 R47). Outputs follow it (04 R105). -/
def State.fragmentIn (r : Reception) (size : Nat) (s : State) : State :=
  let s := s.endRx r.port
  if r.paused || r.port == 2 || r.frame.cls == 7#3 || decide (size < 64) then s.receiveBad r (Reg.PORT_FRAG_ERR r.port)
  else
    { s with sw := { s.sw with
      rx := { r with paused := true } :: s.sw.rx
      frames := s.sw.frames.map fun f => if some f.id == r.stored then { f with frags := f.frags ++ [size], gap := true } else f } }

/-- The next fragment of the frame in reception begins: it counts in FRAG_RX (02 R52). -/
def State.fragmentOn (r : Reception) (s : State) : State :=
  let s := s.endRx r.port
  if !r.paused then s.receiveBad r (Reg.PORT_FRAG_ERR r.port)
  else
    State.bump (Reg.PORT_FRAG_RX r.port) { s with sw := { s.sw with
      rx := { r with paused := false } :: s.sw.rx
      frames := s.sw.frames.map fun f => if some f.id == r.stored then { f with gap := false } else f } }

/-- A TIME payload with TSUB 1 that carries a PTP version 2 Sync, Follow_Up, Announce or Signaling (12 R293, R294). -/
def Frame.ptpKnown (f : Frame) : Bool :=
  f.kind == Kd.time && fieldBE f.payload 0 1 == 1 && fieldBE f.payload 5 1 % 16 == 2 &&
    [0x0, 0x8, 0xB, 0xC].contains (fieldBE f.payload 4 1 % 16)

/-- The enabled domain whose DOMAIN_NUM a PTP message carries (12 R294). -/
def State.ptpDomain (s : State) (msg : List Byte) : Option Nat :=
  [0, 1].find? fun d => s.flag (Fd.DOM_DOM_CFG_EN d) && s.fld (Fd.DOM_DOM_CFG_DOMAIN_NUM d) == fieldBE msg 4 1

/-- The TIME frame has come whole: the time unit gets its message (12 R294). -/
def State.timeIn (f : Frame) (s : State) : State :=
  if !f.ptpKnown then s.bump Reg.TIME_MSG_DROP
  else if (s.ptpDomain (f.payload.drop 4)).isNone then s.bump Reg.TIME_DOM_OTHER
  else { s with txn := { s.txn with inbox := s.txn.inbox ++ [f] } }

/-- The output whose queue holds the frame that this node consumes. -/
def RxUse.output : RxUse → Option Nat
  | .queued => some 3
  | .exit => some 2
  | _ => none

/-- A frame that this node consumes has come whole and good. One from a ring port passes the window (R68), then LEN (R54) and JOINED (R71): a
frame that fails LEN has left its mark in the window (DESIGN CHOICE, log 118). One whose place in the queue is gone, because admission
refused it or a buffer word spoiled it, is lost before the window (04 R95, R98). -/
def State.consume (r : Reception) (s : State) : State :=
  let f := r.frame
  let gone := r.use.output.any fun o => (s.rxCopies r o).isEmpty
  let drop := fun (t : State) => match r.use.output with
    | some o => t.forEach (t.rxCopies r o) State.dropCopy
    | none => t
  if gone then s
  else
    let (ok, s) := if kindWindowed f.kind && decide (r.port < 2) then s.windowAccepts f else (true, s)
    if !ok then drop s
    else if f.lenBad then drop (s.bump Reg.WARDEN_LEN_BAD)
    else if kindWindowed f.kind && !s.flag Fd.WARDEN_RING_STAT_JOINED then drop (s.bump Reg.WARDEN_PRE_JOIN_DROP)
    else
      match r.use with
      | .direct => s.deliver f r.epoch
      | .exitDrop => s.bump Reg.WARDEN_SPUR_DROP
      | _ => s

/-- RING_FRAME_RX has handled the header of this frame already. -/
def State.heldRx (s : State) (p : Nat) (f : Frame) : Bool := (s.rxOf p).any (·.frame == f)

/-- The header of a frame that RING_FRAME_RX has not handled is handled first (R65). -/
def State.headed (p : Nat) (f : Frame) (s : State) : State := if s.heldRx p f then s else s.ringFrame p f

/-! ### From the full to the pass-through path (04 R93) -/

/-- A copy for the local port at the change: a request held whole and good has passed its window and is answered TARGET_RESET; errored copies
and those in reception are discarded. -/
def State.answerHeld (k : Copy) (s : State) : State :=
  match s.storedOf k with
  | none => s
  | some f =>
    if !f.whole || f.errored then s.dropCopy k
    else
      match reqKindOf f.frame.kind with
      | some q => (s.dropCopy k).answerKept .targetReset q { f.frame.request with epoch := f.epoch }
      | none => s

/-- The copies for the local port on the full path at the change, in order; nothing still in reception is consumed there. -/
def State.answerLocal (s : State) : State :=
  let held := s.sw.copies.filter fun k => k.port == 3 && (s.storedOf k).any (!·.pt)
  State.forEach held State.answerHeld
    { s with sw := { s.sw with rx := s.sw.rx.map fun r => if r.use = .queued then { r with use := .done } else r } }

/-- From full to pass-through: the full path keeps sending until its ring-output queues are empty, at most 100 µs. -/
def State.toPassThrough (s : State) : State :=
  let s := s.answerLocal.setFld Fd.SWC_SWC_STAT_PATH 1
  if s.fullRingCopies.isEmpty then s else s.arm .drain (100 * usPs)

/-- PATH_CHANGE. -/
def execPathChange (toFull : Bool) (s : State) : Host.Outcome State Fault Refusal :=
  .next (if s.pathFor = 0 && toFull && s.path == 1 then s.toFull
         else if !toFull && s.pathFor == 1 && s.path == 0 then s.toPassThrough else s)

/-! ### Output (04 R95, R96, R101) -/

/-- Start the chosen copy. A buffer word found bad on reading makes the frame errored (R95); a bad control memory entry
starts the purge (R96). A copy of the local port is delivered. -/
def State.startOutput (o : Nat) (k : Copy) (read : BufferRead) (s : State) : State :=
  let s := match read with
    | .corrected1 => s.bump Reg.SWC_SBUF_CORR1
    | .corrected2 => s.bump Reg.SWC_SBUF_CORR2
    | .ctrlCorrected => s.bump Reg.SWC_CTRL_CORR
    | .uncorrectable => s.bump Reg.SWC_SBUF_UE
    | _ => s
  if read = .ctrlUncorrectable then s.purge
  else if o = 3 then
    match s.sw.frames.find? (·.id == k.id) with
    | none => s
    | some f =>
      if read = .uncorrectable then s.spoil k.id
      else (s.dropCopy k).deliver f.frame f.epoch
  else
    let s := s.startCopy k
    if read = .uncorrectable then s.spoil k.id else s

/-- The switch sends by output `o`: its port is usable, and the spur has a role (02 R49). -/
def State.outputOpen (s : State) (o : Nat) : Bool :=
  o == 3 || (s.portUsable o && (o != 2 || s.fld Fd.PORT_SPUR_CTL_ROLE != 0))

/-- Choose and start the next frame of output `o`. -/
def State.outputNext (o : Nat) (read : BufferRead) (s : State) : State :=
  if !s.outputOpen o then s
  else
    match s.choose o with
    | (none, t) => t
    | (some k, t) => t.startOutput o k read

/-- OUTPUT_SELECT: at a boundary of output `o` what is on the wire ends and the next frame is chosen (R101); `some n`: an express frame
interrupts the one on the wire after `n` of its bytes (R105). -/
def State.outputSelect (o : Nat) (read : BufferRead) (preempt : Option Nat) (s : State) : State :=
  match preempt with
  | none => if s.atBoundary o then (s.wireEnd o).outputNext o read else s
  | some n =>
    match s.onWire o with
    | some k => if s.mayPreempt o n then (s.breakCopy k n).outputNext o read else s
    | none => s
def execOutputSelect (o : Fin 4) (turn : OutputTurn) (s : State) : Host.Outcome State Fault Refusal :=
  .next (s.outputSelect o.val turn.read (turn.preempt.map (·.toNat)))

/-- RESPONDER_REQUEST: the responder answers a request while the main domain does not serve (01 R23). -/
def execResponderRequest (k : ReqKind) (q : Request) (s : State) : Host.Outcome State Fault Refusal :=
  .next (if s.serving then s else (s.leaveServe k q).respond k q)

end Sys2Proof.Machine
end

