-- ==== Sys2Proof/Machine/Warden.lean ====
section
/-!
DEFINITION. The warden and its beacons (03 R78 to R88): rounds, filling and turning, published fields, link alarms and
the break set, take-over, reports, and scheduled changes of path mode and seed.
-/

namespace Sys2Proof.Machine

/-! ### Mode entry and path mode (R87, R88; 07 R182) -/

/-- Enter a mode: PREV takes the old one, H_STAT.MODE the new one (15 R387), and the entry is journalled with code 0x00C (07 R182, 16 R407). -/
def State.enterMode (m : Mode) (s : State) : State :=
  let s := (s.setFld Fd.SYS_MODE_STAT_PREV s.mode.code).setFld Fd.HOST_H_STAT_MODE m.code
  let s := State.sysRec 0x00C (Mode.code m) { s with mode := m }
  (s.stationEvent 0x02 (Mode.code m)).hostPend 5

/-- Put a path mode and a seed in force (R88). Leaving Split, and a new seed within Split, fence every flow for SETTLE. A
node in Seamless or Split is then in the mode of that name (R2). A seed change commits (04 R110). -/
def State.applyPath (split : Bool) (seed : BitVec 16) (s : State) : State :=
  let was := s.splitPath
  let newSeed := (s.rd Reg.WARDEN_SEED).setWidth 16 != seed
  let s := (s.setFlag Fd.WARDEN_RING_STAT_PATH_MODE split).wr Reg.WARDEN_SEED (seed.setWidth 32)
  let s := s.onlyIf newSeed State.commit
  let s := if was && (!split || newSeed) then
      let t : State := { s with ring := { s.ring with repins := [] } }
      t.arm .fenceAll t.settlePs
    else s
  if s.onRing && was != split then s.enterMode (if split then .split else .seamless) else s

/-- Forget or keep the scheduled change; RING_STAT.PENDING follows (R87). -/
def State.setChange (c : Option (Nat × Bool × BitVec 16)) (s : State) : State :=
  State.setFlag Fd.WARDEN_RING_STAT_PENDING c.isSome { s with ring := { s.ring with change := c } }

/-- PATH_MODE_CHANGE: the time counter reaches PENDING_AT (R88). -/
def execPathModeChange (s : State) : Host.Outcome State Fault Refusal :=
  .next (match s.ring.change with
    | none => s
    | some (at_, m, seed) => ((s.toTime at_).setChange none).applyPath m seed)

/-- A write of MODE_REQ (R87). -/
def State.modeReq (w : Word) (s : State) : Res :=
  let at_ := s.rd64 Reg.WARDEN_MODE_AT_LO Reg.WARDEN_MODE_AT_HI
  let keep := s.wr Reg.WARDEN_MODE_REQ (w &&& 0x0001FFFF#32)
  if bits w 31 1 = 0 then (.ok, keep)
  else if !s.flag Fd.WARDEN_RING_STAT_WARDEN_ACTIVE then refuse .wrongMode s
  else if at_ < s.now + 2000000 ∨ s.now + 60000000000 < at_ then refuse .badRequest s
  else if (s.ring.change.map fun c => decide (c.1 < s.now + 2000000)).getD false then refuse .busy s
  else
    let m := bits w 16 1 == 1
    let seed := BitVec.ofNat 16 (bits w 0 16)
    if m = s.splitPath ∧ seed = (s.rd Reg.WARDEN_SEED).setWidth 16 then (.ok, keep.setChange none)
    else (.ok, keep.setChange (some (at_, m, seed)))

/-- MODE_REQ. -/
def execModeReq (w : Word) (s : State) : Host.Outcome State Fault Refusal := .next (s.command none fun t => t.modeReq w)

/-! ### Break set with its margins (R84) -/

/-- Rebuild the break set from `base` and the running margins. -/
def State.refreshBreaks (s : State) : State :=
  s.setBreaks ((List.range 512).filter fun p =>
    (s.ring.base.contains p || s.live (.heldDown p)) && !s.live (.heldUp p))

/-- The list a beacon or a launch gives. -/
def State.setBase (l : List Nat) (s : State) : State := State.refreshBreaks { s with ring := { s.ring with base := l } }

/-- A link goes down or comes up by an alarm or by an own event: at once, with a margin of 1 ms (R84). The warden keeps
it for its next published set (R82). -/
def State.linkEvent (pos : Nat) (down : Bool) (s : State) : State :=
  let s : State := { s with ring := { s.ring with
    events := s.ring.events ++ [(down, pos)]
    base := if down then pos :: s.ring.base.filter (· != pos) else s.ring.base.filter (· != pos) } }
  (if down then (s.cancel (.heldUp pos)).arm (.heldDown pos) msPs
   else (s.cancel (.heldDown pos)).arm (.heldUp pos) msPs).refreshBreaks

/-- BREAK_MARGIN_END (R84). -/
def execBreakMarginEnd (pos : BitVec 9) (down : Bool) (s : State) : Host.Outcome State Fault Refusal :=
  .next (s.expiry (if down then .heldDown pos.toNat else .heldUp pos.toNat) State.refreshBreaks)

/-- Position of the link at an own ring port: the link is named by the node on its West side (R75). -/
def State.linkAt (s : State) (p : Nat) : Option Nat :=
  (s.posOf s.ownNode).map fun a => if p = 0 then a else (a + s.ringLen - 1) % s.ringLen

/-- The payload of a link alarm (R83). -/
def alarmPayload (p : Nat) (up : Bool) (cause node pos : Nat) : List Byte :=
  [0x80#8, BitVec.ofNat 8 ((if p = 0 then 0 else 128) + (if up then 64 else 0) + cause % 16 * 4)] ++ List.replicate 26 0#8 ++
  beBytes 2 node ++ [0#8, 0#8] ++ breakBytes [pos] ++ List.replicate 128 0#8

/-- The node's own ring link event (R83, R84): the break set changes, and in Seamless or Split a link alarm leaves by the
ring ports that are up. A node without a position cannot name its links. -/
def State.ownLink (p : Nat) (up : Bool) (cause : Nat) (s : State) : State :=
  match s.linkAt p with
  | none => s
  | some pos =>
    let s := s.linkEvent pos (!up)
    if s.onRing then
      let f := s.formFrame Kd.beacon 7#3 0#6 (BitVec.ofNat 6 s.ownRing) 511#9 0#9 0#4
        (alarmPayload p up cause s.ownNode pos)
      (s.bumpBy Reg.WARDEN_ALARM_TX s.ringOuts.length).launch { f with da := macBroadcast s.ownRing } none s.epoch
    else s

/-! ### Presence (R70, R71) -/

/-- Load the PRESENT bitmap, from a beacon taken (`heard`) or from the own round: absence timers start and stop, and directions are
recomputed (R70, R75). Until the first received beacon every node counts as present, whatever the bitmap says. -/
def State.setPresent (m : BitVec 512) (heard : Bool) (s : State) : State :=
  let was := s.ring.firstBeacon
  let old := s.presentMap
  let t := s.forEach (List.range 16) fun j t => t.wr (Reg.WARDEN_PRESENT j) ((m >>> (32 * j)).setWidth 32)
  if !was && !heard then t
  else
    let t : State := { t with ring := { t.ring with firstBeacon := true } }
    let clear := (t.rd Reg.WARDEN_ABSENT_CLEAR).toNat * msPs
    let t := t.forEach (List.range 512) fun n u =>
      if m.getLsbD n then u.cancel (.absent n)
      else if !was || old.getLsbD n then u.arm (.absent n) clear
      else u
    if was && old == m then t else t.recompute s

/-- The first beacon whose PRESENT lists the node joins it (R71). -/
def State.tryJoin (m : BitVec 512) (s : State) : State :=
  if m.getLsbD s.ownNode then s.on Fd.WARDEN_RING_STAT_JOINED else s

/-! ### Reports (R86) -/

/-- The TOPO_REPORT payload: the last closed round. -/
def State.topoPayload (s : State) : List Byte :=
  let c := s.ring.closed
  [0x02#8, BitVec.ofNat 8 ((if c.closed then 128 else 0) + (if s.splitPath then 64 else 0) +
    (if c.orderErr then 32 else 0) + (if 8 < c.broken.length then 16 else 0))] ++
  beBytes 2 c.bseq.toNat ++ beBytes 8 c.time ++
  beBytes 2 ((List.range 512).filter c.present.getLsbD).length ++ beBytes 2 (min 8 c.broken.length) ++
  breakBytes (c.broken.take 8) ++ mapBytes c.present

/-- A ring of 0 stands for the own ring (R60). -/
def State.ringOf (s : State) (r : Nat) : Nat := if r = 0 then s.ownRing else r

/-- The active warden sends a TOPO_REPORT, if enabled and while the main domain serves (R86). -/
def State.topoReport (s : State) : State :=
  if s.flag Fd.WARDEN_RING_STAT_WARDEN_ACTIVE && s.flag Fd.WARDEN_REPORT_DST_EN && s.serving then
    let f := s.formFrame Kd.mgmt 5#3 0#6 (BitVec.ofNat 6 (s.ringOf (s.fld Fd.WARDEN_REPORT_DST_RING)))
      (BitVec.ofNat 9 (s.fld Fd.WARDEN_REPORT_DST_NODE)) 0#9 0#4 s.topoPayload
    let c := s.ring.closed
    State.queueFrame f { s with ring := { s.ring with closed := { c with reported := some (c.closed, c.broken, c.present) } } }
  else s

/-- TOPO_REPORT_PERIODIC: every 10 s. -/
def execTopoReportPeriodic (s : State) : Host.Outcome State Fault Refusal :=
  .next (s.expiry .topo fun t =>
    if t.flag Fd.WARDEN_RING_STAT_WARDEN_ACTIVE then (t.arm .topo (10 * secPs)).topoReport else t)

/-! ### Rounds (R78, R79, R82) -/

/-- Links in eastward order from this node (R82). -/
def State.eastward (l : List Nat) (s : State) : List Nat :=
  let a := (s.posOf s.ownNode).getD 0
  let n := max s.ringLen 1
  ((List.range n).map fun i => (a + i) % n).filter l.contains

/-- Close the open round (R82): copies not returned are counted, and the material of the next beacon is formed. A change
of CLOSED, BREAKS or PRESENT is reported. -/
def State.closeRound (s : State) : State :=
  let r := s.ring.round
  if !r.isOpen then s
  else
    let miss := (if r.sentE && !r.retE then 1 else 0) + (if r.sentW && !r.retW then 1 else 0)
    let s := s.bumpBy Reg.WARDEN_BEACON_MISS miss
    let c : Closed := { s.ring.closed with
      any := true, closed := r.closedE, broken := s.eastward r.broken
      present := r.seen ||| (1#512 <<< s.ownNode), bseq := r.bseq, orderErr := r.orderErr, time := s.now }
    let s : State := { s with ring := { s.ring with closed := c, round := { r with isOpen := false } } }
    if c.reported = some (c.closed, c.broken, c.present) then s else s.topoReport

/-- The break set to publish (R82): the links that the last closed round showed broken, with those of the downs since its launch, without
those of the ups since then; in eastward order from the warden. -/
def State.publishBreaks (s : State) : List Nat :=
  let of := fun (down : Bool) => (s.ring.events.filter (·.1 == down)).map (·.2)
  s.eastward ((s.ring.closed.broken ++ of true).filter fun l => !(of false).contains l)

/-- The BEACON payload of a round (R79). -/
def State.beaconPayload (s : State) (role bseq : Nat) (breaks : List Nat) (present : BitVec 512) (closed : Bool)
    (rtt : Nat) : List Byte :=
  let (at_, pm, seed) := s.ring.change.getD (0, false, (s.rd Reg.WARDEN_SEED).setWidth 16)
  [BitVec.ofNat 8 (role * 64 + (if closed then 16 else 0) + (if s.splitPath then 8 else 0) +
    (if s.ring.change.isSome then 4 else 0)), 0#8] ++
  beBytes 2 bseq ++ beBytes 8 s.now ++ beBytes 4 rtt ++ beBytes 8 at_ ++
  [if pm then 1#8 else 0#8, 0#8] ++ beBytes 2 seed.toNat ++ [0#8, 0#8] ++ beBytes 2 s.ownNode ++ breakBytes breaks ++
  List.replicate 64 0#8 ++ mapBytes present

/-- BEACON_LAUNCH: at the next multiple of 100 µs the active warden closes its round and launches a new one out of each
ring port (R78, R82). The first round leaves at the multiple after the one at which it became active (DESIGN CHOICE, log 119). -/
def State.beaconLaunch (s : State) : State :=
  if !s.flag Fd.WARDEN_RING_STAT_WARDEN_ACTIVE then s
  else
    let s := (s.toTime ((s.now / 100000 + 1) * 100000)).closeRound
    let role := if s.fld Fd.WARDEN_RING_CTL_ROLE = 2 then 1 else 0
    let c := s.ring.closed
    let own := 1#512 <<< s.ownNode
    let present := if c.any then c.present else if s.ring.firstBeacon then s.presentMap else own
    let all := s.publishBreaks
    let closed := c.any && c.closed
    let rtt := if c.any then (s.rd Reg.WARDEN_RTT).toNat else 0
    let bseq := s.ring.round.bseq + 1#16
    let p := s.beaconPayload role bseq.toNat (all.take 8) present closed rtt
    let f := s.formFrame Kd.beacon 7#3 0#6 (BitVec.ofNat 6 s.ownRing) 511#9 0#9 0#4 p
    let s : State := { s with ring := { s.ring with
      events := []
      round := { bseq, launch := s.now, isOpen := true, sentE := s.portUsable 0, sentW := s.portUsable 1 } } }
    let s := (s.setPresent present false).setBase all
    let s := s.setFlag Fd.WARDEN_RING_STAT_CLOSED closed
    let s := s.on Fd.WARDEN_RING_STAT_BEACON_OK
    if s.ringOuts.isEmpty then s else s.launch { f with da := macBroadcast s.ownRing } none s.epoch

/-- BEACON_LAUNCH. -/
def execBeaconLaunch (s : State) : Host.Outcome State Fault Refusal := .next s.beaconLaunch

/-- Become the active warden: JOINED and BEACON_OK are set, reports run (R78, R85). -/
def State.becomeWarden (s : State) : State :=
  let s := ((s.on Fd.WARDEN_RING_STAT_WARDEN_ACTIVE).on Fd.WARDEN_RING_STAT_JOINED).on Fd.WARDEN_RING_STAT_BEACON_OK
  State.arm .topo (10 * secPs) { s with ring := { s.ring with closed := {}, round := { bseq := s.ring.round.bseq } } }

/-- WARDEN_ACTIVE (R78). -/
def execWardenActive (s : State) : Host.Outcome State Fault Refusal :=
  .next (if s.fld Fd.WARDEN_RING_CTL_ROLE = 1 ∧ s.flag Fd.WARDEN_RING_STAT_WARDEN_ACTIVE = false ∧
            (s.linkIsUp 0 || s.linkIsUp 1) = true then
      (s.toTime ((s.now + 99999) / 100000 * 100000)).becomeWarden
    else s)

/-- BEACON_OK_LOSS: 300 µs after the last beacon BEACON_OK clears, and a backup warden takes over (R85). -/
def execBeaconOkLoss (s : State) : Host.Outcome State Fault Refusal :=
  .next (s.expiry .beaconOk fun t =>
    if t.flag Fd.WARDEN_RING_STAT_WARDEN_ACTIVE then t
    else if t.fld Fd.WARDEN_RING_CTL_ROLE = 2 then t.becomeWarden.bump Reg.WARDEN_TAKEOVER_CNT
    else t.off Fd.WARDEN_RING_STAT_BEACON_OK)

/-! ### Receiving a beacon (R80 to R85) -/

/-- A copy of the warden's own round returns (R82). One turned by a node without a position shows no link broken (DESIGN CHOICE,
log 122). -/
def State.returned (p : Nat) (f : Frame) (s : State) : State :=
  let r := s.ring.round
  let b := f.payload
  if !r.isOpen || bSeq b != r.bseq then s
  else
    let west := f.dir
    let whole := !bTurned b && (p == (if west then 0 else 1))
    let n := max s.ringLen 1
    let cut := if bTurned b then (s.posOf (bTurner b)).map fun a => if west then (a + n - 1) % n else a else none
    let broken := cut.toList ++ r.broken.filter fun l => cut != some l
    let r := { r with seen := r.seen ||| bSeen b, closedE := r.closedE || whole, broken, orderErr := r.orderErr || bOrderErr b }
    let r := if west then { r with retW := true } else { r with retE := true }
    let s : State := { s with ring := { s.ring with round := r } }
    let s := if whole && !west then s.wr Reg.WARDEN_RTT (BitVec.ofNat 32 (s.now - bLaunch b)) else s
    if (r.retE || !r.sentE) && (r.retW || !r.sentW) then s.closeRound else s

/-- Whether a beacon opens a round not yet taken (R80). -/
def newRound (last : Option (Nat × BitVec 16)) (src : Nat) (b : BitVec 16) : Bool :=
  match last with
  | none => true
  | some (n, q) => n != src || (1 ≤ (b - q).toNat && (b - q).toNat ≤ 32767)

/-- A beacon shows a path mode or seed in force that the node does not have: it takes it at once, and counts it in LATE_MODE where the
node has been on the ring and did not know of the change (R80, R88). -/
def State.takeMode (split : Bool) (seed : BitVec 16) (counts : Bool) (s : State) : State :=
  if split = s.splitPath ∧ seed = (s.rd Reg.WARDEN_SEED).setWidth 16 then s
  else (s.applyPath split seed).onlyIf counts (·.bump Reg.WARDEN_LATE_MODE)

/-- Take the published fields of a beacon (R80, R87, R88). A change it schedules is kept until PENDING_AT; the mode in force is taken beside
it, and the seed in force where none is scheduled, SEED then being the scheduled one. -/
def State.takeBeacon (b : List Byte) (s : State) : State :=
  let joined := s.ring.firstBeacon
  let knew := fun (m : Bool) (seed : BitVec 16) => s.ring.change.any fun c => c.2 == (m, seed)
  let own := (s.rd Reg.WARDEN_SEED).setWidth 16
  let s := s.setFlag Fd.WARDEN_RING_STAT_CLOSED (bClosed b)
  let s := s.wr Reg.WARDEN_RTT (BitVec.ofNat 32 (bRtt b))
  let s := (s.setPresent (bPresent b) true).setBase (bBreaks b)
  if bPending b then
    if s.now < bPendingAt b then
      (s.takeMode (bMode b) own joined).setChange (some (bPendingAt b, bPendingMode b, bSeed b))
    else (s.setChange none).takeMode (bPendingMode b) (bSeed b) (!knew (bPendingMode b) (bSeed b))
  else (s.setChange none).takeMode (bMode b) (bSeed b) (joined && !knew (bMode b) (bSeed b))

/-- A good beacon with ROLE 0 or 1 (R80, R85): BEACON_OK, an active backup yields to ROLE 0, and the first copy of a new
round gives its fields, ROLE 1 only while no ROLE 0 beacon came within 300 µs. -/
def State.hearBeacon (f : Frame) (s : State) : State :=
  let b := f.payload
  let role := bRole b
  let s := ((s.on Fd.WARDEN_RING_STAT_BEACON_OK).arm .beaconOk (300 * usPs)).tryJoin (bPresent b)
  let s := if role = 0 then s.arm .role0 (300 * usPs) else s
  let s := if role = 0 ∧ s.fld Fd.WARDEN_RING_CTL_ROLE = 2 then
      (s.off Fd.WARDEN_RING_STAT_WARDEN_ACTIVE).cancel .topo else s
  if newRound (if role = 0 then s.ring.last0 else s.ring.last1) f.srcNode.toNat (bSeq b) && (role == 0 || !s.live .role0) then
    let rec_ := some (f.srcNode.toNat, bSeq b)
    State.takeBeacon b { s with ring := if role = 0 then { s.ring with last0 := rec_ } else { s.ring with last1 := rec_ } }
  else s

/-- Take a link alarm (R83, R84): only a copy received whole with a good FCS and a valid BREAKS entry 0 counts. -/
def State.hearAlarm (f : Frame) (s : State) : State :=
  let s := s.bump Reg.WARDEN_ALARM_RX
  let e := fieldBE f.payload 32 2
  if e / 2 ^ 15 = 1 then s.linkEvent (e % 512) (!bUp f.payload) else s

/-- A BEACON that has come whole and good, from another node or of the own round, is read (R80 to R85). -/
def State.readBeacon (p : Nat) (f : Frame) (own : Bool) (s : State) : State :=
  let role := bRole f.payload
  if own then (if role < 2 then s.returned p f else s)
  else if role < 2 then s.hearBeacon f else if role = 2 then s.hearAlarm f else s

/-- BREAK[i], the break set in eastward order, and FENCE_ACTIVE (R76, R89). -/
def State.wardenRead (s : State) (off : Nat) : Option Word :=
  if off = 0x008 then some (putBits (s.rd Reg.WARDEN_RING_STAT) 25 1 (if s.fenceActive then 1 else 0))
  else if 0x060 ≤ off ∧ off < 0x080 then
    some (match s.ring.breaks[(off - 0x060) / 4]? with
      | some p => BitVec.ofNat 32 (2 ^ 15 + p)
      | none => 0#32)
  else none

end Sys2Proof.Machine
end

