-- ==== Sys2Proof/Machine/Ports.lean ====
section
/-!
DEFINITION. Ring and spur ports (02_ring_and_spur_ports.md): module management, link state, damping, preemption
verification, and the write rules of the PORT registers.
-/

namespace Sys2Proof.Machine

/-- The Clause 37 base page of the port: full duplex, neither half duplex nor pause ability (R32); its bit places are those of IEEE 802.3
(PRESUMED, log 127). -/
def basePage : BitVec 16 := 0x0020#16

/-- The port runs Clause 37 auto-negotiation (R32). -/
def State.negotiates (s : State) (p : Nat) : Bool := s.speedAct p == 1 && s.flag (Fd.PORT_CTL_AN37_EN p)

/-- A condition of R40 has broken, or x_TXDIS has just gone low: the 10 ms run from now on while the link is down and x_TXDIS low, and a
negotiating port advertises anew (R32, R40). -/
def State.restartUp (p : Nat) (s : State) : State :=
  if s.linkIsUp p then s
  else if s.flag (Fd.PORT_STAT_TXDIS p) then s.cancel (.linkUp p)
  else (s.arm (.linkUp p) (10 * msPs)).onlyIf (s.negotiates p) (State.emit (.advert p basePage))

/-- x_TXDIS is low only out of reset with an accepted module, a line mode, no TXDIS_FORCE and no damping (R31, R35, R42, R43). -/
def State.driveTxdis (p : Nat) (s : State) : State :=
  let high := !(s.flag (Fd.PORT_STAT_MOD_READY p) && !s.flag (Fd.PORT_CTL_TXDIS_FORCE p) && !s.flag (Fd.PORT_STAT_DAMPED p) &&
    s.speedAct p != 0 && !s.anat.kaHeld)
  let t := s.setFlag (Fd.PORT_STAT_TXDIS p) high
  if high then t.cancel (.linkUp p) else if s.flag (Fd.PORT_STAT_TXDIS p) then t.restartUp p else t

/-! ### Link down and link up (R39 to R43) -/

/-- The frames that port `p` was to send are flushed and counted, the one in transmission cut; what it was receiving is discarded, and copies
of it that another port has begun to send are stomped (R41). -/
def State.flushPort (p : Nat) (s : State) : State :=
  let s := s.forEach (s.sw.copies.filter fun k => k.port == p) fun k t => (t.cutCopy k).bump (Reg.PORT_TX_FLUSHED p)
  let l := s.sw.rx.filter fun r => r.port == p
  State.forEach (l.filterMap (·.stored)) State.spoil { s with sw := { s.sw with rx := s.sw.rx.filter fun r => r.port != p } }

/-- Enter the damped state (R43). -/
def State.damp (p : Nat) (s : State) : State :=
  let s := ((s.on (Fd.PORT_STAT_DAMPED p)).on (Fd.PORT_EVT_DAMP_ENTER p)).bump (Reg.PORT_DAMP_CNT p)
  let s := s.setPort p { s.port p with flaps := [] }
  let s := (s.sysRec 0x001 (p + 5 * 16)).driveTxdis p
  s.arm (.damp p) (s.fld (Fd.PORT_FLAP_DAMP_TIME p) * secPs)

/-- The preemption state before a link up (R45): 1 initial where verification will run, 0 otherwise. -/
def State.preemptIdle (p : Nat) (s : State) : State :=
  let runs := s.flag (Fd.PORT_PREEMPT_CTL_PREEMPT_EN p) && !s.flag (Fd.PORT_PREEMPT_CTL_VERIFY_DIS p)
  ((s.off (Fd.PORT_PREEMPT_STAT_ACTIVE p)).setFld (Fd.PORT_PREEMPT_STAT_VERIFY_STATE p) (if runs then 1 else 0)).cancel
    (.verify p)

/-- Declare link down with a cause code: 0 LOS, 1 lock, 2 remote fault, 3 removal, 4 software (R41). A port that is not
up has nothing to declare. FLAP_MAX link-downs within FLAP_WINDOW damp the port (R43). -/
def State.declareDown (p cause : Nat) (s : State) : State :=
  if !s.linkIsUp p then s
  else
    let s := (s.off (Fd.PORT_STAT_LINK_UP p)).flushPort p
    let s := ((s.bump (Reg.PORT_LINK_DOWN_CNT p)).on (Fd.PORT_EVT_LINK_DOWN_SEEN p)).sysRec 0x001 (p + cause * 16)
    let s := (s.preemptIdle p).cancel (.pdReq p)
    let s := (s.off (Fd.PD_LD_STAT_LD_VALID p)).off (Fd.PD_LD_STAT_N p)
    let s : State := { s with tim := { s.tim with pds := Tab.erase s.tim.pds p } }
    let s := if p < 2 then s.ownLink p false cause else s
    let window := s.fld (Fd.PORT_FLAP_FLAP_WINDOW p) * secPs
    let flaps := s.clk :: (s.port p).flaps.filter fun t => s.clk < t + window
    let s := s.setPort p { s.port p with flaps }
    let most := s.fld (Fd.PORT_FLAP_FLAP_MAX p)
    if most ≠ 0 ∧ most ≤ flaps.length then s.damp p else s

/-- LINK_DOWN: light, lock or the partner is lost (R39, R40). In near-end loopback x_LOS is shown and ignored, and Remote Fault is not
seen (R470). -/
def State.linkLost (p cause : Nat) (s : State) : State :=
  let loop := s.flag (Fd.PORT_CTL_LOOP_PCS p)
  if s.anat.kaHeld || (loop && cause == 2) then s
  else
    let t := match cause with
      | 0 => (s.on (Fd.PORT_STAT_LOS p)).onlyIf (!loop) (State.off (Fd.PORT_STAT_RX_LOCK p))
      | 1 => s.off (Fd.PORT_STAT_RX_LOCK p)
      | _ => s.on (Fd.PORT_STAT_REMOTE_FAULT p)
    if loop && cause == 0 then t else (t.declareDown p cause).restartUp p

/-- LINK_DOWN. -/
def execLinkDown (p : Fin 3) (cause : Fin 3) (s : State) : Host.Outcome State Fault Refusal :=
  .next (s.linkLost p.val cause.val)

/-- The backup warden waits 300 µs from the later of its role and its first ring link up (03 R85). -/
def State.armBackup (s : State) : State :=
  if s.fld Fd.WARDEN_RING_CTL_ROLE = 2 ∧ s.ring.firstBeacon = false ∧ s.armed .beaconOk = false ∧ s.ring.linked = true ∧
     s.flag Fd.WARDEN_RING_STAT_WARDEN_ACTIVE = false then
    s.arm .beaconOk (300 * usPs)
  else s

/-- Preemption starts with the link: verification, or activation at once with VERIFY_DIS (R45). In near-end loopback the transmitter sends
idle only (R470). -/
def State.preemptStart (p : Nat) (s : State) : State :=
  if !s.flag (Fd.PORT_PREEMPT_CTL_PREEMPT_EN p) || s.flag (Fd.PORT_CTL_LOOP_PCS p) then s.preemptIdle p
  else if s.flag (Fd.PORT_PREEMPT_CTL_VERIFY_DIS p) then
    (s.setFld (Fd.PORT_PREEMPT_STAT_VERIFY_STATE p) 0).on (Fd.PORT_PREEMPT_STAT_ACTIVE p)
  else
    let s := s.setFld (Fd.PORT_PREEMPT_STAT_VERIFY_STATE p) 2
    let s := s.setPort p { s.port p with verifyTries := 1 }
    (s.emit (.verifyFrame p)).arm (.verify p) (s.fld (Fd.PORT_PREEMPT_CTL_VERIFY_TIME p) * msPs)

/-- The interval of Pdelay_Req at port `p` starts where the port sends them: PD_CFG.EN, a link that the switch may use, and on the spur a
role (12 R299). -/
def State.armPdelay (p : Nat) (s : State) : State :=
  if s.flag (Fd.PD_PD_CFG_EN p) && s.portUsable p && (p != 2 || s.fld Fd.PORT_SPUR_CTL_ROLE != 0) then
    s.arm (.pdReq p) (secPs / 2 ^ s.fld (Fd.PD_PD_CFG_LOG_INT p))
  else s

/-- The link is up (R40, R45, 12 R299): it is recorded, preemption and the link-delay measurement start, a ring port tells the
warden. STAT.AN_MISMATCH, whose clearing the spec does not state, clears here (DESIGN CHOICE, log 124). -/
def State.raiseLink (p : Nat) (s : State) : State :=
  let s := (s.off (Fd.PORT_STAT_AN_MISMATCH p)).on (Fd.PORT_STAT_LINK_UP p)
  let s := (s.on (Fd.PORT_EVT_LINK_UP_SEEN p)).sysRec 0x001 (p + 15 * 16)
  let s := (s.preemptStart p).armPdelay p
  if p < 2 then (State.ownLink p true 15 { s with ring := { s.ring with linked := true } }).armBackup else s

/-- LINK_UP (R32, R40): receive lock is held, x_LOS is low and no Remote Fault is received, which STAT shows with x_TXDIS high too. With the
module ready and x_TXDIS low the link is up 10 ms after the last break. In 1000BASE-X with AN37_EN a partner without full duplex keeps
the link down. In near-end loopback the port hears itself (R470). -/
def State.linkGood (p : Nat) (fullDuplex : Bool) (s : State) : State :=
  let loop := s.flag (Fd.PORT_CTL_LOOP_PCS p)
  if s.anat.kaHeld || s.linkIsUp p || s.unitBusy (.pcs (Fin.ofNat 3 p)) || s.speedAct p == 0 ||
      !(s.flag (Fd.PORT_STAT_MOD_PRESENT p) || loop) then s
  else
    let t := (s.on (Fd.PORT_STAT_RX_LOCK p)).onlyIf (!loop) fun t =>
      (t.off (Fd.PORT_STAT_LOS p)).off (Fd.PORT_STAT_REMOTE_FAULT p)
    if !s.flag (Fd.PORT_STAT_MOD_READY p) || s.flag (Fd.PORT_STAT_TXDIS p) then t
    else if s.negotiates p && !loop && !fullDuplex then t.on (Fd.PORT_STAT_AN_MISMATCH p)
    else (t.expire (.linkUp p)).raiseLink p

/-- LINK_UP. -/
def execLinkUp (p : Fin 3) (fullDuplex : Bool) (s : State) : Host.Outcome State Fault Refusal :=
  .next (s.linkGood p.val fullDuplex)

/-- End damping: x_TXDIS goes low, and link up follows (R43). -/
def State.undamp (p : Nat) (s : State) : State := ((s.cancel (.damp p)).off (Fd.PORT_STAT_DAMPED p)).driveTxdis p

/-- DAMP_TIME_END. -/
def execDampTimeEnd (p : Fin 3) (s : State) : Host.Outcome State Fault Refusal :=
  .next (s.expiry (.damp p.val) (State.undamp p.val))

/-- DAMP_CLR. -/
def execDampClr (p : Fin 3) (s : State) : Host.Outcome State Fault Refusal :=
  .next (s.command none fun t => (.ok, t.undamp p.val))

/-! ### Preemption verification (R45, R46) -/

/-- VERIFY_RETRY: verifyTime expired without a response and attempts remain. -/
def execVerifyRetry (p : Fin 3) (s : State) : Host.Outcome State Fault Refusal :=
  .next (if s.armed (.verify p.val) ∧ (s.port p.val).verifyTries < s.fld (Fd.PORT_PREEMPT_CTL_VERIFY_LIMIT p.val) then
      let s := s.expire (.verify p.val)
      let s := s.setPort p.val { s.port p.val with verifyTries := (s.port p.val).verifyTries + 1 }
      (s.emit (.verifyFrame p.val)).arm (.verify p.val) (s.fld (Fd.PORT_PREEMPT_CTL_VERIFY_TIME p.val) * msPs)
    else s)

/-- PREEMPT_VERIFY_SUCCESS. -/
def execPreemptVerifySuccess (p : Fin 3) (s : State) : Host.Outcome State Fault Refusal :=
  .next (if s.fld (Fd.PORT_PREEMPT_STAT_VERIFY_STATE p.val) = 2 then
      ((s.cancel (.verify p.val)).setFld (Fd.PORT_PREEMPT_STAT_VERIFY_STATE p.val) 3).on (Fd.PORT_PREEMPT_STAT_ACTIVE p.val)
    else s)

/-- PREEMPT_VERIFY_FAIL: the last attempt expired (R46). -/
def execPreemptVerifyFail (p : Fin 3) (s : State) : Host.Outcome State Fault Refusal :=
  .next (if s.armed (.verify p.val) ∧ s.fld (Fd.PORT_PREEMPT_CTL_VERIFY_LIMIT p.val) ≤ (s.port p.val).verifyTries then
      let s := (s.expire (.verify p.val)).setFld (Fd.PORT_PREEMPT_STAT_VERIFY_STATE p.val) 4
      ((s.on (Fd.PORT_EVT_VERIFY_FAIL p.val)).bump (Reg.PORT_VERIFY_FAIL_CNT p.val)).sysRec 0x005 p.val
    else s)

/-! ### Modules (R31, R35 to R38) -/

/-- x_MODABS_N goes low: the 100 ms run unless the part is held in reset, where they start with its release, or the module still counts as
present (R35, R36, R42). -/
def State.modGoesLow (p : Nat) (s : State) : State :=
  let s := s.setPort p { s.port p with modLow := true }
  if s.anat.kaHeld || s.flag (Fd.PORT_STAT_MOD_PRESENT p) then s else s.arm (.modPresent p) (100 * msPs)

/-- MODULE_INSERT (R35). -/
def execModuleInsert (p : Fin 3) (s : State) : Host.Outcome State Fault Refusal :=
  .next (s.modGoesLow p.val)

/-- The module is accepted: MOD_READY, x_TXDIS low where nothing holds it high (R35). -/
def State.moduleReady (p : Nat) (s : State) : State := (s.on (Fd.PORT_STAT_MOD_READY p)).driveTxdis p

/-- MOD_PRESENT: x_MODABS_N has been low for 100 ms (R35); without module management MOD_READY follows (MM_EN). -/
def execModPresent (p : Fin 3) (s : State) : Host.Outcome State Fault Refusal :=
  .next (s.expiry (.modPresent p.val) fun t =>
    let t := (t.on (Fd.PORT_STAT_MOD_PRESENT p.val)).on (Fd.PORT_EVT_MOD_INSERTED p.val)
    if t.flag (Fd.PORT_MOD_CTL_MM_EN p.val) then t.arm (.modWait p.val) (300 * msPs) else t.moduleReady p.val)

/-- The line mode AUTO takes from A0h bytes 3 and 6 (R31): 2 10GBASE-R, 1 1000BASE-X, 0 none. -/
def autoMode (a0 : List Byte) : Nat :=
  if fieldBE a0 3 1 / 16 ≠ 0 then 2 else if fieldBE a0 6 1 % 8 ≠ 0 then 1 else 0

/-- The identity's check byte 63 (R35). -/
def identityOk (a0 : List Byte) : Bool :=
  fieldBE a0 63 1 == ((a0.take 63).map BitVec.toNat).foldl (· + ·) 0 % 256

/-- Whether digital diagnostics are polled: A0h byte 92 bit 6 set and bit 2 clear (R37). -/
def ddmSupported (a0 : List Byte) : Bool :=
  fieldBE a0 92 1 / 64 % 2 == 1 && fieldBE a0 92 1 / 4 % 2 == 0

/-- The module is refused: MOD_BAD, x_TXDIS stays high (R31, R35). -/
def State.moduleBad (p : Nat) (evt : Bool) (s : State) : State :=
  ((s.on (Fd.PORT_STAT_MOD_BAD p)).onlyIf evt (·.on (Fd.PORT_EVT_MOD_BAD p))).driveTxdis p

/-- MODULE_IDENTITY_READ: after the 300 ms wait A0h bytes 0 to 95 are read and checked (R31, R35). -/
def execModuleIdentityRead (p : Fin 3) (ack : Bool) (a0 : List Byte) (s : State) : Host.Outcome State Fault Refusal :=
  .next (s.expiry (.modWait p.val) fun t =>
    if !ack || !identityOk a0 then t.moduleBad p.val true
    else
      let t := t.setPort p.val { t.port p.val with ident := a0 }
      let t := t.arm (.ddm p.val) (t.fld (Fd.PORT_MOD_CTL_DDM_PERIOD p.val) * 100 * msPs)
      let t := if t.fld (Fd.PORT_CTL_SPEED p.val) = 3 then t.setFld (Fd.PORT_STAT_SPEED_ACT p.val) (autoMode a0) else t
      if t.fld (Fd.PORT_CTL_SPEED p.val) = 3 ∧ autoMode a0 = 0 then t.moduleBad p.val false else t.moduleReady p.val)

/-- A software access in progress ends without acknowledge (R36, R38). -/
def State.accNak (p : Nat) (s : State) : State :=
  if s.flag (Fd.PORT_MOD_ACC_BUSY p) then (s.off (Fd.PORT_MOD_ACC_BUSY p)).on (Fd.PORT_MOD_ACC_NAK p) else s

/-- MODULE_REMOVED: x_MODABS_N has been high for 10 µs (R36). The transmitter is disabled at the link down, so no error code ends a frame that
is cut (R41). -/
def State.modRemoved (p : Nat) (s : State) : State :=
  let s := s.setPort p { s.port p with ident := [], modLow := false }
  if s.anat.kaHeld then s
  else
    let s := ((s.on (Fd.PORT_STAT_TXDIS p)).cancel (.linkUp p)).declareDown p 3
    let s := ((s.off (Fd.PORT_STAT_MOD_PRESENT p)).off (Fd.PORT_STAT_MOD_READY p)).off (Fd.PORT_STAT_MOD_BAD p)
    let s := (s.on (Fd.PORT_EVT_MOD_REMOVED p)).driveTxdis p
    let s := if s.fld (Fd.PORT_CTL_SPEED p) = 3 then s.off (Fd.PORT_STAT_SPEED_ACT p) else s
    (((s.cancel (.modPresent p)).cancel (.modWait p)).cancel (.ddm p)).accNak p

/-- MODULE_REMOVED. -/
def execModuleRemoved (p : Fin 3) (s : State) : Host.Outcome State Fault Refusal := .next (s.modRemoved p.val)

/-- DDM_POLL: A2h bytes 96 to 105 and 112 to 117 (R37). A flag that rises sets EVT.DDM_ALARM. -/
def execDdmPoll (p : Fin 3) (ddm flags : List Byte) (s : State) : Host.Outcome State Fault Refusal :=
  .next (
    let q := p.val
    if s.flag (Fd.PORT_MOD_CTL_DDM_EN q) && s.flag (Fd.PORT_MOD_CTL_MM_EN q) && ddmSupported (s.port q).ident then
      let s := s.expire (.ddm q)
      let old := s.rd (Reg.PORT_MOD_FLAGS q)
      let new : Word := BitVec.ofNat 32 (fieldBE flags 0 2 + fieldBE flags 4 2 * 65536)
      let s := s.wr (Reg.PORT_MOD_DDM0 q) (BitVec.ofNat 32 (fieldBE ddm 0 2 + fieldBE ddm 2 2 * 65536))
      let s := s.wr (Reg.PORT_MOD_DDM1 q) (BitVec.ofNat 32 (fieldBE ddm 4 2 + fieldBE ddm 6 2 * 65536))
      let s := s.wr (Reg.PORT_MOD_DDM2 q) (BitVec.ofNat 32 (fieldBE ddm 8 2))
      let s := (s.wr (Reg.PORT_MOD_FLAGS q) new).onlyIf (new &&& ~~~old != 0#32) (·.on (Fd.PORT_EVT_DDM_ALARM q))
      s.arm (.ddm q) (s.fld (Fd.PORT_MOD_CTL_DDM_PERIOD q) * 100 * msPs)
    else s)

/-- A write of MOD_ACC (R38). -/
def State.modAcc (p : Nat) (w : Word) (s : State) : Res :=
  let go := bits w 10 1 == 1
  let keep := s.wr (Reg.PORT_MOD_ACC p) ((s.rd (Reg.PORT_MOD_ACC p) &&& 0x00003800#32) ||| (w &&& 0x00FF03FF#32))
  if !go then (.ok, if s.flag (Fd.PORT_MOD_ACC_BUSY p) then s else keep)
  else if s.flag (Fd.PORT_MOD_ACC_BUSY p) then refuse .busy s
  else if bits w 9 1 = 1 ∧ bits w 8 1 = 0 then refuse .denied s
  else
    let t := (keep.off (Fd.PORT_MOD_ACC_DONE p)).off (Fd.PORT_MOD_ACC_NAK p)
    if s.flag (Fd.PORT_STAT_MOD_PRESENT p) then (.ok, t.on (Fd.PORT_MOD_ACC_BUSY p))
    else (.ok, t.on (Fd.PORT_MOD_ACC_NAK p))

/-- MOD_ACC_GO. -/
def execModAccGo (p : Fin 3) (w : Word) (s : State) : Host.Outcome State Fault Refusal :=
  .next (s.command none fun t => t.modAcc p.val (w ||| 0x400#32))

/-- MOD_ACC_DONE (R38): a read places its byte in MOD_DATA. -/
def execModAccDone (p : Fin 3) (ack : Bool) (rdata : Byte) (s : State) : Host.Outcome State Fault Refusal :=
  .next (
    if !s.flag (Fd.PORT_MOD_ACC_BUSY p.val) then s
    else if !ack then s.accNak p.val
    else
      let s := (s.off (Fd.PORT_MOD_ACC_BUSY p.val)).on (Fd.PORT_MOD_ACC_DONE p.val)
      if s.flag (Fd.PORT_MOD_ACC_WRITE p.val) then s else s.setFld (Fd.PORT_MOD_DATA_RDATA p.val) rdata.toNat)

/-! ### Register writes -/

/-- A write of CTL (R30, R39, R42, R470): a change of SPEED or LOOP_PCS forces link down. -/
def State.portCtl (p : Nat) (w : Word) (s : State) : Res :=
  let loop := bits w 5 1 == 1
  let was := s.flag (Fd.PORT_CTL_LOOP_PCS p)
  if s.mode = .drowse then refuse .wrongMode s
  else if loop && !was && s.mode != .isolated then refuse .wrongMode s
  else
    let speed := bits w 0 2
    let changed := speed != s.fld (Fd.PORT_CTL_SPEED p) || loop != was
    let renew := changed || (bits w 3 1 == 1) != s.flag (Fd.PORT_CTL_AN37_EN p)
    let s := s.onlyIf changed (State.declareDown p 4)
    let s := s.wr (Reg.PORT_CTL p) (w &&& 0x3B#32)
    let act := if speed = 3 then (if (s.port p).ident.isEmpty then 0 else autoMode (s.port p).ident)
      else if speed = 2 then 2 else speed
    let s := s.setFld (Fd.PORT_STAT_SPEED_ACT p) act
    let s := if speed = 3 ∧ act = 0 ∧ (s.port p).ident ≠ [] then s.moduleBad p false else s.driveTxdis p
    (.ok, s.onlyIf renew (State.restartUp p))

/-- PORT_SPEED_WRITE. -/
def execPortSpeedWrite (p : Fin 3) (w : Word) (s : State) : Host.Outcome State Fault Refusal :=
  .next (s.command none fun t => t.portCtl p.val w)

/-- LOOP_PCS_WRITE. -/
def execLoopPcsWrite (p : Fin 3) (w : Word) (s : State) : Host.Outcome State Fault Refusal :=
  .next (s.command none fun t => t.portCtl p.val w)

/-- The node leaves Isolated: every port clears LOOP_PCS with the link-down of a change (R470). -/
def State.clearLoops (s : State) : State :=
  s.forEach [0, 1, 2] fun p t =>
    if t.flag (Fd.PORT_CTL_LOOP_PCS p) then ((t.declareDown p 4).off (Fd.PORT_CTL_LOOP_PCS p)).restartUp p else t

/-- Writes of PORT registers that have rules of their own, by offset within the port; none for the plain ones. -/
def State.portWrite (p off : Nat) (w : Word) (s : State) : Option Res :=
  match off with
  | 0x000 => some (s.portCtl p w)
  | 0x010 =>
    some (if bits w 8 8 = 0 then refuse .badRequest s
      else
        let s := s.wr (Reg.PORT_FLAP p) (w &&& 0x0FFFFF0F#32)
        (.ok, if bits w 31 1 = 1 then s.undamp p else s))
  | 0x014 =>
    some (if bits w 8 8 = 0 ∨ 128 < bits w 8 8 ∨ bits w 16 4 = 0 then refuse .badRequest s
      else if p = 2 ∧ bits w 0 1 = 1 then refuse .wrongMode s
      else
        let s := s.wr (Reg.PORT_PREEMPT_CTL p) (w &&& 0x000FFF03#32)
        (.ok, if bits w 0 1 = 0 ∨ s.linkIsUp p = false then s.preemptIdle p
          else if bits w 1 1 = 1 then (s.setFld (Fd.PORT_PREEMPT_STAT_VERIFY_STATE p) 0).cancel (.verify p)
          else s))
  | 0x020 =>
    some (if bits w 8 8 = 0 then refuse .badRequest s
      else
        let s := s.wr (Reg.PORT_MOD_CTL p) (w &&& 0xFF07#32)
        (.ok, if bits w 0 1 = 0 ∧ s.flag (Fd.PORT_STAT_MOD_PRESENT p) = true then (s.cancel (.modWait p)).moduleReady p else s))
  | 0x024 => some (s.modAcc p w)
  | 0x040 =>
    if p = 2 then
      some (if bits w 0 2 = 3 ∨ bits w 8 12 = 4095 ∨ (bits w 0 2 = 2 ∧ bits w 2 6 = 0) then refuse .badRequest s
        else
          let t := s.wr Reg.PORT_SPUR_CTL (w &&& 0x000FFFFF#32)
          (.ok, if bits w 0 2 = 0 then t.cancel (.pdReq 2) else if t.armed (.pdReq 2) then t else t.armPdelay 2))
    else some (.ok, s)
  | _ => none

/-- Writes of WARDEN registers that have rules of their own (03 R84, R85, R87, R89, 14 R352), by offset within the block. -/
def State.wardenWrite (off : Nat) (w : Word) (s : State) : Option Res :=
  let locked := s.mode != .load && s.mode != .isolated
  if off = 0 then
    some (if locked then refuse .wrongMode s
      else if bits w 14 2 = 3 ∨ bits w 0 10 = 0 ∨ (bits w 14 2 ≠ 0 ∧ s.flag Fd.TWIN_TWIN_CFG_EN = true) then refuse .badRequest s
      else
        let s := s.wr Reg.WARDEN_RING_CTL (w &&& 0x07FFC3FF#32)
        let s := if bits w 14 2 = 0 ∧ s.flag Fd.WARDEN_RING_STAT_WARDEN_ACTIVE = true then
            (s.off Fd.WARDEN_RING_STAT_WARDEN_ACTIVE).onlyIf (!s.live .beaconOk) (·.arm .beaconOk (300 * usPs))
          else s
        let s := if s.ring.firstBeacon then s else s.setFlag Fd.WARDEN_RING_STAT_PATH_MODE (bits w 26 1 == 1)
        (.ok, s.armBackup))
  else if 0x400 ≤ off ∧ off < 0x500 then
    some (if locked then refuse .wrongMode s else (.ok, s.wr (0x140000 + off) (w &&& 0x1FF#32)))
  else if 0x1000 ≤ off ∧ off < 0x1800 then
    some (if locked then refuse .wrongMode s else (.ok, s.wr (0x140000 + off) (w &&& 0x800001FF#32)))
  else if off = 0x018 then
    some (if bits w 0 7 = 0 ∨ 100 < bits w 0 7 then refuse .badRequest s
      else (.ok, s.wr Reg.WARDEN_ABSENT_CLEAR (w &&& 0x7F#32)))
  else if off = 0x040 then some (s.modeReq w)
  else none

end Sys2Proof.Machine
end

