-- ==== Sys2Proof/Machine/Pins.lean ====
section
/-!
DEFINITION. Field pins (07 R169 to R191, R471): ownership, driven values by mode, filtered levels, glitches, and bank
supplies.
-/

namespace Sys2Proof.Machine

/-- Pin owners by the code of PIN[n].STAT.OWNER. -/
inductive Owner where
  | software
  | bobbin (n : Nat)
  | picot (n : Nat)
  | cycle (e : Nat)
  deriving DecidableEq, Repr

def Owner.code : Owner → Nat
  | .software => 1 | .bobbin _ => 2 | .picot _ => 3 | .cycle _ => 4

def Owner.index : Owner → Nat
  | .software => 0 | .bobbin n => n | .picot n => n | .cycle n => n

def State.pin (s : State) (n : Nat) : PinState := Tab.get {} s.field.pins n
def State.setPin (n : Nat) (p : PinState) (s : State) : State :=
  { s with field := { s.field with pins := Tab.set {} s.field.pins n p } }

def State.pinOwned (s : State) (n : Nat) : Bool := s.fld (Fd.PIN_STAT_OWNER n) != 0
def State.ownedBy (s : State) (n : Nat) (o : Owner) : Bool :=
  s.fld (Fd.PIN_STAT_OWNER n) == o.code && s.fld (Fd.PIN_STAT_OWNER_IDX n) == o.index
def State.level (s : State) (n : Nat) : Bool := s.flag (Fd.PIN_STAT_LEVEL n)
def State.bankFailed (s : State) (b : Nat) : Bool := s.field.failed.contains b

/-! ### Claims and releases (R171, R172) -/

/-- Whether a claim of one pin would succeed. -/
def State.claimable (s : State) (o : Owner) (n : Nat) : Bool := !s.pinOwned n || s.ownedBy n o

/-- Claim pins for an owner: all of them or none; a refused claim counts in OWN_BUSY (R171). Claims of the configuration in Load take effect
together at the entry to service (R172). -/
def State.claim (o : Owner) (pins : List Nat) (s : State) : Res :=
  if s.applying then (.ok, s)
  else if pins.all (s.claimable o) then
    (.ok, s.forEach pins fun n t => (t.setFld (Fd.PIN_STAT_OWNER n) o.code).setFld (Fd.PIN_STAT_OWNER_IDX n) o.index)
  else refuse .busy (s.bump Reg.FPIN_OWN_BUSY)

/-- Release pins that the owner holds: the driver turns off (R172). -/
def State.release (o : Owner) (pins : List Nat) (s : State) : State :=
  s.forEach pins fun n t =>
    if t.ownedBy n o then
      ((t.off (Fd.PIN_STAT_OWNER n)).off (Fd.PIN_STAT_OWNER_IDX n)).setPin n { t.pin n with value := false, enable := false, keep := false }
    else t

/-- The owner's value and enable of a pin that is not software's. -/
def State.drive (n : Nat) (value enable : Bool) (s : State) : State := s.setPin n { s.pin n with value, enable, keep := false }

/-! ### What a pin outputs (R174, R178, R179) -/

/-- A driven level under open drain: 1 turns the driver off (R174). -/
def State.odValue (s : State) (n : Nat) (v : Bool) : Option Bool := if v && s.flag (Fd.PIN_CFG_OD n) then none else some v

/-- The driver's output for a SAFE or DROWSE code on an owned pin (R179). -/
def State.safeValue (s : State) (n code : Nat) : Option Bool :=
  if code = 1 then s.odValue n false else if code = 2 then s.odValue n true else none

/-- The value that the driver of pin `n` puts on the ball, none while the driver is off (R174, R178, R170, 01 R20). -/
def State.pinDrive (s : State) (n : Nat) : Option Bool :=
  if s.anat.kaHeld || s.anat.mainHeld || s.anat.outputsReleased || s.bankFailed (n / 16) || !s.pinOwned n then none
  else
    match (if s.boot.drowsy then Mode.drowse else s.mode) with
    | .isolated | .seamless | .split =>
      if s.fld (Fd.PIN_STAT_OWNER n) = 1 then s.odValue n (bits (s.rd (Reg.PB_OUT (n / 16))) (n % 16) 1 == 1)
      else if (s.pin n).enable then s.odValue n (s.pin n).value
      else none
    | .passThrough => s.safeValue n (s.fld (Fd.PIN_CFG_SAFE n))
    | .drowse => s.safeValue n (s.fld (Fd.PIN_CFG_DROWSE n))
    | _ => none

/-- The outputs are off and the registers do not set the pins: a reset, or a restart until a mode drives the pins again. -/
def State.pinsHeld (s : State) : Bool := s.anat.kaHeld || s.anat.outputsReleased || s.anat.mainHeld

/-- PULL as it acts at pin `n`: 0 none, 1 up, 2 down, 3 keeper. A listen-only pin has neither pull nor keeper; through a restart inputs
stay as configured before it; in Recovery all are off (R175, R178, "Pin functions and ownership"). -/
def State.pinPull (s : State) (n : Nat) : Nat :=
  if s.pinsHeld then (s.pin n).pull
  else if s.mode = .recovery ∨ s.fld (Fd.PIN_CFG_FUNC n) = 1 then 0
  else s.fld (Fd.PIN_CFG_PULL n)

/-- Whether the keeper of pin `n` is engaged: PULL selects it, or the device releases the output to it (R175, R178, R179). A DROWSE level
of 0b00 is no driven level, so it needs no owner. -/
def State.pinKeeper (s : State) (n : Nat) : Bool :=
  s.pinPull n == 3 ||
    (if s.pinsHeld then (s.pin n).keep
    else
      match (if s.boot.drowsy then Mode.drowse else s.mode) with
      | .standby => s.pinOwned n
      | .passThrough => s.pinOwned n && s.fld (Fd.PIN_CFG_SAFE n) == 0
      | .drowse => s.fld (Fd.PIN_CFG_DROWSE n) == 0
      | .recovery => false
      | _ => s.pinOwned n && (s.pin n).keep)

/-- Every field output is released to its keeper, and inputs stay as they are: what holds now stays until a mode drives the pins again
(01 R20, R27, R178). -/
def State.releaseOutputs (s : State) : State :=
  if s.anat.outputsReleased then s
  else
    let t := s.forEach (List.range 256) fun n t =>
      t.setPin n { t.pin n with pull := s.pinPull n, keep := s.pinOwned n, value := false, enable := false }
    { t with anat := { t.anat with outputsReleased := true } }

/-- After POR_N or SYS_RST_N: high impedance, pulls and keepers off (R178). -/
def State.pinsOff (s : State) : State :=
  { s with field := { s.field with pins := [] }, anat := { s.anat with outputsReleased := true } }

/-- A mode drives the pins again. -/
def State.driveOutputs (s : State) : State :=
  if s.anat.outputsReleased then
    let t := s.forEach (s.field.pins.map (·.1)) fun n t => t.setPin n { t.pin n with keep := false, pull := 0 }
    { t with anat := { t.anat with outputsReleased := false } }
  else s

/-! ### Edges and records (R176, R181, R469) -/

/-- Records of pins, bobbins, controllers and picots are formed only while the writer runs with EN = 1 (R180, R469). -/
def State.journals (s : State) : Bool := s.field.writerRuns && s.flag Fd.JRN_JRN_CTL_EN

/-- Whether pin `n` journals an edge to `level`. -/
def State.journalsEdge (s : State) (n : Nat) (level : Bool) : Bool :=
  if level then s.flag (Fd.PIN_CFG_JRISE n) else s.flag (Fd.PIN_CFG_JFALL n)

/-- Form the record of an edge of a pin that was captured at `i` (R181): DETAIL is the rejected glitches since its previous record. -/
def State.edgeRecord (n : Nat) (i : Instant) (level lost : Bool) (s : State) : State :=
  if s.journals && s.journalsEdge n level then
    let r := { i.record 0 n (min (s.pin n).glitches 0xFFFF) level with lost }
    (s.pushRec n r).setPin n { s.pin n with glitches := 0 }
  else s

/-- Nominal time from the first sample at a new level to its acceptance, ps: COUNT ticks behind the synchroniser's 2 PERI cycles
(R176, R183). -/
def State.filterPs (s : State) (n : Nat) : Nat :=
  (s.fld (Fd.PIN_FILT_COUNT n) * (if s.flag (Fd.PIN_FILT_FBASE n) then 256 else 1) + 2) * periPs

/-- The instant at which the first sample of the accepted level was taken: the spread, at most 1 %, has stretched the time since then by
`stretch` (R183, 01 R18). -/
def State.captured (s : State) (n stretch : Nat) : Instant :=
  s.instantAt (s.clk - (s.filterPs n + min stretch (s.filterPs n / 99)))

/-- FILTER_ACCEPT: the level that differs from the filtered one has been held for COUNT ticks.
A failed bank is frozen; in Drowse only the filters of pins with WAKE_EN run, and the record of
the first accepted edge alone is held (R170, R186). -/
def State.filterAccept (n stretch : Nat) (s : State) : State :=
  if s.bankFailed (n / 16) || (s.mode == .drowse && !s.flag (Fd.PIN_CFG_WAKE_EN n)) then s
  else
    let v := !s.level n
    let i := s.captured n stretch
    let t := s.setFlag (Fd.PIN_STAT_LEVEL n) v
    if s.mode = .drowse then
      if s.field.wakeEdge then t
      else State.edgeRecord n i v false { t with field := { t.field with wakeEdge := true } }
    else t.edgeRecord n i v false

/-- FILTER_ACCEPT. -/
def execFilterAccept (n : Fin 256) (stretch : BitVec 32) (s : State) : Host.Outcome State Fault Refusal :=
  .next (s.filterAccept n.val stretch.toNat)

/-- GLITCH_REJECT (R176): COUNT = 0 rejects nothing. -/
def execGlitchReject (n : Fin 256) (s : State) : Host.Outcome State Fault Refusal :=
  .next (if s.fld (Fd.PIN_FILT_COUNT n.val) = 0 ∨ s.bankFailed (n.val / 16) = true then s
    else (s.bumpFld (Fd.PIN_CNT_GLITCH_CNT n.val) 1).setPin n.val { s.pin n.val with glitches := (s.pin n.val).glitches + 1 })

/-! ### Bank supplies (R170) -/

/-- BANK_SUPPLY_FAIL. -/
def execBankSupplyFail (b : Fin 16) (s : State) : Host.Outcome State Fault Refusal :=
  .next (if s.bankFailed b.val then s
    else
      let s := (s.off (Fd.PB_BANK_STAT_VIO_OK b.val)).on (Fd.PB_BANK_STAT_VIO_FAIL b.val)
      let s := s.wr Reg.FPIN_FPIN_EVT (s.rd Reg.FPIN_FPIN_EVT ||| BitVec.ofNat 32 (2 ^ b.val))
      State.sysRec 0x006 (256 + b.val) { s with field := { s.field with failed := b.val :: s.field.failed } })

/-- A pin of a returning bank takes its present level; a difference to the frozen level gives an edge record with
lost-before-this where the direction is journalled (R170). -/
def State.reconcile (n : Nat) (v : Bool) (s : State) : State :=
  let was := s.level n
  let s := s.setFlag (Fd.PIN_STAT_LEVEL n) v
  if v = was then s else s.edgeRecord n s.instant v true

/-- BANK_SUPPLY_RETURN: `levels` are the present levels of the bank's pins. A bank that had not failed only shows its
supply good. -/
def execBankSupplyReturn (b : Fin 16) (levels : BitVec 16) (s : State) : Host.Outcome State Fault Refusal :=
  .next (
    let t := s.on (Fd.PB_BANK_STAT_VIO_OK b.val)
    if s.bankFailed b.val then
      let t : State := { t with field := { t.field with failed := t.field.failed.filter (· != b.val) } }
      (t.sysRec 0x006 b.val).forEach (List.range 16) fun k u => u.reconcile (16 * b.val + k) (levels.getLsbD k)
    else t)

/-- The first synchronised samples after a reset load every filtered level without an edge (R471). -/
def State.loadLevels (lines : BitVec 256) (s : State) : State :=
  s.forEach (List.range 256) fun n t => t.setFlag (Fd.PIN_STAT_LEVEL n) (lines.getLsbD n)

/-! ### Register writes (R171, R174, R177, R191) -/

/-- A write of PIN[n].CFG: FUNC = OUTPUT claims the pin for software, another FUNC releases it (R171, R172). -/
def State.pinCfg (n : Nat) (w : Word) (s : State) : Res :=
  if s.asleepOrLoading then refuse .wrongMode s
  else if bits w 0 2 = 3 then refuse .badRequest s
  else
    let keep := fun (t : State) => t.wr (Reg.PIN_CFG n) (w &&& 0xFE0007F3#32)
    if bits w 0 2 = 2 then
      match s.claim .software [n] with
      | (.ok, t) => (.ok, keep t)
      | r => r
    else (.ok, keep (s.release .software [n]))

/-- PIN_CFG_WRITE. -/
def execPinCfgWrite (n : Fin 256) (w : Word) (s : State) : Host.Outcome State Fault Refusal :=
  .next (s.command none fun t => t.pinCfg n.val w)

/-- A write of PIN[n].FILT: the run in progress restarts, no edge follows (R177). -/
def State.pinFilt (n : Nat) (w : Word) (s : State) : Res :=
  if s.asleepOrLoading then refuse .wrongMode s else (.ok, s.wr (Reg.PIN_FILT n) (w &&& 0x1FFFF#32))

/-- FILT_WRITE. -/
def execFiltWrite (n : Fin 256) (w : Word) (s : State) : Host.Outcome State Fault Refusal :=
  .next (s.command none fun t => t.pinFilt n.val w)

/-- A write through OUT or one of its aliases: `f` gives the new value of OUT (R174). -/
def State.outReg (b : Nat) (f : Word → Word) (s : State) : Res :=
  if s.asleepOrLoading then refuse .wrongMode s else (.ok, s.wr (Reg.PB_OUT b) (f (s.rd (Reg.PB_OUT b)) &&& 0xFFFF#32))

/-- OUT_WRITE. -/
def execOutWrite (b : Fin 16) (w : Word) (s : State) : Host.Outcome State Fault Refusal :=
  .next (s.command none fun t => t.outReg b.val fun _ => w)

/-- OUT_SET. -/
def execOutSet (b : Fin 16) (w : Word) (s : State) : Host.Outcome State Fault Refusal :=
  .next (s.command none fun t => t.outReg b.val fun v => v ||| w)

/-- OUT_CLR. -/
def execOutClr (b : Fin 16) (w : Word) (s : State) : Host.Outcome State Fault Refusal :=
  .next (s.command none fun t => t.outReg b.val fun v => v &&& ~~~w)

/-- OUT_TGL. -/
def execOutTgl (b : Fin 16) (w : Word) (s : State) : Host.Outcome State Fault Refusal :=
  .next (s.command none fun t => t.outReg b.val fun v => v ^^^ w)

/-- Writes in the FPIN block, by offset within it; none where the plain access codes apply in a mode that admits writes. -/
def State.fpinWrite (off : Nat) (w : Word) (s : State) : Option Res :=
  if s.asleepOrLoading then some (refuse .wrongMode s)
  else if off < 0x1000 then
    let b := off / 0x100
    match off % 0x100 with
    | 0x00 => some (if bits w 0 2 = 3 then refuse .badRequest s else (.ok, s.wr (Reg.PB_BANK_CFG b) (w &&& 3#32)))
    | 0x0C => some (s.outReg b fun _ => w)
    | 0x10 => some (s.outReg b fun v => v ||| w)
    | 0x14 => some (s.outReg b fun v => v &&& ~~~w)
    | 0x18 => some (s.outReg b fun v => v ^^^ w)
    | _ => none
  else if 0x8000 ≤ off ∧ off < 0x9000 then
    let n := (off - 0x8000) / 16
    if off % 16 = 0 then some (s.pinCfg n w) else if off % 16 = 4 then some (s.pinFilt n w) else none
  else none

/-- The synchronised sample of pin `n`: with COUNT 0 every sample is accepted; a filter may have a run in progress, so the sample of the
instant is a free value (log 3, R176). -/
def State.rawSample (s : State) (n : Nat) : Bool :=
  if s.fld (Fd.PIN_FILT_COUNT n) = 0 then s.level n else Config.sample n s.clk

/-- Derived FPIN values: IN, OWNED, OUT aliases, STAT.DRIVING and RAW, and IMAGE (R174, tables of chapter 07). -/
def State.fpinRead (s : State) (off : Nat) : Option Word :=
  let map := fun (n k : Nat) (f : Nat → Bool) => BitVec.ofNat 32 (leVal ((List.range (k / 8)).map fun i =>
    BitVec.ofNat 8 ((List.range 8).foldl (fun a j => a + if f (n + 8 * i + j) then 2 ^ j else 0) 0)))
  if off < 0x1000 then
    let b := off / 0x100
    match off % 0x100 with
    | 0x08 => some (map (16 * b) 16 s.level)
    | 0x10 => some (s.rd (Reg.PB_OUT b))
    | 0x14 => some (s.rd (Reg.PB_OUT b))
    | 0x1C => some (map (16 * b) 16 s.pinOwned)
    | _ => none
  else if 0x2000 ≤ off ∧ off < 0x2020 then some (map (8 * (off - 0x2000)) 32 s.level)
  else if 0x8000 ≤ off ∧ off < 0x9000 ∧ off % 16 = 8 then
    let n := (off - 0x8000) / 16
    some (putBits (putBits (s.rd (Reg.PIN_STAT n)) 1 1 (if (s.pinDrive n).isSome then 1 else 0)) 2 1 (if s.rawSample n then 1 else 0))
  else none

end Sys2Proof.Machine
end

