-- ==== Sys2Proof/Machine/Queue.lean ====
section
/-!
DEFINITION. The 40-bit queue macro (15 R389 to R392): the check on pop and the pop format.
-/

namespace Sys2Proof.Machine

/-- The check of a word on pop (15 R390): parity with poison in service, SECDED in Recovery and Load. -/
def State.popCheck (w : QWord) (s : State) : QWord × State :=
  if w.upset = 0 then (w, s)
  else if s.mode = .recovery ∨ s.mode = .load then
    if w.upset = 1 then ({ w with upset := 0 }, s.bump Reg.MEM_QCORR)
    else ({ w with upset := 0, poison := true }, s.bump Reg.MEM_QUE)
  else ({ w with upset := 0, poison := true }, s.bump Reg.MEM_QPERR)

/-- Errors in the word pushed last. -/
def spoilLast (g : Nat) (q : List QWord) : List QWord := q.dropLast ++ (q.getLast?.map fun w => { w with upset := g }).toList

/-- Errors in the word at the head. -/
def spoilHead (g : Nat) (q : List QWord) : List QWord := (q.head?.map fun w => { w with upset := g }).toList ++ q.tail

/-- The 64-bit pop value of a word (15 R389): data, VALID, POISON, LAST. -/
def QWord.popValue (w : QWord) : Nat :=
  w.data.toNat + 2 ^ 32 + (if w.poison then 2 ^ 33 else 0) + (if w.last then 2 ^ 34 else 0)

end Sys2Proof.Machine
end

