-- ==== Sys2Proof/Machine/Can.lean ====
section
/-!
DEFINITION. CAN FD controllers (09_can_fd_buses.md R221 to R244): enable and integration, the transmit queue, errors and
bus-off, filters and receive objects. Bits on the wire are ISO 11898-1's; their outcomes arrive as commands.
-/

namespace Sys2Proof.Machine

def State.can (s : State) (n : Nat) : CanState := Tab.get {} s.cans n
def State.setCan (n : Nat) (c : CanState) (s : State) : State := { s with cans := Tab.set {} s.cans n c }

def State.canState (s : State) (n : Nat) : Nat := s.fld (Fd.CAN_STAT_STATE n)
def State.tec (s : State) (n : Nat) : Nat := s.fld (Fd.CAN_ERR_CNT_TEC n)
def State.recCnt (s : State) (n : Nat) : Nat := s.fld (Fd.CAN_ERR_CNT_REC n)
/-- The head stands on the wire. -/
def State.canOnWire (s : State) (n : Nat) : Bool := s.flag (Fd.CAN_STAT_TX_ACTIVE n)
/-- Modes in which a controller stands on the bus (R242). -/
def State.canService (s : State) : Bool := (s.onRing || s.mode == .isolated || s.mode == .standby) && !s.boot.drowsy
/-- Listen-only: OPMODE 1, or Standby (R241, R242). -/
def State.canListens (s : State) (n : Nat) : Bool := s.fld (Fd.CAN_CTL_OPMODE n) == 1 || s.mode == .standby
def State.canLoops (s : State) (n : Nat) : Bool := s.fld (Fd.CAN_CTL_OPMODE n) == 2 && s.mode == .isolated

/-- The controller's reset is in progress (01 R24). -/
def State.canHeld (s : State) (n : Nat) : Bool := s.flag ⟨Reg.SYS_UNIT_RST_BUSY, 8 + n, 1⟩

/-- The head can take part in arbitration now, or is on the wire already (R223, R228, R232, R241, R242). -/
def State.canSends (s : State) (n : Nat) : Bool :=
  !s.canHeld n && (s.canState n == 1 || s.canState n == 2) && !(s.can n).integrating && !(s.can n).queue.isEmpty &&
    (s.canOnWire n || (s.flag (Fd.CAN_CTL_EN n) && s.canService && !s.canListens n))

/-- The controller takes part as a receiver of the bus (R223, R232, R241). -/
def State.canHears (s : State) (n : Nat) : Bool :=
  !s.canHeld n && s.canState n != 0 && !(s.can n).integrating && s.canService && !s.canLoops n && !s.canOnWire n

/-! ### Journal records (R240) -/

def State.canRec (n event arg : Nat) (i : Instant) (s : State) : State :=
  if s.journals then s.pushRec (320 + n) (i.record 3 n (event * 4096 + arg % 4096) false) else s

/-- The instant of a SOF that lies `age` ps back (R239). -/
def State.sofAt (s : State) (age : BitVec 40) : Instant := s.instantAt (s.clk - age.toNat)

/-- A record that JSTATE admits. -/
def State.canStateRec (n event arg : Nat) (i : Instant) (s : State) : State :=
  if s.flag (Fd.CAN_CTL_JSTATE n) then s.canRec n event arg i else s

/-! ### Entries (R226 to R228) -/

/-- Data length of a DLC (R226). -/
def dlcLen (fdf rtr : Bool) (dlc : Nat) : Nat :=
  if rtr then 0
  else if dlc ≤ 8 then dlc
  else if fdf then [12, 16, 20, 24, 32, 48, 64].getD (dlc - 9) 64
  else 8

/-- Word `i` of an entry. -/
def entryWord (e : List QWord) (i : Nat) : Word := (e.getD i { data := 0#32 }).data
def entryTag (e : List QWord) : Nat := bits (entryWord e 1) 8 8
def entryLen (w0 w1 : Word) : Nat := dlcLen (w0.getLsbD 31) (w0.getLsbD 30) (bits w1 0 4)

/-- Whether the bytes of a push form an entry (R226, R227). -/
def entryOk (b : List Byte) : Bool :=
  let w0 : Word := BitVec.ofNat 32 (leVal (b.take 4))
  let w1 : Word := BitVec.ofNat 32 (leVal ((b.drop 4).take 4))
  decide (8 ≤ b.length) && b.length == 8 + 4 * ((entryLen w0 w1 + 3) / 4) &&
    !(!w0.getLsbD 29 && decide (0x7FF < bits w0 0 29)) && !(w0.getLsbD 30 && w0.getLsbD 31) &&
    !(w1.getLsbD 4 && !w0.getLsbD 31) && bits w1 16 16 == 0 && bits w1 5 3 == 0

/-- The queue words of an entry: KIND marks the first, LAST the last (15 R389). -/
def entryOf (b : List Byte) : List QWord :=
  (List.range (b.length / 4)).map fun i =>
    { data := BitVec.ofNat 32 (leVal ((b.drop (4 * i)).take 4)), first := i == 0, last := i + 1 == b.length / 4 }

/-- Discard poisoned entries that become head; the words of a new head are checked (R228, 15 R390). -/
def State.settleHead (n : Nat) : List (List QWord) → State → State
  | [], s => s.setCan n { s.can n with queue := [] }
  | e :: q, s =>
    let r := e.foldl (fun (a : Bool × State) w => let p := State.popCheck w a.2; (a.1 || p.1.poison, p.2)) (false, s)
    if r.1 then State.settleHead n q ((r.2.bump (Reg.CAN_TX_POISON n)).canStateRec n 0xA 0 s.instant)
    else r.2.setCan n { r.2.can n with queue := e :: q }

/-- The head leaves: the next entry becomes head, CLASH_RUN and ABORT_PEND clear. -/
def State.dropHead (n : Nat) (s : State) : State :=
  let s := ((s.off (Fd.CAN_STAT_TX_ACTIVE n)).off (Fd.CAN_STAT_ABORT_PEND n)).off (Fd.CAN_CLASH_RUN_RUN n)
  s.settleHead n ((s.can n).queue.drop 1)

/-- Remove the head for ABORT_HEAD (R229). -/
def State.abortNow (n : Nat) (s : State) : State :=
  match (s.can n).queue with
  | [] => s
  | e :: _ => ((s.bump (Reg.CAN_ABORT_CNT n)).canStateRec n 0x7 (entryTag e) s.instant).dropHead n

/-- An attempt of the head ended without success: it is removed when an abort is pending, else retried (R229). -/
def State.endAttempt (n : Nat) (s : State) : State :=
  let s := s.off (Fd.CAN_STAT_TX_ACTIVE n)
  if s.flag (Fd.CAN_STAT_ABORT_PEND n) then s.abortNow n else s

/-- A push of one entry (R226, R227, R242). -/
def State.canPush (n : Nat) (b : List Byte) (s : State) : Res :=
  if s.asleepOrLoading || s.mode == .standby || s.mode == .passThrough then refuse .wrongMode s
  else if !entryOk b then refuse .badRequest s
  else
    let q := (s.can n).queue
    if 32 ≤ q.length then refuse .busy ((s.on (Fd.CAN_STAT_TX_OVF n)).bump (Reg.CAN_TX_OVF_CNT n))
    else
      (.ok, (s.setCan n { s.can n with queue := q ++ [entryOf b] }).peak (Fd.CAN_QPEAK_PEAK n) (q.length + 1))

/-- Errors in the stored words of the entry pushed last: an entry that is head is checked at once. -/
def State.spoilEntry (n : Nat) (ups : List (Fin 3)) (s : State) : State :=
  let q := (s.can n).queue
  let e := q.getLast?.map fun e => (List.range e.length).map fun i => { e.getD i { data := 0#32 } with upset := (ups.getD i 0).val }
  if q.length = 1 then s.settleHead n e.toList else s.setCan n { s.can n with queue := q.dropLast ++ e.toList }

/-- TX_PUSH. With `ups` stored words of the entry fail their checks. -/
def execTxPush (n : Fin 8) (bytes : List Byte) (ups : List (Fin 3)) (s : State) : Host.Outcome State Fault Refusal :=
  .next (s.command (some (.can n)) fun t =>
    match t.canPush n.val bytes with
    | (.ok, u) => (.ok, u.onlyIf (ups.any (· != 0)) (State.spoilEntry n.val ups))
    | r => r)

/-- CMD.ABORT_HEAD (R229, R242). -/
def State.canAbort (n : Nat) (s : State) : Res :=
  if s.asleepOrLoading || s.mode == .standby || s.mode == .passThrough then refuse .wrongMode s
  else if s.flag (Fd.CAN_STAT_ABORT_PEND n) then (.ok, s)
  else if s.canOnWire n then (.ok, s.on (Fd.CAN_STAT_ABORT_PEND n))
  else (.ok, s.abortNow n)

/-- ABORT_HEAD. -/
def execAbortHead (n : Fin 8) (s : State) : Host.Outcome State Fault Refusal :=
  .next (s.command (some (.can n)) fun t => t.canAbort n.val)

/-- A bus idle: every controller that can send offers its head. The model takes it at a TICK (R228). -/
def State.canOffer (s : State) : State :=
  s.forEach (List.range 8) fun n t =>
    if t.canSends n && (t.can n).rx.isNone then t.on (Fd.CAN_STAT_TX_ACTIVE n) else t

/-! ### Error counters and states (R231, R232) -/

/-- Load the counters and derive STATE, with the records of its changes. -/
def State.setErr (n tec rec_ : Nat) (s : State) : State :=
  let was := s.canState n
  let s := (s.setFld (Fd.CAN_ERR_CNT_TEC n) (min tec 511)).setFld (Fd.CAN_ERR_CNT_REC n) (min rec_ 511)
  let now := if 255 < tec then 3 else if 127 < tec ∨ 127 < rec_ then 2 else 1
  let s := s.setFld (Fd.CAN_STAT_STATE n) now
  if was = now then s
  else if now = 3 then
    ((s.off (Fd.CAN_STAT_TX_ACTIVE n)).bump (Reg.CAN_BUSOFF_CNT n)).canStateRec n 0x3 (s.can n).queue.length s.instant
  else if now = 2 then s.canStateRec n 0x1 tec s.instant
  else if was = 2 then s.canStateRec n 0x2 0 s.instant
  else s

/-- BUS_OFF_RECOVERY. -/
def execBusOffRecovery (n : Fin 8) (s : State) : Host.Outcome State Fault Refusal :=
  .next (if s.canState n.val = 3 ∧ s.canService = true then
      (s.setErr n.val 0 0).canStateRec n.val 0x4 (s.can n.val).queue.length s.instant
    else s)

/-- REC after a valid reception: 1 less, or in 119 to 127 when it stood above 127 (ISO 11898-1, which leaves the value
open in that range). -/
def State.recOk (n : Nat) (s : State) : State :=
  if s.canListens n || s.canState n == 3 then s
  else if s.recCnt n ≤ 127 then s.setErr n (s.tec n) (s.recCnt n - 1)
  else
    let (k, s) := s.useFree
    s.setErr n (s.tec n) (119 + (Config.freeWord k).toNat % 9)

/-! ### Attempts of the head (R225, R228 to R231) -/

/-- The delay measurement of an FD attempt (R225). -/
def State.measureDelay (n : Nat) (d : CanDelay) (s : State) : State :=
  match (s.can n).queue with
  | [] => s
  | e :: _ =>
    if s.flag (Fd.CAN_CTL_TDC_EN n) && decide (s.fld (Fd.CAN_DBT_DBRP n) ≤ 1) && (entryWord e 0).getLsbD 31 then
      match d with
      | .unmeasured => s
      | .edge v => s.setFld (Fd.CAN_TDC_CFG_TDCV n) v.toNat
      | .noEdge => s.on (Fd.CAN_STAT_TDC_ERR n)
    else s

/-! ### Receiving (R233 to R239) -/

def objAddr (n k : Nat) : Nat := 0x3100100000 + 0x10000 * n + 80 * k
def filterAddr (n k : Nat) : Nat := 0x3100200000 + 0x1000 * n + 8 * k
def State.word32 (s : State) (a : Nat) : Word := BitVec.ofNat 32 (leVal (s.readBytes a 4))

/-- Whether filter `k` matches an identifier (R233, R234). -/
def State.filterMatches (s : State) (n : Nat) (ide : Bool) (id : Nat) (k : Nat) : Bool :=
  let w0 := s.word32 (filterAddr n k)
  let m := bits (s.word32 (filterAddr n k + 4)) 0 29
  let w := if ide then 29 else 11
  w0.getLsbD 31 && w0.getLsbD 29 == ide &&
    !(s.flag (Fd.CAN_CTL_CATCH_EN n) && k == s.fld (Fd.CAN_CTL_CATCH_OBJ n)) &&
    (if w0.getLsbD 30 then ((bits w0 0 29 ^^^ id) &&& m) % 2 ^ w == 0 else bits w0 0 29 == id)

/-- The object that a frame with this identifier will be stored in (R234, R235). -/
def State.matchObject (s : State) (n : Nat) (ide : Bool) (id : BitVec 29) : CanRx :=
  let i := if ide then id.toNat else id.toNat % 2048
  match (List.range 512).find? (s.filterMatches n ide i) with
  | some k => ⟨ide, BitVec.ofNat 29 i, some k, false, (s.word32 (filterAddr n k + 4)).getLsbD 29⟩
  | none =>
    if s.flag (Fd.CAN_CTL_CATCH_EN n) then ⟨ide, BitVec.ofNat 29 i, some (s.fld (Fd.CAN_CTL_CATCH_OBJ n)), true, false⟩
    else ⟨ide, BitVec.ofNat 29 i, none, false, false⟩

/-- The identifier is complete: the frame is matched, or counted as discarded. -/
def State.idComplete (n : Nat) (ide : Bool) (id : BitVec 29) (s : State) : State :=
  let r := s.matchObject n ide id
  let s := s.setCan n { s.can n with rx := some r }
  if r.obj.isNone then s.bump (Reg.CAN_RX_UNMATCHED n) else s

/-- CAN_ID_COMPLETE. -/
def execCanIdComplete (n : Fin 8) (ide : Bool) (id : BitVec 29) (s : State) : Host.Outcome State Fault Refusal :=
  .next (if s.canHears n.val then s.idComplete n.val ide id else s)

def State.objNew (s : State) (n k : Nat) : Bool := s.flag ⟨Reg.CAN_OBJ_NEW n (k / 32), k % 32, 1⟩

/-- Write object `k` (R236, R237). -/
def State.storeObject (n k : Nat) (r : CanRx) (f : CanFrame) (sof : Instant) (s : State) : State :=
  let a := objAddr n k
  let len := dlcLen f.fdf f.rtr f.dlc.toNat
  let lost := s.objNew n k
  let gen := ((s.byte (a + 6)).toNat + 1) % 256
  let b := fun (c : Bool) (i : Nat) => if c then 2 ^ i else 0
  let w0 := b f.fdf 31 + b f.rtr 30 + b r.ide 29 + r.id.toNat
  let w1 := b r.catchAll 24 + gen * 2 ^ 16 + len * 2 ^ 8 + b lost 6 + b f.esi 5 + b f.brs 4 + f.dlc.toNat
  let data := (List.range 64).map fun i => if i < len then f.data.getD i 0#8 else 0#8
  let s := s.writeBytes a (leBytes 4 w0 ++ leBytes 4 w1 ++ leBytes 8 (sof.ctr / 2 ^ 32) ++ data)
  let s := (s.on ⟨Reg.CAN_OBJ_NEW n (k / 32), k % 32, 1⟩).bump (Reg.CAN_RX_OK n)
  let s := if lost then s.bump (Reg.CAN_RX_OVERWRITE n) else s
  let s := if r.catchAll then s.bump (Reg.CAN_RX_CATCH n) else s
  if r.jrn then s.canRec n 0x9 k sof else s

/-- A matched frame became valid for receivers; a frame without an object is gone. -/
def State.frameValid (n : Nat) (f : CanFrame) (sof : Instant) (s : State) : State :=
  match (s.can n).rx with
  | none => s
  | some r =>
    let s := s.setCan n { s.can n with rx := none }
    match r.obj with
    | some k => s.storeObject n k r f sof
    | none => s

/-- CAN_FRAME_STORED. -/
def execCanFrameStored (n : Fin 8) (f : CanFrame) (age : BitVec 40) (s : State) : Host.Outcome State Fault Refusal :=
  .next (if s.canState n.val ≠ 0 ∧ (s.can n.val).rx.isSome = true then (s.frameValid n.val f (s.sofAt age)).recOk n.val else s)

/-- `k` further increments of 8 within one error frame, each judged by itself; bus-off ends them (R231). -/
def State.pile (n : Nat) (tx : Bool) : Nat → State → State
  | 0, s => s
  | k + 1, s =>
    if s.canState n == 3 then s
    else State.pile n tx k (s.setErr n (s.tec n + if tx then 8 else 0) (s.recCnt n + if tx then 0 else 8))

/-- CAN_RX_ERROR: in listen-only and in bus-off no flag is sent and nothing counts (R231, R241). -/
def execCanRxError (n : Fin 8) (e : CanRxErrFrame) (s : State) : Host.Outcome State Fault Refusal :=
  .next (if s.canHears n.val then
      let t := s.setCan n.val { s.can n.val with rx := none }
      if s.canListens n.val || s.canState n.val == 3 then t
      else
        let t := t.bump (Reg.CAN_ERR_TX n.val)
        (t.setErr n.val (t.tec n.val) (t.recCnt n.val + if e.heavy then 8 else 1)).pile n.val false e.more.toNat
    else s)

/-- PROTOCOL_EXCEPTION (R222). -/
def execProtocolException (n : Fin 8) (s : State) : Host.Outcome State Fault Refusal :=
  .next (if s.canHears n.val then
      (s.bump (Reg.CAN_PEX_CNT n.val)).setCan n.val { s.can n.val with rx := none, integrating := true }
    else s)

/-- The head's frame as it stands on the bus; an FD frame's ESI is the controller's own error state (R228). -/
def State.ownFrame (s : State) (n : Nat) (e : List QWord) : CanFrame :=
  let w0 := entryWord e 0
  let w1 := entryWord e 1
  { fdf := w0.getLsbD 31, rtr := w0.getLsbD 30, brs := w1.getLsbD 4, esi := w0.getLsbD 31 && s.canState n == 2,
    dlc := BitVec.ofNat 4 (bits w1 0 4), data := ((e.drop 2).flatMap fun w => leBytes 4 w.data.toNat).take (entryLen w0 w1) }

/-- FRAME_SENT (R228, R229, R231, R240): in internal loopback CAN_TXD stays recessive and the controller receives its own
frame (R241). -/
def State.frameSent (n : Nat) (sof : Instant) (tdc : Option (BitVec 8)) (s : State) : State :=
  match (s.can n).queue with
  | [] => s
  | e :: _ =>
    let w0 := entryWord e 0
    let f := s.ownFrame n e
    let s := s.measureDelay n ((tdc.map CanDelay.edge).getD .noEdge)
    let s := if s.canLoops n then
        ((s.idComplete n (w0.getLsbD 29) (w0.setWidth 29)).frameValid n f sof).recOk n
      else s.emit (.can n (w0.getLsbD 29) (w0.setWidth 29) f)
    let s := s.bump (Reg.CAN_TX_OK n)
    let s := if s.flag (Fd.CAN_CTL_JTX n) then s.canRec n 0x8 (entryTag e) sof else s
    (s.setErr n (s.tec n - 1) (s.recCnt n)).dropHead n

/-- FRAME_SENT. -/
def execFrameSent (n : Fin 8) (age : BitVec 40) (tdc : Option (BitVec 8)) (s : State) : Host.Outcome State Fault Refusal :=
  .next (if s.canSends n.val then s.frameSent n.val (s.sofAt age) tdc else s)

/-- ARBITRATION_LOST (R228, R229, R230). -/
def execArbitrationLost (n : Fin 8) (s : State) : Host.Outcome State Fault Refusal :=
  .next (if s.canSends n.val then (s.off (Fd.CAN_CLASH_RUN_RUN n.val)).endAttempt n.val else s)

/-- The clash part of a transmit error (R230): the head is dropped when CLASH_RUN reaches CLASH_MAX. -/
def State.clash (n : Nat) (sof : Instant) (s : State) : State :=
  let run := min (s.fld (Fd.CAN_CLASH_RUN_RUN n) + 1) 15
  let s := ((s.on (Fd.CAN_STAT_ID_CLASH n)).bump (Reg.CAN_CLASH_CNT n)).setFld (Fd.CAN_CLASH_RUN_RUN n) run
  let s := s.canStateRec n 0x5 run sof
  if s.fld (Fd.CAN_CTL_CLASH_MAX n) = run then
    let tag := entryTag ((s.can n).queue.getD 0 [])
    ((s.bump (Reg.CAN_CLASH_DROP n)).canStateRec n 0x6 tag sof).dropHead n
  else s

/-- TX_ERROR (R229 to R232). -/
def State.txError (n : Nat) (sof : Instant) (e : CanTxErr) (d : CanDelay) (more : Nat) (s : State) : State :=
  let s := (s.measureDelay n d).bump (Reg.CAN_ERR_TX n)
  let s := if e = .clash then s.clash n sof else s.off (Fd.CAN_CLASH_RUN_RUN n)
  let s := s.endAttempt n
  (s.setErr n (if e = .exempt then s.tec n else s.tec n + 8) (s.recCnt n)).pile n true more

/-- TX_ERROR. -/
def execTxError (n : Fin 8) (age : BitVec 40) (e : CanTxErrFrame) (tdc : CanDelay) (s : State) :
    Host.Outcome State Fault Refusal :=
  .next (if s.canSends n.val then s.txError n.val (s.sofAt age) e.err tdc e.more.toNat else s)

/-! ### Enable, integration, off (R223, R242) -/

/-- The controller begins to wait for 11 recessive bits. -/
def State.integrate (n : Nat) (s : State) : State := s.setCan n { s.can n with integrating := true, rx := none }

/-- Off the bus; `clear` also clears the counters (R223), which Pass-through and Drowse keep (R242). -/
def State.canGoOff (n : Nat) (clear : Bool) (s : State) : State :=
  let s := if s.canOnWire n then s.off (Fd.CAN_CLASH_RUN_RUN n) else s
  let s := ((s.setFld (Fd.CAN_STAT_STATE n) 0).off (Fd.CAN_STAT_TX_ACTIVE n)).setCan n
    { s.can n with integrating := false, rx := none }
  let s := if s.flag (Fd.CAN_STAT_ABORT_PEND n) then s.abortNow n else s
  if clear then s.wr (Reg.CAN_ERR_CNT n) 0#32 else s

/-- CAN_INTEGRATION: TEC and REC stand at 0 after an off, and are kept over Drowse and a protocol exception. -/
def execCanIntegration (n : Fin 8) (s : State) : Host.Outcome State Fault Refusal :=
  .next (if (s.can n.val).integrating = true ∧ s.canService = true then
      (s.setCan n.val { s.can n.val with integrating := false }).setErr n.val (s.tec n.val) (s.recCnt n.val)
    else s)

/-- CAN_OFF: at the end of the frame in progress, after EN = 0 or in Pass-through and Drowse. -/
def execCanOff (n : Fin 8) (s : State) : Host.Outcome State Fault Refusal :=
  .next (if s.flag (Fd.CAN_CTL_EN n.val) = false then s.canGoOff n.val true
    else if s.canService then s
    else s.canGoOff n.val false)

/-- Every enabled controller that is off begins to integrate: entry to service (R242). -/
def State.canEnter (s : State) : State :=
  s.forEach (List.range 8) fun n t => if t.flag (Fd.CAN_CTL_EN n) && t.canState n == 0 then t.integrate n else t

/-- A write of CTL (R223, R241, R243). -/
def State.canCtl (n : Nat) (w : Word) (s : State) : Res :=
  let v := w &&& 0x01FF0F7F#32
  let en := s.flag (Fd.CAN_CTL_EN n)
  if s.asleepOrLoading then refuse .wrongMode s
  else if bits w 1 2 = 3 then refuse .badRequest s
  else if (bits w 1 2 == 2 && s.mode != .isolated) ||
      (en && (v ^^^ s.rd (Reg.CAN_CTL n)) &&& 0x01FF004E#32 != 0#32) then refuse .wrongMode s
  else
    let s := s.wr (Reg.CAN_CTL n) v
    if bits w 0 1 = 1 ∧ en = false then (.ok, (s.canGoOff n true).integrate n) else (.ok, s)

/-- CAN_ENABLE: the CTL write with EN = 1. -/
def execCanEnable (n : Fin 8) (w : Word) (s : State) : Host.Outcome State Fault Refusal :=
  .next (s.command (some (.can n)) fun t => t.canCtl n.val (w ||| 1#32))
/-- CAN_DISABLE: the CTL write with EN = 0; the controller goes off at CAN_OFF. -/
def execCanDisable (n : Fin 8) (w : Word) (s : State) : Host.Outcome State Fault Refusal :=
  .next (s.command (some (.can n)) fun t => t.canCtl n.val (w &&& ~~~1#32))

/-! ### Tables and registers (R233, R237, R243) -/

/-- Whether a filter entry is acceptable (R233). -/
def filterOk (w0 w1 : Word) : Bool := (w0.getLsbD 29 || bits w0 11 18 == 0) && bits w1 30 2 == 0

/-- A write into the filters of controller `n` at byte offset `off`: every touched entry is judged as it results. -/
def State.filterWrite (n off : Nat) (b : List Byte) (s : State) : Res :=
  if s.asleepOrLoading then refuse .wrongMode s
  else if off % 4 ≠ 0 ∨ b.length % 4 ≠ 0 ∨ b = [] ∨ 0x1000 < off + b.length then refuse .badRequest s
  else
    (s.entryWrite (filterAddr n 0) 8 off b id fun e =>
      filterOk (BitVec.ofNat 32 (leVal (e.take 4))) (BitVec.ofNat 32 (leVal (e.drop 4)))).2

/-- FILTER_WRITE: one whole entry. -/
def execFilterWrite (n : Fin 8) (k : Fin 512) (v : BitVec 64) (s : State) : Host.Outcome State Fault Refusal :=
  .next (s.command (some (.can n)) fun t => t.filterWrite n.val (8 * k.val) (leBytes 8 v.toNat))

/-- NEW clears as a READ of the whole object completes (R237). -/
def State.clearNew (n k : Nat) (s : State) : State := s.off ⟨Reg.CAN_OBJ_NEW n (k / 32), k % 32, 1⟩

/-- OBJECT_READ. -/
def execObjectRead (n : Fin 8) (k : Fin 512) (s : State) : Host.Outcome State Fault Refusal :=
  .next (s.query (some (.can n)) fun t => (.ok, t.readBytes (objAddr n.val k.val) 80, t.clearNew n.val k.val))

/-- Nominal timing within limits (R224). -/
def nbtOk (w : Word) : Bool :=
  decide (1 ≤ bits w 8 8) && decide (1 ≤ bits w 16 7) && decide (bits w 24 7 ≤ bits w 16 7) &&
    decide (195312500 ≤ 1000000 * ((bits w 0 5 + 1) * (3 + bits w 8 8 + bits w 16 7)))

/-- Data timing within limits (R224). -/
def dbtOk (w : Word) : Bool :=
  decide (bits w 24 4 ≤ bits w 16 4) &&
    decide (195312500 ≤ 8000000 * ((bits w 0 5 + 1) * (3 + bits w 8 5 + bits w 16 4)))

/-- A register that may be written only while EN = 0; an unchanged value passes (R243). -/
def State.canTiming (n reg : Nat) (v : Word) (ok : Bool) (s : State) : Res :=
  if s.flag (Fd.CAN_CTL_EN n) = true ∧ v ≠ s.rd reg then refuse .wrongMode s
  else if !ok then refuse .badRequest s
  else (.ok, s.wr reg v)

/-- Writes in the CAN block, by offset within it. -/
def State.canWrite (off : Nat) (w : Word) (s : State) : Option Res :=
  let n := off / 0x1000
  if s.asleepOrLoading then some (refuse .wrongMode s)
  else
    match off % 0x1000 with
    | 0x000 => some (s.canCtl n w)
    | 0x004 => some (if bits w 0 1 = 1 then s.canAbort n else (.ok, s))
    | 0x010 => some (s.canTiming n (Reg.CAN_NBT n) (w &&& 0x7F7FFF1F#32) (nbtOk w))
    | 0x014 => some (s.canTiming n (Reg.CAN_DBT n) (w &&& 0x0F0F1F1F#32) (dbtOk w))
    | 0x018 => some (s.canTiming n (Reg.CAN_TDC_CFG n)
        (putBits (s.rd (Reg.CAN_TDC_CFG n)) 0 7 (bits w 0 7)) (decide (bits w 0 16 ≤ 127)))
    | o => if 0x040 ≤ o ∧ o < 0x088 then some (refuse .badRequest s) else none

/-- Derived CAN values: STAT.TXQ_COUNT. -/
def State.canRead (s : State) (off : Nat) : Option Word :=
  let n := off / 0x1000
  if off % 0x1000 = 0x008 then some (putBits (s.rd (Reg.CAN_STAT n)) 8 6 (s.can n).queue.length)
  else if 0x040 ≤ off % 0x1000 ∧ off % 0x1000 < 0x088 then some 0#32
  else none

/-- Empty one transmit queue: no head is left, nor a run of its clashes (R230). -/
def State.emptyCan (n : Nat) (s : State) : State :=
  (s.setCan n { s.can n with queue := [] }).off (Fd.CAN_CLASH_RUN_RUN n)

/-- Empty every transmit queue (15 R390). -/
def State.emptyCanQueues (s : State) : State :=
  s.forEach (s.cans.map fun e => e.1) State.emptyCan

end Sys2Proof.Machine
end

