-- ==== Sys2Proof/Machine/Bobbin.lean ====
section
/-!
DEFINITION. Bobbin engines (08_bobbin_engines.md R193 to R220): one BOBCLK cycle, commands, queues, slots, prickings.
A command of an ACT row is one BOBCLK cycle of a running bobbin whose addressed row carries that action; a bobbin that
is stopped, or whose row carries another action, is left as it is.
-/

namespace Sys2Proof.Machine

def State.bob (s : State) (n : Nat) : BobState := Tab.get {} s.bobs n
def State.setBob (n : Nat) (b : BobState) (s : State) : State := { s with bobs := Tab.set {} s.bobs n b }

/-- RUN: 0 STOPPED, 1 RUNNING, 2 STALLED. -/
def State.bobRun (s : State) (n : Nat) : Nat := s.fld (Fd.BOB_STAT_RUN n)
def State.bobLent (s : State) (n : Nat) : Bool := s.flag (Fd.BOB_STAT_LENT n)
/-- Words that each queue of bobbin `n` holds (R206). -/
def State.bobDepth (s : State) (n : Nat) : Nat := 4 * 2 ^ s.fld (Fd.BOB_QCFG_JOIN n)
/-- FP index of the pin that slot `k` names (R193). -/
def State.slotPin (s : State) (n k : Nat) : Nat := n / 16 * 64 + s.fld (Fd.BOB_SLOT_PIN n k)
def State.slotDrives (s : State) (n k : Nat) : Bool :=
  decide (k < 6) && s.flag (Fd.BOB_SLOT_EN n k) && s.flag (Fd.BOB_SLOT_DRIVE n k)
/-- The level of slot `k` after INV; a slot with EN = 0 reads 0 (R195, R201). -/
def State.slotLevel (s : State) (n k : Nat) : Bool :=
  s.flag (Fd.BOB_SLOT_EN n k) && (s.level (s.slotPin n k) != s.flag (Fd.BOB_SLOT_INV n k))

/-! ### Conditions and rows (R197 to R202) -/

/-- The condition that a selector names (R201, R202). -/
def State.condition (s : State) (n sel : Nat) : Bool :=
  if sel < 8 then s.slotLevel n sel
  else
    match sel with
    | 0x8 => s.fld (Fd.BOB_CNT_VAL_C0 n) == 0
    | 0x9 => s.fld (Fd.BOB_CNT_VAL_C1 n) == 0
    | 0xA => s.fld (Fd.BOB_EXEC_BITCNT n) == 0
    | 0xB => (s.bob n).tx.isEmpty
    | 0xC => decide (s.bobDepth n ≤ (s.bob n).rx.length)
    | 0xD =>
      let c := s.rd (Reg.BOBG_SYNC_CFG (n / 16))
      if bits c 8 1 = 1 then s.level (n / 16 * 64 + bits c 0 6) else (s.bob n).sync
    | 0xE => s.flag (Fd.PIC_PIC_STAT_LEVEL (s.fld (Fd.BOB_CFG_PICOT_SEL n)))
    | _ => false

/-- The five condition bits under the map in use. -/
def State.conditions (s : State) (n : Nat) : Nat :=
  let map := if s.flag (Fd.BOB_STAT_MAP n) then s.rd (Reg.BOB_IMAP1 n) else s.rd (Reg.BOB_IMAP0 n)
  (List.range 5).foldl (fun a i => a + if s.condition n (bits map (4 * i) 4) then 2 ^ i else 0) 0

/-- Address of the row that the next cycle executes: the held row, else state and conditions (R200, R211). -/
def State.nextRow (s : State) (n : Nat) : Nat :=
  if s.bobRun n = 2 ∨ (s.bob n).held = true then s.fld (Fd.BOB_EXEC_ROW n)
  else s.fld (Fd.BOB_STAT_STATE n) * 32 + s.conditions n

/-- Local address of row `a` of bobbin `n` (R197). -/
def rowAddr (n a : Nat) : Nat := 0x3100000000 + 0x1000 * n + 4 * a
def State.rowWord (s : State) (n a : Nat) : Nat := leVal (s.readBytes (rowAddr n a) 4)

/-! ### Stops (R217, R218) -/

/-- The enabled pending interrupts of bobbins 0 to 31, or of 32 to 63 (R218). -/
def State.bobIrqs (hi : Bool) (s : State) : Word :=
  if hi then s.rd Reg.BOBG_IRQ_PEND_HI &&& s.rd Reg.BOBG_IRQ_EN_CP_HI
  else s.rd Reg.BOBG_IRQ_PEND_LO &&& s.rd Reg.BOBG_IRQ_EN_CP_LO

/-- Set the bobbin's pending interrupt; an enabled one interrupts the control processor (R218). -/
def State.bobIrq (n : Nat) (s : State) : State :=
  (s.on ⟨if n < 32 then Reg.BOBG_IRQ_PEND_LO else Reg.BOBG_IRQ_PEND_HI, n % 32, 1⟩).irqRise 0x80000
    (State.bobIrqs (decide (32 ≤ n))) s

/-- A write of IRQ_EN_CP_LO or _HI: a bit that is pending already interrupts as it is enabled (R218). -/
def State.bobIrqEnable (hi : Bool) (w : Word) (s : State) : Res :=
  (.ok, (s.wr (if hi then Reg.BOBG_IRQ_EN_CP_HI else Reg.BOBG_IRQ_EN_CP_LO) w).irqRise 0x80000 (State.bobIrqs hi) s)

/-- A journal record of bobbin `n` (R216, R217). -/
def State.bobRec (n detail : Nat) (level : Bool) (s : State) : State :=
  if s.flag (Fd.BOB_CFG_JEVT n) && s.journals then s.pushRec (256 + n) (s.record 1 n detail level) else s

/-- Stop with a cause; `held` keeps the row at EXEC.ROW for RESUME. -/
def State.stopBob (n cause : Nat) (held : Bool) (s : State) : State :=
  let stalled := s.bobRun n = 2
  let s := (s.setFld (Fd.BOB_STAT_RUN n) 0).setFld (Fd.BOB_STAT_STOP_CAUSE n) cause
  let s := s.setBob n { s.bob n with held := held, sync := false }
  let s := s.bobRec n (s.fld (Fd.BOB_STAT_STATE n) * 2048 + (if stalled then 1024 else 0) + cause) true
  if cause = 3 ∨ cause = 4 then s.bobIrq n else s

/-! ### Actions (R199, R203, R204) -/

def State.bobBits (s : State) (n : Nat) : Nat := s.fld (Fd.BOB_SHIFT_CFG_BITS n)
def State.loadBits (n : Nat) (s : State) : State := s.setFld (Fd.BOB_EXEC_BITCNT n) (s.bobBits n)

/-- CLOADk: counter and prescaler take their reload values. -/
def State.cload (n k : Nat) (s : State) : State :=
  if k = 0 then
    let s := s.setFld (Fd.BOB_CNT_VAL_C0 n) (s.fld (Fd.BOB_CNT_CFG0_RELOAD n))
    s.setBob n { s.bob n with p0 := s.fld (Fd.BOB_CNT_CFG0_PRE n) }
  else
    let s := s.setFld (Fd.BOB_CNT_VAL_C1 n) (s.fld (Fd.BOB_CNT_CFG1_RELOAD n))
    s.setBob n { s.bob n with p1 := s.fld (Fd.BOB_CNT_CFG1_PRE n) }

/-- CDECk (R204): at 0 it does nothing. -/
def State.cdec (n k : Nat) (s : State) : State :=
  let b := s.bob n
  if k = 0 then
    let c := s.fld (Fd.BOB_CNT_VAL_C0 n)
    if c = 0 then s
    else if 0 < b.p0 then s.setBob n { b with p0 := b.p0 - 1 }
    else (s.setFld (Fd.BOB_CNT_VAL_C0 n) (c - 1)).setBob n { b with p0 := s.fld (Fd.BOB_CNT_CFG0_PRE n) }
  else
    let c := s.fld (Fd.BOB_CNT_VAL_C1 n)
    if c = 0 then s
    else if 0 < b.p1 then s.setBob n { b with p1 := b.p1 - 1 }
    else (s.setFld (Fd.BOB_CNT_VAL_C1 n) (c - 1)).setBob n { b with p1 := s.fld (Fd.BOB_CNT_CFG1_PRE n) }

/-- One shift (R203): the input bit enters, the bit counter goes down, not below 0. -/
def State.shift (n : Nat) (input : Bool) (s : State) : State :=
  let sr := s.rd (Reg.BOB_SR n)
  let v := if s.flag (Fd.BOB_SHIFT_CFG_DIR n)
    then (sr <<< 1) ||| (if input then 1#32 else 0#32)
    else (sr >>> 1) ||| (if input then 0x80000000#32 else 0#32)
  (s.wr (Reg.BOB_SR n) v).setFld (Fd.BOB_EXEC_BITCNT n) (s.fld (Fd.BOB_EXEC_BITCNT n) - 1)

/-- The bit that SHOUT and SHIO put out. -/
def State.outBit (s : State) (n : Nat) : Bool :=
  if s.flag (Fd.BOB_SHIFT_CFG_DIR n) then (s.rd (Reg.BOB_SR n)).getLsbD 31 else (s.rd (Reg.BOB_SR n)).getLsbD 0

def State.inBit (s : State) (n : Nat) : Bool := s.slotLevel n (s.fld (Fd.BOB_SHIFT_CFG_IN_SLOT n))

/-- The word that PULL loads (R203). -/
def State.pullValue (s : State) (n : Nat) (w : Word) : Word :=
  if s.flag (Fd.BOB_SHIFT_CFG_DIR n) then w <<< (32 - s.bobBits n) else w

/-- The word that PUSH delivers, right-aligned (R203). -/
def State.pushValue (s : State) (n : Nat) : Word :=
  let sr := s.rd (Reg.BOB_SR n)
  if s.flag (Fd.BOB_SHIFT_CFG_DIR n) then BitVec.ofNat 32 (sr.toNat % 2 ^ s.bobBits n) else sr >>> (32 - s.bobBits n)

/-- The effect of an action that completes; `evt` is LAST of a PUSH (R207). PULL's word is taken beforehand. -/
def State.act (n a : Nat) (evt : Bool) (s : State) : State :=
  match a with
  | 0x1 => s.shift n (s.inBit n)
  | 0x2 => s.shift n false
  | 0x3 => s.shift n (s.inBit n)
  | 0x5 =>
    let w := s.pushValue n
    let b := s.bob n
    let s := s.setBob n { b with rx := b.rx ++ [{ data := w, last := evt }] }
    let s := s.peak (Fd.BOB_QPEAK_RX_PEAK n) (b.rx.length + 1)
    ((s.wr (Reg.BOB_RX_LAST n) w).wr (Reg.BOB_SR n) 0#32).loadBits n
  | 0x6 => s.cload n 0
  | 0x7 => s.cdec n 0
  | 0x8 => s.cload n 1
  | 0x9 => s.cdec n 1
  | 0xA => (s.wr (Reg.BOB_SR n) 0#32).loadBits n
  | 0xB => s.bobIrq n
  | 0xC => (s.cload n 0).cload n 1
  | 0xD => (s.cdec n 0).cdec n 1
  | 0xE => s.wr (Reg.BOB_SR n) (s.rd (Reg.BOB_CNT_VAL n))
  | _ => s

/-! ### Outputs (R195, R200) -/

/-- Put a driving slot's value and enable on its pin. -/
def State.driveSlot (n k : Nat) (value enable : Bool) (s : State) : State :=
  let b := s.bob n
  let m : BitVec 6 := BitVec.ofNat 6 (2 ^ k)
  let s := s.setBob n { b with
    out := if value then b.out ||| m else b.out &&& ~~~m
    oen := if enable then b.oen ||| m else b.oen &&& ~~~m }
  s.drive (s.slotPin n k) (value != s.flag (Fd.BOB_SLOT_INV n k)) enable

/-- Apply a row's outputs: OUT and OEN unless HOLD_OUT, and the shifted bit on OUT_SLOT in either case. -/
def State.applyRow (n row : Nat) (shifted : Option Bool) (s : State) : State :=
  let hold := row / 2 ^ 21 % 2 = 1
  s.forEach (List.range 6) fun k t =>
    if !t.slotDrives n k then t
    else
      let bit := if k = t.fld (Fd.BOB_SHIFT_CFG_OUT_SLOT n) then shifted else none
      if hold then
        match bit with
        | some v => t.driveSlot n k v ((t.bob n).oen.getLsbD k)
        | none => t
      else t.driveSlot n k (bit.getD (row / 2 ^ (5 + k) % 2 == 1)) (row / 2 ^ (11 + k) % 2 == 1)

/-- The event of a completed row (R216): `a` is its address. -/
def State.rowEvent (n a : Nat) (s : State) : State :=
  let s := (s.bump (Reg.BOB_EVT_CNT n)).on (Fd.BOB_STAT_EVT_SEEN n)
  s.bobRec n (match s.fld (Fd.BOB_CFG_DSEL n) with
    | 0 => a * 64 + (s.bob n).out.toNat
    | 1 => s.fld (Fd.BOB_CNT_VAL_C0 n)
    | 2 => s.fld (Fd.BOB_CNT_VAL_C1 n)
    | _ => bits (s.rd (Reg.BOB_SR n)) 0 16) false

/-- The rest of a row whose action `a` can complete. -/
def State.completeRow (n addr row : Nat) (s : State) : State :=
  let a := row / 2 ^ 17 % 16
  let evt := row / 2 ^ 22 % 2 == 1
  let shifted := if a = 2 ∨ a = 3 then some (s.outBit n) else none
  let s := (s.act n a evt).applyRow n row shifted
  let s := if evt then s.rowEvent n addr else s
  let s := (s.setFld (Fd.BOB_STAT_STATE n) (row % 32)).setFld (Fd.BOB_STAT_MAP n) (row / 2 ^ 23 % 2)
  let s := s.setFld (Fd.BOB_STAT_RUN n) 1
  if a = 15 then s.stopBob n 2 false else s

/-- PULL's part before the row completes: the head is taken and checked; a poisoned one may stop the bobbin (R209). -/
def State.pullRow (n addr row : Nat) (h : QWord) (t : List QWord) (s : State) : State :=
  let (h, s) := State.popCheck h (s.setBob n { s.bob n with tx := t })
  let s := if h.poison then s.on (Fd.BOB_STAT_POISON_SEEN n) else s
  if h.poison ∧ s.flag (Fd.BOB_CFG_POISON_STOP n) = true then s.stopBob n 3 true
  else ((s.wr (Reg.BOB_SR n) (s.pullValue n h.data)).loadBits n).completeRow n addr row

/-- A stalled cycle (R210). -/
def State.stall (n : Nat) (s : State) : State :=
  (s.setFld (Fd.BOB_STAT_RUN n) 2).bump (Reg.BOB_STALL_CYC n)

/-- Execute row `addr` (R200): parity, then the action or a stall, then the row in full. -/
def State.runRow (n addr : Nat) (s : State) : State :=
  let row := s.rowWord n addr
  let held := decide (s.bobRun n = 2) || (s.bob n).held
  let s := (s.setFld (Fd.BOB_EXEC_ROW n) addr).setBob n { s.bob n with sync := false }
  if s.mark (rowAddr n addr) ≠ 0 then (s.bump (Reg.BOB_PRICK_PERR n)).stopBob n 4 held
  else
    let s := s.setBob n { s.bob n with held := false }
    if row / 2 ^ 17 % 16 = 4 then
      match (s.bob n).tx with
      | [] => s.stall n
      | h :: t => s.pullRow n addr row h t
    else if row / 2 ^ 17 % 16 = 5 ∧ s.bobDepth n ≤ (s.bob n).rx.length then s.stall n
    else s.completeRow n addr row

/-- Bobbins execute in Isolated, Seamless and Split while BOBCLK runs (R215), and not while they are reset (01 R24). -/
def State.bobsExecute (s : State) (n : Fin 64) : Bool :=
  !s.unitBusy (.bobbin n) && !s.anat.kaHeld && !s.anat.mainHeld && (s.onRing || s.mode == .isolated) && !s.boot.drowsy

/-- One BOBCLK cycle of bobbin `n` whose addressed row carries action `a`. -/
def State.cycleOf (a : Nat) (n : Fin 64) (s : State) : State :=
  if s.bobRun n = 0 ∨ s.bobsExecute n = false then s
  else
    let addr := s.nextRow n
    if s.rowWord n addr / 2 ^ 17 % 16 = a then s.runRow n addr else s

/-- NOP. -/
def execNop (n : Fin 64) (s : State) : Host.Outcome State Fault Refusal := .next (s.cycleOf 0x0 n)
/-- SHIN. -/
def execShin (n : Fin 64) (s : State) : Host.Outcome State Fault Refusal := .next (s.cycleOf 0x1 n)
/-- SHOUT. -/
def execShout (n : Fin 64) (s : State) : Host.Outcome State Fault Refusal := .next (s.cycleOf 0x2 n)
/-- SHIO. -/
def execShio (n : Fin 64) (s : State) : Host.Outcome State Fault Refusal := .next (s.cycleOf 0x3 n)
/-- PULL. -/
def execPull (n : Fin 64) (s : State) : Host.Outcome State Fault Refusal := .next (s.cycleOf 0x4 n)
/-- PUSH. -/
def execPush (n : Fin 64) (s : State) : Host.Outcome State Fault Refusal := .next (s.cycleOf 0x5 n)
/-- CLOAD0. -/
def execCload0 (n : Fin 64) (s : State) : Host.Outcome State Fault Refusal := .next (s.cycleOf 0x6 n)
/-- CDEC0. -/
def execCdec0 (n : Fin 64) (s : State) : Host.Outcome State Fault Refusal := .next (s.cycleOf 0x7 n)
/-- CLOAD1. -/
def execCload1 (n : Fin 64) (s : State) : Host.Outcome State Fault Refusal := .next (s.cycleOf 0x8 n)
/-- CDEC1. -/
def execCdec1 (n : Fin 64) (s : State) : Host.Outcome State Fault Refusal := .next (s.cycleOf 0x9 n)
/-- SCLR. -/
def execSclr (n : Fin 64) (s : State) : Host.Outcome State Fault Refusal := .next (s.cycleOf 0xA n)
/-- IRQ. -/
def execIrq (n : Fin 64) (s : State) : Host.Outcome State Fault Refusal := .next (s.cycleOf 0xB n)
/-- CLOAD01. -/
def execCload01 (n : Fin 64) (s : State) : Host.Outcome State Fault Refusal := .next (s.cycleOf 0xC n)
/-- CDEC01. -/
def execCdec01 (n : Fin 64) (s : State) : Host.Outcome State Fault Refusal := .next (s.cycleOf 0xD n)
/-- CAPT. -/
def execCapt (n : Fin 64) (s : State) : Host.Outcome State Fault Refusal := .next (s.cycleOf 0xE n)
/-- HALT. -/
def execHalt (n : Fin 64) (s : State) : Host.Outcome State Fault Refusal := .next (s.cycleOf 0xF n)

/-- STALL_END (R210): a cycle of a stalled bobbin; its held row completes in the first that lets it. -/
def execStallEnd (n : Fin 64) (s : State) : Host.Outcome State Fault Refusal :=
  .next (if s.bobRun n.val = 2 ∧ s.bobsExecute n = true then s.runRow n.val (s.nextRow n.val) else s)

/-! ### Commands (R211 to R215) -/

/-- START clears the shift state and begins from START_STATE with IMAP0. -/
def State.startBob (n : Nat) (s : State) : State :=
  let s := ((s.wr (Reg.BOB_SR n) 0#32).wr (Reg.BOB_CNT_VAL n) 0#32).loadBits n
  let s := s.setBob n { s.bob n with p0 := 0, p1 := 0, held := false, sync := false }
  let s := (s.off (Fd.BOB_STAT_PRICK_DIRTY n)).off (Fd.BOB_STAT_MAP n)
  (s.setFld (Fd.BOB_STAT_STATE n) (s.fld (Fd.BOB_CFG_START_STATE n))).setFld (Fd.BOB_STAT_RUN n) 1

def State.resumeBob (n : Nat) (s : State) : State := s.setFld (Fd.BOB_STAT_RUN n) 1

/-- STOP keeps the shift state; a stopped bobbin is left as it is. -/
def State.haltBob (n : Nat) (s : State) : State :=
  if s.bobRun n = 0 then s else s.stopBob n 1 (decide (s.bobRun n = 2) || (s.bob n).held)

/-- Bobbin `n` is being reset: each command of its own would be refused (01 R24, R25). -/
def State.bobInReset (s : State) (n : Nat) : Bool :=
  s.flag ⟨if n < 32 then Reg.SYS_BOB_RST_BUSY_LO else Reg.SYS_BOB_RST_BUSY_HI, n % 32, 1⟩

/-- The status of a command to the named bobbins: BUSY for a lent one, else WRONG_MODE (R206, R211, R213 to R215). -/
def State.bobGate (needStopped needClean : Bool) (ns : List Nat) (s : State) : Status :=
  if s.asleepOrLoading then .wrongMode
  else if ns.any s.bobLent then .busy
  else if ns.any s.bobInReset || (needStopped && s.boot.drowsy) || (needStopped && (!(s.onRing || s.mode == .isolated) || ns.any fun n => s.bobRun n != 0)) ||
      (needClean && ns.any fun n => s.flag (Fd.BOB_STAT_PRICK_DIRTY n)) then .wrongMode
  else .ok

/-- Carry out `f` for all named bobbins or for none. -/
def State.bobAll (needStopped needClean : Bool) (f : Nat → State → State) (ns : List Nat) (s : State) : Res :=
  match s.bobGate needStopped needClean ns with
  | .ok => (.ok, s.forEach ns f)
  | st => refuse st s

/-- A STOP to a single lent bobbin finds it stopped and completes OK. -/
def State.bobStop (n : Nat) (s : State) : Res :=
  if s.asleepOrLoading then refuse .wrongMode s else (.ok, s.haltBob n)

/-- START. -/
def execStart (n : Fin 64) (s : State) : Host.Outcome State Fault Refusal :=
  .next (s.command (some (.bobbin n)) fun t => t.bobAll true false State.startBob [n.val])
/-- STOP. -/
def execStop (n : Fin 64) (s : State) : Host.Outcome State Fault Refusal :=
  .next (s.command (some (.bobbin n)) fun t => t.bobStop n.val)
/-- RESUME. -/
def execResume (n : Fin 64) (s : State) : Host.Outcome State Fault Refusal :=
  .next (s.command (some (.bobbin n)) fun t => t.bobAll true true State.resumeBob [n.val])

/-- Bobbins named by a group register: bit i of LO is BOB[i], of HI BOB[i + 32] (R214). -/
def named (hi : Bool) (w : Word) : List Nat :=
  ((List.range 32).filter fun i => w.getLsbD i).map fun i => if hi then i + 32 else i

/-- GROUP_START. -/
def execGroupStart (hi : Bool) (w : Word) (s : State) : Host.Outcome State Fault Refusal :=
  .next (s.command none fun t => t.bobAll true false State.startBob (named hi w))
/-- GROUP_STOP. -/
def execGroupStop (hi : Bool) (w : Word) (s : State) : Host.Outcome State Fault Refusal :=
  .next (s.command none fun t => t.bobAll false false State.haltBob (named hi w))
/-- GROUP_RESUME. -/
def execGroupResume (hi : Bool) (w : Word) (s : State) : Host.Outcome State Fault Refusal :=
  .next (s.command none fun t => t.bobAll true true State.resumeBob (named hi w))

/-- A write of SYNC_PULSE (R202): the pulse stands for the next cycle of every running bobbin of the named cushions that
is not stalled; with SRC = 1 the line follows its pin instead. -/
def State.pulse (w : Word) (s : State) : Res :=
  if s.asleepOrLoading then refuse .wrongMode s
  else (.ok, s.forEach (List.range 64) fun n t =>
    if w.getLsbD (n / 16) && t.bobRun n == 1 then t.setBob n { t.bob n with sync := true } else t)

/-- SYNC_PULSE. -/
def execSyncPulse (w : Word) (s : State) : Host.Outcome State Fault Refusal := .next (s.command none fun t => t.pulse w)

/-! ### Queues (R206 to R208) -/

/-- A push onto a TX queue; a full queue drops it and sets TX_OVF (R207). -/
def State.pushTx (n : Nat) (v : Word) (last : Bool) (s : State) : Res :=
  let b := s.bob n
  if s.bobDepth n ≤ b.tx.length then refuse .busy (s.on (Fd.BOB_STAT_TX_OVF n))
  else
    (.ok, (s.setBob n { b with tx := b.tx ++ [{ data := v, last }] }).peak (Fd.BOB_QPEAK_TX_PEAK n) (b.tx.length + 1))

/-- A push by software (R206, R207, R219). -/
def State.txqPush (n : Nat) (v : Word) (last : Bool) (s : State) : Res :=
  if s.asleepOrLoading then refuse .wrongMode s
  else if s.bobLent n then refuse .busy s
  else s.pushTx n v last

/-- TXQ_PUSH: an aligned 8-byte write, or a 4-byte write to TXQ_LO. With `up` the stored word fails its check when popped. -/
def execTxqPush (n : Fin 64) (wide : Bool) (v : BitVec 64) (up : Fin 3) (s : State) : Host.Outcome State Fault Refusal :=
  .next (s.command (some (.bobbin n)) fun t =>
    match t.txqPush n.val (v.setWidth 32) (wide && v.getLsbD 34) with
    | (.ok, u) => (.ok, u.onlyIf (up != 0) fun x => x.setBob n.val { x.bob n.val with tx := spoilLast up.val (x.bob n.val).tx })
    | r => r)

/-- A pop by software: status, pop value and state (R207, R389). -/
def State.rxqPop (n : Nat) (s : State) : Status × Nat × State :=
  if s.asleepOrLoading then
    let r := refuse .wrongMode s
    (r.1, 0, r.2)
  else if s.bobLent n then (.busy, 0, s)
  else
    match (s.bob n).rx with
    | [] => (.ok, 0, s)
    | h :: t =>
      let (h, s) := State.popCheck h (s.setBob n { s.bob n with rx := t })
      (.ok, h.popValue, s)

/-- RXQ_POP. With `up` the stored word fails its check. -/
def execRxqPop (n : Fin 64) (up : Fin 3) (s : State) : Host.Outcome State Fault Refusal :=
  .next (s.query (some (.bobbin n)) fun t =>
    let t := t.onlyIf (up != 0) fun x => x.setBob n.val { x.bob n.val with rx := spoilHead up.val (x.bob n.val).rx }
    let r := t.rxqPop n.val
    (r.1, if r.1 = .ok then leBytes 8 r.2.1 else [], r.2.2))

/-- Members of the group that leader `n` forms with JOIN = `j` (R206). -/
def joinMembers (n j : Nat) : List Nat := (List.range (2 ^ j)).map fun i => n + i

/-- Whether `m` belongs to a join that `n` does not lead. -/
def State.otherJoin (s : State) (n m : Nat) : Bool :=
  m != n && ((s.bobLent m && !(joinMembers n (s.fld (Fd.BOB_QCFG_JOIN n))).contains m) || s.fld (Fd.BOB_QCFG_JOIN m) != 0)

/-- A write of QCFG.JOIN (R206): both the old and the new group lose their words. -/
def State.join (n : Nat) (w : Word) (s : State) : Res :=
  let j := bits w 0 2
  let old := joinMembers n (s.fld (Fd.BOB_QCFG_JOIN n))
  let new := joinMembers n j
  if s.asleepOrLoading then refuse .wrongMode s
  else if j = 3 ∨ n % 2 ^ j ≠ 0 then refuse .badRequest s
  else if s.bobLent n then refuse .busy s
  else if (old ++ new).any (fun m => s.bobRun m != 0) then refuse .wrongMode s
  else if new.any (s.otherJoin n) then refuse .busy s
  else
    let s := s.forEach (old ++ new) fun m t =>
      (t.setBob m { t.bob m with tx := [], rx := [] }).off (Fd.BOB_STAT_LENT m)
    let s := s.forEach new fun m t => t.setFlag (Fd.BOB_STAT_LENT m) (m != n)
    (.ok, s.wr (Reg.BOB_QCFG n) (BitVec.ofNat 32 j))

/-- QUEUE_JOIN. -/
def execQueueJoin (n : Fin 64) (w : Word) (s : State) : Host.Outcome State Fault Refusal :=
  .next (s.command (some (.bobbin n)) fun t => t.join n.val w)

/-! ### Slots, configuration, prickings (R193, R194, R197, R212) -/

def State.dirty (n : Nat) (s : State) : State := s.on (Fd.BOB_STAT_PRICK_DIRTY n)

/-- The value and the enable of slot `k` as they are before a row has applied them: driver off. -/
def State.idleSlot (n k : Nat) (s : State) : State :=
  let m : BitVec 6 := BitVec.ofNat 6 (2 ^ k)
  s.setBob n { s.bob n with out := (s.bob n).out &&& ~~~m, oen := (s.bob n).oen &&& ~~~m }

/-- A write of SLOT[k] (R194): it claims the pin before the old one is released; a refused claim leaves the slot. -/
def State.slotWrite (n k : Nat) (w : Word) (s : State) : Res :=
  let drives := bits w 9 2 = 3
  let pin := n / 16 * 64 + bits w 0 6
  if s.asleepOrLoading || s.bobRun n != 0 then refuse .wrongMode s
  else if 6 ≤ k ∧ bits w 9 1 = 1 then refuse .badRequest s
  else if drives ∧ ((List.range 6).any fun i => i != k && s.slotDrives n i && s.slotPin n i == pin) = true then
    refuse .badRequest s
  else
    let was := if s.slotDrives n k then [s.slotPin n k] else []
    let keep := fun (t : State) =>
      let t := (t.wr (Reg.BOB_SLOT n k) (w &&& 0x73F#32)).dirty n
      t.onlyIf (!drives || !was.contains pin) (State.idleSlot n k)
    if drives then
      match s.claim (.bobbin n) [pin] with
      | (.ok, t) => (.ok, keep (t.release (.bobbin n) (was.filter (· != pin))))
      | r => r
    else (.ok, keep (s.release (.bobbin n) was))

/-- SLOT_WRITE. -/
def execSlotWrite (n : Fin 64) (k : Fin 8) (w : Word) (s : State) : Host.Outcome State Fault Refusal :=
  .next (s.command (some (.bobbin n)) fun t => t.slotWrite n.val k.val w)

/-- A write of whole rows at byte offset `off` of the pricking of bobbin `n` (R197, R198, R205, R212): refused in whole
while the bobbin runs; every accepted row gets fresh parity. -/
def State.prickWrite (n off : Nat) (bytes : List Byte) (s : State) : Res :=
  if s.asleepOrLoading then refuse .wrongMode s
  else if off % 4 ≠ 0 ∨ bytes.length % 4 ≠ 0 ∨ bytes = [] ∨ 0x1000 < off + bytes.length then refuse .badRequest s
  else if s.bobRun n ≠ 0 then refuse .wrongMode (s.on (Fd.BOB_STAT_PRICK_WERR n))
  else
    let a := rowAddr n 0 + off
    let rows := (List.range (bytes.length / 4)).flatMap fun i => (bytes.drop (4 * i)).take 3 ++ [0#8]
    let s := s.writeBytes a rows
    (.ok, (s.forEach (List.range (bytes.length / 4)) fun i t => t.setMark (a + 4 * i) 0).dirty n)

/-- PRICKING_WRITE. -/
def execPrickingWrite (n : Fin 64) (off : BitVec 12) (bytes : List Byte) (s : State) : Host.Outcome State Fault Refusal :=
  .next (s.command (some (.bobbin n)) fun t => t.prickWrite n.val off.toNat bytes)

/-- A write of a register that only a stopped bobbin takes (R212). -/
def State.bobConfig (n reg : Nat) (mask w : Word) (s : State) : Res :=
  if s.bobRun n ≠ 0 then refuse .wrongMode s else (.ok, (s.wr reg (w &&& mask)).dirty n)

/-- Writes in the BOB block, by offset within it (R211 to R214, R219). -/
def State.bobWrite (off : Nat) (w : Word) (s : State) : Option Res :=
  if s.asleepOrLoading then some (refuse .wrongMode s)
  else if off < 0x4000 then
    let n := off / 0x100
    match off % 0x100 with
    | 0x00 => some (match bits w 0 3 with
        | 0 => (.ok, s)
        | 1 => s.bobAll true false State.startBob [n]
        | 2 => s.bobStop n
        | 4 => s.bobAll true true State.resumeBob [n]
        | _ => refuse .badRequest s)
    | 0x08 => some (s.bobConfig n (Reg.BOB_CFG n) 0xF1F1F#32 w)
    | 0x0C => some (if bits w 0 6 = 0 ∨ 32 < bits w 0 6 ∨ 6 ≤ bits w 16 3 then refuse .badRequest s
        else s.bobConfig n (Reg.BOB_SHIFT_CFG n) 0x7713F#32 w)
    | 0x10 => some (s.bobConfig n (Reg.BOB_IMAP0 n) 0xFFFFF#32 w)
    | 0x14 => some (s.bobConfig n (Reg.BOB_IMAP1 n) 0xFFFFF#32 w)
    | 0x18 => some (s.bobConfig n (Reg.BOB_CNT_CFG0 n) 0xFFFFFF#32 w)
    | 0x1C => some (s.bobConfig n (Reg.BOB_CNT_CFG1 n) 0xFFFFFF#32 w)
    | 0x50 => some (s.join n w)
    | 0x60 => some (refuse .badRequest s)
    | 0x64 => some (refuse .badRequest s)
    | 0x68 => some (refuse .badRequest s)
    | 0x6C => some (refuse .badRequest s)
    | o => if 0x20 ≤ o ∧ o < 0x40 ∧ o % 4 = 0 then some (s.slotWrite n ((o - 0x20) / 4) w) else none
  else
    match off with
    | 0x8000 => some (s.bobAll true false State.startBob (named false w))
    | 0x8004 => some (s.bobAll true false State.startBob (named true w))
    | 0x8008 => some (s.bobAll false false State.haltBob (named false w))
    | 0x800C => some (s.bobAll false false State.haltBob (named true w))
    | 0x8010 => some (s.bobAll true true State.resumeBob (named false w))
    | 0x8014 => some (s.bobAll true true State.resumeBob (named true w))
    | 0x8040 => some (s.bobIrqEnable false w)
    | 0x8044 => some (s.bobIrqEnable true w)
    | 0x8060 => some (s.pulse w)
    | _ => none

/-- Registers of a lent bobbin that answer BUSY: TXQ, RXQ, QCFG, QSTAT and QPEAK (R206). -/
def State.bobBusy (s : State) (off : Nat) : Bool :=
  decide (off < 0x4000) && s.bobLent (off / 0x100) &&
    [0x50, 0x54, 0x58, 0x60, 0x64, 0x68, 0x6C].contains (off % 0x100)

/-- Derived BOB values: QSTAT and RUN (tables of chapter 08). -/
def State.bobRead (s : State) (off : Nat) : Option Word :=
  let run := fun (base : Nat) => BitVec.ofNat 32 ((List.range 32).foldl
    (fun a i => a + if s.bobRun (base + i) = 0 then 0 else 2 ^ i) 0)
  if off < 0x4000 ∧ off % 0x100 = 0x54 then
    let n := off / 0x100
    some (BitVec.ofNat 32 (s.fld (Fd.BOB_QCFG_JOIN n) * 2 ^ 16 + (s.bob n).rx.length * 2 ^ 8 + (s.bob n).tx.length))
  else if off = 0x8020 then some (run 0)
  else if off = 0x8024 then some (run 32)
  else none

/-! ### Modes (R215) -/

/-- Stop every running bobbin with cause MODE. -/
def State.stopAllBobs (s : State) : State :=
  s.forEach (List.range 64) fun n t =>
    if t.bobRun n = 0 then t else t.stopBob n 6 (decide (t.bobRun n = 2) || (t.bob n).held)

/-- The bobbins that run, as the two words of DROWSE_RUN. -/
def State.loadDrowseRun (s : State) : State :=
  (s.wr Reg.BOBG_DROWSE_RUN_LO ((s.bobRead 0x8020).getD 0#32)).wr Reg.BOBG_DROWSE_RUN_HI ((s.bobRead 0x8024).getD 0#32)

/-- At wake the bobbins of DROWSE_RUN are resumed together. -/
def State.wakeBobs (s : State) : State :=
  (s.forEach (named false (s.rd Reg.BOBG_DROWSE_RUN_LO)) State.resumeBob).forEach
    (named true (s.rd Reg.BOBG_DROWSE_RUN_HI)) State.resumeBob

/-- Every bobbin with AUTOSTART is started together; a lent one cannot be. -/
def State.autostart (s : State) : State :=
  s.forEach ((List.range 64).filter fun n => s.flag (Fd.BOB_CFG_AUTOSTART n) && !s.bobLent n) State.startBob

/-- Empty every bobbin queue (15 R390). -/
def State.emptyBobQueues (s : State) : State :=
  s.forEach (s.bobs.map fun e => e.1) fun n t => t.setBob n { t.bob n with tx := [], rx := [] }

end Sys2Proof.Machine
end

