-- ==== Sys2Proof/Machine/Journal.lean ====
section
/-!
DEFINITION. The edge journal (07 R180 to R192, R469): the writer's rotation, positions, readers, restart, and the write
rules of the JRN registers.
-/

namespace Sys2Proof.Machine

/-- Top of the installed DRAM (05 R113; MEM_CFG.SIZE 0, 1, 2 for 2, 4, 8 GiB). -/
def State.dramTop (s : State) : Nat := 2 ^ (31 + s.fld Fd.MEM_MEM_CFG_SIZE)

/-- WR_TOTAL (R185). -/
def State.wrTotal (s : State) : Nat := s.rd64 Reg.JRN_WR_TOTAL_LO Reg.JRN_WR_TOTAL_HI
def State.rdPos (s : State) (r : Nat) : Nat := s.rd64 (Reg.RD_RD_POS_LO r) (Reg.RD_RD_POS_HI r)
def State.jrnCap (s : State) : Nat := (s.rd Reg.JRN_CAP).toNat
/-- Address of the record at position `p` (R185). -/
def State.recAddr (s : State) (p : Nat) : Nat := s.fld Fd.JRN_BASE_MIB * 2 ^ 20 + p % s.jrnCap * 16

/-- The 16 bytes of a record with its SEQ (R181). -/
def JRec.encode (r : JRec) (seq : Nat) : List Byte :=
  leBytes 8 r.time ++
  leBytes 2 ((if r.lost then 2 ^ 15 else 0) + r.kind * 2 ^ 12 + (if r.unlocked then 2 ^ 11 else 0) +
    (if r.domain then 2 ^ 10 else 0) + (if r.level then 2 ^ 9 else 0) + r.source % 512) ++
  leBytes 2 r.detail ++ leBytes 4 seq

/-- RD[2] streams on EP1 (11 R280): its position is moved by the station function. -/
def State.streaming (s : State) : Bool := s.flag Fd.USB_JSTREAM_EN

/-- Records that reader `r` has not read. -/
def State.behind (s : State) (r : Nat) : Nat := s.wrTotal - s.rdPos r

/-- Reader `r` is overrun (R189). -/
def State.overrun (s : State) (r : Nat) : Bool := decide (s.jrnCap < s.behind r)

/-- Reader `r` has RD_LEVEL records or more to read (R190). -/
def State.levelReached (s : State) (r : Nat) : Bool :=
  (s.rd (Reg.RD_RD_LEVEL r)).toNat != 0 && decide ((s.rd (Reg.RD_RD_LEVEL r)).toNat ≤ s.behind r)

/-- What a new position of the writer or of reader `r`, or a new RD_LEVEL, does for the reader: a new overrun is noted, and RD[2] moved on
while it streams (R189); a level newly reached sets its event (R190). -/
def State.noteReader (r : Nat) (s before : State) : State :=
  let s := s.onlyIf (s.levelReached r && !before.levelReached r) (State.on ⟨Reg.JRN_EVT, r, 1⟩)
  if s.overrun r && !before.overrun r then
    let t := ((s.bump Reg.JRN_OVR_CNT).on (Fd.RD_RD_STAT_OVR r)).on ⟨Reg.JRN_EVT, 4 + r, 1⟩
    let t := t.onlyIf (r == 2) (State.stationEvent 0x03 0)
    if r = 2 ∧ s.streaming = true then t.wr64 (Reg.RD_RD_POS_LO 2) (Reg.RD_RD_POS_HI 2) (s.wrTotal - s.jrnCap) else t
  else s

/-- Burst FIFOs in the writer's rotation after the one it served last (R184). -/
def rotation (served : Nat) : List Nat := (List.range 364).map fun i => (served + 1 + i) % 364

/-- The FIFO whose turn it is; system records held from before the writer's start come before any other (R469). -/
def State.nextFifo (s : State) : Option Nat :=
  if 0 < s.field.sysFirst ∧ (Tab.get [] s.fifos 363).isEmpty = false then some 363
  else (rotation s.field.served).find? fun i => !(Tab.get [] s.fifos i).isEmpty

/-- The writer starts at entry to the mode that ends Load (R469). -/
def State.startWriter (s : State) : State :=
  if s.field.writerRuns then s
  else { s with field := { s.field with writerRuns := true, sysFirst := (Tab.get [] s.fifos 363).length } }

/-- Write a record at WR_TOTAL and move on (R185, R188): a partly filled block is written again when more records join
it. A whole 16-byte record replaces the words it covers, poison included. -/
def State.writeRecord (r : JRec) (s : State) : State :=
  let p := s.wrTotal
  let a := s.recAddr p
  let before := s
  let s := s.writeBytes a (r.encode (p % 2 ^ 32))
  let s := (s.setMark a 0).setMark (a + 8) 0
  let s := s.add64 Reg.JRN_WR_TOTAL_LO Reg.JRN_WR_TOTAL_HI 1
  let s := s.forEach [0, 1, 2, 3] fun r t => t.noteReader r before
  if (p + 1) % 4 = 0 then s.cancel .flush
  else if s.armed .flush then s
  else s.arm .flush (s.fld Fd.JRN_JRN_CTL_FLUSH * usPs)

/-- JOURNAL_RECORD_WRITE (R184): the writer does not run before the mode that ends Load, nor in Drowse (R186, R469). -/
def State.recordWrite (s : State) : State :=
  if !s.journals || s.mode == .drowse || s.jrnCap == 0 || s.anat.mainHeld || s.anat.kaHeld ||
      s.unitBusy .journal then s
  else
    match s.nextFifo with
    | none => s
    | some i =>
      match Tab.get [] s.fifos i with
      | [] => s
      | r :: t =>
        State.writeRecord { r with lost := r.lost || s.field.gap }
          { s with fifos := Tab.set [] s.fifos i t
                   field := { s.field with served := i, gap := false, sysFirst := s.field.sysFirst - 1 } }

/-- JOURNAL_RECORD_WRITE. -/
def execJournalRecordWrite (s : State) : Host.Outcome State Fault Refusal := .next s.recordWrite

/-- JOURNAL_FLUSH (R188): the partly filled block stands in DRAM. The model writes each record when it is taken, so only
the deadline falls away. -/
def execJournalFlush (s : State) : Host.Outcome State Fault Refusal := .next (s.expiry .flush fun t => t)

/-- Restart the journal (R187): positions become 0 and the first record has code 0x007, before records already held. The other of BASE
and SIZE in the same Load, and the 0x007 that a reset has left, make no second record. -/
def State.restartJournal (s : State) : State :=
  if s.field.restarted then s
  else
    let q := Tab.get [] s.fifos 363
    let held := decide (s.wrTotal = 0) && (q.head?.map fun r => r.source == 0x007).getD false
    let s := s.wr64 Reg.JRN_WR_TOTAL_LO Reg.JRN_WR_TOTAL_HI 0
    let s := s.forEach [0, 1, 2, 3] fun r t => t.wr64 (Reg.RD_RD_POS_LO r) (Reg.RD_RD_POS_HI r) 0
    let s := (s.on Fd.JRN_EVT_RESTARTED).bump Reg.JRN_RESTART_CNT
    { s with fifos := if held then s.fifos else Tab.set [] s.fifos 363 (s.record 4 0x007 0 false :: q)
             field := { s.field with restarted := true } }

/-- Records still in the burst FIFOs are lost (R187, 01 R26). -/
def State.dropFifos (keepSystem : Bool) (s : State) : State :=
  { s with fifos := if keepSystem then s.fifos.filter fun e => e.1 == 363 else [] }

/-- An 8-byte write of RD_POS (R189, R190). -/
def State.writeRdPos (r v : Nat) (s : State) : Res :=
  if r = 2 ∧ s.streaming = true then refuse .wrongMode s
  else if s.wrTotal < v then refuse .badRequest s
  else (.ok, (s.wr64 (Reg.RD_RD_POS_LO r) (Reg.RD_RD_POS_HI r) v).noteReader r s)

/-- A write of RD_LEVEL (R190). -/
def State.writeRdLevel (r : Nat) (w : Word) (s : State) : Res := (.ok, (s.wr (Reg.RD_RD_LEVEL r) w).noteReader r s)

/-- The region of `size` MiB at MiB `base` lies in installed DRAM above the first 256 MiB (R180). -/
def State.regionOk (s : State) (base size : Nat) : Bool :=
  decide (0x100 ≤ base) && decide ((base + size) * 2 ^ 20 ≤ s.dramTop)

/-- RD_POS_WRITE. -/
def execRdPosWrite (r : Fin 4) (v : BitVec 64) (s : State) : Host.Outcome State Fault Refusal :=
  .next (s.command (some .journal) fun t => t.writeRdPos r.val v.toNat)

/-- Writes in the JRN block, by offset within it (R187, R190). BASE and SIZE are each judged against the other as it is held (DESIGN
CHOICE, log 129). -/
def State.jrnWrite (off : Nat) (w : Word) (s : State) : Option Res :=
  let load := s.applying
  match off with
  | 0x000 =>
    some (if !load then refuse .wrongMode s
      else if bits w 0 8 = 0 then refuse .badRequest s
      else (.ok, s.wr Reg.JRN_JRN_CTL (w &&& 0x800000FF#32)))
  | 0x008 =>
    some (if !load then refuse .wrongMode s
      else if !s.regionOk (bits w 0 20) (s.fld Fd.JRN_SIZE_MIB) then refuse .badRequest s
      else
        let v := w &&& 0xFFFFF#32
        (.ok, (s.onlyIf (s.rd Reg.JRN_BASE != v) State.restartJournal).wr Reg.JRN_BASE v))
  | 0x00C =>
    some (if !load then refuse .wrongMode s
      else if bits w 0 14 = 0 ∨ 7936 < bits w 0 14 ∨ s.regionOk (s.fld Fd.JRN_BASE_MIB) (bits w 0 14) = false then refuse .badRequest s
      else
        let v := w &&& 0x3FFF#32
        let t := (s.onlyIf (s.rd Reg.JRN_SIZE != v) State.restartJournal).wr Reg.JRN_SIZE v
        (.ok, t.wr Reg.JRN_CAP (BitVec.ofNat 32 (bits w 0 14 * 65536))))
  | _ =>
    if 0x100 ≤ off ∧ off < 0x180 then
      if off % 0x20 < 8 then some (refuse .badRequest s)
      else if off % 0x20 = 8 then some (s.writeRdLevel ((off - 0x100) / 0x20) w)
      else none
    else none

/-- Derived JRN values: RD_STAT.EMPTY (table of chapter 07). -/
def State.jrnRead (s : State) (off : Nat) : Option Word :=
  if 0x100 ≤ off ∧ off < 0x180 ∧ off % 0x20 = 0x0C then
    let r := (off - 0x100) / 0x20
    some (putBits (s.rd (Reg.RD_RD_STAT r)) 1 1 (if s.rdPos r = s.wrTotal then 1 else 0))
  else none

end Sys2Proof.Machine
end

