-- ==== Sys2Proof/Machine/Usb.lean ====
section
/-!
DEFINITION. USB hub and station function (11_usb_hub_and_station_function.md R269 to R289): connection, reset and chirp,
suspend and resume, downstream ports, the endpoints of the station function, vendor requests. Tokens and line states
arrive as commands.
-/

namespace Sys2Proof.Machine

def State.setUsb (u : Usb) (s : State) : State := { s with usb := u }
def State.connected (s : State) : Bool := s.flag Fd.USB_USB_STAT_CONNECTED
def State.suspended (s : State) : Bool := s.flag Fd.USB_USB_STAT_SUSPENDED

/-- Whether the mode lets the pull-up stand (R270, R287, 01 R26, R27). -/
def State.usbMode (s : State) : Bool :=
  !s.anat.kaHeld && !s.anat.mainHeld && !s.unitBusy .usb && s.mode != .load && !s.second

/-! ### Control transfers and tunnel (R285, R286) -/

/-- A control transfer that had not reached its status stage is abandoned. -/
def State.ctrlAbort (s : State) : State :=
  if s.usb.ctrlOpen then
    ((s.setUsb { s.usb with ctrlOpen := false }).bump Reg.USB_CTRL_ABORT_CNT).on Fd.USB_EVT_CTRL_ABORT
  else s

/-- The tunnel loses its messages not yet parsed and its completions: those waiting, one sent in part, and those of requests still out
(R285). -/
def State.tunnelDrop (s : State) : State :=
  let mine := s.txn.cpls.filter fun c => c.init == 2
  let s := s.bumpBy Reg.USB_TUN_DROP (mine.length + if s.usb.ep4.isEmpty then 0 else 1)
  { s with
    usb := { s.usb with ep3 := [], ep4 := [] }
    txn := { s.txn with
      cpls := s.txn.cpls.filter fun c => c.init != 2
      tags := s.txn.tags.map fun e => if e.2.init = 2 then (e.1, { e.2 with dropped := true }) else e } }

/-! ### Downstream ports (R272 to R275) -/

/-- Clear PORT_POWER of DS `n`: the device and its state go with it; the sticky bits stay. -/
def State.portOff (n : Nat) (s : State) : State :=
  ((s.wr (Reg.USB_DS_STAT n) (s.rd (Reg.USB_DS_STAT n) &&& 0x300#32)).cancel (.portReset n)).cancel (.ocBlank n)

def State.portChange (n : Nat) (c : PortChange) (s : State) : State :=
  s.setUsb { s.usb with changes := (n, c) :: s.usb.changes.filter (· != (n, c)) }

/-- A new configuration or setting: the endpoints start afresh (R281, R285). -/
def State.fnEndpoints (s : State) : State :=
  State.tunnelDrop (s.setUsb { s.usb with snap := none, part := 0, swaps := 0, sent := 0 })

/-- The station function returns to its default state. -/
def State.fnDefault (s : State) : State :=
  (((s.off Fd.USB_USB_STAT_ADDRESS).off Fd.USB_USB_STAT_CONFIGURED).off Fd.USB_USB_STAT_ALT).fnEndpoints

/-- The hub returns to its default state: address and configuration 0, no change reported (R270, R271). -/
def State.hubDefault (s : State) : State :=
  (s.setUsb { s.usb with hubAddress := 0#7, hubConf := false, changes := [] }).off Fd.USB_USB_STAT_RWAKE_ARMED

/-! ### Upstream connection (R270, R271) -/

/-- Apply the pull-up when VBUS, EN and the mode allow it. -/
def State.tryConnect (s : State) : State :=
  if !s.connected && s.flag Fd.USB_USB_STAT_VBUS && s.flag Fd.USB_USB_CTL_EN && s.usbMode then
    (s.on Fd.USB_USB_STAT_CONNECTED).setFld Fd.USB_USB_STAT_SPEED 1
  else s

/-- The pull-up is removed: hub and function return to default, USB_PWREN[1..4] are deasserted. -/
def State.disconnect (s : State) : State :=
  let s := s.ctrlAbort.fnDefault.hubDefault
  let s := s.wr Reg.USB_USB_STAT (s.rd Reg.USB_USB_STAT &&& 1#32)
  let s := s.setUsb { s.usb with wakeFn := false, wakeDs := 0#4, hostK := false, chirping := false, fnOff := false }
  s.forEach [0, 1, 2, 3] State.portOff

/-- VBUS_PRESENT. -/
def execVbusPresent (s : State) : Host.Outcome State Fault Refusal :=
  .next (s.on Fd.USB_USB_STAT_VBUS).tryConnect

/-- VBUS_LOSS: it ends a resume (R277). -/
def execVbusLoss (s : State) : Host.Outcome State Fault Refusal :=
  .next (State.disconnect ((s.onlyIf (s.flag Fd.USB_USB_STAT_IN_RESUME) (·.on Fd.USB_WAKE_SRC_DISC_IN_RESUME)).off
    Fd.USB_USB_STAT_VBUS))

/-- BUS_RESET: a reset wins over a resume (R271, R273, R277). -/
def execBusReset (s : State) : Host.Outcome State Fault Refusal :=
  .next (if !s.connected then s
    else
      let s := s.onlyIf (s.flag Fd.USB_USB_STAT_IN_RESUME) (·.on Fd.USB_WAKE_SRC_RESET_IN_RESUME)
      let s := s.ctrlAbort.fnDefault.hubDefault
      let s := (s.off Fd.USB_USB_STAT_IN_RESUME).off Fd.USB_USB_STAT_SUSPENDED
      let s := (s.setFld Fd.USB_USB_STAT_SPEED 1).setUsb
        { s.usb with wakeFn := false, wakeDs := 0#4, hostK := false, chirping := !s.flag Fd.USB_USB_CTL_FS_ONLY }
      let s := s.forEach [0, 1, 2, 3] State.portOff
      (s.on Fd.USB_EVT_BUS_RESET).bump Reg.USB_BUS_RESET_CNT)

/-- HIGH_SPEED_ENTRY. -/
def execHighSpeedEntry (s : State) : Host.Outcome State Fault Refusal :=
  .next (if s.connected && s.usb.chirping then
      (s.setFld Fd.USB_USB_STAT_SPEED 2).setUsb { s.usb with chirping := false }
    else s)

/-- CHIRP_TIMEOUT. -/
def execChirpTimeout (s : State) : Host.Outcome State Fault Refusal :=
  .next (if s.connected && s.usb.chirping then s.setUsb { s.usb with chirping := false } else s)

/-! ### Suspend, resume, remote wake (R276, R277) -/

/-- SUSPEND: the ports are suspended with the hub. -/
def execSuspend (s : State) : Host.Outcome State Fault Refusal :=
  .next (if !s.connected || s.suspended then s
    else
      let s := (s.on Fd.USB_USB_STAT_SUSPENDED).on Fd.USB_EVT_SUSPEND
      let s := s.setUsb { s.usb with suspendedAt := s.clk }
      s.forEach [0, 1, 2, 3] fun n t => if t.flag (Fd.USB_DS_STAT_ENABLE n) then t.on (Fd.USB_DS_STAT_SUSPEND n) else t)

/-- The host drives resume K: it wins over a pending remote wake, which counts as served. -/
def State.hostResume (s : State) : State :=
  if !s.suspended then s
  else
    let s := (s.on Fd.USB_WAKE_SRC_HOST_RESUME).on Fd.USB_USB_STAT_IN_RESUME
    let s := s.onlyIf s.usb.wakeFn (·.on Fd.USB_WAKE_SRC_FN_SERVED)
    s.setUsb { s.usb with hostK := true, wakeFn := false, wakeDs := 0#4 }

/-- A pending remote wake may be signalled: the host enabled it and drives no K. -/
def State.maySignal (s : State) : Bool :=
  s.suspended && (s.usb.wakeFn || s.usb.wakeDs != 0#4) && s.flag Fd.USB_USB_STAT_RWAKE_ARMED && !s.usb.hostK

/-- The port drives K upstream, 5 ms after the suspend at the earliest, and hands it over to the host, which drives it on. -/
def State.signalWake (s : State) : State :=
  if s.maySignal then
    let s := s.advance (s.usb.suspendedAt + 5 * msPs - s.clk)
    ((s.setUsb { s.usb with wakeFn := false, wakeDs := 0#4, hostK := true }).on Fd.USB_USB_STAT_IN_RESUME).bump Reg.USB_RWAKE_CNT
  else s

/-- RESUME_END. -/
def execResumeEnd (s : State) : Host.Outcome State Fault Refusal :=
  .next (if !s.flag Fd.USB_USB_STAT_IN_RESUME then s
    else
      let s := ((s.off Fd.USB_USB_STAT_IN_RESUME).off Fd.USB_USB_STAT_SUSPENDED).on Fd.USB_EVT_RESUME
      let s := s.setUsb { s.usb with hostK := false }
      s.forEach [0, 1, 2, 3] fun n t => t.off (Fd.USB_DS_STAT_SUSPEND n))

/-- DEVICE_REMOTE_WAKEUP. -/
def execDeviceRemoteWakeup (on : Bool) (s : State) : Host.Outcome State Fault Refusal :=
  .next (if s.connected then s.setFlag Fd.USB_USB_STAT_RWAKE_ARMED on else s)

/-! ### Hub requests and port events -/

/-- SET_PORT_POWER (R272, R273): in Recovery it is ignored for ports 1 to 4 (R287). -/
def execSetPortPower (n : Fin 5) (s : State) : Host.Outcome State Fault Refusal :=
  .next (if !s.connected then s
    else if n.val = 4 then s.setUsb { s.usb with fnOff := false }
    else if s.mode = .recovery ∨ s.flag (Fd.USB_DS_STAT_POWER n.val) = true then s
    else
      ((s.on (Fd.USB_DS_STAT_POWER n.val)).off (Fd.USB_DS_STAT_OVER_CURRENT n.val)).arm (.ocBlank n.val)
        (s.fld Fd.USB_USB_CTL_OC_BLANK * msPs))

/-- CLEAR_PORT_POWER. -/
def execClearPortPower (n : Fin 5) (s : State) : Host.Outcome State Fault Refusal :=
  .next (if !s.connected then s
    else if n.val = 4 then (s.setUsb { s.usb with fnOff := true }).fnDefault
    else s.portOff n.val)

/-- PORT_RESET. -/
def execPortReset (n : Fin 4) (s : State) : Host.Outcome State Fault Refusal :=
  .next (if s.connected && s.flag (Fd.USB_DS_STAT_POWER n.val) && s.flag (Fd.USB_DS_STAT_CONNECT n.val) then
      ((s.on (Fd.USB_DS_STAT_RESET n.val)).off (Fd.USB_DS_STAT_ENABLE n.val)).arm (.portReset n.val) (12 * msPs)
    else s)

/-- PORT_RESET_END: the speed found is reported (R274). -/
def execPortResetEnd (n : Fin 4) (speed : Fin 3) (s : State) : Host.Outcome State Fault Refusal :=
  .next (s.expiry (.portReset n.val) fun s =>
    (((s.off (Fd.USB_DS_STAT_RESET n.val)).on (Fd.USB_DS_STAT_ENABLE n.val)).setFld (Fd.USB_DS_STAT_SPEED n.val)
      speed.val).portChange n.val .reset)

/-- PORT_CONNECTION_CHANGE: a port reset in progress ends (R274). -/
def execPortConnectionChange (n : Fin 4) (attached : Bool) (s : State) : Host.Outcome State Fault Refusal :=
  .next (if s.connected && s.flag (Fd.USB_DS_STAT_POWER n.val) then
      let s := (s.setFlag (Fd.USB_DS_STAT_CONNECT n.val) attached).off (Fd.USB_DS_STAT_RESET n.val)
      let s := (s.cancel (.portReset n.val)).portChange n.val .connection
      if attached then s else ((s.off (Fd.USB_DS_STAT_ENABLE n.val)).off (Fd.USB_DS_STAT_SUSPEND n.val)).setFld
        (Fd.USB_DS_STAT_SPEED n.val) 0
    else s)

/-- OVER_CURRENT: ignored without power and while the blanking time runs (R273). -/
def execOverCurrent (n : Fin 4) (s : State) : Host.Outcome State Fault Refusal :=
  .next (if !s.flag (Fd.USB_DS_STAT_POWER n.val) || s.live (.ocBlank n.val) then s
    else
      let s := ((s.portOff n.val).on (Fd.USB_DS_STAT_OVER_CURRENT n.val)).on (Fd.USB_DS_STAT_OC_SEEN n.val)
      ((s.portChange n.val .overCurrent).bump Reg.USB_OC_CNT).stationEvent 0x04 (n.val + 1))

/-- BABBLE (R275). -/
def execBabble (n : Fin 4) (s : State) : Host.Outcome State Fault Refusal :=
  .next (if s.flag (Fd.USB_DS_STAT_ENABLE n.val) then
      (((s.off (Fd.USB_DS_STAT_ENABLE n.val)).on (Fd.USB_DS_STAT_PORT_BABBLE n.val)).portChange n.val .enable).bump
        Reg.USB_BABBLE_CNT
    else s)

/-! ### The station function (R278 to R286) -/

/-- The station function takes tokens. -/
def State.fnUp (s : State) : Bool := s.connected && !s.suspended && !s.usb.fnOff && s.usbMode && s.mode != .drowse
def State.fnReady (s : State) : Bool := s.fnUp && s.flag Fd.USB_USB_STAT_CONFIGURED
def State.isoReady (s : State) : Bool := s.fnReady && s.fld Fd.USB_USB_STAT_ALT != 0 && s.mode != .recovery

/-- At high speed (R271). -/
def State.highSpeed (s : State) : Bool := s.fld Fd.USB_USB_STAT_SPEED == 2

/-- JOURNAL_STREAM_PACKET: an IN token on EP1 (R279, R280). A buffer not filled, as it never is with the stream off, is a missed interval and
RD_POS stays; setting 1 sends one packet in a microframe, setting 2 up to three. -/
def execJournalStreamPacket (token : StreamToken) (s : State) : Host.Outcome State Fault Refusal :=
  .next (if !s.isoReady then s
    else
      let s := if token.first then s.setUsb { s.usb with sent := 0 } else s
      if !s.streaming || !token.ready then (s.bump Reg.USB_MISSED_EP1).emit (.usb 1 [])
      else if (if s.fld Fd.USB_USB_STAT_ALT = 2 then 3 else 1) ≤ s.usb.sent then s
      else
        let p := s.rdPos 2
        let k := min 64 (s.wrTotal - p)
        let bytes := (List.range k).flatMap fun i => s.readBytes (s.recAddr (p + i)) 16
        ((s.setUsb { s.usb with sent := s.usb.sent + 1 }).wr64 (Reg.RD_RD_POS_LO 2) (Reg.RD_RD_POS_HI 2) (p + k)).emit (.usb 1 bytes))

/-- As many whole entry records as fit in `room` bytes, and the rest. -/
def fitRecords (room : Nat) : List (List Byte) → List Byte × List (List Byte)
  | [] => ([], [])
  | r :: t =>
    if r.length ≤ room then
      let (b, rest) := fitRecords (room - r.length) t
      (r ++ b, rest)
    else ([], r :: t)

/-- SNAPSHOT_PACKET (R279, R281): Pass-through sends zero-length packets that do not count as missed (R287). -/
def execSnapshotPacket (ready : Bool) (s : State) : Host.Outcome State Fault Refusal :=
  .next (if !s.isoReady then s
    else if s.mode = .passThrough then s.emit (.usb 5 [])
    else
      match s.usb.snap, ready with
      | some recs, true =>
        let (body, rest) := fitRecords 1016 recs
        let head := leBytes 4 s.usb.swaps ++ leBytes 2 s.usb.part ++ [if rest.isEmpty then 1#8 else 0#8, 0#8]
        (s.emit (.usb 5 (head ++ body))).setUsb
          { s.usb with part := s.usb.part + 1, snap := if rest.isEmpty then none else some rest }
      | _, _ => (s.bump Reg.USB_MISSED_EP5).emit (.usb 5 []))

/-- The cycle image swapped (R281): a new snapshot of `recs` begins, or is skipped while the bus is suspended. -/
def State.usbSwap (recs : List (List Byte)) (s : State) : State :=
  if !s.fnReady && !s.suspended || s.fld Fd.USB_USB_STAT_ALT = 0 then s
  else
    let s := s.setUsb { s.usb with swaps := s.usb.swaps + 1 }
    if s.suspended then s
    else (s.onlyIf s.usb.snap.isSome (·.bump Reg.USB_IMG_TRUNC)).setUsb { s.usb with part := 0, snap := some recs }

def StEvent.encode (e : StEvent) : List Byte :=
  [BitVec.ofNat 8 e.code, if e.lost then 1#8 else 0#8] ++ leBytes 2 e.arg ++ leBytes 4 e.time

/-- EVENT_PACKET: up to 8 events; NAK without one (R279, R282). -/
def execEventPacket (s : State) : Host.Outcome State Fault Refusal :=
  .next (if !s.fnReady then s
    else
      match s.usb.events with
      | [] => s.emit (.usbNak 2)
      | l => (s.emit (.usb 2 ((l.take 8).flatMap StEvent.encode))).setUsb { s.usb with events := l.drop 8 })

/-- A completion message (R283). -/
def MsgCpl.encode (c : MsgCpl) : List Byte :=
  let body := [0x02#8, BitVec.ofNat 8 (Status.code c.status)] ++ leBytes 2 c.ttag ++
    leBytes 2 (c.ring.toNat * 2 ^ 10 + c.node.toNat * 2) ++ [0#8, 0#8] ++ leBytes 2 c.data.length ++ [0#8, 0#8] ++ c.data
  body ++ List.replicate ((4 - body.length % 4) % 4) 0#8

/-- Bytes of one bulk packet (R278). -/
def State.bulkMax (s : State) : Nat := if s.highSpeed then 512 else 64

/-- The next packet of the completion message on EP4. -/
def State.sendEp4 (msg : List Byte) (s : State) : State :=
  (s.setUsb { s.usb with ep4 := msg.drop s.bulkMax }).emit (.usb 4 (msg.take s.bulkMax))

/-- TUNNEL_COMPLETION: an IN token on EP4 takes the next packet of the completion that is being sent, or of the next completion of INIT 2;
NAK without one (R279, R284). -/
def execTunnelCompletion (s : State) : Host.Outcome State Fault Refusal :=
  .next (if !s.fnReady then s
    else if !s.usb.ep4.isEmpty then s.sendEp4 s.usb.ep4
    else
      match s.txn.cpls.find? fun c => c.init == 2 with
      | none => s.emit (.usbNak 4)
      | some c => State.sendEp4 c.encode { s with txn := { s.txn with cpls := s.txn.cpls.erase c } })

/-- A vendor request (R286): it abandons an open transfer; without its status stage it stays open and has no effect. -/
def State.vendor (done : Bool) (f : State → State) (s : State) : State :=
  if !s.fnUp then s
  else
    let s := s.ctrlAbort
    if done then f s else s.setUsb { s.usb with ctrlOpen := true }

/-- The first `n` bytes of the identity area (18 R440). -/
def idBytes (epoch n : Nat) : List Byte :=
  (leBytes 4 0x4160 ++ leBytes 4 0x2F1C0011 ++ leBytes 8 Config.serial.toNat ++ leBytes 4 0x00010002 ++
    leBytes 4 (epoch % 64 * 256 + 1) ++ List.replicate 8 0#8 ++ (List.range 32).map Config.keyHash ++
    List.replicate (n - 64) 0#8).take n

/-- GET_IDENTITY. -/
def execGetIdentity (done : Bool) (s : State) : Host.Outcome State Fault Refusal :=
  .next (s.vendor done fun t => t.emit (.usb 0 (idBytes (t.fld Fd.UPD_EPOCH_FUSED) 64)))

/-- JSTREAM_START: a position above WR_TOTAL is answered STALL; one that has been overwritten is moved on as an overrun (R189). -/
def execJstreamStart (pos : BitVec 64) (done : Bool) (s : State) : Host.Outcome State Fault Refusal :=
  .next (s.vendor done fun t =>
    if t.wrTotal < pos.toNat then t.emit .usbStall
    else
      let u := t.on Fd.USB_JSTREAM_EN
      let here := u.wr64 (Reg.RD_RD_POS_LO 2) (Reg.RD_RD_POS_HI 2)
      (here pos.toNat).noteReader 2 (here t.wrTotal))

/-- JSTREAM_STOP. -/
def execJstreamStop (done : Bool) (s : State) : Host.Outcome State Fault Refusal :=
  .next (s.vendor done fun t => t.off Fd.USB_JSTREAM_EN)

/-- GET_JRN_POS. -/
def execGetJrnPos (done : Bool) (s : State) : Host.Outcome State Fault Refusal :=
  .next (s.vendor done fun t => t.emit (.usb 0 (leBytes 8 t.wrTotal ++ leBytes 8 (t.rdPos 2) ++ leBytes 8 t.jrnCap)))

/-- SET_IMG_SEL. -/
def execSetImgSel (sel : BitVec 64) (done : Bool) (s : State) : Host.Outcome State Fault Refusal :=
  .next (s.vendor done fun t => t.wr64 Reg.USB_IMG_SEL_LO Reg.USB_IMG_SEL_HI sel.toNat)

/-- GET_SVC: `level` is the level of SVC_N. -/
def execGetSvc (level : Bool) (done : Bool) (s : State) : Host.Outcome State Fault Refusal :=
  .next (s.vendor done fun t => t.emit (.usb 0 [if level then 1#8 else 0#8]))

/-! ### Registers and modes (R287, R288) -/

/-- Writes in the USB block, by offset within it. -/
def State.usbWrite (off : Nat) (w : Word) (s : State) : Option Res :=
  if s.asleepOrLoading then some (refuse .wrongMode s)
  else
    match off with
    | 0x000 =>
      some (if bits w 8 8 = 0 then refuse .badRequest s
        else if s.connected ∧ (bits w 0 1 = 1) ≠ (s.flag Fd.USB_USB_CTL_EN = true) then refuse .wrongMode s
        else (.ok, (s.wr Reg.USB_USB_CTL (w &&& 0xFF07#32)).tryConnect))
    | 0x008 => some (if s.connected then refuse .wrongMode s else (.ok, s.wr Reg.USB_USB_ID w))
    | _ => none

/-- After a mode change: the pull-up goes where the mode does not let it stand, and comes where it does (R287). -/
def State.usbModeChange (s : State) : State :=
  if s.mode = .drowse then s
  else if s.connected && !(s.usbMode && s.flag Fd.USB_USB_CTL_EN) then s.disconnect
  else s.tryConnect

end Sys2Proof.Machine
end

