-- ==== Sys2Proof/Machine/Cycle.lean ====
section
/-!
DEFINITION. Cycle frames (06_cycle_frames.md): snapshots and publication, launch, fill, reflection and absorption of copies,
subscriptions and their apply, take-over by a backup, and the CYC registers.
-/

namespace Sys2Proof.Machine

/-- This node launches the stream (R152, R153). -/
def State.launches (s : State) (t : Nat) : Bool :=
  s.cycRuns t && s.onRing && s.hasIdentity && (s.fld (Fd.CYC_STR_CFG_ROLE t) == 1 || (s.str t).takeover)

/-- Bitmap of the slots valid for cycle `k`. -/
def validMap (p : List Byte) (slotLen n k : Nat) : BitVec 256 :=
  BitVec.ofNat 256 ((List.range n).foldl (fun m i => if slotValid p slotLen i k then m + 2 ^ i else m) 0)

/-! ### Publishing (R157, R158) -/

/-- One publishable item: its bytes, and whether it is sent as zero because its unit is in reset. -/
def State.pubItem (s : State) (i : Nat) : List Byte × Bool :=
  let n := s.fld (Fd.CYC_PUB_ITEM_COUNT i)
  let x := s.fld (Fd.CYC_PUB_ITEM_INDEX i)
  match s.fld (Fd.CYC_PUB_ITEM_KIND i) with
  | 0 => ((List.range 32).map fun b =>
      BitVec.ofNat 8 ((List.range 8).foldl (fun v j => if s.level (8 * b + j) then v + 2 ^ j else v) 0), false)
  | 1 =>
    let dead := (List.range n).any fun j => decide (x + j < 64) && s.unitBusy (.bobbin (Fin.ofNat 64 (x + j)))
    if dead then (List.replicate (4 * n) 0#8, true)
    else ((List.range n).flatMap fun j => if x + j < 64 then leBytes 4 (s.rd (Reg.BOB_RX_LAST (x + j))).toNat else List.replicate 4 0#8,
      false)
  | 2 =>
    let c := x / 512
    if s.unitBusy (.can (Fin.ofNat 8 c)) then (List.replicate (80 * n) 0#8, true)
    else (s.readBytes (objAddr c (x % 512)) (80 * n), false)
  | _ => (s.measRecord, false)

/-- Length of an item in bytes (R157). -/
def itemLen (kind count : Nat) : Nat := if kind = 0 then 32 else if kind = 1 then 4 * count else if kind = 2 then 80 * count else 80

def State.pubItems (s : State) : List Nat := (List.range 4).filter fun i => s.flag (Fd.CYC_PUB_ITEM_EN i)
def State.pubLen (s : State) : Nat :=
  s.pubItems.foldl (fun a i => a + itemLen (s.fld (Fd.CYC_PUB_ITEM_KIND i)) (s.fld (Fd.CYC_PUB_ITEM_COUNT i))) 0

/-- CYCLE_SNAPSHOT: at T_k + SNAP_OFS the items are taken, concatenated and padded to SLOT_LEN (R157). -/
def State.snapshot (s : State) : State :=
  let t := s.fld Fd.CYC_PUB_CFG_STREAM
  if !s.cycRuns t || !s.flag Fd.CYC_PUB_CFG_EN || !s.onRing then s
  else
    let k := s.cycFor t (max s.cyc.snapNext (max s.cyc.pubFrom (s.str t).from_))
    let s := s.toTime (s.cycStart t k + s.fld Fd.CYC_SNAP_OFS_TIME)
    let items := s.pubItems.map s.pubItem
    let bytes := items.flatMap (·.1)
    let s := s.bumpBy Reg.CYC_PUB_ZERO (items.filter (·.2)).length
    s.setCyc { s.cyc with
      snapNext := k + 1
      snap := some (k, (bytes ++ List.replicate (s.slotLen t) 0#8).take (s.slotLen t)) }
def execCycleSnapshot (s : State) : Host.Outcome State Fault Refusal := .next s.snapshot

/-! ### Launch (R152, R154, R155) -/

/-- The payload of a launch (R155, R156). -/
def State.launchPayload (s : State) (t k : Nat) : List Byte :=
  let st := s.str t
  let prev := decide (st.launchNext = k) && decide (0 < k)
  let b := fun (c : Bool) (n : Nat) => if c && prev then n else 0
  [BitVec.ofNat 8 t, BitVec.ofNat 8 (s.nslot t), BitVec.ofNat 8 (b st.retW 2 + b st.retE 1), 0#8] ++
  beBytes 4 (k % 2 ^ 32) ++ beBytes 8 (s.cycStart t k) ++ leBytes 32 (if prev then st.echo.toNat else 0) ++
  List.replicate (s.nslot t * (s.slotLen t + 2)) 0#8

/-- CYCLE_LAUNCH: at T_k + LAUNCH_OFS one copy leaves each ring port (R152); copies of the launch before that have not been
absorbed count in RET_MISS (R163). -/
def State.cycLaunch (t : Nat) (s : State) : State :=
  if !s.launches t then s
  else
    let st := s.str t
    let k := s.cycFor t (max st.launchNext st.from_)
    let s := s.toTime (s.cycStart t k + s.fld (Fd.CYC_LAUNCH_OFS_TIME t))
    let n := s.ringOuts.length
    let p := s.filled t k (s.launchPayload t k)
    let f := s.formFrame Kd.cycle 7#3 (BitVec.ofNat 6 t) (BitVec.ofNat 6 s.ownRing) 511#9 0#9 0#4 p
    let s := (s.bumpBy Reg.CYC_RET_MISS st.due).bumpBy Reg.CYC_LAUNCH_CNT n
    let s := s.setStr t { st with launchNext := k + 1, due := n, retE := false, retW := false, echo := 0#256 }
    s.launch { f with da := macBroadcast s.ownRing } none s.epoch
def execCycleLaunch (t : Fin 32) (s : State) : Host.Outcome State Fault Refusal := .next (s.cycLaunch t.val)

/-! ### Subscriptions (R159, R160, R162) -/

/-- Address of entry `j` in half `h` of the image. -/
def State.imageAt (s : State) (h j : Nat) : Nat := 0x1000000000 + s.fld Fd.CYC_CYC_CTL_CHURN * 0x40000 + h * 0x4000 + 256 * j
def State.half (s : State) : Nat := s.fld Fd.CYC_CYC_STAT_HALF

def State.subLen (s : State) (j : Nat) : Nat := s.fld (Fd.CYC_SUB_CFG_LEN j)

/-- Enabled subscriptions of stream `t` that take part in cycle `k`. -/
def State.subsOf (s : State) (t k : Nat) : List Nat :=
  (List.range 64).filter fun j => s.flag (Fd.CYC_SUB_CFG_EN j) && s.fld (Fd.CYC_SUB_CFG_STREAM j) == t &&
    decide (Tab.get 0 s.cyc.subFrom j ≤ k)

/-- The subscribed slots of a copy that are valid for cycle `k`. -/
def State.slotsIn (s : State) (t k : Nat) (p : List Byte) : List (Nat × List Byte) :=
  (s.subsOf t k).filterMap fun j =>
    let n := s.fld (Fd.CYC_SUB_CFG_SLOT j)
    if slotValid p (s.slotLen t) n k then some (j, (p.drop (slotAt (s.slotLen t) n + 2)).take (s.subLen j)) else none

/-- Commit slots of cycle `k` to the filling half: an entry takes the first copy that commits it (R159). -/
def State.commitSlots (k : Nat) (l : List (Nat × List Byte)) (s : State) : State :=
  s.forEach l fun e t =>
    if Tab.get 0 t.cyc.got e.1 = k + 1 then t
    else (t.writeBytes (t.imageAt (1 - t.half) e.1) e.2).setCyc { t.cyc with got := Tab.set 0 t.cyc.got e.1 (k + 1) }

/-- CYCLE_COPY_COMMIT: the FCS of the copy on port `p` checks. A copy that ends after its apply is not read (R159, R160). -/
def State.copyCommit (p : Nat) (s : State) : State :=
  match s.cyc.staged.find? fun c => c.port == p with
  | none => s
  | some c =>
    let s := s.setCyc { s.cyc with staged := s.cyc.staged.filter fun d => d.port != p }
    if s.unitBusy .cycle then s
    else if c.k < (s.str c.stream).applyNext then s.bump Reg.CYC_SUB_LATE else s.commitSlots c.k c.slots
def execCycleCopyCommit (p : Fin 2) (s : State) : Host.Outcome State Fault Refusal := .next (s.copyCommit p.val)

/-- A copy of cycle `k` has arrived (R153): a backup that launches stops at one of another node. -/
def State.noteCopy (t k : Nat) (f : Frame) (s : State) : State :=
  let st := s.str t
  let foreign := f.sa != s.ownMac
  s.setStr t { st with
    seen := k + 1
    takeover := st.takeover && !foreign
    missed := if foreign then 0 else st.missed }

/-- What reading a copy of cycle `k` does (R158 to R160): one after its apply counts in SUB_LATE, an errored one in COPY_BAD, and the
subscribed slots of the others are staged. -/
def State.readCopy (p t k : Nat) (f : Frame) (good : Bool) (s : State) : State :=
  let u := s.noteCopy t k f
  if k < (s.str t).applyNext then u.bump Reg.CYC_SUB_LATE
  else if !good then u.bump Reg.CYC_COPY_BAD
  else u.setCyc { u.cyc with
    staged := u.cyc.staged.filter (fun d => d.port != p) ++ [{ port := p, stream := t, k, slots := s.slotsIn t k f.payload }] }

/-- A master that reads a reflected copy in passing adds its valid slots to ECHO (R163). -/
def State.echoCopy (t k : Nat) (b : List Byte) (s : State) : State :=
  let st := s.str t
  if s.launches t && decide (st.launchNext = k + 1 ∧ st.applyNext ≤ k) then
    s.setStr t { st with echo := st.echo ||| validMap b (s.slotLen t) (s.nslot t) k }
  else s

/-! ### Reflected copies (R164) -/

/-- A copy that could not leave is injected back on the port where it arrived, as a reflected copy (R164). -/
def State.reflect (p : Nat) (f : Frame) (payload : List Byte) (s : State) : State :=
  let (q, s) := s.takeSeq 7
  let r := { f with
    sa := s.ownMac
    dir := !f.dir
    seq := q
    hops := BitVec.ofNat 10 (s.fld Fd.WARDEN_RING_CTL_HOP_BUDGET)
    rsv := 0#11
    payload := putBE payload 2 1 (fieldBE payload 2 1 / 8 * 8 + 4 + fieldBE payload 2 1 % 4) }
  (s.bump Reg.CYC_LAUNCH_CNT).localIn r.sealed s.epoch [p]

/-- The bit of a CYCLE payload that marks a reflected copy (R155). -/
def reflected (b : List Byte) : Bool := fieldBE b 2 1 / 4 % 2 == 1

/-- A passing CYCLE copy has come to its end: a copy of the current cycle `k` is read, and a good one that could not leave is reflected with
the node's own slot filled (R159, R163, R164). -/
def State.copyIn (p : Nat) (f : Frame) (k : Option Nat) (stuck good : Bool) (s : State) : State :=
  let b := f.payload
  let t := fieldBE b 0 1 % 32
  let s := match k with
    | none => s
    | some k => (s.onlyIf (reflected b && good) (State.echoCopy t k b)).readCopy p t k f good
  if stuck && good && !reflected b && s.hasIdentity then
    s.reflect p f ((k.map fun k => s.filled t k b).getD b)
  else s

/-- A returned copy of this node's own launch, stripped and good, is absorbed in Seamless and Split, whether or not the node still launches
the stream (R163, R166). -/
def State.absorb (f : Frame) (s : State) : State :=
  let b := f.payload
  let t := fieldBE b 0 1 % 32
  if !s.cycRuns t || !s.onRing || reflected b then s
  else
    let s := s.bump Reg.CYC_ABSORB_CNT
    let st := s.str t
    if st.launchNext = 0 ∨ (st.launchNext - 1) % 2 ^ 32 ≠ fieldBE b 4 4 then s.bump Reg.CYC_CNUM_BAD
    else
      let k := st.launchNext - 1
      let st := { st with
        due := st.due - 1
        retE := st.retE || !f.dir
        retW := st.retW || f.dir
        echo := st.echo ||| validMap b (s.slotLen t) (s.nslot t) k }
      let s := s.setStr t st
      let s := (s.setFlag (Fd.CYC_STR_STAT_E_RET t) st.retE).setFlag (Fd.CYC_STR_STAT_W_RET t) st.retW
      if k < st.applyNext then s.bump Reg.CYC_SUB_LATE else s.commitSlots k (s.slotsIn t k b)

/-! ### Apply (R160, R161) -/

/-- Pins that entry `j` covers (R161). -/
def subPins (index len : Nat) : List Nat := (List.range (8 * len)).filterMap fun n => if index + n ≤ 255 then some (index + n) else none

/-- The pins of an entry go to their safe levels (R161, 07 R179). -/
def State.safePins (j : Nat) (s : State) : State :=
  s.forEach (subPins (s.fld (Fd.CYC_SUB_DEST_INDEX j)) (s.subLen j)) fun n t =>
    if t.ownedBy n (.cycle j) then
      let c := t.fld (Fd.PIN_CFG_SAFE n)
      t.setPin n { t.pin n with value := c == 2, enable := c == 1 || c == 2, keep := c == 0 }
    else t

/-- Drive the pins of an entry from its data. -/
def State.drivePins (j : Nat) (d : List Byte) (s : State) : State :=
  let x := s.fld (Fd.CYC_SUB_DEST_INDEX j)
  s.forEach (subPins x (s.subLen j)) fun n t =>
    if t.ownedBy n (.cycle j) then t.drive n ((d.getD ((n - x) / 8) 0#8).getLsbD ((n - x) % 8)) true else t

/-- Push the words of an entry into the TX queue of its bobbin. -/
def State.pushWords (n : Nat) (d : List Byte) (s : State) : State :=
  s.forEach (List.range (d.length / 4)) fun i t =>
    let v := BitVec.ofNat 32 (leVal ((d.drop (4 * i)).take 4))
    if t.bobLent n then (t.on (Fd.BOB_STAT_TX_OVF n)).bump Reg.CYC_APPLY_OVF
    else
      match t.pushTx n v false with
      | (.ok, u) => u
      | (_, u) => u.bump Reg.CYC_APPLY_OVF

/-- What entry `j` drives from the applied half (R161). -/
def State.driveEntry (j : Nat) (s : State) : State :=
  let d := s.readBytes (s.imageAt s.half j) (s.subLen j)
  match s.fld (Fd.CYC_SUB_DEST_KIND j) with
  | 1 =>
    let hold := s.fld (Fd.CYC_SUB_DEST_HOLD_MAX j)
    if hold ≠ 0 ∧ hold ≤ s.fld (Fd.CYC_SUB_STAT_STALE_RUN j) then s.safePins j else s.drivePins j d
  | 2 =>
    let n := s.fld (Fd.CYC_SUB_DEST_INDEX j)
    if n < 64 then s.pushWords n d else s
  | _ => s

/-- SUB_FRESH bit of entry `j`. -/
def freshFld (j : Nat) : Fld := if j < 32 then ⟨Reg.CYC_SUB_FRESH_LO, j, 1⟩ else ⟨Reg.CYC_SUB_FRESH_HI, j - 32, 1⟩

/-- Settle entry `j` at the apply of cycle `k`: fresh, or stale with its bytes copied forward (R160). -/
def State.settle (k j : Nat) (s : State) : State :=
  if Tab.get 0 s.cyc.got j = k + 1 then
    ((s.on (freshFld j)).setFld (Fd.CYC_SUB_STAT_CNUM_LAST j) k).setFld (Fd.CYC_SUB_STAT_STALE_RUN j) 0
  else
    let s := s.writeBytes (s.imageAt (1 - s.half) j) (s.readBytes (s.imageAt s.half j) (s.subLen j))
    ((s.off (freshFld j)).bumpFld (Fd.CYC_SUB_STAT_STALE_RUN j) 1).bump Reg.CYC_SUB_STALE

/-- An entry of another stream keeps its applied and its filling bytes across the swap. -/
def State.exchange (j : Nat) (s : State) : State :=
  let a := s.readBytes (s.imageAt 0 j) (s.subLen j)
  let b := s.readBytes (s.imageAt 1 j) (s.subLen j)
  (s.writeBytes (s.imageAt 0 j) b).writeBytes (s.imageAt 1 j) a

/-- The EP5 record of entry `j` (11 R281). -/
def State.entryRecord (s : State) (j : Nat) : List Byte :=
  let n := s.subLen j
  leBytes 4 (s.fld (Fd.CYC_SUB_STAT_CNUM_LAST j) * 2 ^ 17 + n * 2 ^ 8 + (if s.flag (freshFld j) then 64 else 0) + j) ++
  s.readBytes (s.imageAt s.half j) n ++ List.replicate ((4 - n % 4) % 4) 0#8

/-- The records of the entries that IMG_SEL names, ascending (11 R281). -/
def State.imageRecords (s : State) : List (List Byte) :=
  let sel := s.rd64 Reg.USB_IMG_SEL_LO Reg.USB_IMG_SEL_HI
  ((List.range 64).filter fun j => sel / 2 ^ j % 2 == 1).map s.entryRecord

/-- CYCLE_APPLY: at T_k + APPLY_OFS the entries of the stream are settled, the halves swap, the destinations are driven
(R160, R161), and a backup counts an apply without a copy (R153). -/
def State.cycApply (t : Nat) (s : State) : State :=
  if !s.cycRuns t || !s.cycFills then s
  else
    let k := max (max (s.str t).applyNext (s.str t).from_) ((s.cycNow t).getD 0)
    let s := s.toTime (s.cycStart t k + s.fld (Fd.CYC_APPLY_OFS_TIME t))
    let own := s.subsOf t k
    let others := (List.range 64).filter fun j => s.flag (Fd.CYC_SUB_CFG_EN j) && !own.contains j
    let s := s.forEach own (State.settle k)
    let s := s.forEach others State.exchange
    let s := s.setFld Fd.CYC_CYC_STAT_HALF (1 - s.half)
    let s := s.forEach own State.driveEntry
    let st := s.str t
    let s := s.setStr t { st with
      applyNext := k + 1
      missed := if st.seen = k + 1 then 0 else st.missed + 1 }
    s.usbSwap s.imageRecords
def execCycleApply (t : Fin 32) (s : State) : Host.Outcome State Fault Refusal := .next (s.cycApply t.val)

/-- CYCLE_MASTER_TAKEOVER: after three apply times without a copy a backup launches from the next cycle (R153). -/
def State.cycTakeover (t : Nat) (s : State) : State :=
  let st := s.str t
  if s.cycRuns t && s.onRing && s.fld (Fd.CYC_STR_CFG_ROLE t) == 2 && decide (3 ≤ st.missed) && !st.takeover then
    (s.setStr t { st with takeover := true, launchNext := max st.launchNext st.applyNext }).bump Reg.CYC_MASTER_TAKEOVER
  else s
def execCycleMasterTakeover (t : Fin 32) (s : State) : Host.Outcome State Fault Refusal := .next (s.cycTakeover t.val)

/-- The engine starts with the next cycle boundary of each stream (R166). -/
def State.cycEnter (s : State) : State :=
  s.forEach (List.range 32) fun t u =>
    if u.flag (Fd.CYC_STR_CFG_EN t) then
      u.setStr t { u.str t with from_ := u.cycNext t, missed := 0, takeover := false }
    else u

/-! ### Registers (R167) -/

/-- A write that changes something other than EN while `en` is set (R167). -/
def touches (old w mask : Word) : Bool := (old ^^^ w) &&& mask &&& 0x7FFFFFFF#32 != 0#32

/-- The publication fits its stream (R167). -/
def State.pubFits (s : State) (t slot : Nat) : Bool :=
  decide (s.fld Fd.CYC_SNAP_OFS_TIME + 2000 ≤ s.fld (Fd.CYC_LAUNCH_OFS_TIME t)) && decide (slot < s.nslot t) &&
    decide (s.pubLen ≤ s.slotLen t)

/-- The enabled subscriptions of stream `t`. -/
def State.liveSubs (s : State) (t : Nat) : List Nat :=
  (List.range 64).filter fun j => s.flag (Fd.CYC_SUB_CFG_EN j) && s.fld (Fd.CYC_SUB_CFG_STREAM j) == t

/-- Setting EN of stream `t` passes the checks of R167, for its publication and for the subscriptions that are enabled too. -/
def State.streamFits (s : State) (t : Nat) (w : Word) : Bool :=
  let p := s.fld (Fd.CYC_PERIOD_TIME t)
  let n := bits w 16 8
  let l := bits w 0 9
  decide (31250 ≤ p ∧ p ≤ 65536000) && decide (s.fld (Fd.CYC_LAUNCH_OFS_TIME t) < s.fld (Fd.CYC_APPLY_OFS_TIME t)) &&
    decide (s.fld (Fd.CYC_APPLY_OFS_TIME t) < p) && decide (1 ≤ n ∧ n ≤ 240) && decide (4 ≤ l ∧ l ≤ 256) &&
    decide (48 + n * (l + 2) ≤ 1488) &&
    (!(s.flag Fd.CYC_PUB_CFG_EN && s.fld Fd.CYC_PUB_CFG_STREAM == t) ||
      (decide (s.fld Fd.CYC_SNAP_OFS_TIME + 2000 ≤ s.fld (Fd.CYC_LAUNCH_OFS_TIME t)) &&
        decide (s.fld Fd.CYC_PUB_CFG_SLOT < n) && decide (s.pubLen ≤ l))) &&
    (s.liveSubs t).all fun j => decide (s.subLen j ≤ l) && decide (s.fld (Fd.CYC_SUB_CFG_SLOT j) < n)

/-- Stream `t` starts at its next cycle start, and with it the publication and the subscriptions that name it: cycles count from the BASE
and PERIOD that stand now (R167). Copies of its last launch still count as missing if they do not return (R163). -/
def State.startStream (t : Nat) (s : State) : State :=
  let n := s.cycNext t
  let s := s.setStr t { from_ := n, launchNext := n, applyNext := n, due := (s.str t).due }
  let s := s.onlyIf (s.flag Fd.CYC_PUB_CFG_EN && s.fld Fd.CYC_PUB_CFG_STREAM == t) fun u =>
    u.setCyc { u.cyc with pubFrom := n, snapNext := n, snap := none }
  s.forEach (s.liveSubs t) fun j u =>
    u.setCyc { u.cyc with subFrom := Tab.set 0 u.cyc.subFrom j n, got := Tab.set 0 u.cyc.got j 0 }

/-- A write of STR_CFG. -/
def State.writeStream (t : Nat) (w : Word) (s : State) : Res :=
  let old := s.rd (Reg.CYC_STR_CFG t)
  let m := 0xB0FF01FF#32
  if old.getLsbD 31 && touches old w m then refuse .wrongMode s
  else if bits w 28 2 = 3 then refuse .badRequest s
  else if w.getLsbD 31 && !old.getLsbD 31 then
    if !s.streamFits t w then refuse .badRequest s else (.ok, (s.wr (Reg.CYC_STR_CFG t) (w &&& m)).startStream t)
  else (.ok, s.wr (Reg.CYC_STR_CFG t) (w &&& m))

/-- A write of PUB_CFG. -/
def State.writePub (w : Word) (s : State) : Res :=
  let old := s.rd Reg.CYC_PUB_CFG
  let m := 0x9F0000FF#32
  let t := bits w 24 5
  if old.getLsbD 31 && touches old w m then refuse .wrongMode s
  else if w.getLsbD 31 && !old.getLsbD 31 then
    if !s.pubFits t (bits w 0 8) then refuse .badRequest s
    else (.ok, (s.wr Reg.CYC_PUB_CFG (w &&& m)).setCyc { s.cyc with pubFrom := s.cycNext t, snapNext := s.cycNext t, snap := none })
  else (.ok, s.wr Reg.CYC_PUB_CFG (w &&& m))

/-- A write of SUB_CFG: enabling claims the pins of a KIND 1 entry, disabling releases them (R167, 07 R171, R172). -/
def State.writeSub (j : Nat) (w : Word) (s : State) : Res :=
  let old := s.rd (Reg.CYC_SUB_CFG j)
  let m := 0x9FFF01FF#32
  let t := bits w 24 5
  let kind := s.fld (Fd.CYC_SUB_DEST_KIND j)
  let x := s.fld (Fd.CYC_SUB_DEST_INDEX j)
  if old.getLsbD 31 && touches old w m then refuse .wrongMode s
  else if w.getLsbD 31 && !old.getLsbD 31 then
    let l := bits w 0 9
    let dest := if kind = 1 then x % 8 == 0 && decide (x ≤ 255) else if kind = 2 then decide (x < 64) else true
    if !(decide (1 ≤ l ∧ l ≤ 256) && decide (l ≤ s.slotLen t) && decide (bits w 16 8 < s.nslot t) && dest) then refuse .badRequest s
    else
      match (if kind = 1 then s.claim (.cycle j) (subPins x l) else (.ok, s)) with
      | (.ok, u) =>
        (.ok, (u.wr (Reg.CYC_SUB_CFG j) (w &&& m)).setCyc { u.cyc with
          subFrom := Tab.set 0 u.cyc.subFrom j (u.cycNext t)
          got := Tab.set 0 u.cyc.got j 0 })
      | r => r
  else if old.getLsbD 31 && !w.getLsbD 31 && kind == 1 then
    (.ok, (s.wr (Reg.CYC_SUB_CFG j) (w &&& m)).release (.cycle j) (subPins x (bits old 0 9)))
  else (.ok, s.wr (Reg.CYC_SUB_CFG j) (w &&& m))

/-- CYC_CTL: EN needs a churn that the cycle engine owns (R167); an engine that starts takes each stream at its next
boundary. -/
def State.writeCycCtl (w : Word) (s : State) : Res :=
  if w.getLsbD 31 && s.fld (Fd.MEM_CHURN_OWN_OWNER (bits w 0 4)) != 4 then refuse .busy s
  else
    let was := s.flag Fd.CYC_CYC_CTL_EN
    let t := s.wr Reg.CYC_CYC_CTL (w &&& 0x8000000F#32)
    (.ok, t.onlyIf (w.getLsbD 31 && !was) State.cycEnter)

/-- A register that may be written only while its unit is disabled. -/
def State.whenOff (busy : Bool) (ok : Bool) (a : Nat) (v : Word) (s : State) : Res :=
  if busy && v != s.rd a then refuse .wrongMode s
  else if !ok then refuse .badRequest s
  else (.ok, s.wr a v)

/-- A write to CYC. -/
def State.cycWrite (off : Nat) (w : Word) (s : State) : Option Res :=
  if off = 0x000 then some (s.writeCycCtl w)
  else if off = 0x010 then some (s.writePub w)
  else if off = 0x014 then some (s.whenOff (s.flag Fd.CYC_PUB_CFG_EN) true Reg.CYC_SNAP_OFS (w &&& 0x3FFFFFF#32))
  else if 0x020 ≤ off ∧ off < 0x030 then
    some (s.whenOff (s.flag Fd.CYC_PUB_CFG_EN) (decide (bits w 28 3 < 4)) (0x40000 + off) (w &&& 0xF07F0FFF#32))
  else if 0x100 ≤ off ∧ off < 0x500 then
    let t := (off - 0x100) / 0x20
    let reg := fun (m : Word) => some (s.whenOff (s.flag (Fd.CYC_STR_CFG_EN t)) true (0x40000 + off) (w &&& m))
    match (off - 0x100) % 0x20 with
    | 0x00 => some (s.writeStream t w)
    | 0x04 => reg 0x3FFFFFF#32
    | 0x08 => reg 0xFFFFFFFF#32
    | 0x0C => reg 0xFFFFFFFF#32
    | 0x10 => reg 0x3FFFFFF#32
    | 0x14 => reg 0x3FFFFFF#32
    | _ => none
  else if 0x800 ≤ off ∧ off < 0xC00 then
    let j := (off - 0x800) / 0x10
    match (off - 0x800) % 0x10 with
    | 0x0 => some (s.writeSub j w)
    | 0x4 => some (s.whenOff (s.flag (Fd.CYC_SUB_CFG_EN j)) (decide (bits w 30 2 < 3)) (Reg.CYC_SUB_DEST j) (w &&& 0xC0FF01FF#32))
    | _ => none
  else if 0x8000 ≤ off ∧ off < 0xC000 then some (refuse .denied s)
  else none

/-- Derived CYC values: ACTIVE, CNUM, LAUNCHING, and the IMAGE window over the applied half (R162). -/
def State.cycRead (s : State) (off : Nat) : Option Word :=
  if off = 0x004 then
    some (putBits (s.rd Reg.CYC_CYC_STAT) 0 1 (if s.flag Fd.CYC_CYC_CTL_EN && s.onRing && !s.unitBusy .cycle then 1 else 0))
  else if 0x100 ≤ off ∧ off < 0x500 then
    let t := (off - 0x100) / 0x20
    match (off - 0x100) % 0x20 with
    | 0x18 => some (BitVec.ofNat 32 (if s.flag (Fd.CYC_STR_CFG_EN t) then (s.cycNow t).getD 0 else 0))
    | 0x1C => some (putBits (s.rd (Reg.CYC_STR_STAT t)) 2 1 (if s.launches t then 1 else 0))
    | _ => none
  else if 0x8000 ≤ off ∧ off < 0xC000 then
    some (BitVec.ofNat 32 (leVal (s.readBytes (s.imageAt s.half ((off - 0x8000) / 256) + off % 256) 4)))
  else none

/-- STREAM_EN_WRITE: a write of the register that holds EN. -/
def execStreamEnWrite (u : CycUnit) (w : Word) (s : State) : Host.Outcome State Fault Refusal :=
  .next (s.command (some .cycle) fun v => match u with
    | .stream t => v.writeStream t.val w
    | .publication => v.writePub w
    | .subscription j => v.writeSub j.val w)

end Sys2Proof.Machine
end

