-- ==== Sys2Proof/Machine/Stitch.lean ====
section
/-!
DEFINITION. The stitch bus bridge (10_stitch_bus_bridge.md R245 to R268): windows and byte order, the bridge queue, bus
cycles, prefetch buffers, the stitch lock, interrupts and registers.
-/

namespace Sys2Proof.Machine

def State.setStb (b : Bridge) (s : State) : State := { s with stb := b }

/-! ### Windows and byte order (R251 to R253) -/

/-- Window `w` as its registers define it. -/
def State.stWin (s : State) (w : Nat) : StWin :=
  { win := w, base := bits (s.rd (Reg.WIN_BASE w)) 0 28 * 4096, size := 2 ^ bits (s.rd (Reg.WIN_SIZE w)) 0 6,
    tgt := bits (s.rd (Reg.WIN_TGT_BASE w)) 12 20 * 4096, cfg := s.rd (Reg.WIN_WIN_CFG w),
    tmo := bits (s.rd (Reg.WIN_TMO w)) 0 16 }

def StWin.enabled (m : StWin) : Bool := m.cfg.getLsbD 31
/-- W, in bytes. -/
def StWin.width (m : StWin) : Nat := 2 ^ bits m.cfg 8 2
def StWin.border (m : StWin) : Nat := bits m.cfg 12 2
def StWin.prefetch (m : StWin) : Bool := m.cfg.getLsbD 16
def StWin.lockable (m : StWin) : Bool := m.cfg.getLsbD 17
def StWin.covers (m : StWin) (a : Nat) : Bool := decide (m.base ≤ a ∧ a < m.base + m.size)

/-- The enabled window that covers a local address (R251). -/
def State.windowAt (s : State) (a : Nat) : Option StWin :=
  ((List.range 16).map s.stWin).find? fun m => m.enabled && m.covers a

/-- Bus address of the byte at offset `o` (R253). -/
def StWin.busAddr (m : StWin) (o : Nat) : Nat :=
  m.tgt + (if m.border = 2 then o ^^^ 1 else if m.border = 3 then o ^^^ 3 else o)

/-- Its lane (R253). -/
def StWin.lane (m : StWin) (o : Nat) : Nat :=
  let b := m.busAddr o % m.width
  if m.border = 0 then b else m.width - 1 - b

/-- The offsets of each beat of `n` bytes from offset `o`, at aligned W-byte boundaries (R250). -/
def StWin.beats (m : StWin) (o n : Nat) : List (List Nat) :=
  let w := m.width
  (List.range ((o + n - 1) / w - o / w + 1)).map fun i =>
    (List.range w).filterMap fun j =>
      let x := (o / w + i) * w + j
      if o ≤ x ∧ x < o + n then some x else none

/-- ST_BE_N of a beat. -/
def StWin.enables (m : StWin) (offs : List Nat) : Nat := offs.foldl (fun a o => a - 2 ^ m.lane o) 15

/-- ST_AD of a write beat; unused lanes are 0. -/
def StWin.drives (m : StWin) (val : Nat → Byte) (offs : List Nat) : Nat :=
  offs.foldl (fun a o => a + (val o).toNat * 2 ^ (8 * m.lane o)) 0

/-- ST_AD in the address phase: the lowest bus address among the enabled bytes. -/
def StWin.phase (m : StWin) (offs : List Nat) : Nat :=
  match offs.map m.busAddr with
  | [] => 0
  | b :: t => t.foldl min b

/-- Beats grouped into bus cycles (R250): with BURST up to 16 beats within an aligned block of 16 beats. -/
def StWin.cycles (m : StWin) : List (List Nat) → List (List (List Nat))
  | [] => []
  | b :: t =>
    let key := fun (x : List Nat) => (m.tgt + x.headD 0) / (16 * m.width)
    match StWin.cycles m t with
    | (c :: g) :: r => if m.cfg.getLsbD 18 ∧ key b = key c then (b :: c :: g) :: r else [b] :: (c :: g) :: r
    | r => [b] :: r

/-- The bus cycles of beats as they stand on the bus. -/
def StWin.onBus (m : StWin) (write : Bool) (val : Nat → Byte) (beats : List (List Nat)) : Out :=
  .stitch (bits m.cfg 0 3) write ((m.cycles beats).map fun c =>
    (m.phase (c.headD []), c.map fun b => (m.enables b, if write then m.drives val b else 0)))

/-- The bytes that sampled beats carry, in ascending offset. -/
def StWin.sampled (m : StWin) (beats : List (List Nat)) (ad : List (Word × Bool)) : List Byte :=
  (beats.zip ad).flatMap fun e => e.1.map fun o => BitVec.ofNat 8 (bits e.2.1 (8 * m.lane o) 8)

/-- Whether any beat of the word at offset `o` was sampled with a side effect. -/
def wordSens (beats : List (List Nat)) (ad : List (Word × Bool)) (o : Nat) : Bool :=
  (beats.zip ad).any fun e => e.2.2 && e.1.any fun x => x / 4 == o / 4

/-! ### Prefetch buffers (R258 to R261) -/

/-- The aligned 64-byte blocks of offset that `n` bytes from `o` touch. -/
def blocksOf (o n : Nat) : List Nat := (List.range ((o + n - 1) / 64 - o / 64 + 1)).map fun i => (o / 64 + i) * 64

/-- What a discarded buffer reports (R261): its first sensitive word that was never returned. -/
def State.sensReport (b : PfBuf) (cause : Nat) (s : State) : State :=
  match (List.range 16).find? fun i => b.sens.getLsbD i && !b.used.getLsbD i with
  | none => s
  | some i =>
    let a := b.map.base + b.block + 4 * i
    let s := s.bump Reg.STB_PF_SENS_CNT
    let s := if s.flag Fd.STB_EVT_PF_SENS then s
      else (((s.wr Reg.STB_PF_SENS_ADDR_LO (BitVec.ofNat 32 a)).wr Reg.STB_PF_SENS_ADDR_HI
        (BitVec.ofNat 32 (b.map.win * 2 ^ 16 + a / 2 ^ 32 % 256))).on Fd.STB_EVT_PF_SENS)
    s.sysRec 0x00A (b.map.win + i * 16 + cause * 256)

/-- A discard: its counter and its report (R260). -/
def State.discardBuf (cause : Nat) (b : PfBuf) (s : State) : State :=
  let s := if cause = 0 then s.bump Reg.STB_PF_WR_DISCARD else if cause = 1 then s.bump Reg.STB_PF_AGED else s
  s.sensReport b cause

/-- Discard the buffers that `p` picks. -/
def State.discardIf (cause : Nat) (p : PfBuf → Bool) (s : State) : State :=
  let out := s.stb.bufs.filter p
  (s.setStb { s.stb with bufs := s.stb.bufs.filter fun b => !p b }).forEach out (State.discardBuf cause)

/-- Discard the buffers whose 50 µs have passed. -/
def State.ageBufs (s : State) : State := s.discardIf 1 fun b => decide (b.filled + 50000 ≤ s.now)

/-- Place a filled block, replacing the least recently used of 8 buffers (R258); a block that a write touched while it was
being filled is discarded at once, and so is one whose window has been cleared since (R260). -/
def State.placeBuf (b : PfBuf) (s : State) : State :=
  if s.stb.spoiled.contains b.block then s.discardBuf 0 b
  else if s.stWin b.map.win != b.map then s.discardBuf 3 b
  else
    let keep := s.stb.bufs.take 7
    let out := s.stb.bufs.drop 7
    (s.setStb { s.stb with bufs := b :: keep }).forEach out (State.discardBuf 2)

/-- The words of a block that a request for `n` bytes from `o` returns. -/
def usedWords (block o n : Nat) : BitVec 16 :=
  (List.range 16).foldl (fun a i =>
    if o < block + 4 * i + 4 ∧ block + 4 * i < o + n then a ||| BitVec.ofNat 16 (2 ^ i) else a) 0#16

/-- The valid buffer that holds block `k` of a window. -/
def State.bufOf (s : State) (win k : Nat) : Option PfBuf := s.stb.bufs.find? fun b => b.map.win == win && b.block == k

/-- Mark the words that a request for `n` bytes from `o` returns out of the buffers (R261). -/
def State.markUsed (m : StWin) (o n : Nat) (s : State) : State :=
  s.setStb { s.stb with
    bufs := s.stb.bufs.map fun b => if b.map.win = m.win then { b with used := b.used ||| usedWords b.block o n } else b }

/-- A buffer serves its block and is the most recently used (R258). -/
def State.hitBuf (b : PfBuf) (s : State) : State :=
  (s.bump Reg.STB_PF_HIT).setStb { s.stb with
    bufs := b :: s.stb.bufs.filter (fun x => !(x.map.win == b.map.win && x.block == b.block))
    got := s.stb.got ++ [(b.block, b.data)] }

/-- Serve blocks in ascending order up to the first that no buffer holds; it and the rest are left (R258). -/
def State.serveBufs (m : StWin) : List Nat → State → State
  | [], s => s.setStb { s.stb with left := [] }
  | k :: l, s =>
    match s.bufOf m.win k with
    | some b => State.serveBufs m l (s.hitBuf b)
    | none => s.setStb { s.stb with left := k :: l }

/-! ### The queue (R254) -/

def StReq.offset (e : StReq) : Nat := e.req.addr.toNat - e.map.base
def StReq.reads (e : StReq) : Bool := e.kind == .read || e.kind == .lread
def StReq.buffered (e : StReq) : Bool := e.kind == .read && e.map.prefetch

/-- A request enters the bridge queue. A read-ahead not started is dropped, a write or lock discards the buffers of its blocks,
one being filled as its fill ends, and an LWRITE stops the lock's timer (R259, R260, R263). -/
def State.enterBridge (e : StReq) (s : State) : State :=
  let s := s.setStb { s.stb with queue := s.stb.queue ++ [e], ahead := [] }
  let s := s.peak Fd.STB_QPEAK_PEAK s.stb.queue.length
  let s := if e.kind = .lwrite then s.cancel .stitchLock else s
  if e.kind = .read then s
  else
    let blocks := blocksOf e.offset e.req.bytes.toNat
    let s := s.discardIf 0 fun b => b.map.win == e.map.win && blocks.contains b.block
    let filling := if s.stb.queue.head?.map (·.map.win) = some e.map.win then s.stb.left else []
    s.setStb { s.stb with spoiled := s.stb.spoiled ++ filling.filter fun b => blocks.contains b }

/-- A request mapped to a window goes to the bridge; with 16 in its queue it waits, in arrival order (R251, R254). -/
def State.toBridge (k : ReqKind) (q : Request) (m : StWin) (s : State) : State :=
  let s : State := { s with txn := { s.txn with serve := eraseReq k q s.txn.serve } }
  if 16 ≤ s.stb.queue.length then s.setStb { s.stb with waiting := s.stb.waiting ++ [⟨k, q, m⟩] }
  else s.enterBridge ⟨k, q, m⟩

def State.stitchLocked (s : State) : Bool := s.txn.locks.any fun l => l.2.stitch

/-- No bus cycle is in progress: ST_LOCK_N stands as the lock does (R263). -/
def State.idleLock (s : State) : State := s.setStb { s.stb with lockLow := s.stitchLocked }

/-- The head leaves the queue, and the request that has waited longest enters. -/
def State.popBridge (s : State) : State :=
  let s := (s.setStb { s.stb with queue := s.stb.queue.drop 1, running := false, left := [], spoiled := [], got := [] }).idleLock
  let s := match s.stb.waiting with
    | [] => s
    | e :: w => (s.setStb { s.stb with waiting := w }).enterBridge e
  s.pullBacklog

/-! ### The stitch lock (R262, R263) -/

/-- The lock is gone; ST_LOCK_N rises at the end of any bus cycle in progress, or at once. -/
def State.dropStitchLock (s : State) : State :=
  let s := State.cancel .stitchLock { s with txn := { s.txn with locks := s.txn.locks.filter fun l => !l.2.stitch } }
  if s.stb.running then s else s.idleLock

/-- The lock was released without its LWRITE (R268). -/
def State.noteBrk (s : State) : State := (s.bump Reg.STB_LOCK_BRK_CNT).on Fd.STB_EVT_LOCK_BRK

/-- The lock is released without its LWRITE (R263, R264). -/
def State.breakStitchLock (s : State) : State :=
  if s.stitchLocked then (s.dropStitchLock.bump Reg.TXN_LOCK_EXPIRED).noteBrk else s

/-- The lowest free lock slot. -/
def State.freeLock (s : State) : Option Nat := (List.range 8).find? fun k => !(s.txn.locks.any fun l => l.1 == k)

/-- STITCH_LOCK_EXPIRY. -/
def execStitchLockExpiry (s : State) : Host.Outcome State Fault Refusal :=
  .next (s.expiry .stitchLock State.breakStitchLock)

/-! ### Running a request (R247 to R262) -/

/-- The bridge runs bus cycles (R265, R267, 01 R24). -/
def State.bridgeRuns (s : State) : Bool :=
  (s.onRing || s.mode == .isolated) && !s.boot.drowsy && !s.anat.kaHeld && !s.anat.mainHeld && !s.unitBusy .stitch &&
    s.flag Fd.STB_STB_CTL_EN && !s.flag Fd.STB_STB_CTL_RST_OUT

/-- A READ that ended well lets the next PF_DEPTH blocks be read ahead (R259). -/
def State.planAhead (e : StReq) (s : State) : State :=
  if !e.buffered then s
  else
    let last := (e.offset + e.req.bytes.toNat - 1) / 64 * 64
    let next := ((List.range (bits e.map.cfg 24 2)).map fun i => last + 64 * (i + 1)).filter fun k =>
      decide (k < e.map.size) && (s.bufOf e.map.win k).isNone &&
        !(s.stb.ahead.any fun a => a.1.win == e.map.win && a.2 == k)
    s.setStb { s.stb with ahead := s.stb.ahead ++ next.map fun k => (e.map, k) }

/-- Bytes `o` to `o + n - 1` out of blocks. -/
def gather (blocks : List (Nat × List Byte)) (o n : Nat) : List Byte :=
  (List.range n).map fun i => ((blocks.lookup ((o + i) / 64 * 64)).getD []).getD ((o + i) % 64) 0#8

/-- The head completes OK with `data`. -/
def State.bridgeOk (e : StReq) (data : List Byte) (s : State) : State :=
  let s := s.popBridge
  let s := if e.kind = .lread then s.arm .stitchLock (20 * usPs)
    else if e.kind = .lwrite then s.dropStitchLock else s
  (s.planAhead e).complete1 e.kind e.req .ok data

/-- The head becomes the running request: locks are judged again, buffers serve what they hold (R126, R258, R262). -/
def State.startBridge (e : StReq) (s : State) : State :=
  let other := (s.txn.locks.any fun l => l.2.stitch && !l.2.holds e.req) || (e.kind == .lread && s.freeLock.isNone)
  if other ∧ e.kind ≠ .read then State.fail e.kind e.req (refuse .busy s.popBridge)
  else
    let n := e.req.bytes.toNat
    let s := s.bump (if e.reads then Reg.STB_RD_REQ else Reg.STB_WR_REQ)
    let s := s.setStb { s.stb with running := true, began := s.now, left := [], spoiled := [], got := [] }
    let s := if e.buffered then s.ageBufs.serveBufs e.map (blocksOf e.offset n) else s
    let s : State := if e.kind = .lread then
        match s.freeLock with
        | some k => { s with
            txn := { s.txn with locks := s.txn.locks ++ [(k,
              { ring := e.req.srcRing, node := e.req.srcNode, init := e.req.init, cls := e.req.cls, flow := e.req.flow,
                lo := 0x2000000000, hi := 0x3000000000, stitch := true })] }
            stb := { s.stb with lockLow := true } }
        | none => s
      else s
    if e.buffered && s.stb.left.isEmpty then (s.markUsed e.map e.offset n).bridgeOk e (gather s.stb.got e.offset n) else s

/-- BRIDGE_REQUEST: the head starts its bus cycles; a READ that buffers serve whole needs none. -/
def execBridgeRequest (s : State) : Host.Outcome State Fault Refusal :=
  .next (match s.stb.queue with
    | [] => s
    | e :: _ => if s.stb.running || !s.bridgeRuns then s else s.startBridge e)

/-- A block as read from the bus: the words sampled with a side effect (R261). -/
def filledBuf (m : StWin) (k : Nat) (ad : List (Word × Bool)) (used : BitVec 16) (at_ : Nat) : PfBuf :=
  let bs := m.beats k 64
  { map := m, block := k, data := m.sampled bs ad, used, filled := at_,
    sens := (List.range 16).foldl (fun (v : BitVec 16) i =>
      if wordSens bs ad (k + 4 * i) then v ||| BitVec.ofNat 16 (2 ^ i) else v) 0#16 }

/-- The blocks left to a READ, in ascending order (R258): a block that a buffer holds by now is served from it, another takes its beats
from the bus and is placed. `taken` beats are taken in all; the block in which they end is not placed. `ok` says that the READ ends
well, so that its words are returned (R261). Answers the beats that have stood on the bus, the one after `taken` included, and
whether every block was served. -/
def State.runBlocks (e : StReq) (ok : Bool) (ad : List (Word × Bool)) (taken : Nat) :
    List Nat → State → (List (List Nat) × Bool) × State
  | [], s => (([], true), s)
  | k :: l, s =>
    let used := if ok then usedWords k e.offset e.req.bytes.toNat else 0#16
    match s.bufOf e.map.win k with
    | some b => State.runBlocks e ok ad taken l (s.hitBuf { b with used := b.used ||| used })
    | none =>
      let bs := e.map.beats k 64
      if taken < bs.length then ((bs.take (taken + 1), false), s)
      else
        let b := filledBuf e.map k (ad.take bs.length) used s.now
        let r := State.runBlocks e ok (ad.drop bs.length) (taken - bs.length) l
          ((s.setStb { s.stb with got := s.stb.got ++ [(k, b.data)] }).placeBuf b)
        ((bs ++ r.1.1, r.1.2), r.2)

/-- BRIDGE_REQUEST_END: every beat is taken (R254). A READ whose beats are not all sampled has not ended. -/
def State.endBridge (e : StReq) (ad : List (Word × Bool)) (s : State) : State :=
  let n := e.req.bytes.toNat
  if e.buffered then
    let r := s.runBlocks e true ad ad.length s.stb.left
    if !r.1.2 then s
    else
      let t := (r.2.emit (e.map.onBus false (fun _ => 0#8) r.1.1)).markUsed e.map e.offset n
      t.bridgeOk e (gather t.stb.got e.offset n)
  else
    let beats := e.map.beats e.offset n
    if e.reads && decide (ad.length < beats.length) then s
    else
      let s := s.emit (e.map.onBus (!e.reads) (fun o => e.req.data.getD (o - e.offset) 0#8) beats)
      s.bridgeOk e (if e.reads then e.map.sampled beats ad else [])

/-- BRIDGE_REQUEST_END. -/
def execBridgeRequestEnd (beats : List (Word × Bool)) (s : State) : Host.Outcome State Fault Refusal :=
  .next (match s.stb.queue with
    | [] => s
    | e :: _ => if s.stb.running && s.bridgeRuns then s.endBridge e beats else s)

/-- A bus cycle ended in error at local address `a` of a window (R255, R256). -/
def State.busError (m : StWin) (a cause : Nat) (s : State) : State :=
  let s := (s.bump Reg.STB_ERR_CNT).on Fd.STB_EVT_ERR
  (s.wr Reg.STB_ERR_INFO_LO (BitVec.ofNat 32 a)).wr Reg.STB_ERR_INFO_HI
    (BitVec.ofNat 32 (cause * 2 ^ 20 + m.win * 2 ^ 16 + a / 2 ^ 32 % 256))

/-- The beats that have stood on the bus when `taken` of the head have been taken, the failed one last, with the state in which
the blocks before it are placed; none when the head has no further beat. -/
def State.cutBeats (e : StReq) (taken : Nat) (ad : List (Word × Bool)) (s : State) : Option (List (List Nat) × State) :=
  if e.buffered then
    let r := s.runBlocks e false ad taken s.stb.left
    if r.1.2 then none else some (r.1.1, r.2)
  else
    let beats := e.map.beats e.offset e.req.bytes.toNat
    if taken < beats.length then some (beats.take (taken + 1), s) else none

/-- A request ends in error at beat `taken` (R255, R256): beats before it stay as they are. -/
def State.failBridge (e : StReq) (taken : Nat) (ad : List (Word × Bool)) (cause : Nat) (s : State) : State :=
  match s.cutBeats e taken ad with
  | none => s
  | some (beats, s) =>
    let s := s.emit (e.map.onBus (!e.reads) (fun o => e.req.data.getD (o - e.offset) 0#8) beats)
    let s := (s.busError e.map (e.map.base + (beats.getLastD []).headD e.offset) cause).popBridge
    let s := if e.kind = .lread ∨ e.kind = .lwrite then s.dropStitchLock else s
    let s := if cause = 1 then (s.bump Reg.STB_TMO_CNT).on Fd.STB_EVT_TMO else s
    State.fail e.kind e.req (refuse .farError s)

/-- ST_ERR. -/
def execStErr (taken : Nat) (beats : List (Word × Bool)) (s : State) : Host.Outcome State Fault Refusal :=
  .next (match s.stb.queue with
    | [] => s
    | e :: _ => if s.stb.running && s.bridgeRuns then s.failBridge e taken beats 0 else s)

/-- WINDOW_TIMEOUT: the time counter has moved on by TMO µs since the first address phase (R256). -/
def execWindowTimeout (taken : Nat) (beats : List (Word × Bool)) (s : State) : Host.Outcome State Fault Refusal :=
  .next (match s.stb.queue with
    | [] => s
    | e :: _ =>
      if s.stb.running && s.bridgeRuns then (s.toTime (s.stb.began + 1000 * e.map.tmo)).failBridge e taken beats 1 else s)

/-- READ_AHEAD: the next block ahead is read while the bridge queue is empty (R259); a block buffered since it was planned is passed
over. `failed` when it ends in error at the beat after those sampled. -/
def State.readAhead (ad : List (Word × Bool)) (failed : Bool) (s : State) : State :=
  if !s.stb.queue.isEmpty || !s.bridgeRuns then s
  else
    let s := s.ageBufs
    match s.stb.ahead.filter fun a => (s.bufOf a.1.win a.2).isNone with
    | [] => s.setStb { s.stb with ahead := [] }
    | (m, k) :: t =>
      let beats := m.beats k 64
      let s := s.setStb { s.stb with ahead := t, spoiled := [] }
      if failed then
        let s := s.emit (m.onBus false (fun _ => 0#8) (beats.take (ad.length + 1)))
        s.busError m (m.base + (beats.getD ad.length []).headD k) 0
      else if ad.length < beats.length then s.setStb { s.stb with ahead := (m, k) :: t }
      else
        let s := (s.emit (m.onBus false (fun _ => 0#8) beats)).bump Reg.STB_PF_AHEAD
        s.placeBuf (filledBuf m k ad 0#16 s.now)

/-- READ_AHEAD. -/
def execReadAhead (beats : List (Word × Bool)) (failed : Bool) (s : State) : Host.Outcome State Fault Refusal :=
  .next (s.readAhead beats failed)

/-- PREFETCH_AGED: the buffer filled first reaches 50 µs (R260). -/
def execPrefetchAged (s : State) : Host.Outcome State Fault Refusal :=
  .next (match s.stb.bufs with
    | [] => s
    | b :: t => (s.toTime ((t.foldl (fun a x => min a x.filled) b.filled) + 50000)).ageBufs)

/-! ### Reset, modes, interrupts (R264 to R266) -/

/-- Discard every buffer with cause 3. -/
def State.discardAll (s : State) : State :=
  let s := s.discardIf 3 fun _ => true
  s.setStb { s.stb with ahead := [] }

/-- Every request in the queue, and every one that waits for it, is answered with a status; the bus is idle. -/
def State.flushBridge (st : Status) (s : State) : State :=
  let q := s.stb.queue ++ s.stb.waiting
  (s.setStb { s.stb with queue := [], waiting := [], running := false, left := [], spoiled := [], got := [] }).idleLock
    |>.forEach q (fun e t => State.fail e.kind e.req (refuse st t)) |>.pullBacklog

/-- A reset of the bridge (R264). -/
def State.bridgeReset (s : State) : State :=
  let s := s.onlyIf s.stb.running (·.bump Reg.STB_RST_CUT)
  ((s.flushBridge .targetReset).breakStitchLock).discardAll

/-- Entry to Pass-through or Standby, where the bus is idle or not driven: buffers and the lock go (R265). The requests in the bridge, the
running one cut, get the answer of the mode (DESIGN CHOICE, log 132). -/
def State.bridgeIdle (s : State) : State := ((s.flushBridge .wrongMode).discardAll).breakStitchLock

/-- The lines that interrupt the control processor (R266). -/
def State.stitchIrqs (s : State) : Word := s.rd Reg.STB_IRQ_PEND &&& s.rd Reg.STB_IRQ_EN_CP

/-- STITCH_IRQ: a change of ST_IRQ_N[k] (R266). In level mode the pending bit follows the low level. -/
def State.stitchIrq (k : Nat) (low : Bool) (s : State) : State :=
  let was := s.flag ⟨Reg.STB_IRQ_STAT, k, 1⟩
  let pend : Fld := ⟨Reg.STB_IRQ_PEND, k, 1⟩
  let edge := s.flag ⟨Reg.STB_IRQ_CFG, k, 1⟩
  let t := s.setFlag ⟨Reg.STB_IRQ_STAT, k, 1⟩ low
  (if edge then t.onlyIf (low && !was) (·.on pend) else t.setFlag pend low).irqRise 0xC0000 State.stitchIrqs s

/-- STITCH_IRQ: observed in every mode in which the main domain runs. -/
def execStitchIrq (k : Fin 4) (low : Bool) (s : State) : Host.Outcome State Fault Refusal :=
  .next (if s.anat.kaHeld || s.anat.mainHeld then s else s.stitchIrq k.val low)

/-! ### Registers (R252, R267) -/

/-- Whether a window definition may be enabled (R252): `others` are the other enabled windows. -/
def StWin.mayEnable (m : StWin) (log2 : Nat) (others : List StWin) : Bool :=
  decide (12 ≤ log2 ∧ log2 ≤ 32) && decide (0x2000000000 ≤ m.base ∧ m.base + m.size ≤ 0x3000000000) &&
    m.base % m.size == 0 && !(others.any fun x => decide (m.base < x.base + x.size ∧ x.base < m.base + m.size)) &&
    decide (m.tgt + m.size ≤ 2 ^ 32) &&
    (m.border == 0 || (m.border == 3 && m.width == 4) || (m.border != 3 && m.width != 1)) &&
    bits m.cfg 24 2 != 3 && m.tmo != 0

/-- A write of WIN_CFG (R252, R267). -/
def State.winCfg (i : Nat) (w : Word) (s : State) : Res :=
  let v := w &&& 0x83FF3307#32
  let was := s.stWin i
  if s.asleepOrLoading then refuse .wrongMode s
  else if was.enabled then
    if v = was.cfg then (.ok, s)
    else if v = was.cfg &&& 0x7FFFFFFF#32 then
      let t := (s.wr (Reg.WIN_WIN_CFG i) v).discardIf 3 fun b => b.map.win == i
      (.ok, t.setStb { t.stb with ahead := t.stb.ahead.filter fun a => a.1.win != i })
    else refuse .wrongMode s
  else if bits v 8 2 = 3 then refuse .badRequest s
  else
    let others := ((List.range 16).filter (· != i)).map s.stWin |>.filter StWin.enabled
    if v.getLsbD 31 ∧ ({ was with cfg := v }).mayEnable (bits (s.rd (Reg.WIN_SIZE i)) 0 6) others = false then
      refuse .badRequest s
    else (.ok, s.wr (Reg.WIN_WIN_CFG i) v)

/-- WINDOW_ENABLE: the write of WIN_CFG with EN = 1. -/
def execWindowEnable (w : Fin 16) (cfg : Word) (s : State) : Host.Outcome State Fault Refusal :=
  .next (s.command (some .stitch) fun t => t.winCfg w.val (cfg ||| 0x80000000#32))

/-- A write of STB_CTL (R260, R267). -/
def State.stbCtl (w : Word) (s : State) : Res :=
  if s.asleepOrLoading then refuse .wrongMode s
  else if !s.stb.queue.isEmpty || s.stitchLocked then refuse .busy s
  else (.ok, s.discardAll.wr Reg.STB_STB_CTL (w &&& 3#32))

/-- STB_CTL_WRITE. -/
def execStbCtlWrite (w : Word) (s : State) : Host.Outcome State Fault Refusal :=
  .next (s.command (some .stitch) fun t => t.stbCtl w)

/-- A window register other than WIN_CFG: it may change only while EN = 0 (R267). -/
def State.winReg (i reg : Nat) (v : Word) (s : State) : Res :=
  if (s.stWin i).enabled = true ∧ v ≠ s.rd reg then refuse .wrongMode s else (.ok, s.wr reg v)

/-- Writes in the STB block, by offset within it. -/
def State.stbWrite (off : Nat) (w : Word) (s : State) : Option Res :=
  if s.asleepOrLoading then some (refuse .wrongMode s)
  else if 0x400 ≤ off ∧ off < 0x800 then
    let i := (off - 0x400) / 0x40
    match (off - 0x400) % 0x40 with
    | 0x00 => some (s.winCfg i w)
    | 0x04 => some (s.winReg i (Reg.WIN_BASE i) (w &&& 0x0FFFFFFF#32))
    | 0x08 => some (s.winReg i (Reg.WIN_SIZE i) (w &&& 0x3F#32))
    | 0x0C => some (s.winReg i (Reg.WIN_TGT_BASE i) (w &&& 0xFFFFF000#32))
    | 0x10 => some (s.winReg i (Reg.WIN_TMO i) (w &&& 0xFFFF#32))
    | _ => none
  else
    match off with
    | 0x000 => some (s.stbCtl w)
    | 0x030 =>
      let edge := w &&& 0xF#32
      let t := s.wr Reg.STB_IRQ_CFG edge
      some (.ok, (t.wr Reg.STB_IRQ_PEND ((t.rd Reg.STB_IRQ_PEND &&& edge) ||| (t.rd Reg.STB_IRQ_STAT &&& ~~~edge))).irqRise 0xC0000
        State.stitchIrqs s)
    | 0x038 =>
      let held := s.rd Reg.STB_IRQ_STAT &&& ~~~s.rd Reg.STB_IRQ_CFG
      some (.ok, s.wr Reg.STB_IRQ_PEND (s.rd Reg.STB_IRQ_PEND &&& ~~~(w &&& ~~~held)))
    | 0x03C => some (.ok, (s.wr Reg.STB_IRQ_EN_CP (w &&& 0xF#32)).irqRise 0xC0000 State.stitchIrqs s)
    | _ => none

/-- Derived STB values: STB_STAT (R254, R262, R265). -/
def State.stbRead (s : State) (off : Nat) : Option Word :=
  if off = 0x004 then
    let service := s.onRing || s.mode == .isolated
    let b := fun (c : Bool) (i : Nat) => if c then 2 ^ i else 0
    let level := (service || s.mode == .passThrough || s.mode == .drowse) && s.flag Fd.STB_STB_CTL_EN &&
      !s.flag Fd.STB_STB_CTL_RST_OUT && !s.unitBusy .stitch
    some (BitVec.ofNat 32 (s.stb.queue.length * 2 ^ 16 + b s.stb.lockLow 8 + b (service || s.mode == .passThrough) 2 +
      b s.stb.running 1 + b level 0))
  else none

end Sys2Proof.Machine
end

