-- ==== Sys2Proof/Machine/Time.lean ====
section
/-!
DEFINITION. The time counter, PTP domains and link delay, jumps and steps, and picots (12_time_and_picots.md R290 to R318).
The loop filter of a servo is not given by the spec: its frequency and phase terms are free values within the limits of R291 and R302, the
RATE it shows a free value.
-/

namespace Sys2Proof.Machine

def State.dom (s : State) (d : Nat) : DomainState := Tab.get {} s.tim.doms d
def State.setDom (d : Nat) (v : DomainState) (s : State) : State :=
  { s with tim := { s.tim with doms := Tab.set {} s.tim.doms d v } }
def State.setTim (t : TimeState) (s : State) : State := { s with tim := t }
def State.sel (s : State) : Nat := s.fld Fd.TIME_TIME_STAT_SEL
def presentFld (d : Nat) : Fld := ⟨Reg.TIME_TIME_STAT, 2 + d, 1⟩
def lockFld (d : Nat) : Fld := ⟨Reg.TIME_TIME_STAT, d, 1⟩

/-- JUMP_THRESHOLD in 2⁻¹⁶ ns. -/
def State.jumpLimit (s : State) : Nat := s.fld Fd.TIME_JUMP_THRESHOLD_TIME * 65536

/-- Whole ns of a 2⁻¹⁶ ns offset, as a saturating signed 32-bit word. -/
def ofsWord (x : Int) : Word :=
  let n := Int.tdiv x 65536
  BitVec.ofInt 32 (max (-2147483648) (min 2147483647 n))

/-- OFS[d] in 2⁻¹⁶ ns. -/
def State.ofs (s : State) (d : Nat) : Int := signed 32 (s.rd (Reg.DOM_OFS d)).toNat * 65536

/-- INCREMENT limits of R291, in 2⁻³² ns: ±1,000 ppm of nominal. -/
def incrLo : Nat := 10984121162
def incrHi : Nat := 11006111394

def State.setIncr (v : Nat) (s : State) : State :=
  (s.wr Reg.TIME_INCR_FRAC (BitVec.ofNat 32 v)).wr Reg.TIME_INCR_NS (BitVec.ofNat 32 (v / 2 ^ 32 % 256))

/-- SLEW_LIMIT of the nominal INCREMENT, in 2⁻³² ns (R302). -/
def State.slewIncr (s : State) : Nat := s.fld Fd.TIME_SLEW_LIMIT_PPM * 10995116278 / 1000000

/-- Load INCREMENT with the frequency term and a phase term, within ±1,000 ppm of nominal (R291). -/
def State.applyIncr (phase : Int) (s : State) : State :=
  s.setIncr (max (incrLo : Int) (min incrHi (s.tim.freq + phase))).toNat

/-- The steering servo sets INCREMENT: its frequency term lies within ±1,000 ppm of nominal, its phase term within ±SLEW_LIMIT; a slew in progress
takes the whole of SLEW_LIMIT, against the sign of the offset (R291, R302, R304). -/
def State.steer (s : State) : State :=
  let bw := BitVec.ofNat 2 (s.fld Fd.TIME_SERVO_CFG_BW)
  let (k, s) := s.useFree
  let (j, s) := s.useFree
  let s := s.setTim { s.tim with freq := incrLo + (Config.servo bw k).toNat % (incrHi - incrLo + 1) }
  s.applyIncr (match s.tim.slew with
    | some (_, o) => if 0 < o then -(s.slewIncr : Int) else s.slewIncr
    | none => ((Config.servo bw j).toNat % (2 * s.slewIncr + 1) : Nat) - (s.slewIncr : Int))

/-! ### Picots under a step (R315) -/

def State.pic (s : State) (i : Nat) : PicState := Tab.get {} s.tim.pics i
def State.setPic (i : Nat) (v : PicState) (s : State) : State :=
  { s with tim := { s.tim with pics := Tab.set {} s.tim.pics i v } }

/-- P in units of 2⁻¹⁶ ns (R310). -/
def State.picP (s : State) (i : Nat) : Nat :=
  (s.rd (Reg.PIC_PERIOD_NS i)).toNat * 65536 + s.fld (Fd.PIC_PERIOD_FRAC_FRAC i)

/-- The counter value, in ns, at which t_k is reached: t_k is exact, and the counter is compared in whole ns. -/
def State.picAt (s : State) (i k : Nat) : Nat :=
  s.rd64 (Reg.PIC_START_LO i) (Reg.PIC_START_HI i) + (k * s.picP i + 65535) / 65536

def State.picPeriodic (s : State) (i : Nat) : Bool := s.flag (Fd.PIC_PIC_CTL_MODE i)
def State.picRuns (s : State) (i : Nat) : Bool := s.flag (Fd.PIC_PIC_STAT_RUNNING i)

/-- Set the output level and the pin. -/
def State.picLevel (i : Nat) (active : Bool) (s : State) : State :=
  let v := active != s.flag (Fd.PIC_PIC_CTL_POL i)
  let s := s.setFlag (Fd.PIC_PIC_STAT_LEVEL i) v
  if s.flag (Fd.PIC_PIC_CTL_PIN_EN i) then s.drive (s.fld (Fd.PIC_PIC_CTL_PIN i)) v true else s

/-- The series ends when COUNT pulses are over, or the one shot (R310). -/
def State.picDone (i : Nat) (s : State) : State :=
  let c := (s.rd (Reg.PIC_COUNT i)).toNat
  if !s.picPeriodic i || (c != 0 && decide (c ≤ (s.pic i).pulses)) then
    (s.off (Fd.PIC_PIC_STAT_RUNNING i)).on (Fd.PIC_PIC_STAT_DONE i)
  else s

/-- Pass over `n` pulses: they count toward COUNT and in SKIP. -/
def State.picSkip (i n : Nat) (s : State) : State :=
  let p := s.pic i
  let n := if s.picPeriodic i then
      let c := (s.rd (Reg.PIC_COUNT i)).toNat
      if c = 0 then n else min n (c - p.pulses)
    else min n 1
  if n = 0 then s
  else
    ((s.setPic i { p with k := p.k + n, pulses := p.pulses + n }).bumpBy (Reg.PIC_SKIP i) n).picDone i

/-- A step of the counter to its present value ends a pulse in progress; pulses passed over are skipped. -/
def State.picStep (i : Nat) (s : State) : State :=
  if !s.picRuns i then s
  else
    let s := if (s.pic i).inPulse then
        let p := s.pic i
        (((s.picLevel i false).setPic i { k := p.k + 1, pulses := p.pulses + 1, inPulse := false })).picDone i
      else s
    if !s.picRuns i then s
    else
      let k := (s.pic i).k
      let first := s.picAt i k
      if s.now ≤ first then s
      else
        let n := if s.picPeriodic i then ((s.now - s.rd64 (Reg.PIC_START_LO i) (Reg.PIC_START_HI i)) * 65536 - 1) / s.picP i + 1 - k
          else 1
        s.picSkip i n

/-- The counter is loaded: cycle numbers follow it, picots are carried over (R308). -/
def State.loadCtr (v : Nat) (s : State) : State :=
  ({ s with ctr := v % 2 ^ 96 } : State).forEach (List.range 16) State.picStep

/-! ### Corrections (R304 to R309) -/

/-- A record 0x009: `corr` is the correction in 2⁻¹⁶ ns. -/
def State.jumpRec (step persist : Bool) (d : Nat) (corr : Int) (s : State) : State :=
  let b := fun (c : Bool) (i : Nat) => if c then 2 ^ i else 0
  let us := min (corr.natAbs / 65536 / 1000) 4095
  (s.sysRec 0x009 (b step 15 + b persist 14 + d * 2 ^ 13 + b (decide (corr < 0)) 12 + us)).setTim
    { s.tim with recAt := some s.clk }

/-- A step: the counter takes the correction at once (R307, R308). The offsets of the domains move with it, and a slew in
progress is over. -/
def State.step9 (d : Nat) (corr : Int) (s : State) : State :=
  let first := s.flag Fd.TIME_TIME_STAT_INITIAL
  let s := s.forEach [0, 1] fun e t => if t.flag (Fd.DOM_GM_CFG_GM_EN e) then t else t.wr (Reg.DOM_OFS e) (ofsWord (t.ofs e + corr))
  let s := s.loadCtr (((s.ctr : Int) + corr * 65536) % 2 ^ 96).toNat
  let s := ((s.off Fd.TIME_TIME_STAT_STEP_ARMED).off Fd.TIME_TIME_STAT_JUMP_PERSIST).off Fd.TIME_TIME_STAT_INITIAL
  let s := ((s.on Fd.TIME_TIME_STAT_STEPPED).bump Reg.TIME_STEP_CNT).off Fd.TIME_TIME_STAT_SLEWING
  (s.setTim { s.tim with refused := none, slew := none, clearAt := if first then s.now else s.tim.clearAt }).jumpRec true false d corr

/-- A refusal beside what it does to locks: the flag and the count (R305). -/
def State.refuseJump (s : State) : State := (s.on Fd.TIME_TIME_STAT_JUMP_REFUSED).bump Reg.TIME_JUMP_REFUSED_CNT

def State.domLocked (s : State) (d : Nat) : Bool := s.flag (lockFld d)

/-- Select `d`: its offset is slewed away (R304). -/
def State.switchTo (d : Nat) (s : State) : State :=
  let o := s.ofs d
  let s := ((s.setFld Fd.TIME_TIME_STAT_SEL d).bump Reg.TIME_SWITCH_CNT).off Fd.TIME_TIME_STAT_HOLDOVER
  let s := (s.setTim { s.tim with refused := none, slew := none }).off Fd.TIME_TIME_STAT_SLEWING
  if o = 0 then s
  else ((s.setTim { s.tim with slew := some (s.clk, o) }).on Fd.TIME_TIME_STAT_SLEWING).steer

/-- HOLDOVER follows whether a domain is selected that counts as locked (R304). -/
def State.noteHoldover (s : State) : State := s.setFlag Fd.TIME_TIME_STAT_HOLDOVER (!s.selLocked)

/-- Domain `d` is no longer locked; a domain of this grandmaster stays so (R298, R303, R305). -/
def State.unlock (d : Nat) (s : State) : State :=
  if s.flag (Fd.DOM_GM_CFG_GM_EN d) then s else (s.off (lockFld d)).setDom d { s.dom d with run := 0 }

/-- Try to switch to a locked domain. A switch never steps the counter: beyond JUMP_THRESHOLD it is a refused correction, and
the selected domain is then not locked (R304, R305). -/
def State.trySwitch (d : Nat) (s : State) : State :=
  let o := s.ofs d
  if o.natAbs ≤ s.jumpLimit then (s.switchTo d).noteHoldover
  else (((s.refuseJump).jumpRec false false d (-o)).unlock s.sel).noteHoldover

/-- Selection after a change of locks (R304). -/
def State.reselect (s : State) : State :=
  if !s.selLocked && s.domLocked (1 - s.sel) then s.trySwitch (1 - s.sel) else s.noteHoldover

/-- Selection where only an offset, JUMP_PERSIST or JUMP_THRESHOLD has changed: a domain that is within JUMP_THRESHOLD is selected; one that is
not has been refused already (R304). -/
def State.reconsider (s : State) : State :=
  if (s.ofs (1 - s.sel)).natAbs ≤ s.jumpLimit then s.reselect else s.noteHoldover

/-- Load a domain's lock; a change of the lock may change the selection (R303, R304). The node holds the lock of a domain whose grandmaster
it is (R298). -/
def State.setLock (d : Nat) (b : Bool) (s : State) : State :=
  let b := b || s.flag (Fd.DOM_GM_CFG_GM_EN d)
  if s.domLocked d = b then s
  else
    let s := s.setFlag (lockFld d) b
    let s := if b then s.setDom d { s.dom d with lockedAt := s.clk } else s.setDom d { s.dom d with run := 0 }
    if d = s.sel ∨ s.selLocked = false then s.reselect else s

/-- An accepted Sync with residual `res`: presence, lock, the tracked offset and rate (R303). -/
def State.acceptSync (d : Nat) (θ res : Int) (s : State) : State :=
  let w := s.fld Fd.TIME_SERVO_CFG_LOCK_WINDOW * 65536
  let s := (s.bump (if d = 0 then Reg.TIME_SYNC_RX_A else Reg.TIME_SYNC_RX_B)).on (presentFld d)
  let s := s.arm (.syncLoss d) (s.fld (Fd.DOM_DOM_CFG_SYNC_LOSS d) * msPs)
  let run := if res.natAbs ≤ w then (s.dom d).run + 1 else 0
  let s := (s.setDom d { s.dom d with run, tracked := true }).wr (Reg.DOM_OFS d) (ofsWord θ)
  let (k, s) := s.useFree
  let s := s.wr (Reg.DOM_RATE d) (Config.freeWord k)
  let s := if d = s.sel ∧ s.flag Fd.TIME_TIME_CTL_SERVO_EN = true then
      (s.setTim { s.tim with refused := none }).steer
    else s
  let s := if 4 * w < res.natAbs then s.setLock d false else if 8 ≤ run then s.setLock d true else s
  s.onlyIf (d != s.sel) State.reconsider

/-- A Sync offset θ of domain `d` (R302, R303, R305, R307). -/
def State.offset (d : Nat) (θ : Int) (s : State) : State :=
  if s.flag (Fd.DOM_GM_CFG_GM_EN d) then s
  else if d = s.sel ∧ s.flag Fd.TIME_TIME_CTL_SERVO_EN = true then
    if s.flag Fd.TIME_TIME_STAT_INITIAL ∨ (s.jumpLimit < θ.natAbs ∧ s.flag Fd.TIME_TIME_STAT_STEP_ARMED = true) then
      (s.step9 d (-θ)).acceptSync d 0 θ
    else if s.jumpLimit < θ.natAbs then
      let s := s.refuseJump
      let s := s.setTim { s.tim with refused := some (((s.tim.refused.map (·.1)).getD s.clk), -θ) }
      let due := match s.tim.recAt with
        | none => true
        | some t => decide (t + secPs ≤ s.clk)
      let s := s.onlyIf due (State.jumpRec false false d (-θ))
      let s := s.setDom d { s.dom d with run := 0 }
      s.setLock d false
    else s.acceptSync d θ (θ - s.slewLeft)
  else
    let res := if (s.dom d).tracked then θ - s.ofs d else 0
    if s.jumpLimit < res.natAbs then
      let s := s.setLock d false
      (s.setDom d { s.dom d with run := 0 }).acceptSync d θ 0
    else s.acceptSync d θ res

/-! ### PTP messages (R294, R297, R298, R302) -/

/-- A frame's message leaves the inbox when its consumer takes it. -/
def State.takeMail (f : Frame) (s : State) : State := { s with txn := { s.txn with inbox := s.txn.inbox.erase f } }

def ptpType (m : List Byte) : Nat := fieldBE m 0 1 % 16
def ptpSeq (m : List Byte) : Nat := fieldBE m 30 2
/-- correctionField, signed, in 2⁻¹⁶ ns. -/
def ptpCorr (m : List Byte) : Int := signed 64 (fieldBE m 8 8)
/-- The timestamp at byte 34, in 2⁻¹⁶ ns. -/
def ptpStamp (m : List Byte) : Int := ((fieldBE m 34 6 * 1000000000 + fieldBE m 40 4) * 65536 : Nat)

/-- A message that the node consumes: its domain and its bytes. -/
def State.ptpFor (s : State) (f : Frame) (type : Nat) : Option (Nat × List Byte) :=
  let m := f.payload.drop 4
  if f.ptpKnown ∧ ptpType m = type ∧ s.anat.kaHeld = false then (s.ptpDomain m).map fun d => (d, m) else none

/-- SYNC_RX: the first copy of each sequenceId gives an offset, at once or with its Follow_Up. -/
def execSyncRx (p : Fin 3) (f : Frame) (t2 : BitVec 96) (s : State) : Host.Outcome State Fault Refusal :=
  .next (match s.ptpFor f 0x0 with
    | none => s
    | some (d, m) =>
      let s := s.takeMail f
      if (s.dom d).seqs.contains (ptpSeq m) then s.bump Reg.TIME_TIME_DUP
      else
        let s := s.setDom d { s.dom d with seqs := ptpSeq m :: (s.dom d).seqs.take 7 }
        let part := ((t2.toNat / 65536 : Nat) : Int) - ptpCorr m - s.dIn p.val
        if fieldBE m 6 1 / 2 % 2 = 1 then s.setDom d { s.dom d with twoStep := some (ptpSeq m, part) }
        else s.offset d (part - ptpStamp m))

/-- FOLLOW_UP_RX: the correctionFields of Sync and Follow_Up are summed; a second copy finds no Sync waiting. -/
def execFollowUpRx (_p : Fin 3) (f : Frame) (s : State) : Host.Outcome State Fault Refusal :=
  .next (match s.ptpFor f 0x8 with
    | none => s
    | some (d, m) =>
      let s := s.takeMail f
      match (s.dom d).twoStep with
      | some (q, part) =>
        if q = ptpSeq m then
          (s.setDom d { s.dom d with twoStep := none }).offset d (part - ptpCorr m - ptpStamp m)
        else s
      | none => s)

/-- ANNOUNCE_RX (R298). -/
def execAnnounceRx (_p : Fin 3) (f : Frame) (s : State) : Host.Outcome State Fault Refusal :=
  .next (match s.ptpFor f 0xB with
    | none => s
    | some (d, m) =>
      let s := s.takeMail f
      let s := s.wr (Reg.DOM_ANN d) (BitVec.ofNat 32 (fieldBE m 48 1 * 2 ^ 16 + fieldBE m 44 2))
      s.wr64 (Reg.DOM_GM_ID_LO d) (Reg.DOM_GM_ID_HI d) (fieldBE m 53 8))

/-- SIGNALING_RX: consumed without further effect. -/
def execSignalingRx (_p : Fin 3) (f : Frame) (s : State) : Host.Outcome State Fault Refusal :=
  .next (match s.ptpFor f 0xC with
    | none => s
    | some _ => s.takeMail f)

/-- A TIME frame of this node (R293). -/
def State.timeFrame (s : State) (flags : Nat) (msg : List Byte) : Frame :=
  s.formFrame Kd.time 7#3 0#6 (BitVec.ofNat 6 s.ownRing) 511#9 0#9 0#4 ([0x01#8, BitVec.ofNat 8 flags, 0#8, 0#8] ++ msg)

/-- A plain PTP frame in the switch (04 R94, R97): class 7, its message as payload. -/
def PtpFrame.frame (f : PtpFrame) : Frame := { da := f.da, sa := 0#48, etype := 0x88F7#16, cls := 7#3, payload := f.msg }

/-- A ring port and the spur accept PTP frames to 01-80-C2-00-00-0E, the spur to 01-1B-19-00-00-00 too (02 R34, R50). -/
def ptpDa (p : Nat) (da : BitVec 48) : Bool := da == 0x0180C200000E#48 || (p == 2 && da == 0x011B19000000#48)

/-- The checks of a port on a plain PTP frame before its end: false when it is dropped there (02 R34, R49 to R51, 04 R92). `pdelay`: its
message is the Pdelay engine's, which runs on the pass-through path too, on the spur as well (R290, R300; DEDUCED, log 128). -/
def State.ptpCheck (p : Nat) (pdelay : Bool) (f : PtpFrame) (s : State) : Bool × State :=
  if s.anat.kaHeld || !s.portUsable p then (false, s)
  else if p ≠ 2 then (f.vid.isNone && ptpDa p f.da, s)
  else
    let s := s.onlyIf (s.path != 0 && !pdelay) (·.bump Reg.SWC_PT_SPUR_DROP)
    if s.fld Fd.PORT_SPUR_CTL_ROLE = 0 then (false, s.bump (Reg.PORT_RX_ROLE_DROP 2))
    else if s.vidOk f.vid = false then (false, s.bump (Reg.PORT_RX_FOREIGN 2))
    else if ptpDa 2 f.da = false then (false, s.bump (Reg.PORT_RX_ROLE_DROP 2))
    else (true, s)

/-- A plain PTP frame comes in on port `p`: on the full path it passes the local port's class-7 queue (04 R94, R97, R102); its end is judged
like that of every frame (04 R103, R104). True when its message reaches the time unit. -/
def State.ptpIn (p : Nat) (pdelay : Bool) (f : PtpFrame) (s : State) : Bool × State :=
  match s.ptpCheck p pdelay f with
  | (false, s) => (false, s)
  | (true, s) =>
    let s := s.startRx p (p != 2)
    let (id, s) := if s.path = 0 then s.switchIn (s.arrival f.frame p) [3] else (none, s)
    let r : Reception := { port := p, frame := f.frame, stored := id, tag := if f.vid.isSome then 4 else 0 }
    let (good, s) := s.rxEnd r f.e f.size.toNat
    (good && (if s.path = 0 then id.isSome else p != 2 || pdelay), s.forEach (s.rxCopies r 3) State.dropCopy)

/-- The message is one of the Pdelay engine. -/
def isPdelay (m : List Byte) : Bool := [0x2, 0x3, 0xA].contains (ptpType m)

/-- SPUR_PTP_RX (R297). A Pdelay message belongs to the commands of R299. -/
def State.spurPtp (f : PtpFrame) (s : State) : State :=
  if isPdelay f.msg then s
  else
    match s.ptpIn 2 false f with
    | (false, s) => s
    | (true, s) =>
      let takes := s.flag Fd.TIME_TIME_CTL_SPUR_IN && fieldBE f.msg 1 1 % 16 == 2 && [0x0, 0x8, 0xB, 0xC].contains (ptpType f.msg)
      if !takes then s.bump Reg.TIME_MSG_DROP
      else if (s.ptpDomain f.msg).isNone then s.bump Reg.TIME_DOM_OTHER
      else (s.inject (s.timeFrame 1 f.msg) s.epoch).bump Reg.TIME_SPUR_INJ
def execSpurPtpRx (f : PtpFrame) (s : State) : Host.Outcome State Fault Refusal := .next (s.spurPtp f)

/-- clockIdentity: the node MAC in EUI-64 form (R298). -/
def State.clockId (s : State) : List Byte :=
  let m := beBytes 6 s.ownMac.toNat
  m.take 3 ++ [0xFF#8, 0xFE#8] ++ m.drop 3

/-- The 34-byte PTP header of a message of this node. -/
def State.ptpHead (s : State) (type len domain port seq ctl interval : Nat) (corr : Nat) : List Byte :=
  [BitVec.ofNat 8 type, 0x02#8] ++ beBytes 2 len ++ [BitVec.ofNat 8 domain, 0#8, 0#8, 0#8] ++ beBytes 8 corr ++
    beBytes 4 0 ++ s.clockId ++ beBytes 2 port ++ beBytes 2 seq ++ [BitVec.ofNat 8 ctl, BitVec.ofNat 8 interval]

/-- GM_SYNC_TX: at a multiple of 2^−LOG_SYNC s the node sends a one-step Sync; originTimestamp and the fraction are
written per copy at egress. -/
def execGmSyncTx (d : Fin 2) (s : State) : Host.Outcome State Fault Refusal :=
  .next (if !s.flag (Fd.DOM_GM_CFG_GM_EN d.val) || s.anat.kaHeld then s
    else
      let n := s.fld (Fd.DOM_GM_CFG_LOG_SYNC d.val)
      let per := 1000000000 / 2 ^ n
      let s := s.toTime ((s.now / per + 1) * per)
      let q := s.now / per % 65536
      let m := s.ptpHead 0x0 44 (s.fld (Fd.DOM_DOM_CFG_DOMAIN_NUM d.val)) 1 q 0 (256 - n) 0 ++ beBytes 10 0
      (s.inject (s.timeFrame 2 m) s.epoch).bump Reg.TIME_GM_TX)

/-- GM_ANNOUNCE_TX (R298). -/
def execGmAnnounceTx (d : Fin 2) (s : State) : Host.Outcome State Fault Refusal :=
  .next (if !s.flag (Fd.DOM_GM_CFG_GM_EN d.val) || s.anat.kaHeld then s
    else
      let s := (s.expire (.gmAnnounce d.val)).arm (.gmAnnounce d.val) secPs
      let q := s.now / 1000000000 % 65536
      let m := s.ptpHead 0xB 64 (s.fld (Fd.DOM_DOM_CFG_DOMAIN_NUM d.val)) 1 q 5 0 0 ++ beBytes 10 0 ++
        beBytes 2 (s.fld (Fd.DOM_GM_CFG_UTC_OFFSET d.val)) ++
        [0#8, 128#8, BitVec.ofNat 8 (s.fld (Fd.DOM_GM_CFG_CLOCK_CLASS d.val)), 0xFE#8, 0xFF#8, 0xFF#8, 128#8] ++
        s.clockId ++ beBytes 2 0 ++ [0xA0#8]
      s.inject (s.timeFrame 2 m) s.epoch)

/-! ### Link delay (R299, R300) -/

/-- A request that got no valid response: it counts; the third in a row clears LD_VALID. -/
def State.pdMiss (p : Nat) (s : State) : State :=
  match (s.pd p).req with
  | none => s
  | some _ =>
    let n := (s.pd p).fails + 1
    let s := (s.bump (Reg.TIME_PD_FAIL p)).setPd p { s.pd p with req := none, fails := n }
    if 3 ≤ n then s.off (Fd.PD_LD_STAT_LD_VALID p) else s

/-- A Pdelay message of this node goes to port `p` as a plain frame (R299). The Pdelay engine reaches the spur on the pass-through path
too (DEDUCED, log 128). -/
def State.pdelaySend (p : Nat) (msg : List Byte) (s : State) : State :=
  let f : Frame := { da := 0x0180C200000E#48, sa := s.ownMac, etype := 0x88F7#16, cls := 7#3, payload := msg }
  if s.path ≠ 0 ∧ p = 2 then s.place (s.arrival f 3) 7 true [2] else s.localIn f s.epoch [p]

/-- The port sends Pdelay messages: usable, and on the spur with a role (R299, 02 R49, R470). -/
def State.pdelayPort (s : State) (p : Nat) : Bool := s.portUsable p && (p != 2 || s.fld Fd.PORT_SPUR_CTL_ROLE != 0)

/-- PDELAY_REQ_TX: the interval ends and a request follows; t1 is taken as it leaves (`State.pdelayLeaves`). A request still without a valid
response has none. -/
def State.pdelayReq (p : Nat) (s : State) : State :=
  if !s.flag (Fd.PD_PD_CFG_EN p) || !s.pdelayPort p then s
  else
    let s := s.pdMiss p
    let q := (s.pd p).seq
    let n := s.fld (Fd.PD_PD_CFG_LOG_INT p)
    let m := s.ptpHead 0x2 54 0 (p + 1) q 5 (256 - n) 0 ++ beBytes 10 0 ++ beBytes 10 0
    ((s.setPd p { s.pd p with seq := (q + 1) % 65536 }).pdelaySend p m).arm (.pdReq p) (secPs / 2 ^ n)
def execPdelayReqTx (p : Fin 3) (s : State) : Host.Outcome State Fault Refusal :=
  .next (s.expiry (.pdReq p.val) (State.pdelayReq p.val))

/-- PDELAY_REQ_RX: answered with a one-step Pdelay_Resp, into which its turnaround is written as it leaves (`State.egressFrame`). -/
def State.pdelayAnswer (p : Nat) (f : PtpFrame) (s : State) : State :=
  if ptpType f.msg ≠ 0x2 then s
  else
    match s.ptpIn p true f with
    | (false, s) => s
    | (true, s) => s.pdelaySend p (s.ptpHead 0x3 54 0 (p + 1) (ptpSeq f.msg) 5 0x7F 0 ++ beBytes 10 0 ++ (f.msg.drop 20).take 10)
def execPdelayReqRx (p : Fin 3) (w : PtpWire) (msg : List Byte) (s : State) : Host.Outcome State Fault Refusal :=
  .next (s.pdelayAnswer p.val { w with msg })

/-- The measurement ((t4 − t1) − turnaround) / 2 of a response, in 2⁻¹⁶ ns; t4 − t1 is a raw count of TICK cycles (R296). -/
def pdMeasure (ticks : Nat) (msg : List Byte) (followUp : Option (List Byte)) : Int :=
  let turn := match followUp with
    | none => ptpCorr msg
    | some fu => ptpStamp fu - ptpStamp msg + ptpCorr msg + ptpCorr fu
  Int.tdiv ((tickCorr ticks : Int) - turn) 2

/-- A response to the request that left last gives a measurement; one outside 0 to 10 µs is discarded. LD is the mean of the last 8. -/
def State.pdelayTake (p : Nat) (msg : List Byte) (followUp : Option (List Byte)) (s : State) : State :=
  match (s.pd p).req with
  | none => s
  | some (q, t1) =>
    if ptpType msg ≠ 0x3 ∨ ptpSeq msg ≠ q ∨ (fieldBE msg 6 1 / 2 % 2 = 1) ≠ (followUp.isSome = true) then s
    else
      let m := pdMeasure ((s.clk - t1) / 2560) msg followUp
      if m < 0 ∨ 10000 * 65536 < m then s.bump Reg.TIME_PD_BAD
      else
        let l := (m.toNat :: (s.pd p).meas).take 8
        let s := s.setPd p { s.pd p with req := none, fails := 0, meas := l }
        let s := s.wr (Reg.PD_LD p) (BitVec.ofNat 32 (l.foldl (· + ·) 0 / l.length))
        let s := s.setFld (Fd.PD_LD_STAT_N p) l.length
        if 3 ≤ l.length then s.on (Fd.PD_LD_STAT_LD_VALID p) else s

/-- PDELAY_RESP_RX: a one-step response, or a two-step one with its Pdelay_Resp_Follow_Up; both frames must come good. -/
def State.pdelayResp (p : Nat) (f : PtpFrame) (followUp : Option PtpFrame) (s : State) : State :=
  if ptpType f.msg ≠ 0x3 then s
  else
    let (good, s) := s.ptpIn p true f
    match followUp with
    | none => if good then s.pdelayTake p f.msg none else s
    | some g =>
      let (good', s) := s.ptpIn p true g
      if good && good' then s.pdelayTake p f.msg (some g.msg) else s
def execPdelayRespRx (p : Fin 3) (f : PtpFrame) (followUp : Option PtpFrame) (s : State) : Host.Outcome State Fault Refusal :=
  .next (s.pdelayResp p.val f followUp)

/-! ### Domains (R303 to R307) -/

/-- SYNC_LOSS. -/
def execSyncLoss (d : Fin 2) (s : State) : Host.Outcome State Fault Refusal :=
  .next (if s.flag (Fd.DOM_GM_CFG_GM_EN d.val) then s
    else s.expiry (.syncLoss d.val) fun t => (t.off (presentFld d.val)).setLock d.val false)

/-- DOMAIN_REVERT: PREFER has been locked for 10 s without a break. -/
def execDomainRevert (s : State) : Host.Outcome State Fault Refusal :=
  .next (
    let p := s.fld Fd.TIME_TIME_CTL_PREFER
    if s.flag Fd.TIME_TIME_CTL_REVERT && s.sel != p && s.domLocked p then
      (s.advance ((s.dom p).lockedAt + 10 * secPs - s.clk)).trySwitch p
    else s)

/-- SLEW_COMPLETE: T = |OFS| / SLEW_LIMIT after the switch. -/
def execSlewComplete (s : State) : Host.Outcome State Fault Refusal :=
  .next (match s.tim.slew with
    | none => s
    | some (t, d) =>
      let ps := d.natAbs * 1000000000 / (65536 * max 1 (s.fld Fd.TIME_SLEW_LIMIT_PPM))
      let s := s.advance (t + ps - s.clk)
      ((s.setTim { s.tim with slew := none }).off Fd.TIME_TIME_STAT_SLEWING).steer)

/-- JUMP_PERSIST: every Sync of the selected domain has been refused for 10 s. -/
def execJumpPersist (s : State) : Host.Outcome State Fault Refusal :=
  .next (match s.tim.refused with
    | none => s
    | some (t, corr) =>
      if s.flag Fd.TIME_TIME_STAT_JUMP_PERSIST then s
      else
        let s := (s.advance (t + 10 * secPs - s.clk)).on Fd.TIME_TIME_STAT_JUMP_PERSIST
        (s.jumpRec false true s.sel corr).reselect)

/-- A write of TIME_CMD (R307, R317). -/
def State.timeCmd (w : Word) (s : State) : Res :=
  if s.mode = .drowse then refuse .wrongMode s
  else
    match bits w 0 2 with
    | 0 => (.ok, s)
    | 1 => (.ok, s.on Fd.TIME_TIME_STAT_STEP_ARMED)
    | 2 => (.ok, s.off Fd.TIME_TIME_STAT_STEP_ARMED)
    | _ => refuse .badRequest s

/-- ACCEPT_STEP. -/
def execAcceptStep (s : State) : Host.Outcome State Fault Refusal := .next (s.command none fun t => t.timeCmd 1#32)
/-- DISARM. -/
def execDisarm (s : State) : Host.Outcome State Fault Refusal := .next (s.command none fun t => t.timeCmd 2#32)

/-- The marks and the record of a step that TIME_SET has loaded. -/
def State.step9Note (d : Nat) (corr : Int) (s : State) : State :=
  let s := s.setTim { s.tim with clearAt := if s.flag Fd.TIME_TIME_STAT_INITIAL then s.now else s.tim.clearAt }
  let s := ((s.off Fd.TIME_TIME_STAT_STEP_ARMED).off Fd.TIME_TIME_STAT_JUMP_PERSIST).off Fd.TIME_TIME_STAT_INITIAL
  ((s.on Fd.TIME_TIME_STAT_STEPPED).bump Reg.TIME_STEP_CNT).jumpRec true false d corr

/-- The counter has been set: INITIAL clears, which is no step (R292, R307). -/
def State.initialSet (s : State) : State :=
  (s.setTim { s.tim with clearAt := s.now }).off Fd.TIME_TIME_STAT_INITIAL

/-- An aligned 8-byte write of TIME_SET (R292): within JUMP_THRESHOLD a load that is no step. -/
def State.setTime (v : Nat) (s : State) : Res :=
  let corr := ((v : Int) - s.now) * 65536
  if s.flag Fd.TIME_TIME_CTL_SERVO_EN then refuse .wrongMode s
  else if corr.natAbs ≤ s.jumpLimit then
    (.ok, (s.loadCtr (v * 2 ^ 32)).onlyIf (s.flag Fd.TIME_TIME_STAT_INITIAL) State.initialSet)
  else if s.flag Fd.TIME_TIME_STAT_INITIAL || s.flag Fd.TIME_TIME_STAT_STEP_ARMED then
    (.ok, (s.loadCtr (v * 2 ^ 32)).step9Note s.sel corr)
  else refuse .wrongMode ((s.refuseJump).jumpRec false false s.sel corr)

/-- TIME_SET. -/
def execTimeSet (v : BitVec 64) (s : State) : Host.Outcome State Fault Refusal := .next (s.command none fun t => t.setTime v.toNat)

/-- A read of NOW_LO latches NOW_HI and NOW_FRAC (R292). -/
def State.latchNow (s : State) : State :=
  { s with latches := Tab.insert (Tab.erase (Tab.insert (Tab.erase s.latches Reg.TIME_NOW_HI) Reg.TIME_NOW_HI
      (BitVec.ofNat 32 (s.now / 2 ^ 32))) Reg.TIME_NOW_FRAC) Reg.TIME_NOW_FRAC (BitVec.ofNat 32 s.ctr) }

/-- NOW_LO_READ. -/
def execNowLoRead (s : State) : Host.Outcome State Fault Refusal :=
  .next (s.query none fun t => (.ok, leBytes 4 t.now, t.latchNow))

/-- A write of INCR to the value `v` (R291). -/
def State.writeIncr (v : Nat) (s : State) : Res :=
  if s.flag Fd.TIME_TIME_CTL_SERVO_EN then refuse .wrongMode s
  else if v < incrLo ∨ incrHi < v then refuse .badRequest s
  else (.ok, s.setIncr v)

/-- INCR_WRITE. -/
def execIncrWrite (v : BitVec 40) (s : State) : Host.Outcome State Fault Refusal :=
  .next (s.command none fun t => t.writeIncr v.toNat)

/-! ### Picots (R310 to R316) -/

/-- Begin a series at the setting of EN (R311): the output is idle, the first pulse is the first far enough ahead. -/
def State.picStart (i : Nat) (s : State) : State :=
  let start := s.rd64 (Reg.PIC_START_LO i) (Reg.PIC_START_HI i)
  let k := if s.picPeriodic i then
      let target := s.now + 1000
      if target ≤ start then 0 else ((target - start) * 65536 + s.picP i - 1) / max 1 (s.picP i)
    else 0
  let s := (s.wr (Reg.PIC_FIRED i) 0#32).setPic i { k }
  (s.on (Fd.PIC_PIC_STAT_RUNNING i)).picLevel i false

/-- The settings allow EN (R311). -/
def State.picOk (s : State) (i : Nat) (w : Word) : Bool :=
  let width := (s.rd (Reg.PIC_WIDTH i)).toNat
  decide (16 ≤ width) &&
    (if w.getLsbD 30 then decide ((width + 16) * 65536 ≤ s.picP i)
     else decide (s.now + 1000 ≤ s.rd64 (Reg.PIC_START_LO i) (Reg.PIC_START_HI i)))

/-- A pulse in progress ends and the pin is released (R312). -/
def State.picEnd (i : Nat) (s : State) : State :=
  let s := if (s.pic i).inPulse then s.picLevel i false else s
  let s := (s.setPic i { s.pic i with inPulse := false }).off (Fd.PIC_PIC_STAT_RUNNING i)
  if s.flag (Fd.PIC_PIC_CTL_PIN_EN i) then s.release (.picot i) [s.fld (Fd.PIC_PIC_CTL_PIN i)] else s

/-- A write of PIC_CTL (R311, R312, R317). An enable from the configuration takes effect on entry to service (R316). -/
def State.picCtl (i : Nat) (w : Word) (s : State) : Res :=
  let v := w &&& 0xFC0000FF#32
  let was := s.rd (Reg.PIC_PIC_CTL i)
  if s.asleepOrLoading then refuse .wrongMode s
  else if was.getLsbD 31 then
    if v = was then (.ok, s)
    else if v = was &&& 0x7FFFFFFF#32 then (.ok, (s.picEnd i).wr (Reg.PIC_PIC_CTL i) v)
    else refuse .wrongMode s
  else if !v.getLsbD 31 then (.ok, s.wr (Reg.PIC_PIC_CTL i) v)
  else if !s.applying && !s.picOk i v then refuse .badRequest s
  else
    let go := fun (t : State) => (t.wr (Reg.PIC_PIC_CTL i) v).onlyIf (!s.applying) (State.picStart i)
    if v.getLsbD 28 then
      match s.claim (.picot i) [bits v 0 8] with
      | (.ok, t) => (.ok, go t)
      | r => r
    else (.ok, go s)

/-- PICOT_ENABLE. -/
def execPicotEnable (i : Fin 16) (w : Word) (s : State) : Host.Outcome State Fault Refusal :=
  .next (s.command none fun t => t.picCtl i.val (w ||| 0x80000000#32))
/-- PICOT_DISABLE. -/
def execPicotDisable (i : Fin 16) (w : Word) (s : State) : Host.Outcome State Fault Refusal :=
  .next (s.command none fun t => t.picCtl i.val (w &&& 0x7FFFFFFF#32))

/-- The series is in a mode without pins and records: its pulses are skipped (R316). -/
def State.picSilent (s : State) : Bool := s.mode == .passThrough || s.mode == .drowse || s.boot.drowsy

/-- A record of an edge (R314). -/
def State.picRec (i time k : Nat) (s : State) : State :=
  if s.journals && !s.picSilent then
    s.pushRec (328 + i) { s.record 5 i (k % 65536) (s.flag (Fd.PIC_PIC_STAT_LEVEL i)) with time }
  else s

/-- PICOT_START_EDGE: the time counter reaches t_k. -/
def execPicotStartEdge (i : Fin 16) (s : State) : Host.Outcome State Fault Refusal :=
  .next (if !s.picRuns i.val || (s.pic i.val).inPulse || s.anat.mainHeld || s.anat.kaHeld then s
    else
      let k := (s.pic i.val).k
      let at_ := s.picAt i.val k
      let s := s.toTime at_
      if s.picSilent then s.picSkip i.val 1
      else
        let s := ((s.setPic i.val { s.pic i.val with inPulse := true }).picLevel i.val true).bump (Reg.PIC_FIRED i.val)
        if s.flag (Fd.PIC_PIC_CTL_JSTART i.val) then s.picRec i.val at_ k else s)

/-- PICOT_END_EDGE: the time counter reaches t_k + WIDTH. -/
def execPicotEndEdge (i : Fin 16) (s : State) : Host.Outcome State Fault Refusal :=
  .next (if !s.picRuns i.val || !(s.pic i.val).inPulse || s.anat.mainHeld || s.anat.kaHeld then s
    else
      let p := s.pic i.val
      let at_ := s.picAt i.val p.k + (s.rd (Reg.PIC_WIDTH i.val)).toNat
      let s := (s.toTime at_).picLevel i.val false
      let s := if s.flag (Fd.PIC_PIC_CTL_JEND i.val) then s.picRec i.val at_ p.k else s
      (s.setPic i.val { k := p.k + 1, pulses := p.pulses + 1, inPulse := false }).picDone i.val)

/-- Picots that the configuration enabled take effect on entry to service (R316); one that R311 refuses then stays
disabled. -/
def State.picEnter (s : State) : State :=
  s.forEach (List.range 16) fun i t =>
    let w := t.rd (Reg.PIC_PIC_CTL i)
    if !w.getLsbD 31 || t.picRuns i || t.flag (Fd.PIC_PIC_STAT_DONE i) then t
    else if t.picOk i w then t.picStart i
    else (t.picEnd i).off (Fd.PIC_PIC_CTL_EN i)

/-! ### Register writes (R317) -/

/-- A grandmaster domain holds OFS 0, PRESENT and LOCK (R298); without GM_EN they go. -/
def State.gmCfg (d : Nat) (w : Word) (s : State) : State :=
  let was := s.flag (Fd.DOM_GM_CFG_GM_EN d)
  let s := s.wr (Reg.DOM_GM_CFG d) (w &&& 0x87FFFFFF#32)
  if w.getLsbD 31 then
    let s := (s.wr (Reg.DOM_OFS d) 0#32).on (presentFld d)
    (if was then s else s.arm (.gmAnnounce d) secPs).setLock d true
  else if was then ((s.cancel (.gmAnnounce d)).off (presentFld d)).setLock d false
  else s

/-- A picot register beside PIC_CTL: it may change only while EN = 0. -/
def State.picReg (i reg : Nat) (v : Word) (s : State) : Res :=
  if s.flag (Fd.PIC_PIC_CTL_EN i) = true ∧ v ≠ s.rd reg then refuse .wrongMode s else (.ok, s.wr reg v)

/-- Writes in the TIME block, by offset within it. -/
def State.timeWrite (off : Nat) (w : Word) (s : State) : Option Res :=
  let cfg := fun (ok : Bool) (f : State → State) =>
    some (if !(s.onRing || s.mode == .isolated || s.applying) then refuse .wrongMode s
      else if !ok then refuse .badRequest s else (.ok, f s))
  if 0x800 ≤ off then
    let i := (off - 0x800) / 0x40
    if s.asleepOrLoading then some (refuse .wrongMode s)
    else
      match (off - 0x800) % 0x40 with
      | 0x00 => some (s.picCtl i w)
      | 0x04 => some (s.picReg i (Reg.PIC_START_LO i) w)
      | 0x08 => some (s.picReg i (Reg.PIC_START_HI i) w)
      | 0x0C => some (s.picReg i (Reg.PIC_PERIOD_NS i) w)
      | 0x10 => some (s.picReg i (Reg.PIC_PERIOD_FRAC i) (w &&& 0xFFFF#32))
      | 0x14 => some (s.picReg i (Reg.PIC_WIDTH i) w)
      | 0x18 => some (s.picReg i (Reg.PIC_COUNT i) w)
      | 0x1C =>
        if w.getLsbD 30 && s.flag (Fd.PIC_PIC_STAT_DONE i) && s.flag (Fd.PIC_PIC_CTL_EN i) then some (refuse .wrongMode s)
        else none
      | _ => none
  else
    match off with
    | 0x000 => cfg true fun t => t.wr Reg.TIME_TIME_CTL (w &&& 0xE1#32)
    | 0x004 => some (s.timeCmd w)
    | 0x008 => some (.ok, (s.wr Reg.TIME_TIME_STAT (s.rd Reg.TIME_TIME_STAT &&& ~~~(w &&& 0x1300#32))).onlyIf (w.getLsbD 9) State.reconsider)
    | 0x020 => some (refuse .badRequest s)
    | 0x024 => some (refuse .badRequest s)
    | 0x028 => some (s.writeIncr (s.increment / 2 ^ 32 * 2 ^ 32 + w.toNat))
    | 0x02C => some (s.writeIncr (bits w 0 8 * 2 ^ 32 + s.increment % 2 ^ 32))
    | 0x030 => cfg (decide (100 ≤ bits w 0 24)) fun t => (t.wr Reg.TIME_JUMP_THRESHOLD (w &&& 0xFFFFFF#32)).reconsider
    | 0x034 => cfg (decide (1 ≤ bits w 0 10 ∧ bits w 0 10 ≤ 1000)) fun t => t.wr Reg.TIME_SLEW_LIMIT (w &&& 0x3FF#32)
    | 0x038 => cfg true fun t => t.wr Reg.TIME_SERVO_CFG (w &&& 0x3FFFF#32)
    | _ =>
      if 0x040 ≤ off ∧ off < 0x080 then
        let d := (off - 0x40) / 0x20
        match (off - 0x40) % 0x20 with
        | 0x00 =>
          let o := 1 - d
          let clash := w.getLsbD 31 && s.flag (Fd.DOM_DOM_CFG_EN o) && s.fld (Fd.DOM_DOM_CFG_DOMAIN_NUM o) == bits w 0 8
          cfg (bits w 16 12 != 0 && !clash) fun t =>
            let t := t.wr (Reg.DOM_DOM_CFG d) (w &&& 0x8FFF00FF#32)
            if w.getLsbD 31 || t.flag (Fd.DOM_GM_CFG_GM_EN d) then t else ((t.cancel (.syncLoss d)).off (presentFld d)).setLock d false
        | 0x18 => cfg (decide (bits w 24 3 ≤ 5)) (State.gmCfg d w)
        | _ => none
      else if 0x100 ≤ off ∧ off < 0x160 then
        let p := (off - 0x100) / 0x20
        match (off - 0x100) % 0x20 with
        | 0x00 => cfg (decide (bits w 24 3 ≤ 5)) fun t =>
            let t := t.wr (Reg.PD_PD_CFG p) (w &&& 0x87000000#32)
            if !w.getLsbD 31 then t.cancel (.pdReq p)
            else if t.armed (.pdReq p) then t else t.armPdelay p
        | 0x0C => cfg true fun t => t.wr (Reg.PD_ASYM p) (w &&& 0xFFFF#32)
        | 0x10 => cfg true fun t => t.wr (Reg.PD_LD_INIT p) (w &&& 0xFFFF#32)
        | _ => none
      else none

/-- Derived TIME values: UNLOCKED and the counter (R292, R303). NOW_HI and NOW_FRAC give what NOW_LO latched. -/
def State.timeRead (s : State) (off : Nat) : Option Word :=
  match off with
  | 0x008 => some (putBits (s.rd Reg.TIME_TIME_STAT) 4 1 (if s.unlocked then 1 else 0))
  | 0x010 => some (BitVec.ofNat 32 s.now)
  | 0x014 => some ((s.latches.lookup Reg.TIME_NOW_HI).getD 0#32)
  | 0x018 => some ((s.latches.lookup Reg.TIME_NOW_FRAC).getD 0#32)
  | _ => none

end Sys2Proof.Machine
end

