-- ==== Sys2Proof/Machine/Service.lean ====
section
/-!
DEFINITION. What a change of mode does to the units (16 R407, and the mode tables 07 R178, 08 R215, 09 R242, 10 R265,
11 R287, 12 R316, 15 R388, R390), the watchdog (16 R416) and the wake sources of Drowse (16 R413).
-/

namespace Sys2Proof.Machine

/-- Every queue macro is emptied (15 R390). -/
def State.emptyQueues (s : State) : State :=
  let s := s.emptyBobQueues.emptyCanQueues
  { s with host := {} }

/-- Queue words have the SECDED format in Recovery and Load (15 R389). -/
def Mode.secded (m : Mode) : Bool := m == .recovery || m == .load

/-- The outputs that the configuration asks for in Load, with their owners, in the order in which they are claimed: software, cycle engine,
picots, bobbins (07 R172). -/
def State.loadClaims (s : State) : List (Owner × List Nat) :=
  ((List.range 256).filter fun n => s.fld (Fd.PIN_CFG_FUNC n) == 2).map (fun n => (.software, [n])) ++
    ((List.range 64).filter fun j => s.flag (Fd.CYC_SUB_CFG_EN j) && s.fld (Fd.CYC_SUB_DEST_KIND j) == 1).map
      (fun j => (.cycle j, subPins (s.fld (Fd.CYC_SUB_DEST_INDEX j)) (s.subLen j))) ++
    ((List.range 16).filter fun i => s.flag (Fd.PIC_PIC_CTL_EN i) && s.flag (Fd.PIC_PIC_CTL_PIN_EN i)).map
      (fun i => (.picot i, [s.fld (Fd.PIC_PIC_CTL_PIN i)])) ++
    (List.range 64).flatMap fun n => ((List.range 6).filter (s.slotDrives n)).map fun k => (.bobbin n, [s.slotPin n k])

/-- A pin that two owners claim in Load (16 R404). -/
def State.loadClash (s : State) : Option Nat :=
  let rec go : List (Owner × Nat) → Option Nat
    | [] => none
    | (o, n) :: t => if t.any fun e => e.2 == n && e.1 != o then some n else go t
  go (s.loadClaims.flatMap fun c => c.2.map fun n => (c.1, n))

/-- The enable whose claim is refused is not in force. -/
def State.unclaim (o : Owner) (pins : List Nat) (s : State) : State :=
  match o with
  | .software => s.forEach pins fun n t => t.off (Fd.PIN_CFG_FUNC n)
  | .cycle j => s.off (Fd.CYC_SUB_CFG_EN j)
  | .picot i => s.off (Fd.PIC_PIC_CTL_EN i)
  | .bobbin n => s.forEach ((List.range 6).filter fun k => s.slotDrives n k && pins.contains (s.slotPin n k)) fun k t =>
      t.off (Fd.BOB_SLOT_EN n k)

/-- The claims of the configuration are taken together at the entry to the mode that ends Load (07 R172). -/
def State.takeClaims (s : State) : State :=
  s.forEach s.loadClaims fun c t =>
    match t.claim c.1 c.2 with
    | (.ok, u) => u
    | (_, u) => u.unclaim c.1 c.2

/-- The units take up service: entry to Isolated, Seamless or Split. -/
def State.unitsServe (fromLoad wasRing : Bool) (s : State) : State :=
  let s := s.startWriter.driveOutputs
  let s := (s.canEnter.picEnter).onlyIf fromLoad State.autostart
  s.usbModeChange.onlyIf (s.onRing && !wasRing) State.cycEnter

/-- The units follow an entry to Standby: the series and the second journal run, nothing is driven (14 R356). -/
def State.unitsStandby (s : State) : State :=
  let s := s.startWriter.driveOutputs
  let s := s.stopAllBobs.bridgeIdle.canEnter
  (s.picEnter.usbModeChange).cycEnter

/-- The units follow an entry to Pass-through: SAFE levels, bobbins stopped, buffers and lock gone. -/
def State.unitsPass (s : State) : State :=
  let s := s.startWriter.driveOutputs
  s.stopAllBobs.bridgeIdle.usbModeChange

/-- The entry to a mode, with what it does to the units. A node that leaves Isolated leaves near-end loopback (02 R470).
Drowse is entered by DROWSE_ENTERED. -/
def State.changeMode (m : Mode) (s : State) : State :=
  let was := s.mode
  let wasRing := s.onRing
  let s := s.onlyIf (was.secded != m.secded) State.emptyQueues
  let s := s.onlyIf (was == .isolated && m != .isolated) State.clearLoops
  let s := (s.setFlag Fd.MEM_Q_MODE_SECDED m.secded).enterMode m
  let s := s.onlyIf (was == .load && m != .recovery) State.takeClaims
  match m with
  | .isolated | .seamless | .split => s.unitsServe (was == .load) wasRing
  | .standby => s.unitsStandby
  | .passThrough => s.unitsPass
  | _ => s.usbModeChange

/-- The mode of the path mode in force (03 R87). -/
def State.pathModeMode (s : State) : Mode := if s.splitPath then .split else .seamless

/-! ### The watchdog (16 R416) -/

/-- Start the time-out afresh: 1,000 ms until the firmware writes WDOG_CFG. -/
def State.restartWdog (s : State) : State := s.arm .wdog (s.fld Fd.SYS_WDOG_CFG_TIMEOUT * msPs)

/-- Drowse pauses it. -/
def State.pauseWdog (s : State) : State :=
  match s.deadline .wdog with
  | none => s
  | some d => State.cancel .wdog { s with boot := { s.boot with wdogLeft := some (d - s.clk) } }

/-- It goes on after the wake. -/
def State.resumeWdog (s : State) : State :=
  match s.boot.wdogLeft with
  | none => s
  | some d => State.arm .wdog d { s with boot := { s.boot with wdogLeft := none } }

/-- A write of WDOG_KICK: another KEY is ignored. In Load only the firmware reaches the register (R406), so it acts there. -/
def State.kick (w : Word) (s : State) : Res :=
  if s.asleepOrLoading && s.mode != .load then refuse .wrongMode s
  else (.ok, s.onlyIf (bits w 0 16 == 0x5A17 && s.armed .wdog) State.restartWdog)

/-- WDOG_KICK. -/
def execWdogKick (w : Word) (s : State) : Host.Outcome State Fault Refusal := .next (s.sysCommand fun t => t.kick w)

/-! ### Wake sources (16 R412 to R415) -/

/-- A wake source: it sets its bit in DRW_WAKE_SRC during the entry, in Drowse and during a wake. In Drowse the first one
starts the wake sequence; during the entry it is kept until the entry ends. -/
def State.wakeSource (bit : Fld) (usb : Bool) (s : State) : State :=
  let entering := s.flag Fd.SYS_MODE_STAT_ENTERING
  if !entering && s.mode != .drowse then s
  else
    let s := s.on bit
    if entering then
      if s.boot.wakePend then s else { s with boot := { s.boot with wakePend := true, usbWake := usb } }
    else if s.flag Fd.SYS_MODE_STAT_WAKING then s
    else
      let s : State := { s with boot := { s.boot with usbWake := usb } }
      ((s.on Fd.SYS_MODE_STAT_WAKING).bump Reg.SYS_WAKE_CNT).arm .wake (1800 * usPs)

end Sys2Proof.Machine
end

