-- ==== Sys2Proof/Machine/Twin.lean ====
section
/-!
DEFINITION. Twin nodes (14_twin_nodes.md): tether, readiness, evidences, taking the field outputs and the ring identity,
claims and grants, revert and drill.
-/

namespace Sys2Proof.Machine

def State.setTwin (t : Twin) (s : State) : State := { s with twin := t }
def State.twinEn (s : State) : Bool := s.flag Fd.TWIN_TWIN_CFG_EN
def State.twinState (s : State) : Nat := s.fld Fd.TWIN_TWIN_STAT_STATE
def State.tetherOk (s : State) : Bool := s.flag Fd.TWIN_TWIN_STAT_TETHER_OK
def State.twinPos (s : State) : Bool := s.flag Fd.SYS_STRAP_TWIN_POS
def State.gseq (s : State) : Nat := s.fld Fd.TWIN_TWIN_STAT_GSEQ

/-- Enter a twin state; states 0 and 4 hold the ring identity (R355, R356). -/
def State.setTwinState (n : Nat) (s : State) : State :=
  (s.setFld Fd.TWIN_TWIN_STAT_STATE n).setTwin { s.twin with noIdentity := !(n == 0 || n == 4) }

/-- A twin package that holds the field outputs (R355). -/
def State.fieldHolder (s : State) : Bool := s.twinEn && (s.twinState == 3 || s.twinState == 4)

/-- The partner is ready, as far as the tether tells (R355). -/
def State.partnerReady (s : State) : Bool := s.flag Fd.TWIN_TWIN_STAT_PARTNER_READY && s.tetherOk

/-- Own and partner digests are equal (R368). -/
def State.digestsMatch (s : State) : Bool :=
  s.rd Reg.TWIN_DIGEST_LO == s.rd Reg.TWIN_PARTNER_DIGEST_LO && s.rd Reg.TWIN_DIGEST_HI == s.rd Reg.TWIN_PARTNER_DIGEST_HI

/-- STANDBY while ready, STANDBY_NR otherwise (R355, R368); HOLDOFF runs from the start of readiness (R366). -/
def State.noteReady (s : State) : State :=
  if s.twinEn && s.mode == .standby && s.twinState != 5 then
    let ready := s.tetherOk && s.digestsMatch
    let since := if ready then some (s.twin.readySince.getD s.clk) else none
    (s.setTwinState (if ready then 2 else 1)).setTwin { s.twin with noIdentity := true, readySince := since }
  else s.setTwin { s.twin with readySince := none }

/-- Let time pass up to clock `t`. -/
def State.until (t : Nat) (s : State) : State := s.advance (t - s.clk)

/-! ### The tether (R353) -/

/-- The main domain of a twin package runs: the tether belongs to it. -/
def State.tethered (s : State) : Bool := s.twinEn && !s.anat.kaHeld && !s.anat.mainHeld

/-- A valid heartbeat: the partner's state is taken, and the standby loads its SEQ counters. -/
def State.heartbeat (h : Heartbeat) (s : State) : State :=
  let s := s.setTwin { s.twin with hb := h, hbAt := some s.clk, upSince := some (s.twin.upSince.getD s.clk) }
  let s := (s.setFlag Fd.TWIN_TWIN_STAT_PARTNER_READY h.ready).arm .tether (3 * usPs)
  if s.mode = .standby then
    s.forEach (List.range 8) fun c t =>
      { t with ring := { t.ring with seqs := Tab.set 0#16 t.ring.seqs c (h.seqs.getD c 0#16) } }
  else s

/-- TETHER_HEARTBEAT. -/
def execTetherHeartbeat (h : Heartbeat) (s : State) : Host.Outcome State Fault Refusal :=
  .next (if s.tethered then s.heartbeat h else s)

/-- TETHER_LOSS. -/
def execTetherLoss (s : State) : Host.Outcome State Fault Refusal :=
  .next (s.expiry .tether fun t =>
    let t := t.setTwin { t.twin with upSince := none, wasReady := t.twinState == 2 }
    (if t.tetherOk then (t.off Fd.TWIN_TWIN_STAT_TETHER_OK).bump Reg.TWIN_TETHER_LOSS_CNT else t).noteReady)

/-- TETHER_BACK: heartbeats have come for 100 µs. -/
def execTetherBack (s : State) : Host.Outcome State Fault Refusal :=
  .next (match s.twin.upSince with
    | none => s
    | some t =>
      if s.tetherOk || !s.tethered then s
      else (((s.until (t + 100 * usPs)).on Fd.TWIN_TWIN_STAT_TETHER_OK).arm .tether (3 * usPs)).noteReady)

/-- TETHER_STATUS (R368): byte 0 of the digest in [7:0]. -/
def execTetherStatus (digest : BitVec 64) (s : State) : Host.Outcome State Fault Refusal :=
  .next (if s.tethered then
      let s := s.wr64 Reg.TWIN_PARTNER_DIGEST_LO Reg.TWIN_PARTNER_DIGEST_HI digest.toNat
      (s.setFlag Fd.TWIN_TWIN_STAT_CFG_MISMATCH (!s.digestsMatch)).noteReady
    else s)

/-- INPUT_MIRROR: a pin that differs in 3 consecutive mirrors sets its IN_DIFF bit (R353). -/
def execInputMirror (levels : BitVec 256) (s : State) : Host.Outcome State Fault Refusal :=
  .next (if s.tethered then
      s.forEach (List.range 256) fun n t =>
        let c := if t.level n != levels.getLsbD n then min 3 (Tab.get 0 t.twin.diffs n + 1) else 0
        let t := t.setTwin { t.twin with diffs := Tab.set 0 t.twin.diffs n c }
        if c = 3 then t.on ⟨Reg.TWIN_IN_DIFF (n / 32), n % 32, 1⟩ else t
    else s)

/-! ### Releases (R354, R358) -/

/-- The outputs turn off, the release is signalled, and the identity is given up. -/
def State.giveUp (cause : Nat) (s : State) : State :=
  let s := (s.releaseOutputs.emit .relPulse).setFld Fd.TWIN_TWIN_STAT_REL_CAUSE cause
  let s := (s.setTwinState 5).cancel .claim
  s.setTwin { s.twin with handAt := none }

/-- A self-release of the field holder (R358), and whether it took place. -/
def State.selfRelease (cause : Nat) (s : State) : Bool × State :=
  if s.fieldHolder then (true, s.giveUp cause) else (false, s)

/-- A release without a restart: revert and drill hand over to the partner, and the package stands by (R366, R369). -/
def State.handBack (cause : Nat) (s : State) : State :=
  (((s.giveUp cause).changeMode .standby).setTwinState 1).noteReady

/-- The partner's release is seen (R354, R357): its ACT counts no more and an agreed revert is cancelled. A ready standby
will take the field outputs on `ev` when the output gap ends. -/
def State.partnerReleased (ev : Nat) (s : State) : State :=
  if !s.tethered || s.fieldHolder then s
  else
    let s := s.setTwin { s.twin with actAt := none, relAt := s.clk, handAt := none }
    if s.twinState = 2 ∧ s.twin.take = none then s.setTwin { s.twin with take := some (ev, s.clk) } else s

/-- TWIN_REL_N. -/
def execTwinRelN (s : State) : Host.Outcome State Fault Refusal := .next (s.partnerReleased 1)
/-- REL. -/
def execRel (s : State) : Host.Outcome State Fault Refusal := .next (s.partnerReleased 1)

/-! ### TWIN frames (R362) -/

/-- SRC node of the latest beacon accepted: the active warden (R85, R362). -/
def State.activeWarden (s : State) : Option Nat :=
  if s.live .role0 then s.ring.last0.map (·.1) else (s.ring.last1.orElse fun _ => s.ring.last0).map (·.1)

/-- The TWIN payload. -/
def State.twinPayload (s : State) (ttype : Nat) (pos : Bool) (ev : Nat) (flags gseq : Nat) : List Byte :=
  [BitVec.ofNat 8 ttype, BitVec.ofNat 8 ((if pos then 128 else 0) + ev % 8 * 16 + flags)] ++ beBytes 2 gseq ++
  beBytes 8 s.now ++ leBytes 4 (s.rd Reg.TWIN_DIGEST_LO).toNat ++ leBytes 4 (s.rd Reg.TWIN_DIGEST_HI).toNat ++
  beBytes 4 (s.rd Reg.TWIN_TAKEOVER_CNT).toNat

/-- Send a TWIN frame to a node of the own ring. -/
def State.sendTwin (node : Nat) (p : List Byte) (s : State) : State :=
  s.queueFrame (s.formFrame Kd.twin 7#3 0#6 (BitVec.ofNat 6 s.ownRing) (BitVec.ofNat 9 node) 0#9 0#4 p)

/-- Send a CLAIM to the active warden (R363); the next one follows in 100 µs. -/
def State.sendClaim (s : State) : State :=
  let s := s.arm .claim (100 * usPs)
  match s.activeWarden with
  | none => s
  | some w => (s.bump Reg.TWIN_CLAIM_TX).sendTwin w (s.twinPayload 2 s.twinPos s.twin.evidence 0 s.gseq)

/-- CLAIM_REPEAT. -/
def execClaimRepeat (s : State) : Host.Outcome State Fault Refusal :=
  .next (s.expiry .claim fun t => if t.twinState = 3 then t.sendClaim else t)

/-- TWIN_HEARTBEAT_TX: the time counter passes a multiple of 100 µs at the identity holder. -/
def execTwinHeartbeatTx (s : State) : Host.Outcome State Fault Refusal :=
  .next (if s.twinEn && s.twinState == 4 && s.onRing then
      let s := s.toTime ((s.now / 100000 + 1) * 100000)
      let b := fun (c : Bool) (v : Nat) => if c then v else 0
      match s.activeWarden with
      | none => s
      | some w =>
        s.sendTwin w (s.twinPayload 1 s.twinPos 0 (b s.partnerReady 8 + b s.tetherOk 4 + b s.digestsMatch 2) s.gseq)
    else s)

/-! ### The warden's grants (R364) -/

/-- A TWIN frame of type `t`. -/
def Frame.isTwin (f : Frame) (t : Nat) : Bool := f.kind == Kd.twin && fieldBE f.payload 0 1 == t

/-- The GRANT of an entry goes to the twin's node id. -/
def State.sendGrant (n ev : Nat) (s : State) : State :=
  s.sendTwin n (s.twinPayload 3 (s.flag (Fd.TWIN_GRANT_TAB_HOLDER n)) ev 0 (s.fld (Fd.TWIN_GRANT_TAB_GSEQ n)))

/-- A CLAIM at the active warden. -/
def State.claimed (f : Frame) (s : State) : State :=
  let n := f.srcNode.toNat
  let g := fieldBE f.payload 2 2
  let ev := fieldBE f.payload 1 1 / 16 % 8
  if !s.flag (Fd.TWIN_GRANT_TAB_VALID n) || g == s.fld (Fd.TWIN_GRANT_TAB_GSEQ n) then
    let s := (s.on (Fd.TWIN_GRANT_TAB_VALID n)).setFld (Fd.TWIN_GRANT_TAB_GSEQ n) ((g + 1) % 65536)
    let s := s.setFlag (Fd.TWIN_GRANT_TAB_HOLDER n) (fieldBE f.payload 1 1 / 128 == 1)
    (s.sendGrant n ev).bump Reg.TWIN_TWIN_GRANT_CNT
  else s.sendGrant n ev

/-- CLAIM_RX. -/
def execClaimRx (f : Frame) (s : State) : Host.Outcome State Fault Refusal :=
  .next (let s := s.takeMail f
         if s.flag Fd.WARDEN_RING_STAT_WARDEN_ACTIVE && f.isTwin 2 then s.claimed f else s)

/-- TWIN_HEARTBEAT_RX: the warden records it. -/
def execTwinHeartbeatRx (f : Frame) (s : State) : Host.Outcome State Fault Refusal :=
  .next (let s := s.takeMail f
         if s.flag Fd.WARDEN_RING_STAT_WARDEN_ACTIVE && f.isTwin 1 then
           let n := f.srcNode.toNat
           (s.setFlag (Fd.TWIN_GRANT_TAB_PARTNER_READY n) (fieldBE f.payload 1 1 / 8 % 2 == 1)).setTwin
             { s.twin with hbRx := (n, s.clk) :: s.twin.hbRx.filter (·.1 != n) }
         else s)

/-- GRANT_TAB.HB_AGE: units of 100 µs since the latest heartbeat, saturating. -/
def State.hbAge (s : State) (n : Nat) : Nat :=
  match s.twin.hbRx.lookup n with
  | none => 0x3FF
  | some t => min 0x3FF ((s.clk - t) / (100 * usPs))

/-- GRANT_RX: a GRANT copy is read and relayed over the tether; one with a higher GSEQ ends the claims. -/
def State.grant (f : Frame) (s : State) : State :=
  let g := fieldBE f.payload 2 2
  let newer := (g + 65536 - s.gseq) % 65536
  let s := s.emit (.tether f.payload)
  if 1 ≤ newer ∧ newer ≤ 32767 then
    let mine := (fieldBE f.payload 1 1 / 128 == 1) == s.twinPos
    let s := (s.setFld Fd.TWIN_TWIN_STAT_GSEQ g).cancel .claim
    if s.twinState = 3 ∧ mine = true then s.setTwin { s.twin with granted := true } else s
  else s

/-- GRANT_RX. -/
def execGrantRx (f : Frame) (s : State) : Host.Outcome State Fault Refusal :=
  .next (let s := s.takeMail f
         if s.tethered && f.isTwin 3 then s.grant f else s)

/-! ### Taking the field outputs (R357, R359, R360, R363) -/

/-- The pins that a bobbin or the cycle engine owns start at the level their own receivers read (R360). -/
def State.takePins (s : State) : State :=
  s.forEach (List.range 256) fun n t =>
    let o := t.fld (Fd.PIN_STAT_OWNER n)
    if o = 2 ∨ o = 4 then t.drive n (t.level n) true else t

/-- The drivers turn on and the units take up service (R360); an entry to service after a reset starts the bobbins with AUTOSTART too
(08 R215). In a path mode the SEQ counters jump and a CLAIM goes out
(R363); in Isolated the package is ACTIVE at once (R365). -/
def State.takeField (ev : Nat) (s : State) : State :=
  let s := s.setTwin { s.twin with take := none, evidence := ev, granted := false, enteredAt := none }
  let s := ((s.setFld Fd.TWIN_TWIN_STAT_LAST_EVIDENCE ev).bump Reg.TWIN_TAKEOVER_CNT).setTwinState 3
  let s := (s.changeMode (if s.boot.startRing then s.pathModeMode else .isolated)).takePins
  let s := s.onlyIf (ev == 5) State.autostart
  let s := s.forEach (List.range 64) fun n t => if s.twin.hb.runs.getLsbD n then t.startBob n else t
  let s := s.forEach (List.range 8) fun n t => if t.flag (Fd.CAN_CTL_EN n) then t.integrate n else t
  if s.onRing then
    let s := s.forEach (List.range 8) fun c t =>
      { t with ring := { t.ring with seqs := Tab.set 0#16 t.ring.seqs c (Tab.get 0#16 t.ring.seqs c + 1024#16) } }
    s.sendClaim
  else s.setTwinState 4

/-- OUTPUT_GAP_END: 40 + n PERI cycles after the release (R359). -/
def execOutputGapEnd (n : Fin 25) (s : State) : Host.Outcome State Fault Refusal :=
  .next (match s.twin.take with
    | none => s
    | some (ev, t) =>
      let s := s.until (t + (40 + n.val) * periPs)
      if s.partnerAct || s.mode != .standby then s.setTwin { s.twin with take := none } else s.takeField ev)

/-- SILENT (R357): the tether was lost while this package was ready, and at its next own slot the partner's ACT is not seen.
R of R365 is 1 µs after the last heartbeat. -/
def execSilent (s : State) : Host.Outcome State Fault Refusal :=
  .next (if !s.tethered || s.mode != .standby || s.tetherOk || !s.twin.wasReady || s.twin.take.isSome then s
    else
      let t := s.toOwnSlot
      if t.partnerAct then t
      else (t.setTwin { t.twin with relAt := t.twin.hbAt.getD t.clk + usPs, wasReady := false }).takeField 2)

/-- The second package's partner has been silent for 2 s since `t` (R357). -/
def State.silentSince (s : State) : Nat := max (s.twin.enteredAt.getD s.clk) (max (s.twin.hbAt.getD 0) (s.twin.slotAt.getD 0))

/-- START_EVIDENCE (R357, R370). -/
def execStartEvidence (s : State) : Host.Outcome State Fault Refusal :=
  .next (if !s.tethered || s.mode != .standby || s.twin.take.isSome then s
    else
      let start := s.boot.cold && s.twin.enteredAt.isSome
      let idle := s.twinState == 2 && s.partnerReady && s.twin.hb.state.val != 3 && s.twin.hb.state.val != 4
      let go := fun (s : State) =>
        let t := s.toOwnSlot
        if t.partnerAct then t else (t.setTwin { t.twin with relAt := t.clk }).takeField 5
      if !s.twinPos then (if start || idle then go s else s)
      else if start && !s.tetherOk && s.twin.upSince.isNone then go (s.until (s.silentSince + 2 * secPs))
      else s)

/-! ### Taking the ring identity (R365) -/

/-- Quarantine a tag for `ps` (05 R131). -/
def State.quarantineTag (t ps : Nat) (s : State) : State :=
  State.arm (.tagQuarantine t) ps
    { s with txn := { s.txn with tags := (t, ⟨true, 0, 0#6, 0#9, .read, 0, 0, false⟩) :: s.txn.tags.filter (·.1 != t) } }

/-- The longest quarantine that an initiator's TIMEOUT asks for: the mirrored bitmap does not name the initiator. -/
def State.longestQuarantine (s : State) : Nat :=
  max msPs ([0, 1, 2].foldl (fun m i => max m (s.fld (Fd.TXN_TIMEOUT_TIME i) * usPs)) 0)

/-- The windows are set invalid, the mirrored tags are quarantined, the late-error record starts empty, and the package is ACTIVE. -/
def State.takeIdentity (s : State) : State :=
  let s : State := { s with
    ring := { s.ring with windows := [] }
    regs := s.regs.filter fun e => !(decide (0x30800 ≤ e.1 ∧ e.1 < 0x31000) || e.1 == Reg.TXN_LATE_WR)
    txn := { s.txn with lateOrder := [] } }
  let s := s.forEach ((List.range 512).filter s.twin.hb.tags.getLsbD) fun t u => u.quarantineTag t u.longestQuarantine
  s.setTwinState 4

/-- IDENTITY_TAKE: at the later of the GRANT and R + RTT + QUIET. -/
def execIdentityTake (s : State) : Host.Outcome State Fault Refusal :=
  .next (if s.tethered && s.twinState == 3 && s.twin.granted then
      (s.until (s.twin.relAt + (s.rd Reg.WARDEN_RTT).toNat * 1000 + s.fld Fd.TWIN_TWIN_CFG_QUIET * usPs)).takeIdentity
    else s)

/-- DRIVE_FAULT (R361): a pin driven push-pull does not show the driven value. -/
def execDriveFault (n : Fin 256) (s : State) : Host.Outcome State Fault Refusal :=
  .next (match s.pinDrive n.val with
    | some v =>
      if s.flag (Fd.PIN_CFG_OD n.val) || s.level n.val == v then s
      else (s.on ⟨Reg.TWIN_DRIVE_FAULT (n.val / 32), n.val % 32, 1⟩).bump Reg.TWIN_DRIVE_FAULT_CNT
    | none => s)

/-! ### Revert (R366, R367) -/

def State.drillPending (s : State) : Bool := s.flag Fd.TWIN_DRILL_STAT_PENDING

/-- REVERT_REQUEST: the first package, ready for HOLDOFF, asks; the partner that holds the outputs agrees an instant 1 ms
ahead. A fourth revert within 60 minutes sets REVERT_LIMIT instead. -/
def execRevertRequest (s : State) : Host.Outcome State Fault Refusal :=
  .next (if !s.tethered || s.drillPending || s.twin.handAt.isSome then s
    else if s.twinPos then
      (if s.fieldHolder then s.setTwin { s.twin with handAt := some (s.now + 1000000) } else s)
    else
      match s.twin.readySince with
      | none => s
      | some t =>
        if s.twinState != 2 || !s.flag Fd.TWIN_TWIN_CFG_REVERT_EN || s.flag Fd.TWIN_TWIN_STAT_REVERT_LIMIT then s
        else
          let s := s.until (t + s.fld Fd.TWIN_TWIN_CFG_HOLDOFF * secPs)
          let recent := s.twin.reverts.filter fun r => decide (s.clk < r + 3600 * secPs)
          if 3 ≤ recent.length then s.on Fd.TWIN_TWIN_STAT_REVERT_LIMIT
          else (s.emit (.tether [])).setTwin { s.twin with handAt := some (s.now + 1000000) })

/-- REVERT_HANDOVER: at the agreed instant the partner releases, and the first package takes over after the gap. -/
def execRevertHandover (s : State) : Host.Outcome State Fault Refusal :=
  .next (match s.twin.handAt with
    | none => s
    | some at_ =>
      let s := s.toTime at_
      let s := s.setTwin { s.twin with handAt := none }
      if s.twinPos then (if s.fieldHolder then s.handBack 6 else s)
      else if s.twinState = 2 then
        (s.bump Reg.TWIN_REVERT_CNT).setTwin { s.twin with
          reverts := s.clk :: s.twin.reverts, actAt := none, relAt := s.clk, take := some (3, s.clk) }
      else s)

/-- CLR_LIMIT. -/
def execClrLimit (s : State) : Host.Outcome State Fault Refusal :=
  .next (s.command none fun t => (.ok, t.off Fd.TWIN_TWIN_STAT_REVERT_LIMIT))

/-! ### Drill (R369) -/

/-- A write of TWIN_CMD.DRILL. -/
def State.drillCmd (s : State) : Res :=
  let at_ := s.rd64 Reg.TWIN_DRILL_AT_LO Reg.TWIN_DRILL_AT_HI
  if s.twinState ≠ 4 then refuse .wrongMode s
  else if !s.partnerReady || s.drillPending || s.twin.handAt.isSome then refuse .busy s
  else if at_ < s.now + 2000000 ∨ s.now + 60000000000 < at_ then refuse .badRequest s
  else (.ok, s.on Fd.TWIN_DRILL_STAT_PENDING)

/-- DRILL. -/
def execDrill (s : State) : Host.Outcome State Fault Refusal := .next (s.command none State.drillCmd)

/-- DRILL_START: at DRILL_AT the holder releases with cause 7, and the ready partner takes over with evidence 4. -/
def execDrillStart (s : State) : Host.Outcome State Fault Refusal :=
  .next (if s.drillPending && s.twinState == 4 && !s.twin.drillRun then
      let s := (s.toTime (s.rd64 Reg.TWIN_DRILL_AT_LO Reg.TWIN_DRILL_AT_HI)).handBack 7
      s.setTwin { s.twin with drillRun := true }
    else s.partnerReleased 4)

/-- A part failed, or saw no traffic, in the order gap, identity, drive, CAN, stitch. -/
def DrillParts.list (p : DrillParts) : List DrillPart := [p.gap, p.identity, p.drive, p.can, p.stitch]

/-- DRILL_STAT at the end of a drill. -/
def State.recordDrill (p : DrillParts) (s : State) : State :=
  let l := p.list
  let unproved := (List.range 5).foldl (fun m i => if l[i]? = some .noTraffic then m + 2 ^ i else m) 0
  let bad := l.findIdx? (· == .failed)
  (((s.setFld Fd.TWIN_DRILL_STAT_UNPROVED unproved).setFld Fd.TWIN_DRILL_STAT_FAIL_PART ((bad.map (· + 1)).getD 0)).setFlag
    Fd.TWIN_DRILL_STAT_PASS bad.isNone).off Fd.TWIN_DRILL_STAT_PENDING

/-- DRILL_TAKEBACK: after DRILL_HOLD the partner that took over in the drill releases, and the original holder takes back and
records what the parts showed. -/
def execDrillTakeback (parts : DrillParts) (s : State) : Host.Outcome State Fault Refusal :=
  .next (if s.twin.drillRun then
      let s := s.toTime (s.rd64 Reg.TWIN_DRILL_AT_LO Reg.TWIN_DRILL_AT_HI + s.fld Fd.TWIN_TWIN_CFG_DRILL_HOLD * 1000000000)
      let s := (s.recordDrill parts).setTwin { s.twin with drillRun := false }
      if s.mode = .standby then s.setTwin { s.twin with actAt := none, relAt := s.clk, take := some (4, s.clk) } else s
    else if s.fieldHolder && s.fld Fd.TWIN_TWIN_STAT_LAST_EVIDENCE == 4 then
      (s.until (s.twin.relAt + s.fld Fd.TWIN_TWIN_CFG_DRILL_HOLD * secPs)).handBack 7
    else s)

/-! ### Registers (R371) -/

/-- A write of TWIN_CFG: only the configuration in Load. -/
def State.twinCfg (w : Word) (s : State) : Res :=
  if !s.applying then refuse .wrongMode s
  else if bits w 16 8 = 0 ∨ bits w 8 8 = 0 ∨ bits w 0 8 = 0 ∨ 60 < bits w 0 8 then refuse .badRequest s
  else (.ok, s.wr Reg.TWIN_TWIN_CFG (w &&& 0xC0FFFFFF#32))

/-- Writes in the TWIN block that have rules of their own, by offset within it. -/
def State.twinWrite (off : Nat) (w : Word) (s : State) : Option Res :=
  match off with
  | 0x000 => some (s.twinCfg w)
  | 0x008 =>
    let r : Res := if w.getLsbD 0 then s.drillCmd else (.ok, s)
    some (if r.1 = .ok ∧ w.getLsbD 1 = true then (.ok, r.2.off Fd.TWIN_TWIN_STAT_REVERT_LIMIT) else r)
  | _ => none

/-- Derived TWIN values: POS and PARTNER_ACT of TWIN_STAT, HB_AGE of GRANT_TAB. -/
def State.twinRead (s : State) (off : Nat) : Option Word :=
  if off = 0x004 then
    some (putBits (putBits (s.rd Reg.TWIN_TWIN_STAT) 31 1 (if s.twinPos then 1 else 0)) 23 1 (if s.partnerAct then 1 else 0))
  else if 0x1000 ≤ off ∧ off < 0x1800 then
    let n := (off - 0x1000) / 4
    some (putBits (s.rd (Reg.TWIN_GRANT_TAB n)) 16 10 (s.hbAge n))
  else none

end Sys2Proof.Machine
end

