-- ==== Sys2Proof/Machine/Modes.lean ====
section
/-!
DEFINITION. Mode commands (16 R407 to R410), the quiesce (05 R147, R148), Drowse entry and wake (16 R411 to R415).
-/

namespace Sys2Proof.Machine

/-- A status of MODE_CTL: WRONG_MODE counts in the block's own counter (16 R417). -/
def refuseMode (s : State) : Res := (.wrongMode, s.bump Reg.SYS_WRONG_MODE_CNT)

/-! ### Quiesce (05 R147, R148) -/

/-- A quiesce starts. -/
def State.startQuiesce (s : State) : State :=
  ((s.on Fd.TXN_TXN_STAT_QUIESCING).off Fd.TXN_TXN_STAT_QUIESCE_DONE).arm .quiesce (5 * msPs)

/-- No incoming request is being served and no own request is outstanding. -/
def State.quiet (s : State) : Bool :=
  s.txn.serve.isEmpty && s.stb.queue.isEmpty && s.stb.waiting.isEmpty && s.hand.all (·.2.req.isNone) && s.txn.tags.all fun t => t.2.quarantined

/-- The quarantine of a tag of initiator `i` (05 R131). -/
def State.quarantinePs (s : State) (i : Nat) : Nat := max msPs (s.fld (Fd.TXN_TIMEOUT_TIME i) * usPs)

/-- A tag's request completes at its initiator with a status, and the tag is quarantined (05 R131). -/
def State.giveUpTag (t : Nat) (st : Status) (s : State) : State :=
  match s.txn.tags.lookup t with
  | none => s
  | some u =>
    if u.quarantined then s
    else
      let s := (s.freeTag t).quarantineTag t (s.quarantinePs u.init)
      s.initCpl u.init (some t) (some { u with dstRing := BitVec.ofNat 6 s.ownRing, dstNode := BitVec.ofNat 9 s.ownNode }) st []

/-- Requests still being served are answered TARGET_RESET, the bridge's and a churn handover's among them (05 R148,
10 R264). -/
def State.flushServe (s : State) : State :=
  let l := s.txn.serve ++ s.txn.backlog
  let l := l ++ (s.hand.filterMap fun h => h.2.req).eraseDups
  let s : State := { s with txn := { s.txn with serve := [], backlog := [] }
                            hand := s.hand.map fun h => (h.1, { h.2 with req := none }) }
  (s.forEach l fun e t => State.fail e.1 e.2 (refuse .targetReset t)).bridgeReset

/-- Every lock is released. -/
def State.dropLocks (s : State) : State :=
  State.dropStitchLock
    ((s.forEach s.txn.locks fun l t => t.cancel (.lock l.1)) |> fun t => { t with txn := { t.txn with locks := [] } })

/-- The end of a quiesce. -/
def State.endQuiesce (s : State) : State :=
  let s := s.flushServe
  let s := s.forEach (s.txn.tags.map (·.1)) fun t u => u.giveUpTag t .targetReset
  (((s.dropLocks).cancel .quiesce).off Fd.TXN_TXN_STAT_QUIESCING).on Fd.TXN_TXN_STAT_QUIESCE_DONE

/-! ### Mode commands -/

/-- Entry to Pass-through: with a ready partner it is a release, and the outputs stay off (14 R358). A twin package in
Standby holds nothing to release, and its outputs stay off. -/
def State.passThrough (s : State) : State :=
  let was := s.mode
  let release := s.fieldHolder && s.partnerReady
  let s := s.changeMode .passThrough
  if release then s.giveUp 5 else if was == .standby then s.releaseOutputs.setTwinState 5 else s

/-- A twin package that has released goes back to Standby, a package else to the mode named (14 R370, 16 R407). -/
def State.backFrom (m : Mode) (s : State) : State :=
  if s.twinEn && s.twinState == 5 then ((s.changeMode .standby).setTwinState 1).noteReady else s.changeMode m

/-- Identity set and no conflict (16 R407). -/
def State.ringAllowed (s : State) : Bool :=
  s.ownRing != 0 && s.ownNode != 0 && !s.flag Fd.SYS_CFG_STAT_CONFIG_CONFLICT

/-- Drowse may be entered (16 R411). -/
def State.drowseAllowed (s : State) : Bool :=
  (s.onRing || s.mode == .isolated) && !s.twinEn && s.fld Fd.WARDEN_RING_CTL_ROLE == 0 &&
  (List.range 32).all (fun t => !s.flag (Fd.CYC_STR_CFG_EN t) || s.fld (Fd.CYC_STR_CFG_ROLE t) == 0) &&
  s.fld Fd.UPD_UPD_STAT_STATE != 5 && (s.suspended || !s.flag Fd.USB_USB_STAT_VBUS)

/-- A Drowse entry starts (16 R412 step 1). -/
def State.enterDrowse (s : State) : State :=
  let s : State := { s with boot := { s.boot with held := s.mode, wakePend := false, wakeAt := none } }
  (s.on Fd.SYS_MODE_STAT_ENTERING).startQuiesce

/-- What a TARGET does from the present mode; none where no row of R407 allows it. -/
def State.target (t : Nat) (s : State) : Option State :=
  let service := s.onRing || s.mode == .isolated
  match t with
  | 0 => if s.onRing then some (s.changeMode .isolated) else if s.mode = .passThrough then some (s.backFrom .isolated) else none
  | 1 =>
    if !s.ringAllowed then none
    else if s.mode = .isolated then some (s.changeMode s.pathModeMode)
    else if s.mode = .passThrough then some (s.backFrom s.pathModeMode)
    else none
  | 2 => if service || s.mode == .standby then some s.passThrough else none
  | _ => if s.drowseAllowed then some s.enterDrowse else none

/-- A write of MODE_CTL (16 R407 to R411, R416). -/
def State.modeCtl (t : Nat) (clr : Bool) (s : State) : Res :=
  if clr && (!s.flag Fd.SYS_MODE_STAT_SAFE_HOLD || t == 2 || t == 3) then refuse .badRequest s
  else if s.flag Fd.SYS_MODE_STAT_ENTERING || s.flag Fd.SYS_MODE_STAT_WAKING || s.flag Fd.SYS_MODE_STAT_ACTIVATING then
    refuse .busy s
  else if s.flag Fd.SYS_MODE_STAT_SAFE_HOLD && !clr then refuseMode s
  else
    match s.target t with
    | none => refuseMode s
    | some u => (.ok, u.onlyIf clr (State.off Fd.SYS_MODE_STAT_SAFE_HOLD))

/-- TARGET_ISOLATED. -/
def execTargetIsolated (clr : Bool) (s : State) : Host.Outcome State Fault Refusal := .next (s.sysCommand fun t => t.modeCtl 0 clr)
/-- TARGET_RING. -/
def execTargetRing (clr : Bool) (s : State) : Host.Outcome State Fault Refusal := .next (s.sysCommand fun t => t.modeCtl 1 clr)
/-- TARGET_PASS. -/
def execTargetPass (clr : Bool) (s : State) : Host.Outcome State Fault Refusal := .next (s.sysCommand fun t => t.modeCtl 2 clr)
/-- TARGET_DROWSE. -/
def execTargetDrowse (clr : Bool) (s : State) : Host.Outcome State Fault Refusal := .next (s.sysCommand fun t => t.modeCtl 3 clr)

/-- The DROWSE levels stand: bobbins stop and are recorded (16 R412 step 2). -/
def State.drowseLevels (s : State) : State :=
  let s := s.loadDrowseRun.stopAllBobs
  { s with boot := { s.boot with drowsy := true } }

/-- QUIESCE_END: at once when nothing is served or outstanding, else 5 ms after the start. The node then continues into
Drowse or activation (05 R148, 16 R412, 17 R432). -/
def execQuiesceEnd (s : State) : Host.Outcome State Fault Refusal :=
  .next (if !s.armed .quiesce then s
    else
      let s := (if s.quiet then s else s.expire .quiesce).endQuiesce
      if s.flag Fd.SYS_MODE_STAT_ENTERING then s.drowseLevels
      else if s.flag Fd.SYS_MODE_STAT_ACTIVATING && s.mode != .passThrough then s.passThrough
      else s)

/-! ### Drowse (16 R412 to R415) -/

/-- Write every record of one burst FIFO. -/
def State.writeFifo (i : Nat) (s : State) : State :=
  if s.jrnCap = 0 then s
  else
    let t := s.onlyIf (i == 363) fun t => { t with field := { t.field with sysFirst := 0 } }
    (Tab.get [] s.fifos i).foldl (fun t r => t.writeRecord r) { t with fifos := Tab.set [] s.fifos i [] }

/-- The writer writes what the burst FIFOs hold, in its rotation. -/
def State.drainFifos (s : State) : State :=
  let n := (s.fifos.map fun e => e.2.length).foldl (· + ·) 0
  s.forEach (List.range n) fun _ t => t.recordWrite

/-- DROWSE_ENTERED: CAN leaves the buses, the writer empties the FIFOs, writes record 0x008 with DETAIL 1 and stops, the switch
goes to the pass-through path and the DRAM into self-refresh. A wake source that came meanwhile starts the wake. -/
def State.drowseEntered (s : State) : State :=
  let s := s.forEach (List.range 8) fun n t => if t.canState n = 0 ∧ (t.can n).integrating = false then t else t.canGoOff n false
  let s := s.drainFifos
  let s := s.onlyIf s.journals fun t => (t.sysRec 0x008 1).writeFifo 363
  let s := ((s.cancel .flush).clearLoops.enterMode .drowse).off Fd.SYS_MODE_STAT_ENTERING
  let s := s.onlyIf (s.path == 0) State.toPassThrough
  let s := { s with anat := { s.anat with dramSelfRefresh := true }, field := { s.field with wakeEdge := false } }
  let s := ((s.on Fd.MEM_MEM_STAT_SELF_REFRESH).bump Reg.SYS_DRW_ENTRY_CNT).pauseWdog
  if s.boot.wakePend then
    ((s.on Fd.SYS_MODE_STAT_WAKING).bump Reg.SYS_WAKE_CNT).arm .wake (1800 * usPs)
  else s

/-- DROWSE_ENTERED. -/
def execDrowseEntered (s : State) : Host.Outcome State Fault Refusal :=
  .next (if s.flag Fd.SYS_MODE_STAT_ENTERING && s.boot.drowsy then s.drowseEntered else s)

/-- A WAKE frame (16 R414): WAKE_AT at or before now means at once, otherwise it replaces DRW_WAKE_AT. -/
def State.wakeFrame (f : Frame) (s : State) : State :=
  let at_ := fieldBE f.payload 4 8
  if (s.mode != .drowse && !s.flag Fd.SYS_MODE_STAT_ENTERING) || fieldBE f.payload 0 1 != 1 ||
      decide (s.now + 60000000000 < at_) then s.bump Reg.SYS_WAKE_IGNORED
  else if !s.flag (if f.dstNode = 511#9 then Fd.SYS_DRW_CFG_WAKE_BCAST else Fd.SYS_DRW_CFG_WAKE_FRAME) then s
  else if at_ ≤ s.now then s.wakeSource Fd.SYS_DRW_WAKE_SRC_FRAME false
  else { s with boot := { s.boot with wakeAt := some at_ } }

/-- WAKE_FRAME_RX. -/
def execWakeFrameRx (f : Frame) (s : State) : Host.Outcome State Fault Refusal :=
  .next (if f.kind = Kd.wake then (s.takeMail f).wakeFrame f else s)

/-- WAKE_TIMER: the time counter reaches the WAKE_AT of a frame, or DRW_WAKE_AT with WAKE_TIMER = 1. -/
def execWakeTimer (s : State) : Host.Outcome State Fault Refusal :=
  .next (if s.mode != .drowse && !s.flag Fd.SYS_MODE_STAT_ENTERING then s
    else
      match s.boot.wakeAt with
      | some t => State.wakeSource Fd.SYS_DRW_WAKE_SRC_FRAME false { s.toTime t with boot := { s.boot with wakeAt := none } }
      | none =>
        if s.flag Fd.SYS_DRW_CFG_WAKE_TIMER then
          (s.toTime (s.rd64 Reg.SYS_DRW_WAKE_AT_LO Reg.SYS_DRW_WAKE_AT_HI)).wakeSource Fd.SYS_DRW_WAKE_SRC_TIMER false
        else s)

/-- PIN_WAKE: the filter of a pin with WAKE_EN has accepted an edge (07 R186); DRW_WAKE_SRC names the first such pin. -/
def execPinWake (n : Fin 256) (s : State) : Host.Outcome State Fault Refusal :=
  .next (if s.flag (Fd.PIN_CFG_WAKE_EN n.val) &&
            (s.flag Fd.SYS_MODE_STAT_ENTERING || (s.mode == .drowse && s.field.wakeEdge)) then
      let s := if s.flag Fd.SYS_DRW_WAKE_SRC_PIN_EDGE then s else s.setFld Fd.SYS_DRW_WAKE_SRC_PIN n.val
      s.wakeSource Fd.SYS_DRW_WAKE_SRC_PIN_EDGE false
    else s)

/-- HOST_RESUME: it also wakes a node in Drowse (11 R277, R287). -/
def execHostResume (s : State) : Host.Outcome State Fault Refusal :=
  .next (if s.suspended then s.hostResume.wakeSource Fd.SYS_DRW_WAKE_SRC_USB true else s)

/-- REMOTE_WAKE_REQUEST: by the station function, or by a device at DS[n]. -/
def execRemoteWakeRequest (ds : Option (Fin 4)) (s : State) : Host.Outcome State Fault Refusal :=
  .next (s.requestWake (ds.map (·.val)))

/-- REMOTE_WAKE_SIGNAL: one that a downstream port asked for wakes a node in Drowse (11 R277, R287). -/
def execRemoteWakeSignal (s : State) : Host.Outcome State Fault Refusal :=
  .next (let ds := s.maySignal && s.usb.wakeDs != 0#4
         let t := s.signalWake
         if ds then t.wakeSource Fd.SYS_DRW_WAKE_SRC_USB true else t)

/-- The wake sequence ends: DRAM is back, record 0x008 with DETAIL 0 and then the held wake edge are written, the mode held
before Drowse is entered, bobbins resume, and the station function asks for a remote wake unless USB was the source. -/
def State.wakeDone (s : State) : State :=
  let s := s.off Fd.MEM_MEM_STAT_SELF_REFRESH
  let s := { s with anat := { s.anat with dramSelfRefresh := false }
                    boot := { s.boot with drowsy := false, wakePend := false }
                    field := { s.field with wakeEdge := false } }
  let m := if s.boot.held == .isolated then .isolated else s.pathModeMode
  let s := s.onlyIf s.journals fun t => ((t.sysRec 0x008 0).writeFifo 363).forEach (List.range 256) State.writeFifo
  let s := ((s.onlyIf (s.path == 1) State.toFull).changeMode m).wakeBobs
  (s.onlyIf (!s.boot.usbWake) (State.requestWake none)).off Fd.SYS_MODE_STAT_WAKING |>.resumeWdog

/-- WAKE_COMPLETE: 1.8 ms after the source. -/
def execWakeComplete (s : State) : Host.Outcome State Fault Refusal := .next (s.expiry .wake State.wakeDone)

end Sys2Proof.Machine
end

