-- ==== Sys2Proof/Machine/Nvm.lean ====
section
/-!
DEFINITION. The NVM (16 R396, R397): its bytes, the boot header, its areas, and the manifest at the head of a slot
(17 R418, R419).
-/

namespace Sys2Proof.Machine

/-- One NVM byte; an erased one reads 0xFF. -/
def State.nvByte (s : State) (a : Nat) : Byte := Tab.get 0xFF#8 s.upd.nvm a

/-- `n` NVM bytes from offset `a`. -/
def State.nvBytes (s : State) (a n : Nat) : List Byte := (List.range n).map fun i => s.nvByte (a + i)

/-- A little-endian NVM field. -/
def State.nvLe (s : State) (a n : Nat) : Nat := leVal (s.nvBytes a n)

/-- Replace NVM bytes from offset `a` up. -/
def State.nvPut (a : Nat) (l : List Byte) (s : State) : State :=
  { s with upd := { s.upd with
      nvm := ((List.range l.length).zip l).foldl (fun t e => Tab.set 0xFF#8 t (a + e.1) e.2) s.upd.nvm } }

/-- Erase `n` bytes from offset `a`. -/
def State.nvErase (a n : Nat) (s : State) : State :=
  { s with upd := { s.upd with nvm := s.upd.nvm.filter fun e => !decide (a ≤ e.1 ∧ e.1 < a + n) } }

/-! ### Boot header (R397) -/

/-- AREA entries of R396 for a device of 2 to the power `log2` bytes. -/
def areas (log2 : Nat) : List (Nat × Nat) :=
  [(0x100000, 0xC00000), (0xD00000, 0xC00000), (0x1900000, 0x100000), (0x1A00000, 0x100000), (0x1B00000, 0x10000)] ++
  (if log2 = 25 then [(0, 0), (0x1C00000, 0x400000)] else [(0x1C00000, 0xC00000), (0x2800000, 2 ^ log2 - 0x2800000)])

/-- The boot header is valid. -/
def State.headerValid (s : State) : Bool :=
  let log2 := (s.nvByte 6).toNat
  s.nvLe 0 4 == 0x4842564F && s.nvLe 4 2 == 1 && decide (25 ≤ log2 ∧ log2 ≤ 28) &&
  ((List.range 7).map fun k => (s.nvLe (16 + 8 * k) 4, s.nvLe (20 + 8 * k) 4)) == areas log2 &&
  ((List.range 1024).foldl (fun a i => a + s.nvLe (4 * i) 4) 0) % 2 ^ 32 == 0

/-- The device has 32 MiB and so no staging area (R396). -/
def State.smallNvm (s : State) : Bool := s.headerValid && s.nvByte 6 == 25#8

/-! ### Slots and manifests (17 R418) -/

/-- Offset of firmware slot `k` and of configuration slot `k`. -/
def fwSlot (k : Nat) : Nat := if k = 0 then 0x100000 else 0xD00000
def cfgSlot (k : Nat) : Nat := if k = 0 then 0x1900000 else 0x1A00000

/-- The fields of a manifest, read from its bytes. -/
structure Manifest where
  magic : Nat
  ver : Nat
  imgType : Nat
  advance : Bool
  epoch : Nat
  sigKind : Nat
  version : Nat
  imgLen : Nat
  chunks : Nat
  manChunks : Nat
  target : Nat
  deriving DecidableEq, Repr

/-- A manifest from a reader of its bytes: `f a n` is the little-endian value of `n` bytes at `a`. -/
def manifestOf (f : Nat → Nat → Nat) : Manifest :=
  { magic := f 0 4, ver := f 4 1, imgType := f 5 1, advance := f 6 1 / 128 == 1, epoch := f 6 1 % 64, sigKind := f 7 1,
    version := f 8 4, imgLen := f 12 4, chunks := f 16 2, manChunks := f 18 2, target := f 20 4 }

/-- The manifest at NVM offset `a`. -/
def State.manifestAt (s : State) (a : Nat) : Manifest := manifestOf fun o n => s.nvLe (a + o) n

/-- Magic, manifest version, type and counts are those of R418 and R419 for type `t`. -/
def Manifest.wellFormed (m : Manifest) (t : Nat) : Bool :=
  m.magic == 0x464D564F && m.ver == 1 && m.imgType == t &&
  m.manChunks == (192 + 32 * m.chunks + 4095) / 4096

/-- SIZE: the counts and the length agree and stay within the limits of R419. -/
def Manifest.sizeOk (m : Manifest) : Bool :=
  decide (m.chunks + m.manChunks ≤ (if m.imgType = 1 then 3072 else 256)) &&
  decide (m.imgLen ≤ m.chunks * 4096 ∧ (m.chunks - 1) * 4096 < m.imgLen)

/-- TARGET of R418: the part, or the node's ring and node number. -/
def State.targetOk (s : State) (m : Manifest) : Bool :=
  if m.imgType = 1 then m.target == 0x4160 else m.target == s.ownRing * 1024 + s.ownNode * 2

/-! ### The session in the staging map (17 R430) -/

/-- Offset of the staging map. -/
def mapBase : Nat := 0x1B00000

/-- Session state, owner and image type. -/
def State.updState (s : State) : Nat := s.fld Fd.UPD_UPD_STAT_STATE
def State.updOwner (s : State) : Nat := s.fld Fd.UPD_UPD_STAT_OWNER
def State.updType (s : State) : Nat := s.fld Fd.UPD_UPD_STAT_IMG_TYPE
def State.updTotal (s : State) : Nat := s.fld Fd.UPD_UPD_TOTAL_N_TOTAL

/-- Load STATE, LAST_END and REJECT; a change of the first two is station event 0x05 (17 R428). -/
def State.setSession (state end_ reject : Nat) (s : State) : State :=
  let changed := state != s.updState || end_ != s.fld Fd.UPD_UPD_STAT_LAST_END
  let s := ((s.setFld Fd.UPD_UPD_STAT_STATE state).setFld Fd.UPD_UPD_STAT_LAST_END end_).setFld Fd.UPD_UPD_STAT_REJECT reject
  s.onlyIf changed (State.stationEvent 0x05 (end_ * 256 + state * 16 + reject))

/-- Enter a state of the running session. -/
def State.setUpdState (n : Nat) (s : State) : State :=
  s.setSession n (s.fld Fd.UPD_UPD_STAT_LAST_END) (s.fld Fd.UPD_UPD_STAT_REJECT)

/-- Chunk `c` is held: its MISSING bit is clear. -/
def State.held (s : State) (c : Nat) : Bool := (s.nvByte (mapBase + 72 + c / 8)).toNat / 2 ^ (c % 8) % 2 == 0

/-- Load the digest registers. -/
def State.setDigest (d : List Byte) (s : State) : State :=
  s.forEach (List.range 8) fun w t => t.wr (Reg.UPD_DIGEST w) (BitVec.ofNat 32 (leVal ((d.drop (4 * w)).take 4)))

/-- The firmware in Load, or ROM in Recovery, reads the map: an open session goes on in the state that STATE_MARK shows, an ended
one reports its end (17 R430). -/
def State.resumeSession (s : State) : State :=
  if s.nvLe mapBase 4 ≠ 0x4D53564F ∨ s.nvByte (mapBase + 4) ≠ 1#8 then s
  else
    let e := s.nvLe (mapBase + 68) 4
    if e ≠ 0xFFFFFFFF then s.setSession 0 (e % 16) (e / 16 % 16)
    else
      let m := s.nvLe (mapBase + 64) 1
      let total := s.nvLe (mapBase + 10) 2
      let n := ((List.range total).filter s.held).length
      let st := if m / 4 % 2 = 0 then 4 else if m / 2 % 2 = 0 then 3 else if m % 2 = 0 then 2 else 1
      let s := (s.setFld Fd.UPD_UPD_STAT_OWNER (s.nvLe (mapBase + 6) 1 % 4)).setFld Fd.UPD_UPD_STAT_IMG_TYPE (s.nvLe (mapBase + 5) 1)
      let s := (s.setFld Fd.UPD_UPD_OWNER_NODE (s.nvLe (mapBase + 8) 2)).setFld Fd.UPD_UPD_TOTAL_N_TOTAL total
      let s := (s.setFld Fd.UPD_UPD_STAT_N_HELD n).wr64 Reg.UPD_OPENED_LO Reg.UPD_OPENED_HI (s.nvLe (mapBase + 16) 8)
      let s := s.onlyIf (st != 1) (State.setDigest (s.nvBytes (mapBase + 32) 32))
      State.setUpdState st { s with upd := { s.upd with resumed := some s.now } }

/-! ### ROM's choice of a firmware slot (R398) -/

/-- The fused epoch (17 R420). -/
def State.fusedEpoch (s : State) : Nat := s.fld Fd.UPD_EPOCH_FUSED

/-- A slot is bootable: its epoch is at least the fused one and its manifest signature verifies. -/
def State.bootable (s : State) (k : Nat) (signed : Bool) : Bool :=
  let m := s.manifestAt (fwSlot k)
  m.wellFormed 1 && m.sigKind == 0 && m.target == 0x4160 && decide (s.fusedEpoch ≤ m.epoch) && signed

/-- ROM's choice (R398): none leads to Recovery, otherwise the slot and whether it is the fallback. -/
def State.chooseSlot (s : State) (v : Slots) : Option (Nat × Bool) :=
  let a := s.bootable 0 v.okA
  let b := s.bootable 1 v.okB
  let run := s.fld Fd.SYS_BOOT_STAT_FAIL_RUN
  let best := if a && b then (if (s.manifestAt (fwSlot 0)).version < (s.manifestAt (fwSlot 1)).version then 1 else 0)
    else if b then 1 else 0
  if !s.flag Fd.SYS_STRAP_SVC || (!a && !b) || decide (4 ≤ run) then none
  else if (run = 2 ∨ run = 3) ∧ a = true ∧ b = true then some (1 - best, true)
  else some (best, false)

end Sys2Proof.Machine
end

