-- ==== Sys2Proof/Machine/Anatomy.lean ====
section
/-!
DEFINITION. Node anatomy (01_node_anatomy.md): resets of the two logic domains and the start of ROM (R20 to R22, R451,
18 R441, 16 R398), unit resets (R24 to R26), and the clock settings (R18, R19).
-/

namespace Sys2Proof.Machine

/-! ### Reset values (18 R441, 15 R468) -/

/-- Registers that no reset loads: fuses (UPD.EPOCH, REPAIR) and STRAP, which holds until the next strap edge (16 R395). -/
def unreset (a : Nat) : Bool :=
  a == Reg.UPD_EPOCH || a == Reg.MEM_REPAIR_CHURN_LO || a == Reg.MEM_REPAIR_CHURN_HI || a == Reg.MEM_REPAIR_MISC ||
    a == Reg.SYS_STRAP

/-- Every register of the domains that `p` names takes its reset value. -/
def State.resetRegs (p : Dom → Bool) (s : State) : State :=
  { s with regs := s.regs.filter fun e => !p (regDom e.1) || unreset e.1
           latches := s.latches.filter fun e => !p (regDom e.1) }

/-- Memory that a main-domain reset keeps: DRAM and the host window; the churns are written with zeros and the tables lose
their content (15 R468). -/
def kept (a : Nat) : Bool := decide (a < 0x1000000000) || decide (0x1001000000 ≤ a ∧ a < 0x1001010000)

/-- Deadlines of the keep-alive domain. -/
def Timer.keepAlive : Timer → Bool
  | .modPresent _ | .modWait _ | .linkUp _ | .ddm _ | .damp _ | .verify _ | .absent _ | .beaconOk | .role0 | .heldDown _ | .heldUp _
  | .topo | .fenceAll | .noticeGap | .pdReq _ | .syncLoss _ | .gmAnnounce _ => true
  | _ => false

/-- Frames that stay with the keep-alive domain when the main domain goes into reset: completions and NOTICEs, which the
responder sends, and the warden's frames. -/
def Frame.stays (f : Frame) : Bool := [Kd.cpl, Kd.notice, Kd.beacon, Kd.mgmt].contains f.kind

/-! ### ROM starts (16 R397, R398) -/

/-- ROM reads the boot header and chooses a slot, or enters Recovery. -/
def State.romStart (v : Slots) (s : State) : State :=
  let s := s.setFlag Fd.SYS_BOOT_STAT_HDR_DEFAULT (!s.headerValid)
  let s := (s.setFlag Fd.SYS_BOOT_STAT_SLOT0_OK (s.bootable 0 v.okA)).setFlag Fd.SYS_BOOT_STAT_SLOT1_OK (s.bootable 1 v.okB)
  let s : State := { s with boot := { s.boot with slots := v } }
  match s.chooseSlot v with
  | none =>
    (State.changeMode .recovery
      { s.off Fd.SYS_BOOT_STAT_SLOT_FALLBACK with boot := { s.boot with rom := false } }).pinsOff.resumeSession
  | some (k, fallback) =>
    let s := (s.setFld Fd.SYS_BOOT_STAT_SLOT k).setFlag Fd.SYS_BOOT_STAT_SLOT_FALLBACK fallback
    { s with boot := { s.boot with rom := true } }

/-! ### The main domain goes into reset (R22, R23, R25, 04 R93) -/

/-- The full path stops: requests held for the local port are answered, frames on the wire are cut, ring frames count as lost, nothing of it
remains (04 R93). -/
def State.stopFullPath (s : State) : State :=
  let s := (s.onlyIf (s.path == 0) State.answerLocal).dropFullRing
  let s := (s.forEach ((s.onWire 2).toList.filter fun k => (s.storedOf k).any (!·.pt)) State.cutCopy).clearFull
  { s with sw := { s.sw with waiting := [], deficit := [], drrAt := [] } }

/-- Replies still inside the main domain become TARGET_RESET completions; its other frames are gone (R25). -/
def State.replaceReplies (s : State) : State :=
  let l := s.txn.toInject.filter Frame.stays
  let s := s.bumpBy Reg.SYS_TGT_RESET_CNT (l.filter (·.kind == Kd.cpl)).length
  { s with txn := { s.txn with toInject := l.map fun f =>
      if f.kind = Kd.cpl then { f with status := 5#4, len := 0#12, payload := [] } else f } }

/-- Indications that show a level outside the main domain: VBUS and bank supplies stand through its reset, and COLD, a bit of the power die
(R21, 13 R346). -/
def liveFields : List Fld :=
  Fd.USB_USB_STAT_VBUS :: Fd.PWR_PWR_STAT_COLD :: (List.range 16).map Fd.PB_BANK_STAT_VIO_OK

/-- The main domain at its reset values, held in reset. What lives in the keep-alive domain stays: windows, SEQ counters, time,
journal positions, safe-hold, REVERT_LIMIT (R21, R22, 14 R367, 16 R409). CLK_CTL takes its reset value, so BOBCLK comes from PERI. -/
def State.mainReset (s : State) : State :=
  let live := (liveFields ++ [Fd.SYS_MODE_STAT_SAFE_HOLD, Fd.TWIN_TWIN_STAT_REVERT_LIMIT, Fd.SWC_SWC_STAT_PATH]).map fun f =>
    (f, s.fld f)
  let restart := (Tab.get [] s.fifos 363).filter fun r => s.wrTotal == 0 && r.source == 0x007
  let t := s.resetRegs (· == .main)
  let t := (t.forEach live fun e u => u.setFld e.1 e.2).off Fd.SYS_CLK_STAT_BOBCLK_IS_CLEAN
  { t with
    mem := t.mem.filter fun c => kept c.1
    marks := t.marks.filter fun e => kept e.1
    timers := t.timers.filter fun e => e.1.keepAlive
    mode := .recovery
    anat := { t.anat with mainHeld := true, purging := false, plkFailRun := 0, outputsReleased := true,
                          dramSelfRefresh := true }
    txn := { toInject := t.txn.toInject, suppressed := t.txn.suppressed }
    fifos := if restart.isEmpty then [] else [(363, restart.take 1)]
    fifoLost := []
    cyc := {}
    field := { pins := t.field.pins, failed := t.field.failed }
    bobs := []
    cans := []
    stb := {}
    usb := {}
    tim := { t.tim with pics := [] }
    pow := { t.pow with evt := false }
    twin := { noIdentity := t.twin.noIdentity, relAt := t.twin.relAt, slotAt := t.twin.slotAt, actAt := t.twin.actAt,
              reverts := t.twin.reverts }
    host := {}
    hand := []
    boot := { rom := true, cold := false, slots := t.boot.slots, safeTimes := t.boot.safeTimes, safeNext := t.boot.safeNext }
    upd := { nvm := t.upd.nvm } }

/-- A boot attempt is under way and has not succeeded (16 R400). -/
def State.attempting (s : State) : Bool := s.boot.rom || s.mode == .load

/-- A restart by watchdog or CP_UE counts; the third within 10 minutes of the first leads to safe-hold (16 R409). -/
def State.noteUnsafe (s : State) : State :=
  let l := s.clk :: s.boot.safeTimes.filter fun t => decide (s.clk ≤ t + 600 * secPs)
  { s with boot := { s.boot with safeTimes := l, safeNext := s.boot.safeNext || decide (3 ≤ l.length) } }

/-- A main-domain restart (R22): the cause is recorded, outputs go to their keepers, requests are answered TARGET_RESET, the
journal has written its block, and the main domain is held in reset. -/
def State.mainRestart (cause : Fld) (s : State) : State :=
  if s.anat.kaHeld || s.anat.mainHeld then s
  else
    let s := s.on cause
    let s := s.onlyIf s.attempting (·.bumpFld Fd.SYS_BOOT_STAT_FAIL_RUN 1)
    let s := s.releaseOutputs.clearLoops
    let s := State.flushServe { s with anat := { s.anat with mainHeld := true } }
    let s := (s.stopFullPath.replaceReplies).mainReset
    s.setFld Fd.SWC_SWC_STAT_PATH 1

/-- A self-diagnosis cause on the field holder of a twin releases first (14 R358). -/
def State.releaseFirst (cause : Nat) (s : State) : State :=
  let (r, t) := s.selfRelease cause
  t.onlyIf r (State.on Fd.SYS_RST_CAUSE_TWIN_REL)

/-- RST_CTL: MAIN_RST acts with KEY 0x0A5C only. -/
def State.rstCtl (w : Word) (s : State) : Res :=
  if s.asleepOrLoading then refuse .wrongMode s
  else (.ok, if bits w 16 16 = 0x0A5C ∧ w.getLsbD 0 = true then s.mainRestart Fd.SYS_RST_CAUSE_SOFT else s)

/-- MAIN_RST. -/
def execMainRst (w : Word) (s : State) : Host.Outcome State Fault Refusal := .next (s.command none fun t => t.rstCtl w)

/-- WATCHDOG_EXPIRY. -/
def execWatchdogExpiry (s : State) : Host.Outcome State Fault Refusal :=
  .next (s.expiry .wdog fun t => (t.releaseFirst 4).noteUnsafe.mainRestart Fd.SYS_RST_CAUSE_WDOG)

/-- CP_UE. -/
def execCpUe (s : State) : Host.Outcome State Fault Refusal :=
  .next (if s.anat.kaHeld || s.anat.mainHeld then s
    else (s.releaseFirst 3).noteUnsafe.mainRestart Fd.SYS_RST_CAUSE_CP_UE)

/-- FIRMWARE_RESTART: no firmware runs in ROM and Recovery (16 R398, R407). -/
def execFirmwareRestart (s : State) : Host.Outcome State Fault Refusal :=
  .next (s.onlyIf (s.mode != .recovery) (State.mainRestart Fd.SYS_RST_CAUSE_SOFT))

/-- The main domain leaves reset: ROM starts, the gap record with LOST is formed for the journal, the filtered levels are loaded
from the first samples (16 R398, 07 R182, R471). -/
def State.mainRelease (v : Slots) (lines : BitVec 256) (s : State) : State :=
  let s := State.loadLevels lines { s with anat := { s.anat with mainHeld := false } }
  let gap := { s.record 4 0x003 (bits (s.rd Reg.SYS_RST_CAUSE) 0 8) false with lost := true }
  (s.pushRec 363 gap).romStart v

/-- MAIN_DOMAIN_RESET_RELEASE. -/
def execMainDomainResetRelease (valid : Slots) (lines : BitVec 256) (s : State) : Host.Outcome State Fault Refusal :=
  .next (if s.anat.mainHeld && !s.anat.kaHeld then s.mainRelease valid lines else s)

/-! ### Both domains (R20, R22, R451) -/

/-- Both domains are held in reset: only the NVM, the fuses, the straps, the power die and what stands at the part's balls stay. Outputs are released
to their keepers where `keep` says so (R20, R451), and are off else (R27). -/
def State.holdBoth (heldBy : Nat) (cause : BitVec 8) (keep : Bool) (s : State) : State :=
  let pins := s.releaseOutputs.field.pins
  let r := (s.resetRegs (· != .power)).setFld Fd.PWR_PWR_STAT_COLD (s.fld Fd.PWR_PWR_STAT_COLD)
  { regs := r.regs, clk := s.clk, out := s.out, freeCtr := s.freeCtr, pending := s.pending,
    anat := { kaHeld := true, heldBy, cause, mainHeld := true },
    ports := [0, 1, 2].foldl (fun l p => Tab.set {} l p { modLow := (s.port p).modLow }) [],
    field := { pins := if keep then pins else [], failed := s.field.failed },
    pow := { s.pow with evt := false }, upd := { nvm := s.upd.nvm } }

/-- POR_N_ASSERT: POR_N low, or power loss, after which the logic die presents nothing until its power is back (R27). -/
def execPorNAssert (powerLoss : Bool) (s : State) : Host.Outcome State Fault Refusal :=
  let t := s.holdBoth 0 1#8 false
  .next { t with anat := { t.anat with unpowered := powerLoss } }

/-- SYS_RST_N_ASSERT. While POR_N holds the part it adds nothing. -/
def execSysRstNAssert (s : State) : Host.Outcome State Fault Refusal :=
  .next (if s.anat.kaHeld && s.anat.heldBy == 0 then s else s.holdBoth 0 2#8 false)

/-- CLK_FAIL: loss of REFCLK_OK, CLEAN_LOCK or SPREAD_LOCK. A twin's field holder releases (14 R358). -/
def execClkFail (_lost : Fin 3) (s : State) : Host.Outcome State Fault Refusal :=
  .next (if s.anat.kaHeld then s else (s.selfRelease 2).2.holdBoth 1 4#8 true)

/-- CORE_VOLTAGE_FAULT (R451): a twin node also records TWIN_REL. -/
def execCoreVoltageFault (s : State) : Host.Outcome State Fault Refusal :=
  .next (if s.anat.kaHeld then s
    else (s.selfRelease 1).2.holdBoth 2 (if s.twinEn then 0x41#8 else 0x01#8) true)

/-- The restart after both domains were held: RST_CAUSE and the clock indications are loaded, the spread triangle starts, the pins are off, ROM
starts; one after a clock failure is recorded (R18, 18 R441, 16 R398, 07 R178, R182, R471). A module that stands in its cage is taken as an insertion (02 R35, R42). -/
def State.startBoth (v : Slots) (lines : BitVec 256) (s : State) : State :=
  let by1 := s.anat.heldBy == 1
  let s := s.wr Reg.SYS_RST_CAUSE (s.anat.cause.setWidth 32)
  let s := (((s.on Fd.SYS_CLK_STAT_REFCLK_OK).on Fd.SYS_CLK_STAT_CLEAN_LOCK).on Fd.SYS_CLK_STAT_SPREAD_LOCK).setFlag
    Fd.SYS_CLK_STAT_CLK_FAIL by1
  let s := { s with anat := { s.anat with kaHeld := false, mainHeld := false, heldBy := 0, cause := 1#8, unpowered := false,
                                          triangle := s.clk } }.pinsOff
  let s := s.forEach ([0, 1, 2].filter fun p => (s.port p).modLow) State.modGoesLow
  ((s.loadLevels lines).onlyIf by1 (State.sysRec 0x00B 0)).romStart v

/-- POR_N_RELEASE: the rising edge of POR_N or of SYS_RST_N samples the straps (16 R395). -/
def execPorNRelease (svcN twinPos : Bool) (valid : Slots) (lines : BitVec 256) (s : State) :
    Host.Outcome State Fault Refusal :=
  .next (if s.anat.kaHeld && s.anat.heldBy == 0 then
      ((s.setFlag Fd.SYS_STRAP_SVC svcN).setFlag Fd.SYS_STRAP_TWIN_POS twinPos).startBoth valid lines
    else s)

/-- CLK_FAIL_RESTART: all three indications have been good for 1 ms. -/
def execClkFailRestart (valid : Slots) (lines : BitVec 256) (s : State) : Host.Outcome State Fault Refusal :=
  .next (if s.anat.kaHeld && s.anat.heldBy == 1 then (s.advance msPs).startBoth valid lines else s)

/-- CORE_VOLTAGE_RESTART: VDD_CORE has been in window for 1 ms. -/
def execCoreVoltageRestart (valid : Slots) (lines : BitVec 256) (s : State) : Host.Outcome State Fault Refusal :=
  .next (if s.anat.kaHeld && s.anat.heldBy == 2 then (s.advance msPs).startBoth valid lines else s)

/-! ### Unit resets (R24 to R26) -/

/-- The unit that a local address belongs to, for requests that a unit holds or that arrive for it (R25). -/
def unitAt (a : Nat) : Option ResetUnit :=
  if 0x2000000000 ≤ a ∧ a < 0x3000000000 then some .stitch
  else if 0x3000040000 ≤ a ∧ a < 0x3000050000 then some .cycle
  else if 0x3000060000 ≤ a ∧ a < 0x3000070000 then some .journal
  else if 0x3000080000 ≤ a ∧ a < 0x3000084000 then some (.bobbin (Fin.ofNat 64 ((a - 0x3000080000) / 0x100)))
  else if 0x30000A0000 ≤ a ∧ a < 0x30000A8000 then some (.can (Fin.ofNat 8 ((a - 0x30000A0000) / 0x1000)))
  else if 0x30000C0000 ≤ a ∧ a < 0x30000D0000 then some .stitch
  else if 0x30000D0000 ≤ a ∧ a < 0x30000E0000 then some .usb
  else if 0x3100000000 ≤ a ∧ a < 0x3100040000 then some (.bobbin (Fin.ofNat 64 ((a - 0x3100000000) / 0x1000)))
  else if 0x3100100000 ≤ a ∧ a < 0x3100180000 then some (.can (Fin.ofNat 8 ((a - 0x3100100000) / 0x10000)))
  else if 0x3100200000 ≤ a ∧ a < 0x3100208000 then some (.can (Fin.ofNat 8 ((a - 0x3100200000) / 0x1000)))
  else none

/-- The unit that an address belongs to is in reset. -/
def State.unitDown (s : State) (a : Nat) : Bool := ((unitAt a).map s.unitBusy).getD false

/-- Every request that the unit holds is answered TARGET_RESET (R25). -/
def State.flushUnit (u : ResetUnit) (s : State) : State :=
  let mine := fun (e : ReqKind × Request) => unitAt e.2.addr.toNat == some u
  let l := (s.txn.serve ++ s.txn.backlog).filter mine
  let s : State := { s with txn := { s.txn with serve := s.txn.serve.filter fun e => !mine e
                                                backlog := s.txn.backlog.filter fun e => !mine e } }
  (s.forEach l fun e t => State.fail e.1 e.2 (refuse .targetReset t)).pullBacklog

/-- A bobbin reset: STOPPED, its shift register, counters, prescalers and queues cleared; pins hold, the pricking is kept and
dirty, a join remains (R26). -/
def State.bobReset (n : Nat) (s : State) : State :=
  let s := if s.bobRun n = 0 then s else s.stopBob n 5 false
  let s := ((s.wr (Reg.BOB_SR n) 0#32).wr (Reg.BOB_CNT_VAL n) 0#32).loadBits n
  let s := s.setBob n { s.bob n with p0 := 0, p1 := 0, held := false, sync := false }
  let s := s.forEach ((List.range 64).filter fun m => (joinMembers m (s.fld (Fd.BOB_QCFG_JOIN m))).contains n) fun m t =>
    t.setBob m { t.bob m with tx := [], rx := [] }
  s.dirty n

/-- What the reset of a unit does at its start (R26). -/
def State.unitEffect (u : ResetUnit) (s : State) : State :=
  match u with
  | .pcs p => s.declareDown p.val 4
  | .bobbin n => s.bobReset n.val
  | .can n =>
    let t := s.canGoOff n.val true
    (t.setCan n.val { t.can n.val with rx := none, integrating := false }).emptyCan n.val
  | .stitch => s.bridgeReset
  | .usb => s.disconnect
  | .cycle => s.setCyc { s.cyc with staged := [] }
  | .journal =>
    let t := (s.cancel .flush).dropFifos false
    { t with field := { t.field with gap := true, sysFirst := 0 } }

/-- One unit reset starts; a unit already in reset ignores it (R24). -/
def State.startUnitReset (u : ResetUnit) (s : State) : State :=
  if s.unitBusy u then s
  else (((s.on (busyBit u)).flushUnit u).unitEffect u).arm (.unit u) (256 * periPs)

/-- The units of UNIT_RST, by bit. -/
def unitOfBit (i : Nat) : Option ResetUnit :=
  if i < 3 then some (.pcs (Fin.ofNat 3 i))
  else if i = 3 then some .stitch
  else if i = 4 then some .usb
  else if i = 5 then some .cycle
  else if i = 6 then some .journal
  else if 8 ≤ i ∧ i < 16 then some (.can (Fin.ofNat 8 (i - 8)))
  else none

/-- A write of UNIT_RST. -/
def State.unitRst (w : Word) (s : State) : Res :=
  if s.asleepOrLoading then refuse .wrongMode s
  else (.ok, s.forEach ((List.range 16).filter fun i => w.getLsbD i) fun i t =>
    match unitOfBit i with
    | some u => t.startUnitReset u
    | none => t)

/-- UNIT_RST. -/
def execUnitRst (w : Word) (s : State) : Host.Outcome State Fault Refusal := .next (s.command none fun t => t.unitRst w)

/-- A write of BOB_RST_LO or BOB_RST_HI. -/
def State.bobRst (high : Bool) (w : Word) (s : State) : Res :=
  if s.asleepOrLoading then refuse .wrongMode s
  else (.ok, s.forEach (named high w) fun n t => t.startUnitReset (.bobbin (Fin.ofNat 64 n)))

/-- BOB_RST. -/
def execBobRst (high : Bool) (w : Word) (s : State) : Host.Outcome State Fault Refusal :=
  .next (s.command none fun t => t.bobRst high w)

/-- What the release of a unit does: the 10 ms of a link up start, an enabled CAN controller integrates again, the pull-up returns (R26,
02 R40, 09 R223, 11 R270). -/
def State.unitReleased (u : ResetUnit) (s : State) : State :=
  match u with
  | .pcs p => s.restartUp p.val
  | .can n => if s.flag (Fd.CAN_CTL_EN n.val) && s.canService then s.integrate n.val else s
  | .usb => s.tryConnect
  | _ => s

/-- UNIT_RESET_RELEASE: after 256 PERI cycles of hold the busy bit clears. -/
def execUnitResetRelease (u : ResetUnit) (s : State) : Host.Outcome State Fault Refusal :=
  .next (s.expiry (.unit u) fun t => (t.off (busyBit u)).unitReleased u)

/-! ### Clock settings (R18, R19) -/

/-- A write of CLK_CTL: SPREAD changes in Load only, BOBCLK_CLEAN in Load or while every bobbin is STOPPED. A write that carries the present
value of a field is accepted for that field at any time (DEDUCED, log 24). -/
def State.clkCtl (w : Word) (s : State) : Res :=
  let spread := bits w 0 2 != s.fld Fd.SYS_CLK_CTL_SPREAD
  let clean := (bits w 4 1 == 1) != s.flag Fd.SYS_CLK_CTL_BOBCLK_CLEAN
  if s.asleepOrLoading then refuse .wrongMode s
  else if (spread && !s.applying) || (clean && !(List.range 64).all fun n => s.bobRun n == 0) then refuse .wrongMode s
  else (.ok, (s.wr Reg.SYS_CLK_CTL (w &&& 0x13#32)).setFlag Fd.SYS_CLK_STAT_BOBCLK_IS_CLEAN (bits w 4 1 == 1))

/-- BOBCLK_CLEAN_WRITE. -/
def execBobclkCleanWrite (w : Word) (s : State) : Host.Outcome State Fault Refusal := .next (s.command none fun t => t.clkCtl w)

/-- Period of the spread triangle, ps (R18). -/
def trianglePs : Nat := 32 * usPs

/-- SPREAD_APPLY: at the next instant at which the triangle stands at nominal frequency the SPREAD of CLK_CTL takes effect. -/
def execSpreadApply (s : State) : Host.Outcome State Fault Refusal :=
  .next (if s.anat.kaHeld then s
    else
      let s := s.advance ((trianglePs - (s.clk - s.anat.triangle) % trianglePs) % trianglePs)
      { s with anat := { s.anat with spreadNow := BitVec.ofNat 2 (s.fld Fd.SYS_CLK_CTL_SPREAD) } })

/-! ### The interfaces of a part that does not run (R27) -/

/-- What the logic die presents at an interface while it is unpowered or held in reset; none where a running unit, or in the keep-alive domain the
port, drives it. After a clock or core-voltage failure field outputs are released to their keepers (R20, R451). -/
def State.presents (i : Iface) (s : State) : Option Stand :=
  if !s.anat.kaHeld && !s.anat.mainHeld then none
  else
    match i with
    | .txdis _ => if s.anat.unpowered then some .undriven else if s.anat.kaHeld then some .high else none
    | .fieldPin _ =>
      some (if s.anat.unpowered || (s.anat.kaHeld && s.anat.heldBy == 0) then .highImpedance else .keeper)
    | .canTxd _ => some (if s.anat.unpowered then .undriven else .recessive)
    | .stitchReset => some (if s.anat.unpowered then .undriven else .low)
    | .stitchBus => some (if s.anat.unpowered then .undriven else .highImpedance)
    | .usbPullUp => some .off
    | .usbPwren _ => some (if s.anat.unpowered then .undriven else .off)
    | .hostBusy => some (if s.anat.unpowered then .undriven else .high)
    | .hostIrqN => some (if s.anat.unpowered then .undriven else .highImpedance)

end Sys2Proof.Machine
end

