-- ==== Sys2Proof/Machine/Memory.lean ====
section
/-!
DEFINITION. Memories (15_memories_and_queues.md): the regions of the local map (05 R113), checked words of DRAM and churns, parity
of the host window, the patrol scrub, churn ownership and handover, and the MEM registers.
-/

namespace Sys2Proof.Machine

/-! ### The local map (05 R113) -/

/-- A row of the local map, and within it the churn, window or block of an address. -/
inductive Region where
  | reserved
  | dram
  | churn (n : Nat)
  | hostWin
  | stitch (w : Option StWin)
  | regs
  | tables
  | identity
  | none
  deriving DecidableEq, Repr

/-- Where an address lies. -/
def State.region (s : State) (a : Nat) : Region :=
  if a < 0x10000000 then .reserved
  else if a < s.dramTop then .dram
  else if 0x1000000000 ≤ a ∧ a < 0x1000400000 then .churn ((a - 0x1000000000) / 0x40000)
  else if 0x1001000000 ≤ a ∧ a < 0x1001010000 then .hostWin
  else if 0x2000000000 ≤ a ∧ a < 0x3000000000 then .stitch (s.windowAt a)
  else if 0x3000000000 ≤ a ∧ a < 0x3001000000 then .regs
  else if 0x3100000000 ≤ a ∧ a < 0x3101000000 then .tables
  else if 0x3FF0000000 ≤ a ∧ a < 0x3FF0001000 then .identity
  else .none

/-! ### Checked words (R373, R375, R380, 05 R124) -/

/-- Errors arise in the words of an access: a word takes the worst that it has met. In the host window the mark stands at the
byte, in a pricking at the row, whose parity fails (08 R205). -/
def State.addUpsets (ups : List Upset) (s : State) : State :=
  s.forEach ups fun u t =>
    if u.grade = 0 then t
    else
      match t.region u.at_ with
      | .reserved | .dram | .churn _ => t.setMark (u.at_ / 8 * 8) (max (t.mark (u.at_ / 8 * 8)) u.grade.val)
      | .hostWin => t.setMark u.at_ 3
      | .tables => if u.at_ < 0x3100040000 then t.setMark (u.at_ / 4 * 4) 3 else t
      | _ => t

/-- The host side accesses the 8-byte word of `a` in the cycle in which the fabric reads it (R381). -/
def collides (ups : List Upset) (a n : Nat) : Bool :=
  ups.any fun u => u.grade == 0 && decide (a / 8 ≤ u.at_ / 8 ∧ u.at_ / 8 ≤ (a + n - 1) / 8)

/-- A DRAM word is found corrected: it is counted and its address loaded (R373). -/
def State.dramCorrected (w g : Nat) (s : State) : State :=
  let s := s.bump (if g = 1 then Reg.MEM_DRAM_CORR1 else Reg.MEM_DRAM_CORR2)
  (s.wr Reg.MEM_CE_ADDR_LO (BitVec.ofNat 32 w)).wr Reg.MEM_CE_ADDR_HI (BitVec.ofNat 32 (w / 2 ^ 32))

/-- A DRAM word is found uncorrectable: it is counted, and the first one latched (R373). -/
def State.dramBad (w : Nat) (s : State) : State :=
  let s := s.bump Reg.MEM_DRAM_UE
  if s.flag Fd.MEM_UE_ADDR_HI_VALID then s
  else (s.wr Reg.MEM_UE_ADDR_LO (BitVec.ofNat 32 w)).wr Reg.MEM_UE_ADDR_HI (BitVec.ofNat 32 (2 ^ 31 + w / 2 ^ 32))

/-- The check of the aligned word at `w` on a read, and whether it is uncorrectable. A corrected churn word is written back. -/
def State.checkWord (w : Nat) (s : State) : Bool × State :=
  let g := s.mark w
  if g = 0 then (false, s)
  else
    match s.region w with
    | .churn _ =>
      if g = 1 then (false, (s.bump Reg.MEM_CHURN_CORR).setMark w 0) else (true, s.bump Reg.MEM_CHURN_UE)
    | _ => if g ≤ 2 then (false, s.dramCorrected w g) else (true, s.dramBad w)

/-- Check several words in ascending order; one uncorrectable word poisons the access. -/
def State.checkWords : List Nat → State → Bool × State
  | [], s => (false, s)
  | w :: t, s =>
    let (b, s) := s.checkWord w
    let (c, s) := State.checkWords t s
    (b || c, s)

/-- The aligned words that `n` bytes at `a` touch. -/
def wordsOf (a n : Nat) : List Nat := (List.range ((a + n - 1) / 8 - a / 8 + 1)).map fun i => (a / 8 + i) * 8

/-- The words that `n` bytes at `a` cover only in part. -/
def partWords (a n : Nat) : List Nat := (wordsOf a n).filter fun w => decide (w < a ∨ a + n < w + 8)

/-- Read `n` bytes at `a` of DRAM, a churn or the host window: the data, or POISONED, or BUSY on a collision (R381). -/
def State.memRead (a n : Nat) (ups : List Upset) (s : State) : Status × List Byte × State :=
  let s := s.addUpsets ups
  match s.region a with
  | .hostWin =>
    if collides ups a n then (.busy, [], s.bump Reg.HOST_COLLIDE_CNT)
    else if (List.range n).any fun i => s.mark (a + i) != 0 then (.poisoned, [], s.bump Reg.MEM_WIN_PERR)
    else (.ok, s.readBytes a n, s)
  | _ =>
    let (bad, t) := s.checkWords (wordsOf a n)
    if bad then (.poisoned, [], t) else (.ok, t.readBytes a n, t)

/-- Bytes are written at `a`, and every word or byte written is clean. -/
def State.memPut (a : Nat) (data : List Byte) (s : State) : State :=
  let t := s.writeBytes a data
  match s.region a with
  | .hostWin => t.forEach (List.range data.length) fun i u => u.setMark (a + i) 0
  | _ => t.forEach (wordsOf a data.length) fun w u => u.setMark w 0

/-- Write bytes at `a`: words covered in part are read and merged, and an uncorrectable one among them refuses the write in whole
(05 R124); every word written is clean. -/
def State.memWrite (a : Nat) (data : List Byte) (ups : List Upset) (s : State) : Res :=
  let s := s.addUpsets ups
  match s.region a with
  | .hostWin => (.ok, s.memPut a data)
  | _ =>
    let (bad, t) := s.checkWords (partWords a data.length)
    if bad then (.poisoned, t) else (.ok, t.memPut a data)

/-! ### Patrol scrub (R374) -/

/-- The scrub runs. -/
def State.scrubbing (s : State) : Bool :=
  s.fld Fd.MEM_MEM_CFG_SCRUB_HOURS != 0 && s.flag Fd.MEM_MEM_STAT_TRAINED && !s.flag Fd.MEM_MEM_STAT_SELF_REFRESH &&
    !s.anat.mainHeld && !s.anat.kaHeld

def State.scrubPos (s : State) : Nat := s.rd64 Reg.MEM_SCRUB_POS_LO Reg.MEM_SCRUB_POS_HI

/-- One word of the block: a corrected one is written back unless a write has reached the block since. -/
def State.scrubWord (written : Bool) (w : Nat) (s : State) : State :=
  let g := s.mark w
  if g = 0 then s
  else if g ≤ 2 then (s.dramCorrected w g).onlyIf (!written) (State.setMark w 0)
  else s.dramBad w

/-- The scrub reads the block at SCRUB_POS. -/
def State.scrub (ups : List Upset) (written : Bool) (s : State) : State :=
  let p := s.scrubPos
  let s := (s.addUpsets ups).forEach (List.range 8) fun i t => t.scrubWord written (p + 8 * i)
  if s.dramTop ≤ p + 64 then (s.wr64 Reg.MEM_SCRUB_POS_LO Reg.MEM_SCRUB_POS_HI 0).on Fd.MEM_MEM_STAT_PASS_DONE
  else s.wr64 Reg.MEM_SCRUB_POS_LO Reg.MEM_SCRUB_POS_HI (p + 64)

/-- PATROL_SCRUB. -/
def execPatrolScrub (ups : List Upset) (written : Bool) (s : State) : Host.Outcome State Fault Refusal :=
  .next (if s.scrubbing then s.scrub ups written else s)

/-! ### Churn ownership and handover (R376, R377) -/

/-- The owner code of a request: ring, control processor, USB tunnel, host mailbox (R376). -/
def State.ownerCode (s : State) (q : Request) : Nat :=
  if !s.ownReq q then 1 else if q.init = 0#4 then 0 else if q.init = 2#4 then 2 else 3

/-- The refusal that a requester of a churn meets; none for its owner. -/
def State.churnRefusal (s : State) (n who : Nat) : Option Status :=
  match s.hand.lookup n with
  | some h => if who = h.owner ∧ who ≠ s.fld (Fd.MEM_CHURN_OWN_OWNER n) then some .busy else some .denied
  | none => if who = s.fld (Fd.MEM_CHURN_OWN_OWNER n) ∧ who ≠ 4 then none else some .denied

/-- A write of CHURN_OWN (R377); `req` is the request whose completion the handover holds back. In Load nothing is served, so the
configuration's owner stands at once. The first component is false while the completion waits. -/
def State.churnOwn (n : Nat) (w : Word) (req : Option (ReqKind × Request)) (s : State) : Bool × Res :=
  let owner := bits w 0 3
  let now := s.fld (Fd.MEM_CHURN_OWN_OWNER n)
  if s.asleepOrLoading then (true, refuse .wrongMode s)
  else if 4 < owner then (true, refuse .badRequest s)
  else if (s.hand.lookup n).isSome then (true, refuse .busy s)
  else if owner = now then (true, (.ok, s))
  else if now = 4 ∧ s.flag Fd.CYC_CYC_CTL_EN = true ∧ s.fld Fd.CYC_CYC_CTL_CHURN = n then (true, refuse .wrongMode s)
  else if s.applying then (true, (.ok, s.setFld (Fd.MEM_CHURN_OWN_OWNER n) owner))
  else (false, (.ok, State.on (Fd.MEM_CHURN_OWN_PENDING n) { s with hand := (n, { owner, req, direct := req.isNone }) :: s.hand }))

/-- CHURN_HANDOVER: the answer to an accepted new owner follows with HANDOVER_COMPLETE. -/
def execChurnHandover (n : Fin 16) (w : Word) (s : State) : Host.Outcome State Fault Refusal :=
  .next (if s.anat.kaHeld || s.anat.mainHeld then s.command none fun t => (.ok, t)
    else
      let (done, r) := s.churnOwn n.val w none
      if done then answer r else r.2)

/-- HANDOVER_COMPLETE: the old owner's last request has completed, OWNER changes and the write completes. -/
def State.handoverDone (n : Nat) (s : State) : State :=
  match s.hand.lookup n with
  | none => s
  | some h =>
    let s : State := { s with hand := s.hand.filter fun e => e.1 != n }
    let s := (s.setFld (Fd.MEM_CHURN_OWN_OWNER n) h.owner).off (Fd.MEM_CHURN_OWN_PENDING n)
    match h.req with
    | some (k, q) => if s.hand.any fun e => e.2.req == some (k, q) then s else s.complete1 k q .ok []
    | none => s.onlyIf h.direct (State.emit (.answer .ok))

/-- HANDOVER_COMPLETE. -/
def execHandoverComplete (n : Fin 16) (s : State) : Host.Outcome State Fault Refusal := .next (s.handoverDone n.val)

/-! ### MEM registers (R393) -/

/-- Writes in the MEM block that have rules of their own, CHURN_OWN apart. -/
def State.memBlockWrite (off : Nat) (w : Word) (s : State) : Option Res :=
  if s.asleepOrLoading then some (refuse .wrongMode s)
  else if off = 0x000 then
    some (if 168 < bits w 8 8 then refuse .badRequest s else (.ok, s.setFld Fd.MEM_MEM_CFG_SCRUB_HOURS (bits w 8 8)))
  else none

/-- Derived MEM values: MEM_STAT.SCRUBBING. -/
def State.memBlockRead (s : State) (off : Nat) : Option Word :=
  if off = 0x004 then some (putBits (s.rd Reg.MEM_MEM_STAT) 2 1 (if s.scrubbing then 1 else 0)) else none

end Sys2Proof.Machine
end

