-- ==== Sys2Proof/Machine/Hash.lean ====
section
/-!
DEFINITION. SHA-256 (PRESUMED: FIPS 180-4, which the spec names and does not print), for the chunk hashes and digests of
chapter 17. Its constants are given by what they are: fractional bits of the roots of the first primes.
-/

namespace Sys2Proof.Machine

/-- The first 64 primes. -/
def shaPrimes : List Nat :=
  [2, 3, 5, 7, 11, 13, 17, 19, 23, 29, 31, 37, 41, 43, 47, 53, 59, 61, 67, 71, 73, 79, 83, 89, 97, 101, 103, 107, 109, 113, 127, 131] ++
  [137, 139, 149, 151, 157, 163, 167, 173, 179, 181, 191, 193, 197, 199, 211, 223, 227, 229, 233, 239, 241, 251, 257, 263, 269, 271,
    277, 281, 283, 293, 307, 311]

/-- The largest number whose `k`-th power is at most `x`, found bit by bit below `2 ^ n` on top of `r`. -/
def rootBits (k x : Nat) : Nat → Nat → Nat
  | 0, r => r
  | n + 1, r => rootBits k x n (if (r + 2 ^ n) ^ k ≤ x then r + 2 ^ n else r)

/-- The first 32 fractional bits of the `k`-th root of `p`. -/
def rootFraction (k p : Nat) : Word := BitVec.ofNat 32 (rootBits k (p * 2 ^ (32 * k)) 38 0)

/-- Exclusive or of three right rotations. -/
def spin (x : Word) (i j k : Nat) : Word := x.rotateRight i ^^^ (x.rotateRight j ^^^ x.rotateRight k)

/-- Exclusive or of two right rotations and a right shift. -/
def slide (x : Word) (i j k : Nat) : Word := x.rotateRight i ^^^ (x.rotateRight j ^^^ (x >>> k))

/-- Word `t` of the message schedule from the 16 words before it, the oldest first. -/
def nextWord (w : List Word) : Word :=
  slide (w.getD 14 0#32) 17 19 10 + w.getD 9 0#32 + slide (w.getD 1 0#32) 7 18 3 + w.getD 0 0#32

/-- One round on the eight working words, with its constant and its schedule word. -/
def mixRound (kw : Word) : List Word → List Word
  | [a, b, c, d, e, f, g, h] =>
    let up := h + kw + spin e 6 11 25 + (g ^^^ (e &&& (f ^^^ g)))
    [up + spin a 2 13 22 + ((a &&& b) ||| (c &&& (a ||| b))), a, b, c, d + up, e, f, g]
  | v => v

/-- The rounds of a block: `w` holds the 16 schedule words from the present one on. -/
def mixRounds : List Nat → List Word → List Word → List Word
  | [], _, v => v
  | p :: ps, w, v => mixRounds ps (w.drop 1 ++ [nextWord w]) (mixRound (rootFraction 3 p + w.getD 0 0#32) v)

/-- The padded message of `n` blocks of 64 bytes, folded into the chaining words. -/
def mixBlocks : Nat → List Byte → List Word → List Word
  | 0, _, v => v
  | n + 1, l, v =>
    let w := (List.range 16).map fun i => BitVec.ofNat 32 (beVal ((l.drop (4 * i)).take 4))
    mixBlocks n (l.drop 64) (List.zipWith (· + ·) v (mixRounds shaPrimes w v))

/-- SHA-256 of a byte list: 32 bytes. -/
def sha256 (l : List Byte) : List Byte :=
  let blocks := (l.length + 8) / 64 + 1
  let fill := 64 * blocks - l.length - 9
  (mixBlocks blocks (l ++ 0x80#8 :: List.replicate fill 0#8 ++ beBytes 8 (8 * l.length))
    ((shaPrimes.take 8).map (rootFraction 2))).flatMap fun w => beBytes 4 w.toNat

end Sys2Proof.Machine
end

