-- ==== Sys2Proof/Machine/Update.lean ====
section
/-!
DEFINITION. Image updates and recovery (17_image_updates_and_recovery.md): chunks and their assembly, sessions and the staging
map, CONTROL and STATUS frames, USB update messages, staging, activation, and ROM in Recovery.
-/

namespace Sys2Proof.Machine

/-- RESULT of a STATUS frame (R423). -/
inductive UpdResult where
  | ok | busy | wrongMode | badRequest
  deriving DecidableEq, Repr

def UpdResult.code : UpdResult → Nat
  | .ok => 0 | .busy => 1 | .wrongMode => 2 | .badRequest => 3

/-- The source of a chunk or command: a ring node, or USB. -/
inductive UpdSrc where
  | ring (ring : BitVec 6) (node : BitVec 9)
  | usb
  deriving DecidableEq, Repr

/-- OWNER_NODE in the layout of 03 R55. -/
def UpdSrc.node16 : UpdSrc → Nat
  | .ring r n => r.toNat * 1024 + n.toNat * 2
  | .usb => 0

def UpdSrc.code : UpdSrc → Nat
  | .ring _ _ => 1 | .usb => 2

/-! ### Where CHUNK frames and messages are consumed (R424, R433) -/

/-- ROM waits in Recovery for an image. -/
def State.inRom (s : State) : Bool := s.mode == .recovery && !s.boot.rom && !s.anat.kaHeld && !s.anat.mainHeld

/-- The firmware takes CHUNK frames: Isolated, Seamless, Split, Standby and Pass-through. -/
def State.chunkService (s : State) : Bool :=
  (s.inService || s.mode == .passThrough) && !s.anat.kaHeld && !s.anat.mainHeld

/-- CHUNK frames are discarded and counted: Load and Drowse (R424). -/
def State.dropsChunk (s : State) : Bool :=
  (s.mode == .load || s.mode == .drowse) && !s.anat.kaHeld && !s.anat.mainHeld

/-- Whether an enabled SRC_ALLOW entry `k` matches a source. -/
def State.allows (s : State) (ring node k : Nat) : Bool :=
  let r := s.fld (Fd.UPD_SRC_ALLOW_RING k)
  s.flag (Fd.UPD_SRC_ALLOW_EN k) &&
  (s.flag (Fd.UPD_SRC_ALLOW_ANY_RING k) || (if r = 0 then s.ownRing else r) == ring) &&
  decide (s.fld (Fd.UPD_SRC_ALLOW_NODE_LO k) ≤ node ∧ node ≤ s.fld (Fd.UPD_SRC_ALLOW_NODE_HI k))

/-- A source is allowed; with no entry enabled every one is. SRC_ALLOW does not apply in ROM (R424, R433). -/
def State.srcAllowed (s : State) (f : Frame) : Bool :=
  s.inRom || !(s.flag (Fd.UPD_SRC_ALLOW_EN 0) || s.flag (Fd.UPD_SRC_ALLOW_EN 1)) ||
    s.allows f.srcRing.toNat f.srcNode.toNat 0 || s.allows f.srcRing.toNat f.srcNode.toNat 1

/-! ### STATUS (R423, R435) -/

/-- Bytes 8 to 15 of a STATUS, and the DPREFIX that binds the session. -/
def State.sessionPrefix (s : State) : List Byte :=
  if s.updState = 0 then List.replicate 8 0#8 else s.nvBytes (mapBase + 24) 8

/-- The CHUNK STATUS payload. ROM without a session reports RECOVERY, with the fused epoch mod 16 in REJECT. -/
def State.statusPayload (s : State) (r : UpdResult) : List Byte :=
  let rom := s.inRom && s.updState == 0
  let st := if rom then 7 else s.updState
  let rej := if rom then s.fusedEpoch % 16 else s.fld Fd.UPD_UPD_STAT_REJECT
  let held := (List.range 384).map fun b => BitVec.ofNat 8 ((List.range 8).foldl (fun a i =>
    a + if s.updState ≠ 0 ∧ 8 * b + i < s.updTotal ∧ s.held (8 * b + i) = true then 2 ^ i else 0) 0)
  [0x02#8, BitVec.ofNat 8 (st * 16 + r.code), BitVec.ofNat 8 (s.updOwner * 64 + rej),
   BitVec.ofNat 8 (s.fld Fd.UPD_UPD_STAT_LAST_END)] ++
  beBytes 2 (s.fld Fd.UPD_UPD_OWNER_NODE) ++ beBytes 2 s.updTotal ++ s.sessionPrefix ++
  beBytes 2 (s.fld Fd.UPD_UPD_STAT_N_HELD) ++ [BitVec.ofNat 8 s.updType, 0#8] ++ held

/-- A CHUNK frame of this node. -/
def State.sendChunk (ring : BitVec 6) (node : BitVec 9) (p : List Byte) (s : State) : State :=
  s.queueFrame (s.formFrame Kd.chunk 4#3 0#6 ring node 0#9 0#4 p)

/-- Answer a source: a STATUS frame, or UPD_STATUS on EP4 (R423, R431). -/
def State.sendStatus (to_ : UpdSrc) (r : UpdResult) (s : State) : State :=
  let p := s.statusPayload r
  let s := s.bump Reg.UPD_STATUS_TX
  match to_ with
  | .ring ring node => s.sendChunk ring node p
  | .usb => s.emit (.usb 4 ([0x12#8] ++ List.replicate 7 0#8 ++ leBytes 2 404 ++ [0#8, 0#8] ++ p))

/-! ### Sessions (R425 to R430) -/

/-- Offset in the NVM at which chunk `c` of the session is kept (R429, R434). -/
def State.romTarget (s : State) : Nat :=
  let a := s.flag Fd.SYS_BOOT_STAT_SLOT0_OK
  let b := s.flag Fd.SYS_BOOT_STAT_SLOT1_OK
  if a && b then (if (s.manifestAt (fwSlot 0)).version ≤ (s.manifestAt (fwSlot 1)).version then 0 else 1)
  else if a then 1 else 0

/-- The slot that the image will run from. -/
def State.targetSlot (s : State) : Nat :=
  if s.inRom then fwSlot s.romTarget
  else if s.updType = 1 then fwSlot (1 - s.fld Fd.SYS_BOOT_STAT_SLOT)
  else cfgSlot (1 - s.fld Fd.SYS_CFG_STAT_SLOT)

def State.chunkAddr (s : State) (c : Nat) : Nat :=
  if c = 0 then mapBase + 0x8000
  else if s.inRom || s.updType == 2 || s.smallNvm then s.targetSlot + 4096 * c
  else 0x1C00000 + 4096 * c

/-- One byte of the slot content as collected. -/
def State.stagedLe (s : State) (o n : Nat) : Nat :=
  leVal ((List.range n).map fun i => s.nvByte (s.chunkAddr ((o + i) / 4096) + (o + i) % 4096))

def State.stagedBytes (s : State) (o n : Nat) : List Byte :=
  (List.range n).map fun i => s.nvByte (s.chunkAddr ((o + i) / 4096) + (o + i) % 4096)

def State.stagedManifest (s : State) : Manifest := manifestOf s.stagedLe

/-- The session ends: END is written, its content is discarded (R428, R430). -/
def State.endSession (end_ reject : Nat) (s : State) : State :=
  let s := s.nvPut (mapBase + 68) (leBytes 4 (end_ + 16 * reject))
  let s := s.onlyIf (end_ == 2) (·.bump Reg.UPD_SESSION_REJECT)
  let s := s.onlyIf (end_ == 4) (·.bump Reg.UPD_SESSION_EXPIRE)
  let s := s.setSession 0 end_ reject
  let s := ((s.off Fd.UPD_UPD_STAT_OWNER).off Fd.UPD_UPD_STAT_IMG_TYPE).off Fd.UPD_UPD_STAT_N_HELD
  let s := ((s.wr Reg.UPD_UPD_OWNER 0#32).wr Reg.UPD_UPD_TOTAL 0#32).setDigest (List.replicate 32 0#8)
  let s := (s.wr64 Reg.UPD_ACT_AT_LO Reg.UPD_ACT_AT_HI 0).wr64 Reg.UPD_OPENED_LO Reg.UPD_OPENED_HI 0
  { s with upd := { s.upd with asm := [], resumed := none } }

/-- A DATA chunk in IDLE opens a session: the map is erased and written (R425, R430). -/
def State.openSession (src : UpdSrc) (digest : List Byte) (total imgType : Nat) (s : State) : State :=
  let opened := if s.flag Fd.TIME_TIME_STAT_INITIAL then 0 else s.now
  let head := [0x4F#8, 0x56#8, 0x53#8, 0x4D#8, 0x01#8, BitVec.ofNat 8 imgType, BitVec.ofNat 8 src.code, 0xFF#8] ++
    leBytes 2 src.node16 ++ leBytes 2 total ++ List.replicate 4 0xFF#8 ++ leBytes 8 opened ++ digest.take 8
  let s := (s.nvErase mapBase 0x10000).nvPut mapBase head
  let s := (s.setFld Fd.UPD_UPD_STAT_OWNER src.code).setFld Fd.UPD_UPD_STAT_IMG_TYPE imgType
  let s := (s.setFld Fd.UPD_UPD_OWNER_NODE src.node16).setFld Fd.UPD_UPD_TOTAL_N_TOTAL total
  let s := (s.off Fd.UPD_UPD_STAT_N_HELD).wr64 Reg.UPD_OPENED_LO Reg.UPD_OPENED_HI opened
  let s : State := { s with upd := { s.upd with resumed := none } }
  (s.bump Reg.UPD_SESSION_OPEN).setUpdState 1

/-- Another source, or other binding fields, meet an open session (R425). -/
def State.foreign (s : State) (src : UpdSrc) (digest : List Byte) : Bool :=
  s.updState != 0 && (s.updOwner != src.code || s.fld Fd.UPD_UPD_OWNER_NODE != src.node16 || s.sessionPrefix != digest)

/-- STATE_MARK: clear bit `i` (R430). -/
def State.clearMark (i : Nat) (s : State) : State :=
  let m := (s.nvByte (mapBase + 64)).toNat
  if m / 2 ^ i % 2 = 1 then s.nvPut (mapBase + 64) [BitVec.ofNat 8 (m - 2 ^ i)] else s

/-- Why an image is not acceptable, as a reject code: the lowest one that applies (R419, R420, R434). 0 is none. -/
def State.rejectCode (s : State) (d : List Byte) (sig : SigCheck) : Nat :=
  let m := s.stagedManifest
  let fw := s.updType == 1
  if !m.wellFormed s.updType || m.sigKind != 0 || m.chunks + m.manChunks != s.updTotal then 1
  else if sig = .key then 2
  else if sig = .signature then 3
  else if d.take 8 ≠ s.sessionPrefix then 4
  else if fw && decide (m.epoch < s.fusedEpoch) then 5
  else
    let run := (if fw then s.rd Reg.SYS_FW_VERSION else s.rd Reg.SYS_CFG_REV).toNat
    if !s.inRom && decide (m.version < run) then 6
    else if !s.inRom && m.version == run then 7
    else if !s.targetOk m then 8
    else if !m.sizeOk then 9
    else 0

/-- The manifest is complete: it is checked, and the session enters FILLING or is rejected (R426). -/
def State.checkManifest (sig : SigCheck) (s : State) : State :=
  let d := sha256 (s.stagedBytes 0 (128 + 32 * s.stagedManifest.chunks))
  let r := s.rejectCode d sig
  if r = 0 then (((s.nvPut (mapBase + 32) d).clearMark 0).setDigest d).setUpdState 2
  else s.endSession 2 r

/-- Before its first chunk beyond chunk 0 goes straight into a slot, the firmware erases that slot, so that what stood there is usable
no more (R429). -/
def State.eraseFirst (c : Nat) (s : State) : State :=
  if c = 0 ∨ s.inRom = true ∨ (s.updType = 1 ∧ s.smallNvm = false) ∨ ((List.range s.updTotal).drop 1).any s.held = true then s
  else s.nvErase s.targetSlot (if s.updType = 1 then 0xC00000 else 0x100000)

/-- Store a chunk and clear its MISSING bit after the read-back; a failed one ends the session (R429, R430). -/
def State.storeChunk (c : Nat) (data : List Byte) (ok : Bool) (s : State) : State :=
  if !ok then s.endSession 2 11
  else
    let s := s.eraseFirst c
    let a := mapBase + 72 + c / 8
    let s := s.nvPut (s.chunkAddr c) data
    (s.nvPut a [BitVec.ofNat 8 ((s.nvByte a).toNat - 2 ^ (c % 8))]).bumpFld Fd.UPD_UPD_STAT_N_HELD 1

/-- Every chunk of the session is held. -/
def State.allHeld (s : State) : Bool := (List.range s.updTotal).all s.held

/-- What the last chunk does in service: a firmware session enters STAGING, a configuration session COMPLETE (R429). -/
def State.filled1 (s : State) : State :=
  if s.updState ≠ 2 ∨ s.allHeld = false ∨ s.inRom = true then s
  else if s.updType = 1 then (s.clearMark 1).setUpdState 3
  else ((s.clearMark 1).clearMark 2).setUpdState 4

/-- FORMAT of a configuration image above FORMAT_MAX, seen in its first image chunk (R401). -/
def State.formatTooNew (s : State) (k : Nat) (data : List Byte) : Bool :=
  s.updType == 2 && k == 0 && decide (s.fld Fd.SYS_CFG_STAT_FORMAT_MAX < fieldBE data 4 1)

/-- A whole chunk for the session (R425, R426). -/
def State.takeChunk (c man : Nat) (data : List Byte) (sig : SigCheck) (ok : Bool) (s : State) : State :=
  let st := s.updState
  if s.held c then s.bump Reg.UPD_CHUNK_DUP
  else if st = 1 then
    if c < man then
      let t := s.storeChunk c data ok
      if t.updState = 1 ∧ (List.range man).all t.held = true then t.checkManifest sig else t
    else s.bump Reg.UPD_CHUNK_EARLY
  else if st = 2 then
    let m := s.stagedManifest
    let k := c - m.manChunks
    if sha256 data = s.stagedBytes (128 + 32 * k) 32 then
      if s.formatTooNew k data then s.endSession 2 10 else (s.storeChunk c data ok).filled1
    else s.bump Reg.UPD_CHUNK_BAD
  else s

/-- The answer to DATA before anything is stored: ROM takes firmware only (R433); CHUNK, N_TOTAL, IMG_TYPE within range; the
session's binding (R425). -/
def State.dataResult (s : State) (src : UpdSrc) (digest : List Byte) (c total imgType : Nat) : UpdResult :=
  if s.inRom && imgType != 1 then .wrongMode
  else if total = 0 ∨ 3072 < total ∨ total ≤ c ∨ (imgType ≠ 1 ∧ imgType ≠ 2) then .badRequest
  else if s.foreign src digest || (s.updState != 0 && (s.updTotal != total || s.updType != imgType)) then .busy
  else .ok

/-- A refused command or frame is counted (R425, R437). -/
def State.countResult (r : UpdResult) (s : State) : State :=
  match r with
  | .busy => s.bump Reg.UPD_CHUNK_BUSY
  | .wrongMode => s.bump Reg.UPD_WRONG_MODE_CNT
  | _ => s

/-- A chunk has come whole: in IDLE it opens a session (R425). -/
def State.wholeChunk (src : UpdSrc) (digest : List Byte) (c total imgType man : Nat) (data : List Byte) (sig : SigCheck)
    (ok : Bool) (s : State) : State :=
  let s := s.bump Reg.UPD_CHUNK_RX
  let s := if s.updState = 0 then s.openSession src digest total imgType else s
  s.takeChunk c man data sig ok

/-! ### CHUNK DATA (R422) -/

/-- Assemblies not yet 100 ms old. -/
def State.freshAsm (s : State) : List Assembly := s.upd.asm.filter fun a => decide (s.clk < a.since + 100 * msPs)

/-- A part joins its assembly. With four chunks in assembly a fifth is not begun. -/
def State.takePart (src : UpdSrc) (part c total imgType man : Nat) (digest data : List Byte) (sig : SigCheck) (ok : Bool)
    (s : State) : State :=
  let l := s.freshAsm
  let same := fun (a : Assembly) => a.chunk == c && a.digest == digest && a.total == total
  let a := (l.find? same).getD { chunk := c, digest, total, parts := [], since := s.clk }
  let rest := l.filter fun a => !same a
  let a := { a with parts := (part, data) :: a.parts.filter (·.1 != part) }
  if 3 ≤ a.parts.length then
    let whole := [0, 1, 2].flatMap fun i => (a.parts.lookup i).getD []
    State.wholeChunk src digest c total imgType man whole sig ok { s with upd := { s.upd with asm := rest } }
  else if 4 ≤ rest.length then { s with upd := { s.upd with asm := rest } }
  else { s with upd := { s.upd with asm := a :: rest } }

/-- A DATA frame: a refused unicast one is answered, a refused broadcast one only counted (R423). -/
def State.chunkData (f : Frame) (sig : SigCheck) (ok : Bool) (s : State) : State :=
  let p := f.payload
  let part := fieldBE p 1 1 % 4
  let c := fieldBE p 2 2
  let total := fieldBE p 12 2
  let t := fieldBE p 14 1
  let src := UpdSrc.ring f.srcRing f.srcNode
  let digest := (p.drop 4).take 8
  let whole := part ≠ 3 ∧ f.len.toNat = (if part = 2 then 1232 else 1456) ∧ p.length = f.len.toNat
  let r := if whole then s.dataResult src digest c total t else .badRequest
  if r = .ok then s.takePart src part c total t (fieldBE p 15 1) digest (p.drop 16) sig ok
  else
    let s := s.countResult r
    if f.dstNode = 511#9 then s else s.sendStatus src r

/-- What becomes of a CHUNK frame before its content counts: the mode and SRC_ALLOW (R424); a reserved CTYPE is unknown (R421). -/
def State.chunkGate (f : Frame) (go : State → State) (s : State) : State :=
  if f.kind ≠ Kd.chunk then s
  else
    let s := s.takeMail f
    if !(s.inRom || s.chunkService) then s.onlyIf s.dropsChunk (·.bump Reg.UPD_CHUNK_DROP)
    else
      let ct := fieldBE f.payload 0 1
      if ct = 0 ∨ 3 < ct then s.bump Reg.WARDEN_RX_UNKNOWN
      else if ct ≠ 2 ∧ s.srcAllowed f = false then s.bump Reg.UPD_CHUNK_DENIED
      else go s

/-- CHUNK_DATA. -/
def execChunkData (f : Frame) (sig : SigCheck) (ok : Bool) (s : State) : Host.Outcome State Fault Refusal :=
  .next (s.chunkGate f fun t => if fieldBE f.payload 0 1 = 1 then t.chunkData f sig ok else t)

/-- ASSEMBLY_EXPIRY: the assembly begun first has stayed incomplete for 100 ms. -/
def execAssemblyExpiry (s : State) : Host.Outcome State Fault Refusal :=
  .next (match s.upd.asm with
    | [] => s
    | a :: t =>
      let first := t.foldl (fun m x => min m x.since) a.since
      let s := s.advance (first + 100 * msPs - s.clk)
      { s with upd := { s.upd with asm := s.freshAsm } })

/-! ### CONTROL (R423, R427, R432) -/

/-- What an ACTIVATE meets. -/
def State.activateResult (s : State) (src : UpdSrc) (digest : List Byte) (at_ : Nat) : UpdResult :=
  if s.inRom then .wrongMode
  else if s.foreign src digest then .busy
  else if s.updState ≠ 4 ∧ s.updState ≠ 5 then .wrongMode
  else if at_ < s.now + 10000000 ∨ s.now + 7 * 86400 * 1000000000 < at_ then .badRequest
  else .ok

/-- What an ABORT meets. A USB ABORT of a ring session needs SVC_N low; a ring ABORT of a USB session is refused always; nothing
cancels an activation under way. -/
def State.abortResult (s : State) (src : UpdSrc) (digest : List Byte) (svcLow : Bool) : UpdResult :=
  let ring := match src with
    | .ring _ _ => true
    | .usb => false
  if s.inRom && ring then .wrongMode
  else if s.updState = 0 ∨ s.updState = 6 then .wrongMode
  else if !ring && s.updOwner == 1 then (if svcLow && s.sessionPrefix == digest then .ok else .busy)
  else if s.foreign src digest then .busy
  else .ok

/-- A CONTROL of any source, and its RESULT. A reserved OP is BAD_REQUEST. -/
def State.control (src : UpdSrc) (op : Nat) (digest : List Byte) (at_ : Nat) (svcLow : Bool) (s : State) : UpdResult × State :=
  let r := match op with
    | 1 => UpdResult.ok
    | 2 => s.activateResult src digest at_
    | 3 => s.abortResult src digest svcLow
    | _ => .badRequest
  if r ≠ .ok then (r, s.countResult r)
  else
    match op with
    | 2 => (r, (s.wr64 Reg.UPD_ACT_AT_LO Reg.UPD_ACT_AT_HI at_).setUpdState 5)
    | 3 => (r, s.endSession 3 0)
    | _ => (r, s)

/-- A CONTROL frame: it is answered with a STATUS frame; a QUERY to node 511 after node number × 20 µs. -/
def State.controlFrame (f : Frame) (s : State) : State :=
  let p := f.payload
  let src := UpdSrc.ring f.srcRing f.srcNode
  let op := fieldBE p 1 1
  if op = 1 ∧ f.dstNode = 511#9 then
    { s with upd := { s.upd with due := s.upd.due ++ [(f.srcRing, f.srcNode, s.clk + s.ownNode * 20 * usPs)] } }
  else
    let (r, t) := s.control src op ((p.drop 8).take 8) (fieldBE p 16 8) false
    t.sendStatus src r

/-- A CONTROL frame whose OP is `op`. -/
def State.controlOp (f : Frame) (mine : Nat → Bool) (s : State) : State :=
  s.chunkGate f fun t => if fieldBE f.payload 0 1 = 3 ∧ mine (fieldBE f.payload 1 1) = true then t.controlFrame f else t

/-- QUERY: reserved OPs are answered with it. -/
def execQuery (f : Frame) (s : State) : Host.Outcome State Fault Refusal :=
  .next (s.controlOp f fun op => op != 2 && op != 3)
/-- ACTIVATE. -/
def execActivate (f : Frame) (s : State) : Host.Outcome State Fault Refusal := .next (s.controlOp f (· == 2))
/-- ABORT. -/
def execAbort (f : Frame) (s : State) : Host.Outcome State Fault Refusal := .next (s.controlOp f (· == 3))

/-- STATUS_REPLY: the delay of a broadcast QUERY has passed. -/
def execStatusReply (s : State) : Host.Outcome State Fault Refusal :=
  .next (match s.upd.due with
    | [] => s
    | (ring, node, t) :: rest =>
      let s := s.advance (t - s.clk)
      State.sendStatus (.ring ring node) .ok { s with upd := { s.upd with due := rest } })

/-! ### USB update messages (R431) -/

/-- UPD_DATA: one chunk; answered only when it is refused. -/
def execUpdData (chunk total : BitVec 16) (imgType manChunks : Byte) (digest data : List Byte) (sig : SigCheck) (ok : Bool)
    (s : State) : Host.Outcome State Fault Refusal :=
  .next (if !s.fnReady || !(s.inRom || s.chunkService) then s
    else
      let r := s.dataResult .usb digest chunk.toNat total.toNat imgType.toNat
      if r = .ok then
        s.wholeChunk .usb digest chunk.toNat total.toNat imgType.toNat manChunks.toNat data sig ok
      else (s.countResult r).sendStatus .usb r)

/-- UPD_CONTROL: each is answered by one UPD_STATUS. -/
def execUpdControl (op : Byte) (digest : List Byte) (at_ : BitVec 64) (svcLow : Bool) (s : State) :
    Host.Outcome State Fault Refusal :=
  .next (if !s.fnReady || !(s.inRom || s.chunkService) then s
    else
      let (r, t) := s.control .usb op.toNat digest at_.toNat svcLow
      t.sendStatus .usb r)

/-! ### Expiry, staging and activation (R428, R429, R432) -/

/-- The instant from which EXPIRY_DAYS count: OPENED, or for a session opened under INITIAL the first instant of a later boot at
which INITIAL is 0. -/
def State.openedAt (s : State) : Option Nat :=
  let o := s.rd64 Reg.UPD_OPENED_LO Reg.UPD_OPENED_HI
  if o ≠ 0 then some o else s.upd.resumed.map fun r => max r s.tim.clearAt

/-- SESSION_EXPIRY. -/
def execSessionExpiry (s : State) : Host.Outcome State Fault Refusal :=
  .next (if !s.chunkService || s.flag Fd.TIME_TIME_STAT_INITIAL || s.updState == 0 || decide (5 ≤ s.updState) then s
    else
      match s.openedAt with
      | none => s
      | some t => (s.toTime (t + s.fld Fd.UPD_UPD_CFG_EXPIRY_DAYS * 86400 * 1000000000)).endSession 4 0)

/-- Copy the staged chunks 1 onward into the other firmware slot, erased before. -/
def State.copyStaged (s : State) : State :=
  if s.smallNvm then s
  else
    let s := s.nvErase s.targetSlot 0xC00000
    s.forEach ((List.range s.updTotal).drop 1) fun c t => t.nvPut (t.targetSlot + 4096 * c) (t.nvBytes (t.chunkAddr c) 4096)

/-- STAGING_COPY: `ok` is the read-back. -/
def execStagingCopy (ok : Bool) (s : State) : Host.Outcome State Fault Refusal :=
  .next (if s.updState ≠ 3 ∨ s.chunkService = false then s
    else
      let s := s.copyStaged
      if ok then (s.clearMark 2).setUpdState 4 else s.endSession 2 11)

/-- Chunk 0 goes from the staging map into the target slot. -/
def State.writeChunk0 (s : State) : State := s.nvPut s.targetSlot (s.nvBytes (mapBase + 0x8000) 4096)

/-- The last part of an activation: chunk 0 is written, END says ACTIVATED or ACT_FAIL, and the main domain restarts. -/
def State.activateNow (ok : Bool) (s : State) : State :=
  let s := if ok then (s.writeChunk0.bump Reg.UPD_ACTIVATE_CNT).endSession 1 0 else s.endSession 5 0
  s.mainRestart Fd.SYS_RST_CAUSE_ACTIVATE

/-- ACTIVATION: at ACT_AT the state becomes ACTIVATING and the quiesce starts; after QUIESCE_END, in Pass-through, chunk 0 is
written and the node restarts. -/
def execActivation (ok : Bool) (s : State) : Host.Outcome State Fault Refusal :=
  .next (if s.updState = 5 ∧ s.chunkService = true then
      let s := s.toTime (s.rd64 Reg.UPD_ACT_AT_LO Reg.UPD_ACT_AT_HI)
      ((s.setUpdState 6).on Fd.SYS_MODE_STAT_ACTIVATING).startQuiesce
    else if s.updState = 6 ∧ s.mode = .passThrough ∧ s.flag Fd.TXN_TXN_STAT_QUIESCE_DONE = true then s.activateNow ok
    else s)

/-! ### Recovery (R433 to R435) -/

/-- ROM_RECOVERY_COMPLETE: every chunk is held; chunk 0 is written, a slot of higher VERSION loses its header, and the main domain
restarts. -/
def execRomRecoveryComplete (s : State) : Host.Outcome State Fault Refusal :=
  .next (if s.inRom && s.updState == 2 && s.allHeld then
      let k := s.romTarget
      let s := s.writeChunk0
      let mine := s.manifestAt (fwSlot k)
      let other := s.manifestAt (fwSlot (1 - k))
      let s := s.onlyIf (other.magic == 0x464D564F && decide (mine.version < other.version)) (State.nvErase (fwSlot (1 - k)) 4096)
      ((s.off Fd.SYS_BOOT_STAT_FAIL_RUN).endSession 1 0).mainRestart Fd.SYS_RST_CAUSE_SOFT
    else s)

/-- RECOVERY_STATUS_TX: once per second, to node 511. -/
def execRecoveryStatusTx (s : State) : Host.Outcome State Fault Refusal :=
  .next (if s.inRom && s.updState == 0 then
      let s := s.advance (s.upd.statusAt + secPs - s.clk)
      State.sendStatus (.ring (BitVec.ofNat 6 s.ownRing) 511#9) .ok { s with upd := { s.upd with statusAt := s.clk } }
    else s)

/-- Node `n` stands next to this node in the ring order (03 R89). -/
def State.neighbour (s : State) (n : Nat) : Bool := s.upstream true == some n || s.upstream false == some n

/-- A STATUS frame at a node in service: RECOVERY from a neighbour starts helping it, BUSY from it stops (R435). -/
def State.chunkStatus (f : Frame) (s : State) : State :=
  let n := f.srcNode.toNat
  let st := fieldBE f.payload 1 1 / 16
  let busy := fieldBE f.payload 1 1 % 4 = 1
  if s.inRom then s
  else if busy ∧ (s.upd.help.map (·.1)) = some n then { s with upd := { s.upd with help := none } }
  else if st = 7 ∧ s.flag Fd.UPD_UPD_CFG_HELP_EN = true ∧ s.updState = 0 ∧ s.inService = true ∧ f.srcRing.toNat = s.ownRing ∧
      s.neighbour n = true ∧ s.upd.help.isNone = true then
    { s with upd := { s.upd with help := some (n, 0, s.clk) } }
  else s

/-- CHUNK_STATUS_RX. -/
def execChunkStatusRx (f : Frame) (s : State) : Host.Outcome State Fault Refusal :=
  .next (s.chunkGate f fun t => if fieldBE f.payload 0 1 = 2 then t.chunkStatus f else t)

/-- The three DATA frames of chunk `c` of the running slot. -/
def State.helpParts (s : State) (c : Nat) : List (List Byte) :=
  let a := fwSlot (s.fld Fd.SYS_BOOT_STAT_SLOT)
  let m := s.manifestAt a
  let d := sha256 (s.nvBytes a (128 + 32 * m.chunks))
  [0, 1, 2].map fun i =>
    [0x01#8, BitVec.ofNat 8 i] ++ beBytes 2 c ++ d.take 8 ++ beBytes 2 (m.chunks + m.manChunks) ++
      [0x01#8, BitVec.ofNat 8 m.manChunks] ++ s.nvBytes (a + 4096 * c + 1440 * i) (if i = 2 then 1216 else 1440)

/-- HELPER_CHUNK_TX: at most one chunk every 200 µs. -/
def execHelperChunkTx (s : State) : Host.Outcome State Fault Refusal :=
  .next (match s.upd.help with
    | none => s
    | some (n, c, t) =>
      if !s.inService || s.updState != 0 then { s with upd := { s.upd with help := none } }
      else
        let m := s.manifestAt (fwSlot (s.fld Fd.SYS_BOOT_STAT_SLOT))
        let s := s.advance (t + 200 * usPs - s.clk)
        let s := s.forEach (s.helpParts c) fun p u => u.sendChunk (BitVec.ofNat 6 s.ownRing) (BitVec.ofNat 9 n) p
        { s with upd := { s.upd with help := if c + 1 < m.chunks + m.manChunks then some (n, c + 1, s.clk) else none } })

/-! ### Registers (R436) -/

/-- Writes in the UPD block that have rules of their own. -/
def State.updWrite (off : Nat) (w : Word) (s : State) : Option Res :=
  if off ≠ 0x000 ∧ off ≠ 0x040 ∧ off ≠ 0x044 then (if s.asleepOrLoading then some (refuse .wrongMode s) else none)
  else if !s.applying && !(s.inService && !s.asleepOrLoading) then some (refuse .wrongMode s)
  else if off = 0x000 then
    some (if bits w 0 8 = 0 then refuse .badRequest s else (.ok, s.wr Reg.UPD_UPD_CFG (w &&& 0x1FF#32)))
  else some (.ok, s.wr (Reg.UPD_SRC_ALLOW ((off - 0x040) / 4)) (w &&& 0x87F3FFFF#32))

end Sys2Proof.Machine
end

