-- ==== Sys2Proof/Machine/Access.lean ====
section
/-!
DEFINITION. Requests to the register, table and identity rows (05 R113, R115, 18 R438 to R445): which blocks and tables exist, the
access codes (00 R7 to R10), the rules of the SWC, TXN, SYS and HOST blocks, 64-bit pairs, sticky peaks, access windows, and the
commands that reach registers as such.
-/

namespace Sys2Proof.Machine

/-! ### What is mapped (R438, R439) -/

/-- A block covers offset `a` of the register row. -/
def blockAt (a : Nat) : Bool := decide (a < 0x70000) || decide (0x80000 ≤ a ∧ a < 0x150000)

/-- A table covers offset `a` of the table row. -/
def tableAt (a : Nat) : Bool :=
  decide (a < 0x40000) || (decide (0x100000 ≤ a ∧ a < 0x180000) && decide (a % 0x10000 < 0xA000)) ||
    decide (0x200000 ≤ a ∧ a < 0x208000) || decide (0xF00000 ≤ a ∧ a < 0xF00200)

/-- The 4-byte offsets of `n` bytes at `a`. -/
def offsets (a n : Nat) : List Nat := (List.range (n / 4)).map fun i => a + 4 * i

/-- R115: the request starts on a 4-byte boundary, carries a multiple of 4 bytes, and each of its offsets is mapped. -/
def rowCheck (a n : Nat) (mapped : Nat → Bool) : Status :=
  if a % 4 ≠ 0 ∨ n % 4 ≠ 0 ∨ n = 0 then .badRequest else if (offsets a n).all mapped then .ok else .unmapped

/-! ### The host port's state as registers show it (15 R384, R386, R387) -/

/-- The host port serves (R384, R388). -/
def State.hostServes (s : State) : Bool :=
  !s.anat.kaHeld && !s.anat.mainHeld && s.flag Fd.HOST_HOST_CFG_EN && !s.flag Fd.SYS_MODE_STAT_WAKING && !s.boot.drowsy &&
    !s.second && !(s.mode == .recovery || s.mode == .load || s.mode == .drowse)

/-- HOST registers with a derived part: SERVING, the level sources of H_IRQ_PEND, and the queue counts. -/
def State.hostRead (s : State) (off : Nat) : Option Word :=
  match off with
  | 0x00 => some (putBits (s.rd Reg.HOST_H_STAT) 0 1 (if s.hostServes then 1 else 0))
  | 0x04 =>
    let bob := (s.rd Reg.BOBG_IRQ_PEND_LO &&& s.rd Reg.BOBG_IRQ_EN_HOST_LO) != 0#32 ||
      (s.rd Reg.BOBG_IRQ_PEND_HI &&& s.rd Reg.BOBG_IRQ_EN_HOST_HI) != 0#32
    let stb := (s.rd Reg.STB_IRQ_PEND &&& s.rd Reg.STB_IRQ_EN_HOST) != 0#32
    some (putBits (s.rd Reg.HOST_H_IRQ_PEND) 3 2 ((if bob then 1 else 0) + if stb then 2 else 0))
  | 0x14 => some (putBits (s.rd Reg.HOST_MB_COUNT) 0 16 (s.host.cpl.length * 256 + s.host.req.length))
  | _ => none

/-- HOST_IRQ_N is low (R387, R388). -/
def State.hostIrqLow (s : State) : Bool :=
  s.hostServes && ((s.hostRead 0x04).getD 0#32 &&& s.rd Reg.HOST_H_IRQ_EN) != 0#32

/-- HOST_BUSY is high between commands: the port does not serve, or the last command ended void (R384). -/
def State.hostBusyHigh (s : State) : Bool := !s.hostServes || s.host.void

/-! ### Derived values of the other blocks -/

/-- EPOCH_STAT (04 R110). -/
def State.swcRead (s : State) (off : Nat) : Option Word :=
  if off = 0x064 then
    some (BitVec.ofNat 32 (s.oldestEpoch % 2 ^ 16 * 2 ^ 16 +
      if s.oldestEpoch % 2 ^ 16 = s.fld Fd.SWC_TABLE_EPOCH_EPOCH then 1 else 0))
  else none

/-- TXN_STAT: SERVING and LOCKS; LATE_WR. -/
def State.txnRead (s : State) (off : Nat) : Option Word :=
  if off = 0x000 then
    some (putBits (putBits (s.rd Reg.TXN_TXN_STAT) 16 9 (min s.serveCount 256)) 8 4 s.txn.locks.length)
  else if off = 0x050 then some (BitVec.ofNat 32 s.lateSlot)
  else none

/-- MODE_STAT.MODE. -/
def State.sysRead (s : State) (off : Nat) : Option Word :=
  if off = 0x004 then some (putBits (s.rd Reg.SYS_MODE_STAT) 0 3 s.mode.code) else none

/-- Values that are derived where they are read, by offset in the register row. -/
def State.derived (s : State) (a : Nat) : Option Word :=
  if a < 0x10000 then s.sysRead a
  else if a < 0x20000 then none
  else if a < 0x30000 then s.swcRead (a - 0x20000)
  else if a < 0x40000 then s.txnRead (a - 0x30000)
  else if a < 0x50000 then s.cycRead (a - 0x40000)
  else if a < 0x60000 then s.fpinRead (a - 0x50000)
  else if a < 0x70000 then s.jrnRead (a - 0x60000)
  else if a < 0xA0000 then s.bobRead (a - 0x80000)
  else if a < 0xC0000 then s.canRead (a - 0xA0000)
  else if a < 0xD0000 then s.stbRead (a - 0xC0000)
  else if a < 0xE0000 then none
  else if a < 0xF0000 then s.timeRead (a - 0xE0000)
  else if a < 0x100000 then none
  else if a < 0x110000 then s.twinRead (a - 0x100000)
  else if a < 0x120000 then s.memBlockRead (a - 0x110000)
  else if a < 0x130000 then none
  else if a < 0x140000 then s.hostRead (a - 0x130000)
  else s.wardenRead (a - 0x140000)

/-- The value that offset `a` shows: WO fields read 0, an unassigned offset reads 0 (R7, R438). -/
def State.regValue (s : State) (a : Nat) : Word :=
  match findRow a with
  | none => (s.derived a).getD 0#32
  | some r => ((s.derived a).getD (s.rd a)) &&& ~~~(BitVec.ofNat 32 r.wo)

/-! ### Reading a register (R7, R10, R443, 04 R100) -/

/-- The present value of what a sticky peak or minimum register follows, in the register's own layout (04 R100). -/
def State.presentOf (s : State) (a : Nat) : Word :=
  if a = Reg.SWC_POOL_MIN_FREE then s.rd Reg.SWC_POOL_FREE
  else if 0x20280 ≤ a ∧ a < 0x20300 then s.rd (a - 0x80)
  else if a = Reg.TXN_PEAK_OUT 0 ∨ a = Reg.TXN_PEAK_OUT 1 ∨ a = Reg.TXN_PEAK_OUT 2 then s.rd (a - 4)
  else if a = Reg.TXN_SERVE_PEAK then BitVec.ofNat 32 (min s.serveCount 256)
  else if 0x80000 ≤ a ∧ a < 0x84000 ∧ a % 0x100 = 0x58 then
    let b := s.bob ((a - 0x80000) / 0x100)
    BitVec.ofNat 32 (b.rx.length * 256 + b.tx.length)
  else if 0xA0000 ≤ a ∧ a < 0xA8000 ∧ a % 0x1000 = 0x20 then BitVec.ofNat 32 (s.can ((a - 0xA0000) / 0x1000)).queue.length
  else if a = Reg.STB_QPEAK then BitVec.ofNat 32 s.stb.queue.length
  else if a = Reg.HOST_MB_COUNT then BitVec.ofNat 32 (s.host.cpl.length * 2 ^ 16)
  else 0#32

/-- A read clears RC fields; a sticky peak or minimum takes the present value. -/
def State.clearRc (a : Nat) (s : State) : State :=
  match findRow a with
  | none => s
  | some r =>
    let m := BitVec.ofNat 32 r.rc
    if m = 0#32 then s else s.wr a ((s.rd a &&& ~~~m) ||| (s.presentOf a &&& m))

/-- A 4-byte read of _LO latches _HI (R443): a value read and cleared is cleared whole. -/
def State.latchHi (a : Nat) (s : State) : State :=
  State.clearRc (a + 4) { s with latches := Tab.insert (Tab.erase s.latches (a + 4)) (a + 4) (s.regValue (a + 4)) }

/-- The two READs by this package of a register that crosses the power link (13 R341). -/
def State.linkRead (a : Nat) (s : State) : Word × State :=
  let src := s.ownSrc
  let act := s.ownAct
  let one := fun (s : State) (b : Nat) =>
    let (v, u) := (s.plkValid src act).dieRead src b
    (v, (u.plkOut src [plkCmd 1 act src b, BitVec.ofNat 8 b] (beBytes 2 v.toNat)).plkAnswered)
  let (lo, s) := one s (a / 2)
  let (hi, s) := one s (a / 2 + 1)
  (hi ++ lo, s)

/-- A read of one register among the offsets `all` of a request. -/
def State.readReg (all : List Nat) (a : Nat) (s : State) : Word × State :=
  if 0xF0000 ≤ a ∧ a < 0x100000 ∧ dieReg (a - 0xF0000) = true then s.linkRead (a - 0xF0000)
  else if a = Reg.TIME_NOW_LO then (s.regValue a, s.latchNow)
  else if a = Reg.TIME_NOW_HI ∧ all.contains Reg.TIME_NOW_LO = true then (BitVec.ofNat 32 (s.now / 2 ^ 32), s)
  else
    match (if isLo (a - 4) && !all.contains (a - 4) then s.latches.lookup a else none) with
    | some v => (v, { s with latches := Tab.erase s.latches a })
    | none =>
      let v := s.regValue a
      let s := s.clearRc a
      (v, s.onlyIf (isLo a && !all.contains (a + 4)) (State.latchHi a))

/-- Read registers in ascending order. -/
def State.readRegs (all : List Nat) : List Nat → State → List Byte × State
  | [], s => ([], s)
  | a :: t, s =>
    let (v, s) := s.readReg all a
    let (l, s) := State.readRegs all t s
    (leBytes 4 v.toNat ++ l, s)

/-- The refusal that a read of one register meets. -/
def State.readRefusal (s : State) (a : Nat) : Option Status :=
  if s.unitDown (0x3000000000 + a) then some .targetReset
  else if 0x80000 ≤ a ∧ a < 0xA0000 ∧ s.bobBusy (a - 0x80000) = true then some .busy
  else if 0x80000 ≤ a ∧ a < 0x84000 ∧ 0x60 ≤ a % 0x100 ∧ a % 0x100 < 0x70 then some .badRequest
  else if 0xF0000 ≤ a ∧ a < 0x100000 ∧ s.pwrRefuses (a - 0xF0000) = true then some .wrongMode
  else none

/-- RXQ of a bobbin, when an aligned 8-byte request names it (08 R207). -/
def rxqAt (a n : Nat) : Option Nat :=
  if n = 8 ∧ 0x80000 ≤ a ∧ a < 0x84000 ∧ a % 0x100 = 0x68 then some ((a - 0x80000) / 0x100) else none

/-- The refusal that a READ of the register row meets. -/
def State.rowRefusal (s : State) (a n : Nat) : Option Status :=
  match rxqAt a n with
  | some _ => if s.unitDown (0x3000000000 + a) then some Status.targetReset else none
  | none => (offsets a n).findSome? s.readRefusal

/-- A READ of the register row: checked whole before any register is read (R442). -/
def State.readRow (a n : Nat) (s : State) : Status × List Byte × State :=
  match rowCheck a n blockAt with
  | .ok =>
    match s.rowRefusal a n with
    | some st =>
      let r := refuse st s
      (r.1, [], r.2)
    | none =>
      match rxqAt a n with
      | some b =>
        let r := s.rxqPop b
        (r.1, if r.1 = .ok then leBytes 8 r.2.1 else [], r.2.2)
      | none =>
        let (l, s) := s.readRegs (offsets a n) (offsets a n)
        (.ok, l, s)
  | st =>
    let r := refuse st s
    (r.1, [], r.2)

/-! ### Writing a register -/

/-- A plain write by the access codes (R7). -/
def State.plainWrite (a : Nat) (w : Word) (s : State) : State :=
  match findRow a with
  | none => s
  | some r =>
    let m := fun (x : Nat) => BitVec.ofNat 32 x
    if r.rw = 0 ∧ r.w1c = 0 ∧ r.w1s = 0 then s
    else
      let v := (s.rd a &&& ~~~m r.rw) ||| (w &&& m r.rw)
      s.wr a ((v &&& ~~~(w &&& m r.w1c)) ||| (w &&& m r.w1s))

/-- CLASS_MAP entries of a register. -/
def classEntries (w : Word) : List Nat := (List.range 7).map fun c => bits w (3 * c) 3

/-- Writes in SWC (04 R111). -/
def State.swcWrite (off : Nat) (w : Word) (s : State) : Option Res :=
  if s.asleepOrLoading then some (refuse .wrongMode s)
  else if (0x020 ≤ off ∧ off < 0x02C ∧ (classEntries w).contains 7 = true) ∨
      (0x040 ≤ off ∧ off < 0x060 ∧ (List.range (if off % 8 = 0 then 4 else 2)).any (fun i => bits w (8 * i) 8 == 0) = true) ∨
      (off = 0x07C ∧ bits w 0 16 = 0) ∨ (0x100 ≤ off ∧ off < 0x180 ∧ 24576 < bits w 0 15) then some (refuse .badRequest s)
  else none

/-- Registers whose write commits (04 R110). -/
def commits (a : Nat) : Bool :=
  a == 0x20010 || decide (0x20020 ≤ a ∧ a < 0x2002C) || decide (0x20100 ≤ a ∧ a < 0x20180)

/-- QUOTA, UNRESTRICTED, egress entries and access windows may be written (05 R149). -/
def State.permits (s : State) : Bool := s.applying || (s.inService && !s.asleepOrLoading)

/-- Writes in TXN (05 R149). -/
def State.txnWrite (off : Nat) (w : Word) (s : State) : Option Res :=
  if 0x010 ≤ off ∧ off < 0x040 then
    let i := (off - 0x010) / 0x10
    let others := ([0, 1, 2].filter (· != i)).foldl (fun t j => t + s.fld (Fd.TXN_INIT_CFG_QUOTA j)) 0
    match off % 0x10 with
    | 0x0 =>
      some (if !s.permits then refuse .wrongMode s
        else if 512 < others + bits w 0 10 then refuse .badRequest s
        else (.ok, s.plainWrite (0x30000 + off) w))
    | 0x4 => if bits w 0 20 < 10 ∨ 1000000 < bits w 0 20 then some (refuse .badRequest s) else none
    | _ => none
  else if off = 0x044 then (if bits w 0 10 = 0 ∨ 1000 < bits w 0 10 then some (refuse .badRequest s) else none)
  else if 0x400 ≤ off ∧ off < 0x460 ∧ s.permits = false then some (refuse .wrongMode s)
  else none

/-- Writes in SYS (16 R407, R416, 01 R18 to R26). A new TIMEOUT starts the watchdog afresh. -/
def State.sysWrite (off : Nat) (w : Word) (s : State) : Option Res :=
  match off with
  | 0x000 => some (s.modeCtl (bits w 0 2) (w.getLsbD 2))
  | 0x044 => some (s.kick w)
  | 0x100 => some (s.clkCtl w)
  | 0x110 => some (s.rstCtl w)
  | 0x120 => some (s.unitRst w)
  | 0x128 => some (s.bobRst false w)
  | 0x12C => some (s.bobRst true w)
  | 0x040 =>
    some (if s.asleepOrLoading then refuse .wrongMode s
      else if bits w 0 16 = 0 then refuse .badRequest s
      else
        let t := s.plainWrite Reg.SYS_WDOG_CFG w
        (.ok, t.onlyIf (t.armed .wdog) State.restartWdog))
  | _ => if s.asleepOrLoading then some (refuse .wrongMode s) else none

/-- A fabric write of DOORBELL_IN sets the DOORBELL interrupt of the host (15 R386). -/
def State.doorbell (w : Word) (s : State) : Res :=
  if s.asleepOrLoading then refuse .wrongMode s else (.ok, (s.wr Reg.HOST_DOORBELL_IN w).hostPend 2)

/-- Fabric writes in HOST (15 R387, R393). -/
def State.hostWrite (off : Nat) (w : Word) (s : State) : Option Res :=
  if s.asleepOrLoading then some (refuse .wrongMode s)
  else
    match off with
    | 0x04 => some (.ok, s.plainWrite Reg.HOST_H_IRQ_PEND (w &&& 0x27#32))
    | 0x0C => some (s.doorbell w)
    | 0x100 => if bits w 4 4 < 4 then some (refuse .badRequest s) else none
    | _ => none

/-- The rule of a block for a write at offset `a`; none where the access codes alone apply. -/
def State.ruledWrite (a : Nat) (w : Word) (req : Option (ReqKind × Request)) (s : State) : Option Res :=
  if a < 0x10000 then s.sysWrite a w
  else if a < 0x20000 then (if a < 0x13000 then s.portWrite ((a - 0x10000) / 0x1000) (a % 0x1000) w else none)
  else if a < 0x30000 then s.swcWrite (a - 0x20000) w
  else if a < 0x40000 then s.txnWrite (a - 0x30000) w
  else if a < 0x50000 then s.cycWrite (a - 0x40000) w
  else if a < 0x60000 then s.fpinWrite (a - 0x50000) w
  else if a < 0x70000 then s.jrnWrite (a - 0x60000) w
  else if a < 0xA0000 then (if s.bobBusy (a - 0x80000) then some (refuse .busy s) else s.bobWrite (a - 0x80000) w)
  else if a < 0xC0000 then s.canWrite (a - 0xA0000) w
  else if a < 0xD0000 then s.stbWrite (a - 0xC0000) w
  else if a < 0xE0000 then s.usbWrite (a - 0xD0000) w
  else if a < 0xF0000 then s.timeWrite (a - 0xE0000) w
  else if a < 0x100000 then s.pwrWrite (a - 0xF0000) w
  else if a < 0x110000 then s.twinWrite (a - 0x100000) w
  else if a < 0x120000 then
    if 0x110100 ≤ a ∧ a < 0x110140 then some (s.churnOwn ((a - 0x110100) / 4) w req).2 else s.memBlockWrite (a - 0x110000) w
  else if a < 0x130000 then s.updWrite (a - 0x120000) w
  else if a < 0x140000 then s.hostWrite (a - 0x130000) w
  else s.wardenWrite (a - 0x140000) w

/-- In Load only the firmware's own writes pass (16 R406). -/
def State.loadRefuses (s : State) : Bool := s.mode == .load && !s.boot.applying

/-- Local addresses whose accepted writes the field holder sends to its standby: the FPIN, BOB, CYC, PIC and STB registers, the CAN
registers other than TX_PUSH and CMD, egress entries, prickings, CAN filters and access windows (14 "Tether traffic"). Queue words are
not mirrored (14 R360). -/
def shadowed (a : Nat) : Bool :=
  (decide (0x3000040000 ≤ a ∧ a < 0x3000060000)) ||
    (decide (0x3000080000 ≤ a ∧ a < 0x30000A0000) && !(decide (a < 0x3000084000) && decide (0x60 ≤ a % 0x100 ∧ a % 0x100 < 0x70))) ||
    (decide (0x30000A0000 ≤ a ∧ a < 0x30000C0000) && a % 0x1000 != 4 && !decide (0x40 ≤ a % 0x1000 ∧ a % 0x1000 < 0x88)) ||
    decide (0x30000C0000 ≤ a ∧ a < 0x30000D0000) || decide (0x30000E0800 ≤ a ∧ a < 0x30000E0C00) ||
    decide (0x3000030400 ≤ a ∧ a < 0x3000030460) || decide (0x3100000000 ≤ a ∧ a < 0x3101000000)

/-- An accepted write at the field holder leaves as a state delta; a refused one produces none (14 R353). -/
def State.sendDelta (a : Nat) (b : List Byte) (r : Res) : Res :=
  if r.1 = .ok ∧ r.2.fieldHolder = true ∧ shadowed a = true ∧ b ≠ [] then (.ok, r.2.emit (.delta a b)) else r

/-- A write of one register. -/
def State.writeReg (a : Nat) (w : Word) (req : Option (ReqKind × Request)) (s : State) : Res :=
  if s.unitDown (0x3000000000 + a) then refuse .targetReset s
  else if s.loadRefuses && a != Reg.SYS_WDOG_KICK && a != Reg.SYS_MODE_CTL then refuse .wrongMode s
  else
    State.sendDelta (0x3000000000 + a) (leBytes 4 w.toNat)
      (match s.ruledWrite a w req with
        | some r => r
        | none => (.ok, s.plainWrite a w))

/-- Registers written in ascending order up to the first that refuses (R442); the first component says whether any of them
commits. -/
def State.writeRegs (req : Option (ReqKind × Request)) : Nat → List Word → State → Bool × Res
  | _, [], s => (false, .ok, s)
  | a, w :: ws, s =>
    match s.writeReg a w req with
    | (.ok, t) =>
      let (c, r) := State.writeRegs req (a + 4) ws t
      (c || commits a, r)
    | r => (false, r)

/-- Words of a byte list, least significant byte first. -/
def wordsLe : List Byte → List Word
  | a :: b :: c :: d :: t => BitVec.ofNat 32 (leVal [a, b, c, d]) :: wordsLe t
  | _ => []

/-- Registers that take a request of a size of their own: TXQ by an aligned 8-byte or a 4-byte write and no other, RD_POS and
TIME_SET by an aligned 8-byte write, a CAN queue entry by one write of the whole entry (08 R207, 07 R190, 12 R292, 09 R227). -/
def State.wideWrite (a : Nat) (data : List Byte) (s : State) : Option Res :=
  let v := leVal data
  if s.unitDown (0x3000000000 + a) || s.loadRefuses then none
  else if (data.length = 8 ∨ data.length = 4) ∧ 0x80000 ≤ a ∧ a < 0x84000 ∧ a % 0x100 = 0x60 then
    some (s.txqPush ((a - 0x80000) / 0x100) (BitVec.ofNat 32 v) (v / 2 ^ 34 % 2 == 1))
  else if data.length = 8 ∧ 0x60100 ≤ a ∧ a < 0x60180 ∧ a % 0x20 = 0 then some (s.writeRdPos ((a - 0x60100) / 0x20) v)
  else if data.length = 8 ∧ a = Reg.TIME_TIME_SET_LO then some (s.setTime v)
  else if 0xA0000 ≤ a ∧ a < 0xA8000 ∧ a % 0x1000 = 0x040 ∧ data.length ≤ 0x48 then some (s.canPush ((a - 0xA0000) / 0x1000) data)
  else none

/-- A write to the register row (R115, R442); a commit follows when the completion is generated (04 R110). -/
def State.writeRow (a : Nat) (data : List Byte) (req : Option (ReqKind × Request)) (s : State) : Res :=
  match rowCheck a data.length blockAt with
  | .ok =>
    match s.wideWrite a data with
    | some r => r
    | none =>
      let (c, r) := s.writeRegs req a (wordsLe data)
      (r.1, r.2.onlyIf c State.commit)
  | st => refuse st s

/-! ### The table row (R439) and access windows (05 R138 to R140) -/

def windowBase : Nat := 0x3100F00000

/-- An entry with its reserved bits 0. -/
def windowFix (e : List Byte) : List Byte :=
  ([0x8FFFFFFF#32, 0x0FFFFFFF#32, 0x07F3FFFF#32, 0x0000000F#32].zip (wordsLe e)).flatMap fun p => leBytes 4 (p.1 &&& p.2).toNat

/-- R140. -/
def windowOk (e : List Byte) : Bool :=
  match wordsLe e with
  | [w0, w1, w2, _] => decide (bits w0 0 28 ≤ bits w1 0 28) && decide (bits w2 0 9 ≤ bits w2 9 9)
  | _ => false

/-- A write to access window entries at byte offset `off` of their table (R140, R149). -/
def State.windowWrite (off : Nat) (b : List Byte) (s : State) : Res :=
  if !s.permits then refuse .wrongMode s
  else
    let old := s.readBytes windowBase 512
    let e := s.epoch
    let (c, r) := s.entryWrite windowBase 16 off b windowFix windowOk
    (r.1, r.2.onlyIf c fun t => State.commit
      { t with txn := { t.txn with oldWin := (e, old) :: t.txn.oldWin.filter fun o => (e - o.1).toNat < 32768 } })

/-- A write within one instance of a table at offset `a` of the table row. -/
def State.tablePart (a : Nat) (b : List Byte) (s : State) : Res :=
  if b = [] then (.ok, s)
  else if s.unitDown (0x3100000000 + a) then refuse .targetReset s
  else if s.loadRefuses then refuse .wrongMode s
  else if a < 0x40000 then s.prickWrite (a / 0x1000) (a % 0x1000) b
  else if a < 0x180000 then refuse .denied s
  else if a < 0x208000 then s.filterWrite ((a - 0x200000) / 0x1000) (a % 0x1000) b
  else s.windowWrite (a - 0xF00000) b

/-- The bobbins that run or stall and whose pricking `n` bytes at offset `a` touch (08 R212). -/
def State.runningAt (s : State) (a n : Nat) : List Nat :=
  (List.range 64).filter fun k => decide (a < 0x1000 * k + 0x1000) && decide (0x1000 * k < a + n) && s.bobRun k != 0

/-- A write to the table row: the instances it touches in ascending order, up to the first that refuses (R442). One that touches
the pricking of a running bobbin is refused in whole (08 R212). -/
def State.writeTable (a : Nat) (b : List Byte) (s : State) : Res :=
  match rowCheck a b.length tableAt with
  | .ok =>
    match s.runningAt a b.length with
    | [] =>
      let n := 0x1000 - a % 0x1000
      match State.sendDelta (0x3100000000 + a) (b.take n) (s.tablePart a (b.take n)) with
      | (.ok, t) => State.sendDelta (0x3100000000 + a + n) (b.drop n) (t.tablePart (a + n) (b.drop n))
      | r => r
    | ns => refuse .wrongMode (s.forEach ns fun k t => t.on (Fd.BOB_STAT_PRICK_WERR k))
  | st => refuse st s

/-- A pricking row of bad parity is among the offsets (08 R205). -/
def State.badRows (s : State) (l : List Nat) : Bool := l.any fun o => decide (o < 0x40000) && s.mark (0x3100000000 + o) != 0

/-- A READ of the table row: a pricking row of bad parity answers POISONED (08 R205), a whole receive object that it covers loses
NEW (09 R237). -/
def State.readTable (a n : Nat) (s : State) : Status × List Byte × State :=
  match rowCheck a n tableAt with
  | .ok =>
    if (offsets a n).any fun o => s.unitDown (0x3100000000 + o) then
      let r := refuse .targetReset s
      (r.1, [], r.2)
    else if s.badRows (offsets a n) then
      let r := refuse .poisoned s
      (r.1, [], r.2)
    else
      let l := s.readBytes (0x3100000000 + a) n
      let c := (a - 0x100000) / 0x10000
      let o := (a - 0x100000) % 0x10000
      if 0x100000 ≤ a ∧ a < 0x180000 then
        let ks := (List.range 5).filterMap fun i =>
          let k := (o + 79) / 80 + i
          if 80 * k + 80 ≤ o + n then some k else none
        (.ok, l, s.forEach ks fun k t => t.clearNew c k)
      else (.ok, l, s)
  | st =>
    let r := refuse st s
    (r.1, [], r.2)

/-! ### Commands that reach registers as such -/

/-- A write to the register or table row by a local initiator. -/
def State.localWrite (a : Nat) (data : List Byte) (s : State) : Res :=
  if 0x3000000000 ≤ a ∧ a < 0x3001000000 then s.writeRow (a - 0x3000000000) data none
  else if 0x3100000000 ≤ a ∧ a < 0x3101000000 then s.writeTable (a - 0x3100000000) data
  else refuse .unmapped s

/-- A state with the firmware's own writes admitted in Load (16 R406). -/
def State.asFirmware (on : Bool) (s : State) : State := { s with boot := { s.boot with applying := on } }

/-- REGISTER_WRITE by an initiator: in Load the control processor's writes are the firmware's (R406). A write that starts a churn
handover completes with it (15 R377). -/
def State.registerWrite (init a : Nat) (data : List Byte) (s : State) : State :=
  if s.anat.kaHeld then s
  else if s.anat.mainHeld then answer (refuse .targetReset s)
  else
    let r := (s.asFirmware (init == 0 && s.mode == .load)).localWrite a data
    let t := r.2.asFirmware s.boot.applying
    if r.1 = .ok ∧ s.hand.length < t.hand.length then t else t.emit (.answer r.1)

/-- REGISTER_WRITE. -/
def execRegisterWrite (init : Fin 3) (a : BitVec 40) (data : List Byte) (s : State) : Host.Outcome State Fault Refusal :=
  .next (s.registerWrite init.val a.toNat data)

/-- A 4-byte read of one register as a command of its own. -/
def State.readOne (off : Nat) (s : State) : State :=
  s.query none (State.readRow off 4)

/-- STICKY_PEAK_READ. -/
def execStickyPeakRead (offset : BitVec 24) (s : State) : Host.Outcome State Fault Refusal := .next (s.readOne offset.toNat)

/-- PAIR_LO_READ. -/
def execPairLoRead (offset : BitVec 24) (s : State) : Host.Outcome State Fault Refusal := .next (s.readOne offset.toNat)

/-- PWR_LINK_ACCESS: a write of one PWR register, or a read (13 R343). -/
def execPwrLinkAccess (off : BitVec 16) (write : Option Word) (s : State) : Host.Outcome State Fault Refusal :=
  .next (match write with
    | none => s.readOne (0xF0000 + off.toNat)
    | some w => s.registerWrite 0 (0x30000F0000 + off.toNat) (leBytes 4 w.toNat))

/-- DOORBELL_IN. -/
def execDoorbellIn (w : Word) (s : State) : Host.Outcome State Fault Refusal := .next (s.command none fun t => t.doorbell w)

/-- STATE_DELTA: the standby applies the register and table writes of its partner; one that its own rules refuse has no effect
(14 R353). -/
def execStateDelta (writes : List (BitVec 40 × List Byte)) (s : State) : Host.Outcome State Fault Refusal :=
  .next (if s.mode = .standby then
      s.forEach writes fun w t => (t.localWrite w.1.toNat w.2).2
    else s)

end Sys2Proof.Machine
end

