-- ==== Sys2Proof/Machine/Boot.lean ====
section
/-!
DEFINITION. From ROM to service (16_start_up_modes_and_drowse.md R399 to R409): the firmware image, DRAM training, and the
configuration: choice, migration, checks, application, and the mode that it leads to.
-/

namespace Sys2Proof.Machine

/-! ### The firmware image (R399, R400) -/

/-- Offset of the image of the slot at `a`, behind its manifest. -/
def State.slotImage (s : State) (a : Nat) : Nat := a + 4096 * (s.manifestAt a).manChunks

/-- The first `n` chunks of the slot at `a` have the hashes of its manifest. -/
def State.chunksOk (s : State) (a n : Nat) : Bool :=
  (List.range n).all fun i => sha256 (s.nvBytes (s.slotImage a + 4096 * i) 4096) == s.nvBytes (a + 128 + 32 * i) 32

/-- The chosen slot. -/
def State.bootSlot (s : State) : Nat := fwSlot (s.fld Fd.SYS_BOOT_STAT_SLOT)

/-- ROM has chosen a bootable slot. -/
def State.slotChosen (s : State) : Bool :=
  s.boot.rom && !s.anat.kaHeld && !s.anat.mainHeld &&
    (if s.fld Fd.SYS_BOOT_STAT_SLOT = 0 then s.flag Fd.SYS_BOOT_STAT_SLOT0_OK else s.flag Fd.SYS_BOOT_STAT_SLOT1_OK)

/-- The firmware starts: its first 4 MiB stand in the churns, the first 448 KiB in the control processor's SRAM. Load is entered,
the watchdog runs, an open update session goes on (R399, R416, 17 R430). -/
def State.startFirmware (s : State) : State :=
  let m := s.manifestAt s.bootSlot
  let l := s.nvBytes (s.slotImage s.bootSlot) (min 0x400000 m.imgLen)
  let sram := ((List.range 0x70000).zip l).filter fun e => e.2 != 0#8
  let s := (s.writeBytes 0x1000000000 l).wr Reg.SYS_FW_VERSION (BitVec.ofNat 32 m.version)
  let s : State := { s with boot := { s.boot with rom := false, sram } }
  ((s.changeMode .load).restartWdog).resumeSession

/-- ROM_IMAGE_LOAD: a chunk that fails its check ends the attempt as failed, and ROM starts again. The part beyond 4 MiB, which the
firmware loads in Load under the same checks, is checked with the rest (log 171). -/
def execRomImageLoad (s : State) : Host.Outcome State Fault Refusal :=
  .next (if !s.slotChosen then s
    else if s.chunksOk s.bootSlot (s.manifestAt s.bootSlot).chunks then s.startFirmware
    else (s.bumpFld Fd.SYS_BOOT_STAT_FAIL_RUN 1).romStart s.boot.slots)

/-- DRAM_TRAINING_DONE. -/
def execDramTrainingDone (s : State) : Host.Outcome State Fault Refusal :=
  .next (if s.mode != .load || s.anat.mainHeld || s.anat.kaHeld then s
    else
      State.off Fd.MEM_MEM_STAT_SELF_REFRESH
        { s.on Fd.MEM_MEM_STAT_TRAINED with anat := { s.anat with dramSelfRefresh := false } })

/-! ### The choice of a configuration (R401 to R403) -/

/-- What a configuration image says of itself. -/
structure CfgHead where
  slot : Nat
  format : Nat
  ring : Nat
  node : Nat
  revision : Nat
  startRing : Bool
  td80 : Bool
  deriving DecidableEq, Repr

/-- The header of the image in configuration slot `k` (R401). -/
def State.cfgHead (s : State) (k : Nat) : CfgHead :=
  let h := s.slotImage (cfgSlot k)
  { slot := k, format := s.nvLe (h + 4) 1, ring := s.nvLe (h + 6) 2 / 1024, node := s.nvLe (h + 6) 2 / 2 % 512,
    revision := s.nvLe (h + 8) 4, startRing := s.nvLe (h + 5) 1 / 2 % 2 == 1, td80 := false }

/-- Configuration slot `k` is usable (R402): `good` is the verdict on its signature or device tag. -/
def State.cfgUsable (s : State) (k fmax : Nat) (good : Bool) : Bool :=
  let a := cfgSlot k
  let m := s.manifestAt a
  let h := s.slotImage a
  let migrated := s.nvLe (h + 5) 1 % 2 == 1
  good && m.wellFormed 2 && m.sizeOk && s.nvLe h 4 == 0x4643564F && decide (1 ≤ s.nvLe (h + 4) 1 ∧ s.nvLe (h + 4) 1 ≤ fmax) &&
    decide (s.nvLe (h + 12) 4 ≤ 0x100000) && (m.sigKind == 0 || (m.sigKind == 1 && migrated)) && s.chunksOk a m.chunks

/-- A TD-80 image stands in slot `k` (R403). -/
def State.td80At (s : State) (k : Nat) : Bool := s.nvBytes (cfgSlot k) 4 == [0x7D#8, 0x80#8, 0x5A#8, 0xC3#8]

/-- What is taken from it: ring at byte 0x10, node at 0x12 and 0x13, big-endian; ring service; REVISION 0. -/
def State.td80Head (s : State) (k : Nat) : CfgHead :=
  { slot := k, format := 0, ring := s.nvLe (cfgSlot k + 0x10) 1, node := beVal (s.nvBytes (cfgSlot k + 0x12) 2), revision := 0,
    startRing := true, td80 := true }

/-- The usable slot with the higher REVISION; on a tie one in FORMAT_MAX, then slot 0; without one a TD-80 image (R402). -/
def State.chooseCfg (s : State) (c : ConfigChoice) : Option CfgHead :=
  let fmax := c.formatMax.toNat
  let u0 := s.cfgUsable 0 fmax c.slot0.authentic
  let u1 := s.cfgUsable 1 fmax c.slot1.authentic
  let h0 := s.cfgHead 0
  let h1 := s.cfgHead 1
  if u0 && u1 then
    some (if h0.revision < h1.revision ∨ (h0.revision = h1.revision ∧ h1.format = fmax ∧ h0.format ≠ fmax) then h1 else h0)
  else if u0 then some h0
  else if u1 then some h1
  else if s.td80At 0 then some (s.td80Head 0)
  else if s.td80At 1 then some (s.td80Head 1)
  else none

/-! ### Migration (R403) -/

/-- The content of a configuration slot after migration: a manifest with SIG_KIND 1 and the device tag over the image digest, then
the image in FORMAT_MAX with MIGRATED = 1. -/
def migratedSlot (h : CfgHead) (fmax : Nat) (body : List Byte) : List Byte :=
  let id := leBytes 2 (h.ring * 1024 + h.node * 2)
  let image := [0x4F#8, 0x56#8, 0x43#8, 0x46#8, BitVec.ofNat 8 fmax, (if h.startRing then 3#8 else 1#8)] ++ id ++
    leBytes 4 h.revision ++ leBytes 4 (16 + body.length) ++ body
  let n := (image.length + 4095) / 4096
  let man := (192 + 32 * n + 4095) / 4096
  let chunks := image ++ List.replicate (4096 * n - image.length) 0xFF#8
  let head := [0x4F#8, 0x56#8, 0x4D#8, 0x46#8, 1#8, 2#8, 0#8, 1#8] ++ leBytes 4 h.revision ++ leBytes 4 image.length ++
    leBytes 2 n ++ leBytes 2 man ++ id ++ [0#8, 0#8] ++ List.replicate 104 0#8 ++
    (List.range n).flatMap fun i => sha256 ((chunks.drop (4096 * i)).take 4096)
  let d := sha256 head
  let m := head ++ (List.range 32).map (Config.deviceTag d) ++ List.replicate 32 0#8
  m ++ List.replicate (4096 * man - m.length) 0xFF#8 ++ chunks

/-- A migrated image is written into the other configuration slot; a failed read-back sets WRITEBACK_FAIL and changes nothing
else. -/
def State.writeBack (h : CfgHead) (c : ConfigChoice) (s : State) : State :=
  let a := cfgSlot (1 - h.slot)
  let l := migratedSlot h c.formatMax.toNat c.migrated
  if c.writeBackOk ∧ l.length ≤ 0x100000 then (s.nvErase a 0x100000).nvPut a l else s.on Fd.SYS_CFG_STAT_WRITEBACK_FAIL

/-! ### The checks of R404 -/

/-- CHECK and INDEX of the check that a setting at local address `a` fails. -/
def State.conflictOf (s : State) (a : Nat) (w : Word) : Nat × Nat :=
  let o := a - 0x3000000000
  if windowBase ≤ a ∧ a < windowBase + 512 then (0x08, (a - windowBase) / 16)
  else if a < 0x3000000000 ∨ 0x3001000000 ≤ a then (0x0C, a % 2 ^ 24)
  else if 0x80000 ≤ o ∧ o < 0x84000 ∧ 0x20 ≤ o % 0x100 ∧ o % 0x100 < 0x40 then
    let n := (o - 0x80000) / 0x100
    (0x02, n * 8 + (o % 0x100 - 0x20) / 4)
  else if 0x80000 ≤ o ∧ o < 0x84000 ∧ o % 0x100 = 0x50 then (0x03, (o - 0x80000) / 0x100)
  else if o = 0x40000 then (0x05, bits w 0 4)
  else if o = 0x40010 then (0x04, bits w 24 5)
  else if 0x40100 ≤ o ∧ o < 0x40500 then (0x04, (o - 0x40100) / 0x20)
  else if 0x40800 ≤ o ∧ o < 0x40C00 then (0x04, 0x100 + (o - 0x40800) / 0x10)
  else if 0x110100 ≤ o ∧ o < 0x110140 then (0x05, (o - 0x110100) / 4)
  else if 0x60000 ≤ o ∧ o < 0x60010 then (0x06, 0)
  else if 0x30010 ≤ o ∧ o < 0x30040 ∧ o % 0x10 = 0 then (0x07, 0)
  else if 0xC0400 ≤ o ∧ o < 0xC0800 then (0x09, (o - 0xC0400) / 0x40)
  else if o = 0x140000 ∧ s.twinEn = true ∧ bits w 14 2 ≠ 0 then (0x0B, 0)
  else (0x0C, o)

/-- The branch whose BR_CTL stands at local address `a`. -/
def branchCtl (a : Nat) : Option Nat :=
  if 0x30000F1000 ≤ a ∧ a < 0x30000F2000 ∧ a % 0x100 = 0 then some ((a - 0x30000F1000) / 0x100) else none

/-- One of the firmware's writes in Load. BR_CTL is written without its ON (13 R346). -/
def State.loadWrite (a : Nat) (b : List Byte) (s : State) : Res :=
  match branchCtl a with
  | none => s.localWrite a b
  | some n =>
    let t := s.keepWrite n ((b.headD 0#8).getLsbD 3)
    if b.length ≤ 4 then (.ok, t) else t.localWrite (a + 4) (b.drop 4)

/-- The firmware's writes in Load, in the order of application (R406); the first that a rule refuses is a failed check. A write that the
power die or its link turns away is none: the die keeps what it holds (13 R343, R348, log 134). -/
def State.applySettings : List (BitVec 40 × List Byte) → State → Option (Nat × Nat) × State
  | [], s => (none, s)
  | (a, b) :: l, s =>
    match s.loadWrite a.toNat b with
    | (.ok, t) => State.applySettings l t
    | (st, t) =>
      if st = .wrongMode ∧ dieReg (a.toNat - 0x30000F0000) = true ∧ 0x30000F0000 ≤ a.toNat ∧ a.toNat < 0x3000100000 then
        State.applySettings l t
      else (some (s.conflictOf a.toNat (BitVec.ofNat 32 (leVal (b.take 4)))), s)

/-- The branches that the settings have on, ascending, each with its HOLD_KEEP (13 R346). -/
def branchesSet (l : List (BitVec 40 × List Byte)) : List (Nat × Bool) :=
  (List.range 16).filterMap fun n =>
    match l.reverse.find? (fun e => branchCtl e.1.toNat == some n) with
    | some e => if (e.2.headD 0#8).getLsbD 0 then some (n, (e.2.headD 0#8).getLsbD 3) else none
    | none => none

/-- Identity ranges of 00 R5. -/
def CfgHead.idOk (h : CfgHead) : Bool := decide (1 ≤ h.ring ∧ h.ring ≤ 63 ∧ 1 ≤ h.node ∧ h.node ≤ 510)

/-- RING_ID from the header. -/
def State.setIdentity (ring node : Nat) (s : State) : State :=
  (s.setFld Fd.WARDEN_RING_ID_RING ring).setFld Fd.WARDEN_RING_ID_NODE node

/-- The image applied: the failed check, or the state with every setting in force. -/
def State.applyImage (h : CfgHead) (c : ConfigChoice) (s : State) : Option (Nat × Nat) × State :=
  if !h.idOk then (some (0x0A, 0), s)
  else if !h.td80 && c.dramSize == 3#2 then (some (0x0C, Reg.MEM_MEM_CFG), s)
  else
    let l := if h.td80 then [] else if h.slot = 0 then c.slot0.settings else c.slot1.settings
    let t := (s.setIdentity h.ring h.node).asFirmware true
    let t := t.onlyIf (!h.td80) (State.setFld Fd.MEM_MEM_CFG_SIZE c.dramSize.toNat)
    match t.applySettings l with
    | (none, u) =>
      match u.loadClash with
      | some n => (some (0x01, n), u)
      | none =>
        if u.twinEn && u.fld Fd.WARDEN_RING_CTL_ROLE != 0 then (some (0x0B, 0), u)
        else (none, (u.endCold (branchesSet l)).asFirmware false)
    | r => r

/-! ### The mode that Load leads to (R400, R404, R407, R409, 17 R420) -/

/-- The attempt succeeds. -/
def State.bootSuccess (s : State) : State := s.off Fd.SYS_BOOT_STAT_FAIL_RUN

/-- Firmware with ADVANCE blows the fuses up to its epoch when it first reaches a configured mode (17 R420). -/
def State.advanceEpoch (s : State) : State :=
  let m := s.manifestAt s.bootSlot
  s.onlyIf (m.advance && decide (s.fusedEpoch < m.epoch)) (State.setFld Fd.UPD_EPOCH_FUSED m.epoch)

/-- A twin package enters Standby; evidence for START counts from here (14 R356, R357). -/
def State.enterStandby (s : State) : State :=
  let s := (s.setTwinState 1).changeMode .standby
  (s.setTwin { s.twin with enteredAt := some s.clk }).noteReady

/-- No usable image, or a failed check: Isolated with no setting applied and the pins off (R402, R404, 07 R178). -/
def State.enterBare (s : State) : State := (s.pinsOff.changeMode .isolated).bootSuccess

/-- The configured mode: Standby for a twin package, else by START_MODE. -/
def State.enterConfigured (startRing : Bool) (s : State) : State :=
  let s : State := { s with boot := { s.boot with startRing } }
  if s.twinEn then s.enterStandby else s.changeMode (if startRing then s.pathModeMode else .isolated)

/-- The next attempt ends in Pass-through (R409): a twin package drives nothing there. -/
def State.enterSafeHold (startRing : Bool) (s : State) : State :=
  let s : State := { s with boot := { s.boot with startRing, safeNext := false } }
  let s := ((s.changeMode .passThrough).on Fd.SYS_MODE_STAT_SAFE_HOLD).bump Reg.SYS_SAFE_HOLD_CNT
  s.onlyIf s.twinEn fun t => t.releaseOutputs.setTwinState 5

/-- CFG_STAT of the image read (R401, R403). -/
def State.noteCfg (h : CfgHead) (migrated : Bool) (s : State) : State :=
  let s := (s.setFld Fd.SYS_CFG_STAT_SLOT h.slot).setFld Fd.SYS_CFG_STAT_FORMAT h.format
  (s.setFlag Fd.SYS_CFG_STAT_MIGRATED migrated).setFlag Fd.SYS_CFG_STAT_TD80 h.td80

/-- DIGEST: the first 8 bytes of the digest of the applied image (14 R352). -/
def State.noteDigest (h : CfgHead) (s : State) : State :=
  if h.td80 then s
  else
    let a := cfgSlot h.slot
    let d := sha256 (s.nvBytes a (128 + 32 * (s.manifestAt a).chunks))
    s.wr64 Reg.TWIN_DIGEST_LO Reg.TWIN_DIGEST_HI (leVal (d.take 8))

/-- The firmware chooses, checks and applies a configuration, and the node takes up its mode. -/
def State.configApply (c : ConfigChoice) (s : State) : State :=
  let s := s.setFld Fd.SYS_CFG_STAT_FORMAT_MAX c.formatMax.toNat
  match s.chooseCfg c with
  | none => ((s.on Fd.SYS_CFG_STAT_CONFIG_MISSING).setIdentity 0 0).enterBare.advanceEpoch
  | some h =>
    let migrate := h.td80 || h.format < c.formatMax.toNat
    let s := s.noteCfg h migrate
    match s.applyImage h c with
    | (some (check, index), _) =>
      let s := (s.on Fd.SYS_CFG_STAT_CONFIG_CONFLICT).wr Reg.SYS_CONFLICT_INFO (BitVec.ofNat 32 (check * 2 ^ 24 + index))
      s.enterBare.advanceEpoch
    | (none, t) =>
      let t := ((t.noteDigest h).wr Reg.SYS_CFG_REV (BitVec.ofNat 32 h.revision)).onlyIf migrate (State.writeBack h c)
      if t.boot.safeNext then (t.enterSafeHold h.startRing).bootSuccess
      else (t.enterConfigured h.startRing).bootSuccess.advanceEpoch

/-- CONFIG_APPLY: the firmware in Load, with the DRAM trained. -/
def execConfigApply (c : ConfigChoice) (s : State) : Host.Outcome State Fault Refusal :=
  .next (if s.mode != .load || s.anat.mainHeld || s.anat.kaHeld || !s.flag Fd.MEM_MEM_STAT_TRAINED then s else s.configApply c)

end Sys2Proof.Machine
end

