-- ==== Sys2Proof/Machine/Txn.lean ====
section
/-!
DEFINITION. The transaction engine (05_one_address_space.md): the checks of R121 at the target, execution in memory, registers,
tables and on the stitch bus, locks, CAS and FADD; and the initiators, with their permissions, tags, time-outs, completions and
NOTICEs, and the request messages of the USB tunnel (11 R283).
-/

namespace Sys2Proof.Machine

/-! ### Rights (R137 to R141) -/

/-- The rights that a kind needs: R 1, W 2, L 4, A 8 (R137). -/
def rightsOf : ReqKind → Nat
  | .read => 1
  | .write => 2
  | .pwrite => 2
  | .lread => 5
  | .lwrite => 6
  | .cas => 8
  | .fadd => 8

/-- Every right needed is among those given. -/
def grants (given need : Nat) : Bool := given &&& need == need

/-- The access windows that a request decided under epoch `e` meets (R138): the oldest contents not given up before `e`, else the
present ones. -/
def State.windowsAt (s : State) (e : BitVec 16) : List Byte :=
  match (s.txn.oldWin.filter fun o => decide ((s.epoch - o.1).toNat ≤ (s.epoch - e).toNat)).getLast? with
  | some o => o.2
  | none => s.readBytes windowBase 512

/-- Whether a window entry accepts a request (R137, R139). -/
def State.windowTakes (s : State) (k : ReqKind) (q : Request) (e : List Byte) : Bool :=
  match wordsLe e with
  | [w0, w1, w2, w3] =>
    let a := q.addr.toNat
    w0.getLsbD 31 && decide (bits w0 0 28 * 4096 ≤ a) && decide (a + q.bytes.toNat ≤ (bits w1 0 28 + 1) * 4096) &&
      (w2.getLsbD 26 || q.srcRing.toNat == (if bits w2 20 6 = 0 then s.ownRing else bits w2 20 6)) &&
      decide (bits w2 0 9 ≤ q.srcNode.toNat) && decide (q.srcNode.toNat ≤ bits w2 9 9) && grants (bits w3 0 4) (rightsOf k)
  | _ => false

/-- One enabled window accepts the request. -/
def State.windowGrants (s : State) (k : ReqKind) (q : Request) : Bool :=
  let t := s.windowsAt q.epoch
  (List.range 32).any fun i => s.windowTakes k q ((t.drop (16 * i)).take 16)

/-- The egress rule of initiator `i` (R141). -/
def State.egress (s : State) (i : Nat) (k : ReqKind) (ring node : Nat) : Bool :=
  s.flag (Fd.TXN_INIT_CFG_UNRESTRICTED i) || (List.range 8).any fun j =>
    let w := s.rd (Reg.TXN_EGR i j)
    let given := bits w 30 1 + 2 * bits w 29 1 + 4 * bits w 28 1 + 8 * bits w 27 1
    w.getLsbD 31 && (w.getLsbD 26 || ring == (if bits w 20 6 = 0 then s.ownRing else bits w 20 6)) &&
      decide (bits w 0 9 ≤ node) && decide (node ≤ bits w 9 9) && grants given (rightsOf k)

/-! ### Checks at the target (R121) -/

/-- The stitch region takes requests: the bridge serves in this mode and is enabled (10 R265, R267). -/
def State.stitchOpen (s : State) : Bool :=
  (s.onRing || s.mode == .isolated) && s.flag Fd.STB_STB_CTL_EN && !s.flag Fd.STB_STB_CTL_RST_OUT

/-- Check 4: a unit in reset, and the unit state of the stitch region (R3, 01 R25). -/
def State.stateCheck (s : State) (a : Nat) : Status :=
  if s.unitDown a then .targetReset
  else if 0x2000000000 ≤ a ∧ a < 0x3000000000 ∧ s.stitchOpen = false then .wrongMode
  else .ok

/-- Check 5: the local map (R113, R115). -/
def State.mapCheck (s : State) (a n : Nat) : Status :=
  match s.region a with
  | .none => .unmapped
  | .stitch .none => .unmapped
  | r =>
    if s.region (a + n - 1) ≠ r then .badRequest
    else
      match r with
      | .regs => rowCheck (a - 0x3000000000) n blockAt
      | .tables => rowCheck (a - 0x3100000000) n tableAt
      | _ => .ok

/-- A kind among READ, WRITE and PWRITE. -/
def plainKind (k : ReqKind) : Bool := k == .read || k == .write || k == .pwrite

/-- Check 6: the rules of the region (R114, R1). -/
def State.regionCheck (s : State) (k : ReqKind) (q : Request) : Status :=
  match s.region q.addr.toNat with
  | .reserved => if s.ownReq q && q.init == 0#4 then .ok else .denied
  | .churn n => (s.churnRefusal n (s.ownerCode q)).getD .ok
  | .stitch (some m) =>
    if plainKind k || ((k == .lread || k == .lwrite) && m.lockable) then .ok else .badRequest
  | .regs => if plainKind k then .ok else .badRequest
  | .tables => if plainKind k then .ok else .badRequest
  | .identity => if k = .read then .ok else if k = .write ∨ k = .pwrite then .denied else .badRequest
  | _ => .ok

/-- A lock touches `n` bytes at `a`. -/
def Lock.touches (l : Lock) (a n : Nat) : Bool := decide (a < l.hi ∧ l.lo < a + n)

/-- `n` bytes at `a` lie inside a lock's range. -/
def Lock.covers (l : Lock) (a n : Nat) : Bool := decide (l.lo ≤ a ∧ a + n ≤ l.hi)

/-- Lock `k` is gone. -/
def State.releaseLock (k : Nat) (s : State) : State :=
  let s := s.onlyIf (s.txn.locks.any fun l => l.1 == k && l.2.stitch) State.dropStitchLock
  State.cancel (.lock k) { s with txn := { s.txn with locks := s.txn.locks.filter fun l => l.1 != k } }

/-- Check 7: locks (R125 to R127). An LWRITE outside its holder's locks releases the oldest of them; a stitch lock so released
counts as released without its LWRITE (10 R268). -/
def State.lockCheck (k : ReqKind) (q : Request) (s : State) : Res :=
  let a := q.addr.toNat
  let n := q.bytes.toNat
  let other := s.txn.locks.any fun l => !l.2.holds q && l.2.touches a n
  let mine := s.txn.locks.filter fun l => l.2.holds q
  match k with
  | .read => (.ok, s)
  | .lread =>
    if other || decide (8 ≤ s.txn.locks.length) then (.busy, s)
    else if mine.any fun l => l.2.touches a n then refuse .badRequest s
    else (.ok, s)
  | .lwrite =>
    match mine with
    | [] => (.lockBroken, s.bump Reg.TXN_LOCK_BROKEN_CNT)
    | l :: _ => if mine.any fun l => l.2.covers a n then (.ok, s) else refuse .badRequest ((s.onlyIf l.2.stitch State.noteBrk).releaseLock l.1)
  | _ => if other then (.busy, s) else (.ok, s)

/-- Checks 2 to 7 in their order; each counts its refusal (R121). -/
def State.checks (k : ReqKind) (q : Request) (s : State) : Res :=
  if !formatOk k q then refuse .badRequest s
  else if !s.ownReq q && !s.windowGrants k q then (.denied, s.bump Reg.TXN_WIN_DENIED)
  else
    match s.stateCheck q.addr.toNat with
    | .ok =>
      match s.mapCheck q.addr.toNat q.bytes.toNat with
      | .ok =>
        match s.regionCheck k q with
        | .ok => s.lockCheck k q
        | st => refuse st s
      | st => refuse st s
    | st => refuse st s

/-! ### Execution (R121 check 8, R124 to R128) -/

/-- An LREAD of memory takes its lock: the aligned 64-byte blocks it touches, for 20 µs (R125). -/
def State.takeLock (q : Request) (s : State) : State :=
  match s.freeLock with
  | none => s
  | some k =>
    let l : Lock :=
      { ring := q.srcRing, node := q.srcNode, init := q.init, cls := q.cls, flow := q.flow, lo := q.addr.toNat / 64 * 64,
        hi := ((q.addr.toNat + q.bytes.toNat - 1) / 64 + 1) * 64, stitch := false }
    State.arm (.lock k) (20 * usPs) { s with txn := { s.txn with locks := s.txn.locks ++ [(k, l)] } }

/-- An LWRITE executed inside a lock releases it (R127). -/
def State.endLock (q : Request) (s : State) : State :=
  match s.txn.locks.find? fun l => l.2.holds q && l.2.covers q.addr.toNat q.bytes.toNat with
  | some l => s.releaseLock l.1
  | none => s

/-- Execution in DRAM, a churn or the host window: the status, the data to return, and the state. -/
def State.memExec (k : ReqKind) (q : Request) (ups : List Upset) (s : State) : Status × List Byte × State :=
  let a := q.addr.toNat
  let n := q.bytes.toNat
  match k with
  | .read => s.memRead a n ups
  | .lread =>
    match s.memRead a n ups with
    | (.ok, l, t) => (.ok, l, t.takeLock q)
    | r => r
  | .lwrite =>
    match s.memWrite a q.data ups with
    | (.ok, t) => (.ok, [], t.endLock q)
    | (st, t) => (st, [], t)
  | .cas =>
    match s.memRead a n ups with
    | (.ok, l, t) => (.ok, l, t.onlyIf (l == q.data.take n) (State.memPut a (q.data.drop n)))
    | r => r
  | .fadd =>
    match s.memRead a n ups with
    | (.ok, l, t) => (.ok, l, t.memPut a (leBytes n (leVal l + leVal q.data)))
    | r => r
  | _ =>
    let (st, t) := s.memWrite a q.data ups
    (st, [], t)

/-- A request ends: its completion with data, or its failure. -/
def State.finish (k : ReqKind) (q : Request) (r : Status × List Byte × State) : State :=
  match r with
  | (.ok, l, s) => s.complete1 k q .ok l
  | (st, _, s) => State.fail k q (st, s)

/-- A write to the register row ends: at once, or with the churn handovers that it has started (15 R377). -/
def State.finishWrite (k : ReqKind) (q : Request) (r : Res) : State :=
  let held := r.2.hand.any fun h => h.2.req == some (k, q)
  match r with
  | (.ok, s) => if held then s else s.complete1 k q .ok []
  | (st, s) =>
    State.fail k q (st, { s with hand := s.hand.map fun h => (h.1, if h.2.req == some (k, q) then { h.2 with req := none } else h.2) })

/-- Check 8: execution in the region of the address. A stitch request goes to the bridge and keeps its entry. -/
def State.execute (k : ReqKind) (q : Request) (ups : List Upset) (s : State) : State :=
  let a := q.addr.toNat
  let n := q.bytes.toNat
  match s.region a with
  | .stitch (some m) => s.toBridge k q m
  | .regs =>
    let s := s.leaveServe k q
    if k = .read then State.finish k q (s.readRow (a - 0x3000000000) n)
    else State.finishWrite k q (s.writeRow (a - 0x3000000000) q.data (some (k, q)))
  | .tables =>
    let s := s.leaveServe k q
    if k = .read then State.finish k q ((s.addUpsets ups).readTable (a - 0x3100000000) n)
    else State.finishWrite k q (s.writeTable (a - 0x3100000000) q.data)
  | .identity =>
    State.finish k q (.ok, ((idBytes (s.fld Fd.UPD_EPOCH_FUSED) 4096).drop (a - 0x3FF0000000)).take n, s.leaveServe k q)
  | _ =>
    match (s.leaveServe k q).memExec k q ups with
    | (.ok, l, t) => t.complete1 k q .ok l
    | (st, _, t) => State.fail k q (refuse st t)

/-- The order of a flow (R134): an earlier request of the flow is not yet executed or refused. -/
def State.waits (s : State) (k : ReqKind) (q : Request) : Bool :=
  let same := fun (x : Request) =>
    x.srcRing == q.srcRing && x.srcNode == q.srcNode && x.init == q.init && x.cls == q.cls && x.flow == q.flow
  let stitch := decide (0x2000000000 ≤ q.addr.toNat ∧ q.addr.toNat < 0x3000000000) && plainKind k
  (s.txn.serve.takeWhile fun e => e != (k, q)).any (fun e => same e.2) ||
    (!s.txn.serve.contains (k, q) && s.txn.backlog.any fun e => same e.2) ||
    (!stitch && (s.stb.queue ++ s.stb.waiting).any fun e => same e.req) ||
    s.hand.any fun h => (h.2.req.map fun e => same e.2).getD false

/-- A request that holds its serve entry is checked and executed, or refused. -/
def State.judge (k : ReqKind) (q : Request) (ups : List Upset) (s : State) : State :=
  match s.checks k q with
  | (.ok, t) => t.execute k q ups
  | (st, t) => State.fail k q (st, t.leaveServe k q)

/-- Requests of this node that are served outside field service: the firmware's in Load and in Pass-through (16 R406). -/
def State.servesOwn (s : State) (q : Request) : Bool :=
  s.ownReq q && q.init == 0#4 && (s.mode == .load || s.mode == .passThrough) && !s.anat.mainHeld && !s.anat.purging

/-- A request at its target (R121): the responder answers while the engine does not serve; a request that does not yet hold a serve
entry arrives first; one behind an earlier request of its flow waits. -/
def State.serveReq (k : ReqKind) (q : Request) (ups : List Upset) (s : State) : State :=
  if s.anat.kaHeld then s
  else if !s.serving && !s.servesOwn q then (s.leaveServe k q).respond k q
  else
    let s := s.pullBacklog
    let s := if (s.txn.serve ++ s.txn.backlog).contains (k, q) then s else s.arrive k q
    if !s.txn.serve.contains (k, q) || s.waits k q then s
    else ((s.asFirmware (s.mode == .load)).judge k q ups).asFirmware s.boot.applying

/-- READ. -/
def execRead (q : Request) (ups : List Upset) (s : State) : Host.Outcome State Fault Refusal := .next (s.serveReq .read q ups)
/-- WRITE. -/
def execWrite (q : Request) (ups : List Upset) (s : State) : Host.Outcome State Fault Refusal := .next (s.serveReq .write q ups)
/-- PWRITE. -/
def execPwrite (q : Request) (ups : List Upset) (s : State) : Host.Outcome State Fault Refusal := .next (s.serveReq .pwrite q ups)
/-- LREAD. -/
def execLread (q : Request) (ups : List Upset) (s : State) : Host.Outcome State Fault Refusal := .next (s.serveReq .lread q ups)
/-- LWRITE. -/
def execLwrite (q : Request) (ups : List Upset) (s : State) : Host.Outcome State Fault Refusal := .next (s.serveReq .lwrite q ups)
/-- CAS. -/
def execCas (q : Request) (ups : List Upset) (s : State) : Host.Outcome State Fault Refusal := .next (s.serveReq .cas q ups)
/-- FADD. -/
def execFadd (q : Request) (ups : List Upset) (s : State) : Host.Outcome State Fault Refusal := .next (s.serveReq .fadd q ups)

/-- LOCK_EXPIRY (R125, R127). -/
def execLockExpiry (k : Fin 8) (s : State) : Host.Outcome State Fault Refusal :=
  .next (s.expiry (.lock k.val) fun t => (t.releaseLock k.val).bump Reg.TXN_LOCK_EXPIRED)

/-! ### Initiators (R129 to R133, R141, R147) -/

/-- The lowest free tag (R129). -/
def State.freeTagNo (s : State) : Option Nat := (List.range 512).find? fun t => !(s.txn.tags.any fun e => e.1 == t)

/-- The node itself is addressed (R130); `ring` is the ring after 0 is replaced. -/
def State.ownDst (s : State) (ring node : Nat) : Bool := ring == s.ownRing && node == s.ownNode

/-- The checks at the initiator, in the order quiesce, format, mode, JOINED, exit, egress, tags. -/
def State.issueCheck (init : Nat) (k : ReqKind) (hi ring node cls : Nat) (s : State) : Res :=
  let own := s.ownDst ring node
  if s.anat.mainHeld || s.mode == .recovery || s.mode == .drowse then refuse .wrongMode s
  else if s.quiescing then (.busy, s)
  else if hi ≠ 0 ∨ cls = 7 ∨ (node = 511 ∧ k ≠ .pwrite) then refuse .badRequest s
  else if (init ≠ 0 ∧ (s.mode = .load ∨ s.mode = .passThrough)) ∨ (own = false ∧ s.onRing = false) then refuse .wrongMode s
  else if !own && !s.flag Fd.WARDEN_RING_STAT_JOINED then (.busy, s.bump Reg.TXN_QUOTA_BUSY)
  else if !own && (s.daFor ring node).isNone then refuse .unmapped s
  else if !s.egress init k ring node then (.denied, s.bump Reg.TXN_EGR_DENIED)
  else if k ≠ .pwrite ∧ (s.fld (Fd.TXN_INIT_CFG_QUOTA init) ≤ (s.rd (Reg.TXN_OUTST init)).toNat ∨ s.freeTagNo = none) then
    (.busy, s.bump Reg.TXN_QUOTA_BUSY)
  else (.ok, s)

/-- A request takes its tag (R129) and its time-out starts (R131). -/
def State.takeTag (t : Nat) (u : TagUse) (s : State) : State :=
  let s : State := { s with txn := { s.txn with tags := (t, u) :: s.txn.tags } }
  (s.setOutst u.init ((s.rd (Reg.TXN_OUTST u.init)).toNat + 1)).arm (.tagTimeout t) (s.fld (Fd.TXN_TIMEOUT_TIME u.init) * usPs)

/-- A refusal at the initiator: the completion names this node; a PWRITE has no completion message (11 R284). -/
def State.refuseIssue (init : Nat) (k : ReqKind) (bytes ttag : Nat) (r : Res) : State :=
  let u : TagUse := { quarantined := false, init, dstRing := BitVec.ofNat 6 r.2.ownRing, dstNode := BitVec.ofNat 9 r.2.ownNode,
                      kind := k, bytes, ttag }
  r.2.initCpl init none (if k = .pwrite then none else some u) r.1 []

/-- Issue a request with the payload of R118 (R129 to R133, R141). -/
def State.issue (init : Nat) (k : ReqKind) (hi ring node : Nat) (cls : BitVec 3) (flow : BitVec 6) (payload : List Byte)
    (ttag : Nat) (s : State) : State :=
  let ring := if ring = 0 then s.ownRing else ring
  let bytes := fieldBE payload 6 2 % 512
  match s.issueCheck init k hi ring node cls.toNat with
  | (.ok, s) =>
    let tag := if k = .pwrite then none else s.freeTagNo
    let u : TagUse := { quarantined := false, init, dstRing := BitVec.ofNat 6 ring, dstNode := BitVec.ofNat 9 node, kind := k,
                        bytes, ttag }
    let f := s.formFrame k.code cls flow (BitVec.ofNat 6 ring) (BitVec.ofNat 9 node) (BitVec.ofNat 9 (tag.getD 0)) 0#4 payload
    let s := match tag with
      | some t => s.takeTag t u
      | none => s
    if s.ownDst ring node then s.arrive k f.request else s.queueFrame f
  | r => State.refuseIssue init k bytes ttag r

/-- REQUEST_ISSUE: `dst` is a global address (R4). -/
def execRequestIssue (init : Fin 3) (k : ReqKind) (dst : BitVec 64) (bytes : BitVec 9) (size : BitVec 2) (data : List Byte)
    (cls : BitVec 3) (flow : BitVec 6) (s : State) : Host.Outcome State Fault Refusal :=
  .next (if s.anat.kaHeld then s
    else
      s.issue init.val k (dst.extractLsb' 55 9).toNat (dst.extractLsb' 49 6).toNat (dst.extractLsb' 40 9).toNat cls flow
        (beBytes 5 (dst.extractLsb' 0 40).toNat ++ [BitVec.ofNat 8 (init.val * 16 + size.toNat * 4)] ++ beBytes 2 bytes.toNat ++ data)
        0)

/-! ### Completions, time-outs and NOTICEs at the initiator (R131, R146) -/

/-- A frame leaves the inbox. -/
def State.takeInbox (f : Frame) (s : State) : State := { s with txn := { s.txn with inbox := s.txn.inbox.erase f } }

/-- CPL_RX: the tag matches and SRC is the request's DST, else the completion is late (R131). -/
def State.cplRx (f : Frame) (s : State) : State :=
  let s := s.takeInbox f
  if !s.serving then s
  else
    match s.txn.tags.lookup f.tag.toNat with
    | some u =>
      if u.quarantined || u.dstRing != f.srcRing || u.dstNode != f.srcNode then s.bump Reg.TXN_LATE_CPL
      else
        let st := Status.ofCode f.status.toNat
        (s.freeTag f.tag.toNat).initCpl u.init (some f.tag.toNat) (some u) st (if st = .ok then f.payload.take f.len.toNat else [])
    | none => s.bump Reg.TXN_LATE_CPL

/-- CPL_RX. -/
def execCplRx (f : Frame) (s : State) : Host.Outcome State Fault Refusal := .next (s.cplRx f)

/-- REQUEST_TIMEOUT. -/
def execRequestTimeout (t : BitVec 9) (s : State) : Host.Outcome State Fault Refusal :=
  .next (s.expiry (.tagTimeout t.toNat) fun u => (u.giveUpTag t.toNat .timeout).bump Reg.TXN_TIMEOUT_CNT)

/-- TAG_QUARANTINE_END. -/
def execTagQuarantineEnd (t : BitVec 9) (s : State) : Host.Outcome State Fault Refusal :=
  .next (s.expiry (.tagQuarantine t.toNat) (State.freeTag t.toNat))

/-- NOTICE_RX: it is counted, stored, and signalled to the initiator it names (R145, R146). -/
def State.noticeRx (f : Frame) (s : State) : State :=
  let s := s.takeInbox f
  let p := f.payload
  if !s.serving then s
  else if fieldBE p 0 1 ≠ 1 then s.bump Reg.WARDEN_RX_UNKNOWN
  else
    let s := (s.on Fd.TXN_EVT_LATE_ERR).bump Reg.TXN_NOTICE_RX
    let s := s.forEach (List.range 6) fun w t => t.wr (Reg.TXN_NOTICE_LAST w) (BitVec.ofNat 32 (leVal ((p.drop (4 * w)).take 4)))
    let init := fieldBE p 1 1 % 16
    if init = 1 then s.hostPend 1
    else if init = 2 then s.stationEvent 0x01 (fieldBE p 1 1 / 16)
    else s.irq 0x30000

/-- NOTICE_RX. -/
def execNoticeRx (f : Frame) (s : State) : Host.Outcome State Fault Refusal := .next (s.noticeRx f)

/-! ### Request messages of the tunnel and the mailbox (11 R283, R284, 15 R385) -/

/-- Issue the request message `b`: INIT is that of the sender; a reserved KIND, CLASS 7 and a LEN beyond a frame are answered
BAD_REQUEST. -/
def State.issueMsg (init : Nat) (b : List Byte) (s : State) : State :=
  let at_ := fun (i n : Nat) => leVal ((b.drop i).take n)
  let len := at_ 8 2
  let body := (b.drop 12).take len
  let payload := if 6 ≤ body.length then
      body.take 5 ++ [BitVec.ofNat 8 (init * 16 + fieldBE body 5 1 % 16)] ++ body.drop 6
    else body
  match reqKindOf (BitVec.ofNat 5 (at_ 1 1)) with
  | none => State.refuseIssue init .read 0 (at_ 2 2) (refuse .badRequest s)
  | some k =>
    if 1488 < len then State.refuseIssue init k 0 (at_ 2 2) (refuse .badRequest s)
    else s.issue init k 0 (at_ 4 2 / 1024) (at_ 4 2 / 2 % 512) (BitVec.ofNat 3 (at_ 6 1)) (BitVec.ofNat 6 (at_ 7 1)) payload (at_ 2 2)

/-- The whole messages at the head of the bytes received, in order (R283): update messages have steps of their own, a reserved TYPE is
skipped by its LEN. What is left makes no whole message yet. The first argument bounds the number of messages. -/
def State.tunnelParse : Nat → List Byte → State → List Byte × State
  | 0, b, s => (b, s)
  | n + 1, b, s =>
    let whole := 12 + leVal ((b.drop 8).take 2)
    if b.length < 12 ∨ b.length < whole then (b, s)
    else
      let ty := leVal (b.take 1)
      let s := if ty = 0x01 then s.issueMsg 2 (b.take whole)
        else if 0x10 ≤ ty ∧ ty ≤ 0x12 then s
        else s.bump Reg.USB_TUN_MSG_BAD
      State.tunnelParse n (b.drop ((whole + 3) / 4 * 4)) s

/-- A packet on EP3: its messages are taken as they become whole; a short packet ends the transfer, and what is left of a message then is
counted bad (R279, R283). -/
def State.tunnelPacket (bytes : List Byte) (s : State) : State :=
  let r := s.tunnelParse (s.usb.ep3.length + bytes.length) (s.usb.ep3 ++ bytes)
  if bytes.length < s.bulkMax then
    (r.2.setUsb { r.2.usb with ep3 := [] }).onlyIf (!r.1.isEmpty) (·.bump Reg.USB_TUN_MSG_BAD)
  else r.2.setUsb { r.2.usb with ep3 := r.1 }

/-- TUNNEL_MESSAGE: an OUT packet on EP3; while the buffer holds an unparsed packet it is answered NAK (R279). -/
def execTunnelMessage (p : TunnelPacket) (s : State) : Host.Outcome State Fault Refusal :=
  .next (if !s.fnReady then s
    else if !p.ready then s.emit (.usbNak 3)
    else (s.onlyIf s.highSpeed (·.emit (.usbNyet 3))).tunnelPacket p.bytes)

end Sys2Proof.Machine
end

