-- ==== Sys2Proof/Machine/Host.lean ====
section
/-!
DEFINITION. The host port and its mailbox (15_memories_and_queues.md R382 to R388): the host address space, void commands, collisions
and parity in the host window, mailbox words and completion messages, doorbells.
-/

namespace Sys2Proof.Machine

/-! ### Commands and their ends (R383, R384) -/

/-- A command ends void: `n` undefined bytes were returned, nothing else happened. Nothing is counted while the block is in reset. -/
def State.hostVoid (n : Nat) (s : State) : State :=
  let l := (List.range n).map fun i => Config.freeByte (s.freeCtr + i)
  let s : State := { s with freeCtr := s.freeCtr + n, host := { s.host with void := true } }
  (s.onlyIf (!s.anat.mainHeld) (State.bump Reg.HOST_VOID_CNT)).emit (.host true l)

/-- A command ends good and has returned bytes. -/
def State.hostGood (l : List Byte) (s : State) : State :=
  State.emit (.host false l) { s with host := { s.host with void := false } }

/-- A command of the host: its falling edge wakes a node in Drowse (R388); it is void while the port does not serve, and when it is
cut before its data (`whole` is false). -/
def State.hostCommand (n : Nat) (whole : Bool) (f : State → State) (s : State) : State :=
  if s.anat.kaHeld then s
  else
    let s := s.wakeSource Fd.SYS_DRW_WAKE_SRC_HOST false
    if s.hostServes && whole then f s else s.hostVoid n

/-! ### The mailbox: requests (R385) -/

/-- The mailbox takes the message whose LAST word has come. One whose length does not match its header is discarded and answered
BAD_REQUEST; one that is no request is discarded as R283 skips it (11 R283). MB_BAD_MSG counts both. -/
def State.mbTake (s : State) : State :=
  let b := s.host.req.flatMap fun w => leBytes 4 w.data.toNat
  let bad := s.host.dropped || decide (b.length ≠ (12 + leVal ((b.drop 8).take 2) + 3) / 4 * 4)
  let s : State := { s with host := { s.host with req := [], dropped := false } }
  if bad then State.refuseIssue 1 .read 0 (leVal ((b.drop 2).take 2)) (.badRequest, s.bump Reg.HOST_MB_BAD_MSG)
  else if b.head? ≠ some 1#8 then s.bump Reg.HOST_MB_BAD_MSG
  else s.issueMsg 1 b

/-- One word pushed; a full request queue drops it. -/
def State.mbWord (w : Word) (last : Bool) (s : State) : State :=
  let q := s.host.req
  let s : State := if 128 ≤ q.length then State.on Fd.HOST_H_STAT_MB_OVF { s with host := { s.host with dropped := true } }
    else { s with host := { s.host with req := q ++ [{ data := w, first := q.isEmpty, last }] } }
  if last then s.mbTake else s

/-- The words of a write to MB_PUSH: 8 bytes each. The first argument bounds their number. -/
def State.mbWords : Nat → List Byte → State → State
  | 0, _, s => s
  | n + 1, b, s =>
    if b.length < 8 then s
    else State.mbWords n (b.drop 8) (s.mbWord (BitVec.ofNat 32 (leVal (b.take 4))) ((b.getD 4 0#8).getLsbD 2))

/-! ### The mailbox: completions (R386) -/

/-- Pop `k` words of the completion queue: their pop values. -/
def State.mbPops : Nat → List (Fin 3) → State → List Byte × State
  | 0, _, s => ([], s)
  | k + 1, ups, s =>
    let (v, s) := match s.host.cpl with
      | [] => (0, s)
      | w :: t =>
        let g := (ups.head?.getD 0).val
        let r := State.popCheck (if g = 0 then w else { w with upset := g }) { s with host := { s.host with cpl := t } }
        (r.1.popValue, r.2)
    let (l, s) := State.mbPops k ups.tail s
    (leBytes 8 v ++ l, s)

/-- The mailbox takes completion messages: its queues run. -/
def State.mbRuns (s : State) : Bool :=
  !s.anat.kaHeld && !s.anat.mainHeld && s.mode != .recovery && s.mode != .load

/-- The next completion of INIT 1 enters the completion queue, if it has room. -/
def State.mbComplete (s : State) : State :=
  match s.txn.cpls.find? fun c => c.init == 1 with
  | none => s
  | some c =>
    let l := wordsLe c.encode
    let n := s.host.cpl.length + l.length
    if 128 < n then s
    else
      let q := (List.range l.length).map fun i =>
        ({ data := l.getD i 0#32, first := i == 0, last := i + 1 == l.length } : QWord)
      let s : State := { s with txn := { s.txn with cpls := s.txn.cpls.erase c }, host := { s.host with cpl := s.host.cpl ++ q } }
      (s.peak Fd.HOST_MB_COUNT_CPL_PEAK n).hostPend 0

/-! ### The host address space (R384) -/

/-- Host address of the byte `i` of an access at `a`: it advances and wraps within its area (R383). -/
def hostAddr (a i : Nat) : Nat :=
  if a < 0x20000 then a / 0x10000 * 0x10000 + (a + i) % 0x10000 else a + i

/-- One byte of the host's registers; other addresses read 0. -/
def State.hostByte (s : State) (h : Nat) : Byte :=
  if 0x10000 ≤ h ∧ h < 0x10018 then
    ((s.regValue (0x130000 + (h - 0x10000) / 4 * 4)).extractLsb' (8 * (h % 4)) 8)
  else 0#8

/-- Write one byte of the host's registers; other addresses ignore it. -/
def State.hostPut (h : Nat) (b : Byte) (s : State) : State :=
  let a := 0x130000 + (h - 0x10000) / 4 * 4
  let put := putBits (s.rd a) (8 * (h % 4)) 8 b.toNat
  if 0x10004 ≤ h ∧ h < 0x10008 then s.wr a (s.rd a &&& ~~~(((b.setWidth 32 : Word) <<< (8 * (h % 4))) &&& 0x27#32))
  else if 0x10008 ≤ h ∧ h < 0x1000C then s.wr a (put &&& 0x3F#32)
  else if 0x10010 ≤ h ∧ h < 0x10014 then s.wr a put
  else s

/-- Local address of the host window's first byte. -/
def hostWinBase : Nat := 0x1001000000

/-- A host read of the window: a fabric write to the word in the same cycle (`hit`), or a byte that fails its parity, makes it void
(R380, R381). -/
def State.hostReadWindow (a n : Nat) (hit : Bool) (s : State) : State :=
  let l := (List.range n).map fun i => hostWinBase + hostAddr a i
  if hit then ((s.on Fd.HOST_H_STAT_COLLIDE).bump Reg.HOST_COLLIDE_CNT).hostVoid n
  else if l.any fun x => s.mark x != 0 then ((s.on Fd.HOST_H_STAT_PERR).bump Reg.MEM_WIN_PERR).hostVoid n
  else s.hostGood (l.map s.byte)

/-- A host read of registers: reading the third byte of MB_COUNT reads CPL_PEAK, which takes the present value (00 R10). -/
def State.hostReadRegs (a n : Nat) (s : State) : State :=
  let l := (List.range n).map (hostAddr a)
  let t := s.onlyIf (l.contains 0x10016) (State.clearRc Reg.HOST_MB_COUNT)
  t.hostGood (l.map s.hostByte)

/-- READ and QREAD of `n` bytes at host address `a`. -/
def State.hostReadAt (a n : Nat) (hit : Bool) (ups : List (Fin 3)) (s : State) : State :=
  s.hostCommand n (n != 0) fun s =>
    if a < 0x10000 then s.hostReadWindow a n hit
    else if a = 0x10028 then
      let (l, t) := s.mbPops (n / 8) ups
      t.hostGood (l ++ List.replicate (n % 8) 0#8)
    else s.hostReadRegs a n

/-- WRITE and QWRITE at host address `a`: with `cut` the command ends void after so many bytes have landed (R384). -/
def State.hostWriteAt (a : Nat) (data : List Byte) (cut : Option Nat) (s : State) : State :=
  s.hostCommand 0 (!data.isEmpty) fun s =>
    let d := (cut.map fun c => data.take c).getD data
    let idx := List.range d.length
    let s := if a < 0x10000 then
        s.forEach idx fun i t => (t.setByte (hostWinBase + hostAddr a i) (d.getD i 0#8)).setMark (hostWinBase + hostAddr a i) 0
      else if a = 0x10020 then s.mbWords (d.length / 8) d
      else
        let s := s.forEach idx fun i t => t.hostPut (hostAddr a i) (d.getD i 0#8)
        s.onlyIf (idx.any fun i => decide (0x10010 ≤ hostAddr a i ∧ hostAddr a i < 0x10014)) (State.irq 0x130000)
    if cut.isSome then s.hostVoid 0 else s.hostGood []

/-! ### The commands -/

/-- HOST_READ. -/
def execHostRead (a : BitVec 24) (n : BitVec 12) (hit : Bool) (s : State) : Host.Outcome State Fault Refusal :=
  .next (s.hostReadAt a.toNat n.toNat hit [])

/-- HOST_QREAD. -/
def execHostQread (a : BitVec 24) (n : BitVec 12) (hit : Bool) (s : State) : Host.Outcome State Fault Refusal :=
  .next (s.hostReadAt a.toNat n.toNat hit [])

/-- HOST_WRITE. -/
def execHostWrite (a : BitVec 24) (data : List Byte) (cut : Option (BitVec 12)) (s : State) : Host.Outcome State Fault Refusal :=
  .next (s.hostWriteAt a.toNat data (cut.map (·.toNat)))

/-- HOST_QWRITE. -/
def execHostQwrite (a : BitVec 24) (data : List Byte) (cut : Option (BitVec 12)) (s : State) : Host.Outcome State Fault Refusal :=
  .next (s.hostWriteAt a.toNat data (cut.map (·.toNat)))

/-- READ_STAT: H_STAT [7:0], repeated. -/
def execReadStat (n : BitVec 12) (s : State) : Host.Outcome State Fault Refusal :=
  .next (s.hostCommand n.toNat (n != 0) fun t => t.hostGood (List.replicate n.toNat (t.hostByte 0x10000)))

/-- ENTER_QPI, known in 1-1-1 mode only. -/
def execEnterQpi (s : State) : Host.Outcome State Fault Refusal :=
  .next (s.hostCommand 0 (!s.flag Fd.HOST_HOST_CFG_QPI) fun t => (t.on Fd.HOST_HOST_CFG_QPI).hostGood [])

/-- EXIT_QPI, known in 4-4-4 mode only. -/
def execExitQpi (s : State) : Host.Outcome State Fault Refusal :=
  .next (s.hostCommand 0 (s.flag Fd.HOST_HOST_CFG_QPI) fun t => (t.off Fd.HOST_HOST_CFG_QPI).hostGood [])

/-- MB_PUSH: one write of 8 bytes per word at 0x01_0020, LAST in bit 2 of byte 4. -/
def execMbPush (words : List (Word × Bool)) (s : State) : Host.Outcome State Fault Refusal :=
  .next (s.hostWriteAt 0x10020 (words.flatMap fun w => leBytes 8 (w.1.toNat + if w.2 then 2 ^ 34 else 0)) none)

/-- MB_POP: one read of 8 bytes per word at 0x01_0028; `ups` are errors in the words popped. -/
def execMbPop (k : BitVec 8) (ups : List (Fin 3)) (s : State) : Host.Outcome State Fault Refusal :=
  .next (s.hostReadAt 0x10028 (8 * k.toNat) false ups)

/-- MB_COMPLETION. -/
def execMbCompletion (s : State) : Host.Outcome State Fault Refusal := .next (if s.mbRuns then s.mbComplete else s)

/-- DOORBELL_OUT: a host write of the whole register. -/
def execDoorbellOut (w : Word) (s : State) : Host.Outcome State Fault Refusal :=
  .next (s.hostWriteAt 0x10010 (leBytes 4 w.toNat) none)

/-- HOST_CS_WAKE: a falling edge of HOST_CS_N; a command that meets a port which does not serve is void (R388). -/
def execHostCsWake (s : State) : Host.Outcome State Fault Refusal :=
  .next (if s.mode == .drowse || s.flag Fd.SYS_MODE_STAT_ENTERING then s.hostCommand 0 true id else s)

end Sys2Proof.Machine
end

