-- ==== Sys2Proof/Machine/Receive.lean ====
section
/-!
DEFINITION. The end of a reception: what follows a frame that has come whole and good (03 R65, R68, R80, 06 R159, R163, 12 R294), and the
commands that bring a frame to its end.
-/

namespace Sys2Proof.Machine

/-- What follows a frame that has come to its end, `good` or errored. Of an errored one only a CYCLE copy has a further effect (06 R159). -/
def State.frameUse (r : Reception) (good : Bool) (s : State) : State :=
  match r.use with
  | .cycle k stuck => s.copyIn r.port r.frame k stuck good
  | u =>
    if !good then s
    else
      match u with
      | .done => s
      | .stripped =>
        if r.frame.kind = Kd.beacon then s.readBeacon r.port r.frame true
        else if r.frame.kind = Kd.cycle then s.absorb r.frame else s
      | .beacon => s.readBeacon r.port r.frame false
      | .time => s.timeIn r.frame
      | .inject => s.inject r.frame r.epoch
      | _ => s.consume r

/-- The newest frame in reception on port `p` comes to its end, or a fragment of it ends or begins (02 R47, 04 R102 to R105). -/
def State.received (p : Nat) (e : RxEnd) (size : Nat) (s : State) : State :=
  match s.rxOf p with
  | none => s
  | some r =>
    match e with
    | .fragmentEnd => s.fragmentIn r size
    | .continued => s.fragmentOn r
    | e => let (good, t) := (s.endRx p).rxEnd r e size; t.frameUse r good

/-- FRAME_RECEIVED_WHOLE. -/
def execFrameReceivedWhole (p : Fin 3) (e : RxEnd) (size : BitVec 11) (s : State) : Host.Outcome State Fault Refusal :=
  .next (s.received p.val e size.toNat)

/-- A frame of the fabric comes whole on ring port `p`: its header is handled first where RING_FRAME_RX has not done so. A frame dropped there
has no end to handle. -/
def State.wholeFrame (p : Nat) (f : Frame) (e : RxEnd) (s : State) : State :=
  let s := s.headed p f
  if s.heldRx p f then s.received p e f.size else s

/-- BEACON_RX: a beacon of another node, or a returned copy of the own round (03 R80, R82). -/
def execBeaconRx (p : Fin 2) (f : Frame) (e : RxEnd) (s : State) : Host.Outcome State Fault Refusal :=
  .next (if f.kind = Kd.beacon ∧ bRole f.payload ≠ 2 then s.wholeFrame p.val f e else s)

/-- LINK_ALARM_RX (03 R83, R84). -/
def execLinkAlarmRx (p : Fin 2) (f : Frame) (e : RxEnd) (s : State) : Host.Outcome State Fault Refusal :=
  .next (if f.kind = Kd.beacon ∧ bRole f.payload = 2 then s.wholeFrame p.val f e else s)

/-- CYCLE_FRAME_RX: a copy of another node (06 R158 to R160, R164). -/
def execCycleFrameRx (p : Fin 2) (f : Frame) (e : RxEnd) (s : State) : Host.Outcome State Fault Refusal :=
  .next (if f.kind = Kd.cycle ∧ ¬(f.sa = s.ownMac ∧ s.hasIdentity = true) then s.wholeFrame p.val f e else s)

/-- CYCLE_ABSORB: a copy of this node returns (06 R163). -/
def execCycleAbsorb (p : Fin 2) (f : Frame) (e : RxEnd) (s : State) : Host.Outcome State Fault Refusal :=
  .next (if f.kind = Kd.cycle ∧ f.sa = s.ownMac ∧ s.hasIdentity = true then s.wholeFrame p.val f e else s)

end Sys2Proof.Machine
end

