-- ==== Sys2Proof/Machine/UsbEp0.lean ====
section
/-!
DEFINITION. Standard and hub-class requests on EP0 of the hub and of the station function (11_usb_hub_and_station_function.md R270,
R272, R278, R285, R286), with the descriptors they return. Bytes that the spec leaves to USB 2.0 are PRESUMED from it, and those that
neither gives are free (log 133).
-/

namespace Sys2Proof.Machine

/-! ### Descriptors -/

/-- The device descriptor: of the hub (class 9, single translator), or of the station function, whose class stands at its interface. -/
def State.deviceDescriptor (s : State) (hub hs : Bool) : List Byte :=
  [18#8, 1#8] ++ leBytes 2 0x200 ++ [if hub then 9#8 else 0#8, 0#8, if hub && hs then 1#8 else 0#8, 64#8] ++
    leBytes 2 (s.fld Fd.USB_USB_ID_VID) ++ leBytes 2 (if hub then s.fld Fd.USB_USB_ID2_PID_HUB else s.fld Fd.USB_USB_ID_PID_FN) ++
    [Config.usbByte 0, Config.usbByte 1, 0#8, 0#8, 0#8, 1#8]

/-- An endpoint descriptor. -/
def epDescriptor (addr attr size interval : Nat) : List Byte :=
  [7#8, 5#8, BitVec.ofNat 8 addr, BitVec.ofNat 8 attr] ++ leBytes 2 size ++ [BitVec.ofNat 8 interval]

/-- An interface descriptor of the station function: vendor-specific, class 0xFF. -/
def ifDescriptor (alt : Nat) (eps : List (List Byte)) : List Byte :=
  [9#8, 4#8, 0#8, BitVec.ofNat 8 alt, BitVec.ofNat 8 eps.length, 0xFF#8, Config.usbByte 2, Config.usbByte 3, 0#8] ++ eps.flatten

/-- The endpoints of one alternate setting (R278): EP2 interrupt every 1 ms, EP3 and EP4 bulk, and from setting 1 on EP1 and EP5
isochronous, EP1 with three packets a microframe in setting 2. -/
def fnEndpointList (hs : Bool) (alt : Nat) : List (List Byte) :=
  let bulk := if hs then 512 else 64
  let base := [epDescriptor 0x82 3 64 (if hs then 4 else 1), epDescriptor 0x03 2 bulk 0, epDescriptor 0x84 2 bulk 0]
  if alt = 0 then base
  else epDescriptor 0x81 1 (if alt = 2 then 0x1400 else 0x400) 1 :: base ++ [epDescriptor 0x85 1 0x400 1]

/-- The configuration descriptor with what follows it; at full speed only setting 0 is offered (R278). -/
def configDescriptor (hub hs : Bool) (type : Byte) : List Byte :=
  let body := if hub then
      [9#8, 4#8, 0#8, 0#8, 1#8, 9#8, 0#8, 0#8, 0#8] ++ epDescriptor 0x81 3 1 (if hs then 12 else 255)
    else (if hs then [0, 1, 2] else [0]).flatMap fun alt => ifDescriptor alt (fnEndpointList hs alt)
  [9#8, type] ++ leBytes 2 (9 + body.length) ++ [1#8, 1#8, 0#8, if hub then 0xE0#8 else 0xC0#8, Config.usbByte 4] ++ body

/-- The device qualifier: the device at its other speed. -/
def State.qualifier (s : State) (hub hs : Bool) : List Byte :=
  [10#8, 6#8] ++ ((s.deviceDescriptor hub (!hs)).drop 2).take 6 ++ [1#8, 0#8]

/-- The hub descriptor (R272): 5 ports, wHubCharacteristics 0x000D, bPwrOn2PwrGood 10, bHubContrCurrent 0, DeviceRemovable 0x20. -/
def hubDescriptor : List Byte := [9#8, 0x29#8, 5#8, 0x0D#8, 0x00#8, 10#8, 0#8, 0x20#8, 0xFF#8]

/-- The descriptor that a GET_DESCRIPTOR names, or none. -/
def State.descriptor (s : State) (hub : Bool) (type : BitVec 8) : Option (List Byte) :=
  let hs := s.highSpeed
  match type.toNat with
  | 1 => some (s.deviceDescriptor hub hs)
  | 2 => some (configDescriptor hub hs 2#8)
  | 6 => some (s.qualifier hub hs)
  | 7 => some (configDescriptor hub (!hs) 7#8)
  | _ => none

/-! ### Port status (R272 to R276) -/

def PortChange.bit : PortChange → Nat
  | .connection => 0 | .enable => 1 | .suspend => 2 | .overCurrent => 3 | .reset => 4

/-- wPortStatus and wPortChange. Port 5 carries the station function, connected while it has PORT_POWER. -/
def State.portStatus (s : State) (n : Nat) : List Byte :=
  let b := fun (c : Bool) (i : Nat) => if c then 2 ^ i else 0
  let st := if n = 4 then
      b (!s.usb.fnOff) 0 + b (!s.usb.fnOff) 1 + b s.suspended 2 + b (!s.usb.fnOff) 8 + b (s.highSpeed && !s.usb.fnOff) 10
    else
      b (s.flag (Fd.USB_DS_STAT_CONNECT n)) 0 + b (s.flag (Fd.USB_DS_STAT_ENABLE n)) 1 + b (s.flag (Fd.USB_DS_STAT_SUSPEND n)) 2 +
        b (s.flag (Fd.USB_DS_STAT_OVER_CURRENT n)) 3 + b (s.flag (Fd.USB_DS_STAT_RESET n)) 4 + b (s.flag (Fd.USB_DS_STAT_POWER n)) 8 +
        b (s.fld (Fd.USB_DS_STAT_SPEED n) == 1) 9 + b (s.fld (Fd.USB_DS_STAT_SPEED n) == 2) 10
  let ch := s.usb.changes.foldl (fun a c => if c.1 = n then a + 2 ^ c.2.bit else a) 0
  leBytes 2 st ++ leBytes 2 ch

/-! ### Requests to the hub -/

/-- What a request makes of the hub; none is a STALL. The bytes are those of the data stage. -/
def State.hubRequest (r : Ep0Request) (s : State) : Option (List Byte × State) :=
  let ok := fun (t : State) => some (([] : List Byte), t)
  match r with
  | .setAddress a => ok (s.setUsb { s.usb with hubAddress := a })
  | .setConfiguration v =>
    if 1 < v.toNat then none
    else ok ((s.setUsb { s.usb with hubConf := v == 1#8 }).onlyIf (v == 0#8) fun t => t.forEach [0, 1, 2, 3] State.portOff)
  | .setInterface _ alt => if alt = 0#8 then ok s else none
  | .getConfiguration => some ([if s.usb.hubConf then 1#8 else 0#8], s)
  | .getInterface => some ([0#8], s)
  | .getStatus => some ([if s.flag Fd.USB_USB_STAT_RWAKE_ARMED then 3#8 else 1#8, 0#8], s)
  | .getDescriptor type _ n => (s.descriptor true type).map fun d => (d.take n.toNat, s)
  | .getHubDescriptor n => some (hubDescriptor.take n.toNat, s)
  | .getHubStatus => some (List.replicate 4 0#8, s)
  | .getPortStatus n => some (s.portStatus n.val, s)
  | .setPortSuspend n => ok (s.onlyIf (s.flag (Fd.USB_DS_STAT_ENABLE n.val)) (·.on (Fd.USB_DS_STAT_SUSPEND n.val)))
  | .clearPortSuspend n =>
    ok (s.onlyIf (s.flag (Fd.USB_DS_STAT_SUSPEND n.val)) fun t => (t.off (Fd.USB_DS_STAT_SUSPEND n.val)).portChange n.val .suspend)
  | .clearPortEnable n => ok ((s.off (Fd.USB_DS_STAT_ENABLE n.val)).off (Fd.USB_DS_STAT_SUSPEND n.val))
  | .clearPortChange n c => ok (s.setUsb { s.usb with changes := s.usb.changes.filter (· != (n.val, c)) })
  | .unknown => none

/-! ### Requests to the station function -/

/-- What a request makes of the station function; none is a STALL. A new configuration or setting restarts its endpoints (R285); at full
speed and in Recovery only setting 0 is offered (R278, R287). -/
def State.fnRequest (r : Ep0Request) (s : State) : Option (List Byte × State) :=
  let changed := fun (conf : Bool) (alt : Nat) =>
    some (([] : List Byte), (((s.fnEndpoints).setFlag Fd.USB_USB_STAT_CONFIGURED conf).setFld Fd.USB_USB_STAT_ALT alt).on
      Fd.USB_EVT_CONFIG_CHG)
  match r with
  | .setAddress a => some ([], s.setFld Fd.USB_USB_STAT_ADDRESS a.toNat)
  | .setConfiguration v => if 1 < v.toNat then none else changed (v == 1#8) 0
  | .setInterface ifc alt =>
    let offered := if s.highSpeed && s.mode != .recovery then 2 else 0
    if s.flag Fd.USB_USB_STAT_CONFIGURED = false ∨ ifc ≠ 0#8 ∨ offered < alt.toNat then none else changed true alt.toNat
  | .getConfiguration => some ([if s.flag Fd.USB_USB_STAT_CONFIGURED then 1#8 else 0#8], s)
  | .getInterface =>
    if s.flag Fd.USB_USB_STAT_CONFIGURED then some ([BitVec.ofNat 8 (s.fld Fd.USB_USB_STAT_ALT)], s) else none
  | .getStatus => some ([1#8, 0#8], s)
  | .getDescriptor type _ n => (s.descriptor false type).map fun d => (d.take n.toNat, s)
  | _ => none

/-- CONFIG_CHANGE: a standard or hub-class request on EP0. A new SETUP on the function abandons its open transfer, and without its status
stage a request has no effect (R286). -/
def execConfigChange (hub : Bool) (r : Ep0Request) (done : Bool) (s : State) : Host.Outcome State Fault Refusal :=
  .next (if hub then
      if !s.connected || s.suspended || !done then s
      else
        match s.hubRequest r with
        | none => s.emit (.hubEp0 none)
        | some (b, t) => t.emit (.hubEp0 (some b))
    else
      s.vendor done fun t =>
        match t.fnRequest r with
        | none => t.emit .usbStall
        | some (b, u) => u.emit (.usb 0 b))

end Sys2Proof.Machine
end

