-- ==== Sys2Proof/Machine/Dispatch.lean ====
section
/-!
DEFINITION. The dispatch: one arm for each command, each a direct call of its meaning.
-/

namespace Sys2Proof.Machine

/-- The effect of a command on everything but the queue of waiting commands. -/
def exec (i : Instr) (s : State) : Host.Outcome State Fault Refusal :=
  match i with
  | .porNAssert powerLoss => Sys2Proof.Machine.execPorNAssert powerLoss s
  | .sysRstNAssert => Sys2Proof.Machine.execSysRstNAssert s
  | .porNRelease svcN twinPos valid lines => Sys2Proof.Machine.execPorNRelease svcN twinPos valid lines s
  | .holdOverStart => Sys2Proof.Machine.execHoldOverStart s
  | .powerLinkLost => Sys2Proof.Machine.execPowerLinkLost s
  | .clkFail lost => Sys2Proof.Machine.execClkFail lost s
  | .clkFailRestart valid lines => Sys2Proof.Machine.execClkFailRestart valid lines s
  | .coreVoltageFault => Sys2Proof.Machine.execCoreVoltageFault s
  | .coreVoltageRestart valid lines => Sys2Proof.Machine.execCoreVoltageRestart valid lines s
  | .mainRst w => Sys2Proof.Machine.execMainRst w s
  | .watchdogExpiry => Sys2Proof.Machine.execWatchdogExpiry s
  | .cpUe => Sys2Proof.Machine.execCpUe s
  | .firmwareRestart => Sys2Proof.Machine.execFirmwareRestart s
  | .mainDomainResetRelease valid lines => Sys2Proof.Machine.execMainDomainResetRelease valid lines s
  | .unitRst w => Sys2Proof.Machine.execUnitRst w s
  | .bobRst high w => Sys2Proof.Machine.execBobRst high w s
  | .unitResetRelease u => Sys2Proof.Machine.execUnitResetRelease u s
  | .responderRequest k q => Sys2Proof.Machine.execResponderRequest k q s
  | .bobclkCleanWrite w => Sys2Proof.Machine.execBobclkCleanWrite w s
  | .spreadApply => Sys2Proof.Machine.execSpreadApply s
  | .portSpeedWrite p w => Sys2Proof.Machine.execPortSpeedWrite p w s
  | .loopPcsWrite p w => Sys2Proof.Machine.execLoopPcsWrite p w s
  | .moduleInsert p => Sys2Proof.Machine.execModuleInsert p s
  | .modPresent p => Sys2Proof.Machine.execModPresent p s
  | .moduleIdentityRead p ack a0 => Sys2Proof.Machine.execModuleIdentityRead p ack a0 s
  | .moduleRemoved p => Sys2Proof.Machine.execModuleRemoved p s
  | .ddmPoll p ddm flags => Sys2Proof.Machine.execDdmPoll p ddm flags s
  | .modAccGo p w => Sys2Proof.Machine.execModAccGo p w s
  | .modAccDone p ack rdata => Sys2Proof.Machine.execModAccDone p ack rdata s
  | .linkDown p cause => Sys2Proof.Machine.execLinkDown p cause s
  | .linkUp p fullDuplex => Sys2Proof.Machine.execLinkUp p fullDuplex s
  | .dampTimeEnd p => Sys2Proof.Machine.execDampTimeEnd p s
  | .dampClr p => Sys2Proof.Machine.execDampClr p s
  | .verifyRetry p => Sys2Proof.Machine.execVerifyRetry p s
  | .preemptVerifySuccess p => Sys2Proof.Machine.execPreemptVerifySuccess p s
  | .preemptVerifyFail p => Sys2Proof.Machine.execPreemptVerifyFail p s
  | .spurFrameRx f vid => Sys2Proof.Machine.execSpurFrameRx f vid s
  | .ringFrameRx p f => Sys2Proof.Machine.execRingFrameRx p f s
  | .frameReceivedWhole p e size => Sys2Proof.Machine.execFrameReceivedWhole p e size s
  | .frameInject => Sys2Proof.Machine.execFrameInject s
  | .fenceRelease flow => Sys2Proof.Machine.execFenceRelease flow s
  | .absentClearExpiry n => Sys2Proof.Machine.execAbsentClearExpiry n s
  | .wardenActive => Sys2Proof.Machine.execWardenActive s
  | .beaconLaunch => Sys2Proof.Machine.execBeaconLaunch s
  | .topoReportPeriodic => Sys2Proof.Machine.execTopoReportPeriodic s
  | .beaconRx p f e => Sys2Proof.Machine.execBeaconRx p f e s
  | .beaconOkLoss => Sys2Proof.Machine.execBeaconOkLoss s
  | .linkAlarmRx p f e => Sys2Proof.Machine.execLinkAlarmRx p f e s
  | .breakMarginEnd pos down => Sys2Proof.Machine.execBreakMarginEnd pos down s
  | .modeReq w => Sys2Proof.Machine.execModeReq w s
  | .pathModeChange => Sys2Proof.Machine.execPathModeChange s
  | .pathChange toFull => Sys2Proof.Machine.execPathChange toFull s
  | .fullPathDrainEnd => Sys2Proof.Machine.execFullPathDrainEnd s
  | .localFrameAdmit c => Sys2Proof.Machine.execLocalFrameAdmit c s
  | .localWaitTimeout c => Sys2Proof.Machine.execLocalWaitTimeout c s
  | .outputSelect o turn => Sys2Proof.Machine.execOutputSelect o turn s
  | .bufferPurgeEnd => Sys2Proof.Machine.execBufferPurgeEnd s
  | .stickyPeakRead offset => Sys2Proof.Machine.execStickyPeakRead offset s
  | .pairLoRead offset => Sys2Proof.Machine.execPairLoRead offset s
  | .requestIssue init k dst bytes size data cls flow => Sys2Proof.Machine.execRequestIssue init k dst bytes size data cls flow s
  | .read q ups => Sys2Proof.Machine.execRead q ups s
  | .write q ups => Sys2Proof.Machine.execWrite q ups s
  | .pwrite q ups => Sys2Proof.Machine.execPwrite q ups s
  | .lread q ups => Sys2Proof.Machine.execLread q ups s
  | .lwrite q ups => Sys2Proof.Machine.execLwrite q ups s
  | .cas q ups => Sys2Proof.Machine.execCas q ups s
  | .fadd q ups => Sys2Proof.Machine.execFadd q ups s
  | .cplRx f => Sys2Proof.Machine.execCplRx f s
  | .requestTimeout t => Sys2Proof.Machine.execRequestTimeout t s
  | .tagQuarantineEnd t => Sys2Proof.Machine.execTagQuarantineEnd t s
  | .lockExpiry k => Sys2Proof.Machine.execLockExpiry k s
  | .noticeRx f => Sys2Proof.Machine.execNoticeRx f s
  | .quiesceEnd => Sys2Proof.Machine.execQuiesceEnd s
  | .cycleSnapshot => Sys2Proof.Machine.execCycleSnapshot s
  | .cycleLaunch t => Sys2Proof.Machine.execCycleLaunch t s
  | .cycleFrameRx p f e => Sys2Proof.Machine.execCycleFrameRx p f e s
  | .cycleCopyCommit p => Sys2Proof.Machine.execCycleCopyCommit p s
  | .cycleAbsorb p f e => Sys2Proof.Machine.execCycleAbsorb p f e s
  | .cycleApply t => Sys2Proof.Machine.execCycleApply t s
  | .cycleMasterTakeover t => Sys2Proof.Machine.execCycleMasterTakeover t s
  | .streamEnWrite u w => Sys2Proof.Machine.execStreamEnWrite u w s
  | .bankSupplyFail b => Sys2Proof.Machine.execBankSupplyFail b s
  | .bankSupplyReturn b levels => Sys2Proof.Machine.execBankSupplyReturn b levels s
  | .pinCfgWrite n w => Sys2Proof.Machine.execPinCfgWrite n w s
  | .filterAccept n stretch => Sys2Proof.Machine.execFilterAccept n stretch s
  | .glitchReject n => Sys2Proof.Machine.execGlitchReject n s
  | .filtWrite n w => Sys2Proof.Machine.execFiltWrite n w s
  | .outWrite b w => Sys2Proof.Machine.execOutWrite b w s
  | .outSet b w => Sys2Proof.Machine.execOutSet b w s
  | .outClr b w => Sys2Proof.Machine.execOutClr b w s
  | .outTgl b w => Sys2Proof.Machine.execOutTgl b w s
  | .journalRecordWrite => Sys2Proof.Machine.execJournalRecordWrite s
  | .journalFlush => Sys2Proof.Machine.execJournalFlush s
  | .rdPosWrite r v => Sys2Proof.Machine.execRdPosWrite r v s
  | .nop n => Sys2Proof.Machine.execNop n s
  | .shin n => Sys2Proof.Machine.execShin n s
  | .shout n => Sys2Proof.Machine.execShout n s
  | .shio n => Sys2Proof.Machine.execShio n s
  | .pull n => Sys2Proof.Machine.execPull n s
  | .push n => Sys2Proof.Machine.execPush n s
  | .cload0 n => Sys2Proof.Machine.execCload0 n s
  | .cdec0 n => Sys2Proof.Machine.execCdec0 n s
  | .cload1 n => Sys2Proof.Machine.execCload1 n s
  | .cdec1 n => Sys2Proof.Machine.execCdec1 n s
  | .sclr n => Sys2Proof.Machine.execSclr n s
  | .irq n => Sys2Proof.Machine.execIrq n s
  | .cload01 n => Sys2Proof.Machine.execCload01 n s
  | .cdec01 n => Sys2Proof.Machine.execCdec01 n s
  | .capt n => Sys2Proof.Machine.execCapt n s
  | .halt n => Sys2Proof.Machine.execHalt n s
  | .stallEnd n => Sys2Proof.Machine.execStallEnd n s
  | .start n => Sys2Proof.Machine.execStart n s
  | .stop n => Sys2Proof.Machine.execStop n s
  | .resume n => Sys2Proof.Machine.execResume n s
  | .groupStart hi w => Sys2Proof.Machine.execGroupStart hi w s
  | .groupStop hi w => Sys2Proof.Machine.execGroupStop hi w s
  | .groupResume hi w => Sys2Proof.Machine.execGroupResume hi w s
  | .syncPulse w => Sys2Proof.Machine.execSyncPulse w s
  | .txqPush n wide v up => Sys2Proof.Machine.execTxqPush n wide v up s
  | .rxqPop n up => Sys2Proof.Machine.execRxqPop n up s
  | .queueJoin n w => Sys2Proof.Machine.execQueueJoin n w s
  | .slotWrite n k w => Sys2Proof.Machine.execSlotWrite n k w s
  | .prickingWrite n off bytes => Sys2Proof.Machine.execPrickingWrite n off bytes s
  | .canEnable n w => Sys2Proof.Machine.execCanEnable n w s
  | .canIntegration n => Sys2Proof.Machine.execCanIntegration n s
  | .canDisable n w => Sys2Proof.Machine.execCanDisable n w s
  | .canOff n => Sys2Proof.Machine.execCanOff n s
  | .txPush n bytes ups => Sys2Proof.Machine.execTxPush n bytes ups s
  | .frameSent n age tdc => Sys2Proof.Machine.execFrameSent n age tdc s
  | .arbitrationLost n => Sys2Proof.Machine.execArbitrationLost n s
  | .txError n age e tdc => Sys2Proof.Machine.execTxError n age e tdc s
  | .busOffRecovery n => Sys2Proof.Machine.execBusOffRecovery n s
  | .abortHead n => Sys2Proof.Machine.execAbortHead n s
  | .canRxError n e => Sys2Proof.Machine.execCanRxError n e s
  | .protocolException n => Sys2Proof.Machine.execProtocolException n s
  | .canIdComplete n ide id => Sys2Proof.Machine.execCanIdComplete n ide id s
  | .canFrameStored n f age => Sys2Proof.Machine.execCanFrameStored n f age s
  | .objectRead n k => Sys2Proof.Machine.execObjectRead n k s
  | .filterWrite n k v => Sys2Proof.Machine.execFilterWrite n k v s
  | .bridgeRequest => Sys2Proof.Machine.execBridgeRequest s
  | .bridgeRequestEnd beats => Sys2Proof.Machine.execBridgeRequestEnd beats s
  | .stErr taken beats => Sys2Proof.Machine.execStErr taken beats s
  | .windowTimeout taken beats => Sys2Proof.Machine.execWindowTimeout taken beats s
  | .readAhead beats failed => Sys2Proof.Machine.execReadAhead beats failed s
  | .prefetchAged => Sys2Proof.Machine.execPrefetchAged s
  | .stitchLockExpiry => Sys2Proof.Machine.execStitchLockExpiry s
  | .stitchIrq k low => Sys2Proof.Machine.execStitchIrq k low s
  | .windowEnable w cfg => Sys2Proof.Machine.execWindowEnable w cfg s
  | .stbCtlWrite w => Sys2Proof.Machine.execStbCtlWrite w s
  | .vbusPresent => Sys2Proof.Machine.execVbusPresent s
  | .vbusLoss => Sys2Proof.Machine.execVbusLoss s
  | .busReset => Sys2Proof.Machine.execBusReset s
  | .highSpeedEntry => Sys2Proof.Machine.execHighSpeedEntry s
  | .chirpTimeout => Sys2Proof.Machine.execChirpTimeout s
  | .suspend => Sys2Proof.Machine.execSuspend s
  | .remoteWakeRequest ds => Sys2Proof.Machine.execRemoteWakeRequest ds s
  | .remoteWakeSignal => Sys2Proof.Machine.execRemoteWakeSignal s
  | .hostResume => Sys2Proof.Machine.execHostResume s
  | .resumeEnd => Sys2Proof.Machine.execResumeEnd s
  | .setPortPower n => Sys2Proof.Machine.execSetPortPower n s
  | .clearPortPower n => Sys2Proof.Machine.execClearPortPower n s
  | .portReset n => Sys2Proof.Machine.execPortReset n s
  | .portResetEnd n speed => Sys2Proof.Machine.execPortResetEnd n speed s
  | .overCurrent n => Sys2Proof.Machine.execOverCurrent n s
  | .babble n => Sys2Proof.Machine.execBabble n s
  | .configChange hub r done => Sys2Proof.Machine.execConfigChange hub r done s
  | .journalStreamPacket token => Sys2Proof.Machine.execJournalStreamPacket token s
  | .snapshotPacket ready => Sys2Proof.Machine.execSnapshotPacket ready s
  | .eventPacket => Sys2Proof.Machine.execEventPacket s
  | .tunnelMessage p => Sys2Proof.Machine.execTunnelMessage p s
  | .tunnelCompletion => Sys2Proof.Machine.execTunnelCompletion s
  | .getIdentity done => Sys2Proof.Machine.execGetIdentity done s
  | .jstreamStart pos done => Sys2Proof.Machine.execJstreamStart pos done s
  | .jstreamStop done => Sys2Proof.Machine.execJstreamStop done s
  | .getJrnPos done => Sys2Proof.Machine.execGetJrnPos done s
  | .setImgSel sel done => Sys2Proof.Machine.execSetImgSel sel done s
  | .getSvc level done => Sys2Proof.Machine.execGetSvc level done s
  | .syncRx p f t2 => Sys2Proof.Machine.execSyncRx p f t2 s
  | .followUpRx p f => Sys2Proof.Machine.execFollowUpRx p f s
  | .announceRx p f => Sys2Proof.Machine.execAnnounceRx p f s
  | .signalingRx p f => Sys2Proof.Machine.execSignalingRx p f s
  | .spurPtpRx f => Sys2Proof.Machine.execSpurPtpRx f s
  | .gmSyncTx d => Sys2Proof.Machine.execGmSyncTx d s
  | .gmAnnounceTx d => Sys2Proof.Machine.execGmAnnounceTx d s
  | .pdelayReqTx p => Sys2Proof.Machine.execPdelayReqTx p s
  | .pdelayReqRx p w msg => Sys2Proof.Machine.execPdelayReqRx p w msg s
  | .pdelayRespRx p f followUp => Sys2Proof.Machine.execPdelayRespRx p f followUp s
  | .syncLoss d => Sys2Proof.Machine.execSyncLoss d s
  | .domainRevert => Sys2Proof.Machine.execDomainRevert s
  | .slewComplete => Sys2Proof.Machine.execSlewComplete s
  | .jumpPersist => Sys2Proof.Machine.execJumpPersist s
  | .acceptStep => Sys2Proof.Machine.execAcceptStep s
  | .disarm => Sys2Proof.Machine.execDisarm s
  | .timeSet v => Sys2Proof.Machine.execTimeSet v s
  | .nowLoRead => Sys2Proof.Machine.execNowLoRead s
  | .incrWrite v => Sys2Proof.Machine.execIncrWrite v s
  | .picotEnable idx w => Sys2Proof.Machine.execPicotEnable idx w s
  | .picotDisable idx w => Sys2Proof.Machine.execPicotDisable idx w s
  | .picotStartEdge idx => Sys2Proof.Machine.execPicotStartEdge idx s
  | .picotEndEdge idx => Sys2Proof.Machine.execPicotEndEdge idx s
  | .feedReverse f => Sys2Proof.Machine.execFeedReverse f s
  | .feedConduct f => Sys2Proof.Machine.execFeedConduct f s
  | .feedInRange f drop => Sys2Proof.Machine.execFeedInRange f drop s
  | .feedUndervoltage f => Sys2Proof.Machine.execFeedUndervoltage f s
  | .feedOvervoltage f => Sys2Proof.Machine.execFeedOvervoltage f s
  | .inrushEnd f => Sys2Proof.Machine.execInrushEnd f s
  | .branchOn n keep => Sys2Proof.Machine.execBranchOn n keep s
  | .branchOff n keep => Sys2Proof.Machine.execBranchOff n keep s
  | .restart n keep => Sys2Proof.Machine.execRestart n keep s
  | .softStartEnd n => Sys2Proof.Machine.execSoftStartEnd n s
  | .softStartTimeout n => Sys2Proof.Machine.execSoftStartTimeout n s
  | .limitBegin n => Sys2Proof.Machine.execLimitBegin n s
  | .limitEnd n => Sys2Proof.Machine.execLimitEnd n s
  | .faultTimerClear n => Sys2Proof.Machine.execFaultTimerClear n s
  | .faultTimerExpiry n => Sys2Proof.Machine.execFaultTimerExpiry n s
  | .fastTrip n => Sys2Proof.Machine.execFastTrip n s
  | .offTimeEnd n => Sys2Proof.Machine.execOffTimeEnd n s
  | .clearTimeEnd n => Sys2Proof.Machine.execClearTimeEnd n s
  | .powerGoodRise n => Sys2Proof.Machine.execPowerGoodRise n s
  | .powerGoodFall n => Sys2Proof.Machine.execPowerGoodFall n s
  | .eclr k => Sys2Proof.Machine.execEclr k s
  | .plkPoll src act fate => Sys2Proof.Machine.execPlkPoll src act fate s
  | .plkRead src act a fate => Sys2Proof.Machine.execPlkRead src act a fate s
  | .plkWrite src act a data fate => Sys2Proof.Machine.execPlkWrite src act a data fate s
  | .pwrLinkAccess off write => Sys2Proof.Machine.execPwrLinkAccess off write s
  | .holdTimeEnd => Sys2Proof.Machine.execHoldTimeEnd s
  | .powerDieReset => Sys2Proof.Machine.execPowerDieReset s
  | .powerDieColdStart => Sys2Proof.Machine.execPowerDieColdStart s
  | .tetherHeartbeat h => Sys2Proof.Machine.execTetherHeartbeat h s
  | .tetherLoss => Sys2Proof.Machine.execTetherLoss s
  | .tetherBack => Sys2Proof.Machine.execTetherBack s
  | .stateDelta writes => Sys2Proof.Machine.execStateDelta writes s
  | .inputMirror levels => Sys2Proof.Machine.execInputMirror levels s
  | .twinRelN => Sys2Proof.Machine.execTwinRelN s
  | .rel => Sys2Proof.Machine.execRel s
  | .outputGapEnd n => Sys2Proof.Machine.execOutputGapEnd n s
  | .silent => Sys2Proof.Machine.execSilent s
  | .startEvidence => Sys2Proof.Machine.execStartEvidence s
  | .claimRepeat => Sys2Proof.Machine.execClaimRepeat s
  | .claimRx f => Sys2Proof.Machine.execClaimRx f s
  | .grantRx f => Sys2Proof.Machine.execGrantRx f s
  | .identityTake => Sys2Proof.Machine.execIdentityTake s
  | .twinHeartbeatTx => Sys2Proof.Machine.execTwinHeartbeatTx s
  | .twinHeartbeatRx f => Sys2Proof.Machine.execTwinHeartbeatRx f s
  | .driveFault n => Sys2Proof.Machine.execDriveFault n s
  | .revertRequest => Sys2Proof.Machine.execRevertRequest s
  | .revertHandover => Sys2Proof.Machine.execRevertHandover s
  | .clrLimit => Sys2Proof.Machine.execClrLimit s
  | .drill => Sys2Proof.Machine.execDrill s
  | .drillStart => Sys2Proof.Machine.execDrillStart s
  | .drillTakeback parts => Sys2Proof.Machine.execDrillTakeback parts s
  | .patrolScrub ups written => Sys2Proof.Machine.execPatrolScrub ups written s
  | .churnHandover n w => Sys2Proof.Machine.execChurnHandover n w s
  | .handoverComplete n => Sys2Proof.Machine.execHandoverComplete n s
  | .hostRead a n hit => Sys2Proof.Machine.execHostRead a n hit s
  | .hostQread a n hit => Sys2Proof.Machine.execHostQread a n hit s
  | .hostWrite a data cut => Sys2Proof.Machine.execHostWrite a data cut s
  | .hostQwrite a data cut => Sys2Proof.Machine.execHostQwrite a data cut s
  | .readStat n => Sys2Proof.Machine.execReadStat n s
  | .enterQpi => Sys2Proof.Machine.execEnterQpi s
  | .exitQpi => Sys2Proof.Machine.execExitQpi s
  | .mbPush words => Sys2Proof.Machine.execMbPush words s
  | .mbPop k ups => Sys2Proof.Machine.execMbPop k ups s
  | .mbCompletion => Sys2Proof.Machine.execMbCompletion s
  | .doorbellIn w => Sys2Proof.Machine.execDoorbellIn w s
  | .doorbellOut w => Sys2Proof.Machine.execDoorbellOut w s
  | .romImageLoad => Sys2Proof.Machine.execRomImageLoad s
  | .dramTrainingDone => Sys2Proof.Machine.execDramTrainingDone s
  | .configApply c => Sys2Proof.Machine.execConfigApply c s
  | .targetIsolated clr => Sys2Proof.Machine.execTargetIsolated clr s
  | .targetRing clr => Sys2Proof.Machine.execTargetRing clr s
  | .targetPass clr => Sys2Proof.Machine.execTargetPass clr s
  | .targetDrowse clr => Sys2Proof.Machine.execTargetDrowse clr s
  | .drowseEntered => Sys2Proof.Machine.execDrowseEntered s
  | .wakeFrameRx f => Sys2Proof.Machine.execWakeFrameRx f s
  | .wakeTimer => Sys2Proof.Machine.execWakeTimer s
  | .hostCsWake => Sys2Proof.Machine.execHostCsWake s
  | .pinWake n => Sys2Proof.Machine.execPinWake n s
  | .wakeComplete => Sys2Proof.Machine.execWakeComplete s
  | .wdogKick w => Sys2Proof.Machine.execWdogKick w s
  | .chunkData f sig ok => Sys2Proof.Machine.execChunkData f sig ok s
  | .assemblyExpiry => Sys2Proof.Machine.execAssemblyExpiry s
  | .query f => Sys2Proof.Machine.execQuery f s
  | .statusReply => Sys2Proof.Machine.execStatusReply s
  | .activate f => Sys2Proof.Machine.execActivate f s
  | .abort f => Sys2Proof.Machine.execAbort f s
  | .updData chunk total imgType manChunks digest data sig ok => Sys2Proof.Machine.execUpdData chunk total imgType manChunks digest data sig ok s
  | .updControl op digest at_ svcLow => Sys2Proof.Machine.execUpdControl op digest at_ svcLow s
  | .sessionExpiry => Sys2Proof.Machine.execSessionExpiry s
  | .stagingCopy ok => Sys2Proof.Machine.execStagingCopy ok s
  | .activation ok => Sys2Proof.Machine.execActivation ok s
  | .romRecoveryComplete => Sys2Proof.Machine.execRomRecoveryComplete s
  | .recoveryStatusTx => Sys2Proof.Machine.execRecoveryStatusTx s
  | .helperChunkTx => Sys2Proof.Machine.execHelperChunkTx s
  | .registerWrite init a data => Sys2Proof.Machine.execRegisterWrite init a data s
  | .meteringSample k v idx => Sys2Proof.Machine.execMeteringSample k v idx s
  | .tetherStatus digest => Sys2Proof.Machine.execTetherStatus digest s
  | .deviceRemoteWakeup on => Sys2Proof.Machine.execDeviceRemoteWakeup on s
  | .portConnectionChange n attached => Sys2Proof.Machine.execPortConnectionChange n attached s
  | .chunkStatusRx f => Sys2Proof.Machine.execChunkStatusRx f s

end Sys2Proof.Machine
end

