-- ==== Sys2Proof/Machine/Step.lean ====
section
/-!
DEFINITION. One step: the command at the front of the queue runs; on an empty queue one TICK passes.
-/

namespace Sys2Proof.Machine

/-- One TICK of 2,560 ps without a command: clock and time counter move on (12 R290), CAN controllers that can send offer their
heads (09 R228). DESIGN CHOICE, log entry 1. -/
def State.tick (s : State) : State := (s.advance 2560).canOffer

/-- One step: take the command at the front of the queue and run it with the queue's rest. -/
def step (s : State) : Host.Outcome State Fault Refusal :=
  match s.pending with
  | [] => .next s.tick
  | c :: rest => exec c { s with pending := rest }

/-- The state with the command that a word spells at the front of its queue; no word spells one. -/
def State.withFetchWord (s : State) (nbits w : Nat) : State :=
  match decodeTableWord nbits w with
  | none => s
  | some c => { s with pending := c :: s.pending }

end Sys2Proof.Machine
end

