-- ==== Sys2Proof/WellFormed.lean ====
section
/-!
DEFINITION. Which commands are well formed: lists that come from outside have a length that the source can send. A value that the
part itself refuses (a reserved code, an access out of range) is well formed: refusing it is its meaning.
-/

namespace Sys2Proof

open Machine

/-- A frame carries at most 1,488 payload bytes (03 R55). -/
def frameOk (f : Frame) : Bool := decide (f.payload.length ≤ 1488)

/-- A request's data fit into its frame (05 R118). -/
def requestOk (q : Request) : Bool := decide (q.data.length ≤ 1480)

/-- A plain PTP message of at most 1,500 bytes. -/
def ptpOk (f : PtpFrame) : Bool := decide (f.msg.length ≤ 1500)

/-- Well-formed commands. -/
def Instr.wf (i : Instr) : Bool :=
  match i with
  | .responderRequest _ q => requestOk q
  | .moduleIdentityRead _ _ a0 => a0.length == 96
  | .ddmPoll _ ddm flags => ddm.length == 10 && flags.length == 6
  | .spurFrameRx f _ => frameOk f
  | .ringFrameRx _ f => frameOk f
  | .beaconRx _ f _ => frameOk f
  | .linkAlarmRx _ f _ => frameOk f
  | .requestIssue _ _ _ _ _ data _ _ => decide (data.length ≤ 1480)
  | .read q _ => requestOk q
  | .write q _ => requestOk q
  | .pwrite q _ => requestOk q
  | .lread q _ => requestOk q
  | .lwrite q _ => requestOk q
  | .cas q _ => requestOk q
  | .fadd q _ => requestOk q
  | .cplRx f => frameOk f
  | .noticeRx f => frameOk f
  | .cycleFrameRx _ f _ => frameOk f
  | .cycleAbsorb _ f _ => frameOk f
  | .prickingWrite _ _ bytes => decide (bytes.length ≤ 4096)
  | .txPush _ bytes ups => decide (bytes.length ≤ 256) && decide (4 * ups.length ≤ bytes.length)
  | .canFrameStored _ f _ => decide (f.data.length ≤ 64)
  | .bridgeRequestEnd beats => decide (beats.length ≤ 1536)
  | .stErr taken beats => decide (taken ≤ beats.length ∧ beats.length ≤ 1536)
  | .windowTimeout taken beats => decide (taken ≤ beats.length ∧ beats.length ≤ 1536)
  | .readAhead beats _ => decide (beats.length ≤ 16)
  | .tunnelMessage p => decide (p.bytes.length ≤ 512)
  | .syncRx _ f _ => frameOk f
  | .followUpRx _ f => frameOk f
  | .announceRx _ f => frameOk f
  | .signalingRx _ f => frameOk f
  | .spurPtpRx f => ptpOk f
  | .pdelayReqRx _ w msg => ptpOk { w with msg }
  | .pdelayRespRx _ f fu => ptpOk f && fu.all ptpOk
  | .tetherHeartbeat h => h.seqs.length == 8
  | .stateDelta writes => writes.all fun w => decide (w.2.length ≤ 256)
  | .claimRx f => frameOk f
  | .grantRx f => frameOk f
  | .twinHeartbeatRx f => frameOk f
  | .patrolScrub ups _ => ups.all fun u => u.grade != 0
  | .hostWrite _ data cut => decide (data.length ≤ 65536) && (cut.map fun c => decide (c.toNat ≤ data.length)).getD true
  | .hostQwrite _ data cut => decide (data.length ≤ 65536) && (cut.map fun c => decide (c.toNat ≤ data.length)).getD true
  | .mbPush words => decide (words.length ≤ 511)
  | .mbPop k ups => decide (ups.length ≤ k.toNat)
  | .configApply c => c.slot0.settings.all (fun w => decide (w.2.length ≤ 256)) && c.slot1.settings.all (fun w => decide (w.2.length ≤ 256))
  | .wakeFrameRx f => frameOk f
  | .chunkData f _ _ => frameOk f
  | .query f => frameOk f
  | .activate f => frameOk f
  | .abort f => frameOk f
  | .updData _ _ _ _ digest data _ _ => digest.length == 8 && data.length == 4096
  | .updControl _ digest _ _ => digest.length == 8
  | .registerWrite _ _ data => decide (4 ≤ data.length ∧ data.length ≤ 256)
  | .chunkStatusRx f => frameOk f
  | .porNAssert _ | .sysRstNAssert | .porNRelease _ _ _ _ | .holdOverStart | .powerLinkLost | .clkFail _ | .clkFailRestart _ _
  | .coreVoltageFault | .coreVoltageRestart _ _ | .mainRst _ | .watchdogExpiry | .cpUe | .firmwareRestart
  | .mainDomainResetRelease _ _ | .unitRst _ | .bobRst _ _ | .unitResetRelease _ | .bobclkCleanWrite _ | .spreadApply
  | .portSpeedWrite _ _ | .loopPcsWrite _ _ | .moduleInsert _ | .modPresent _ | .moduleRemoved _ | .modAccGo _ _
  | .modAccDone _ _ _ | .linkDown _ _ | .linkUp _ _ | .dampTimeEnd _ | .dampClr _ | .verifyRetry _ | .preemptVerifySuccess _
  | .preemptVerifyFail _ | .frameReceivedWhole _ _ _ | .frameInject | .fenceRelease _ | .absentClearExpiry _ | .wardenActive
  | .beaconLaunch | .topoReportPeriodic | .beaconOkLoss | .breakMarginEnd _ _ | .modeReq _ | .pathModeChange | .pathChange _
  | .fullPathDrainEnd | .localFrameAdmit _ | .localWaitTimeout _ | .outputSelect _ _ | .bufferPurgeEnd | .stickyPeakRead _
  | .pairLoRead _ | .requestTimeout _ | .tagQuarantineEnd _ | .lockExpiry _ | .quiesceEnd | .cycleSnapshot | .cycleLaunch _
  | .cycleCopyCommit _ | .cycleApply _ | .cycleMasterTakeover _ | .streamEnWrite _ _ | .bankSupplyFail _ | .bankSupplyReturn _ _
  | .pinCfgWrite _ _ | .filterAccept _ _ | .glitchReject _ | .filtWrite _ _ | .outWrite _ _ | .outSet _ _ | .outClr _ _
  | .outTgl _ _ | .journalRecordWrite | .journalFlush | .rdPosWrite _ _ | .nop _ | .shin _ | .shout _ | .shio _ | .pull _
  | .push _ | .cload0 _ | .cdec0 _ | .cload1 _ | .cdec1 _ | .sclr _ | .irq _ | .cload01 _ | .cdec01 _ | .capt _ | .halt _
  | .stallEnd _ | .start _ | .stop _ | .resume _ | .groupStart _ _ | .groupStop _ _ | .groupResume _ _ | .syncPulse _
  | .txqPush _ _ _ _ | .rxqPop _ _ | .queueJoin _ _ | .slotWrite _ _ _ | .canEnable _ _ | .canIntegration _ | .canDisable _ _
  | .canOff _ | .frameSent _ _ _ | .arbitrationLost _ | .txError _ _ _ _ | .busOffRecovery _ | .abortHead _ | .canRxError _ _
  | .protocolException _ | .canIdComplete _ _ _ | .objectRead _ _ | .filterWrite _ _ _ | .bridgeRequest | .prefetchAged
  | .stitchLockExpiry | .stitchIrq _ _ | .windowEnable _ _ | .stbCtlWrite _ | .vbusPresent | .vbusLoss | .busReset
  | .highSpeedEntry | .chirpTimeout | .suspend | .remoteWakeRequest _ | .remoteWakeSignal | .hostResume | .resumeEnd
  | .setPortPower _ | .clearPortPower _ | .portReset _ | .portResetEnd _ _ | .overCurrent _ | .babble _ | .configChange _ _ _
  | .journalStreamPacket _ | .snapshotPacket _ | .eventPacket | .tunnelCompletion | .getIdentity _ | .jstreamStart _ _
  | .jstreamStop _ | .getJrnPos _ | .setImgSel _ _ | .getSvc _ _ | .gmSyncTx _ | .gmAnnounceTx _ | .pdelayReqTx _ | .syncLoss _
  | .domainRevert | .slewComplete | .jumpPersist | .acceptStep | .disarm | .timeSet _ | .nowLoRead | .incrWrite _
  | .picotEnable _ _ | .picotDisable _ _ | .picotStartEdge _ | .picotEndEdge _ | .feedReverse _ | .feedConduct _
  | .feedInRange _ _ | .feedUndervoltage _ | .feedOvervoltage _ | .inrushEnd _ | .branchOn _ _ | .branchOff _ _ | .restart _ _
  | .softStartEnd _ | .softStartTimeout _ | .limitBegin _ | .limitEnd _ | .faultTimerClear _ | .faultTimerExpiry _ | .fastTrip _
  | .offTimeEnd _ | .clearTimeEnd _ | .powerGoodRise _ | .powerGoodFall _ | .eclr _ | .plkPoll _ _ _ | .plkRead _ _ _ _
  | .plkWrite _ _ _ _ _ | .pwrLinkAccess _ _ | .holdTimeEnd | .powerDieReset | .powerDieColdStart | .tetherLoss | .tetherBack
  | .inputMirror _ | .twinRelN | .rel | .outputGapEnd _ | .silent | .startEvidence | .claimRepeat | .identityTake
  | .twinHeartbeatTx | .driveFault _ | .revertRequest | .revertHandover | .clrLimit | .drill | .drillStart | .drillTakeback _
  | .churnHandover _ _ | .handoverComplete _ | .hostRead _ _ _ | .hostQread _ _ _ | .readStat _ | .enterQpi | .exitQpi
  | .mbCompletion | .doorbellIn _ | .doorbellOut _ | .romImageLoad | .dramTrainingDone | .targetIsolated _ | .targetRing _
  | .targetPass _ | .targetDrowse _ | .drowseEntered | .wakeTimer | .hostCsWake | .pinWake _ | .wakeComplete | .wdogKick _
  | .assemblyExpiry | .statusReply | .sessionExpiry | .stagingCopy _ | .activation _ | .romRecoveryComplete | .recoveryStatusTx
  | .helperChunkTx | .meteringSample _ _ _ | .tetherStatus _ | .deviceRemoteWakeup _ | .portConnectionChange _ _ => true

end Sys2Proof
end

