-- ==== Sys2Proof/Safety.lean ====
section
/-!
DEFINITION. The terms in which statements are made: where a register command reaches its register, what a command leaves alone, the
canonical form of the stored data, and what a safe step is.
-/

namespace Sys2Proof.Machine

/-- Both logic domains run. -/
def State.runs (s : State) : Bool := !s.anat.kaHeld && !s.anat.mainHeld

/-- A register command reaches its register: both domains run, its unit is not in reset, and Load does not shut it out (01 R23, R25,
16 R406). -/
def State.takes (s : State) (u : Option ResetUnit) : Bool :=
  s.runs && !(u.map s.unitBusy).getD false && (s.mode != .load || s.boot.applying)

/-- Isolated, Seamless or Split. -/
def State.inField (s : State) : Bool := s.onRing || s.mode == .isolated

/-- Every register but those of `l` reads as before. -/
def SameRegs (l : List Nat) (s t : State) : Prop := ∀ a, a ∉ l → t.rd a = s.rd a

/-- Nothing but the registers of `l` changes. -/
def OnlyRegs (l : List Nat) (s t : State) : Prop := SameRegs l s t ∧ t = { s with regs := t.regs }

/-- Nothing but the registers of `l` changes, and an answer or signal leaves. -/
def OnlyRegsOut (l : List Nat) (s t : State) : Prop := SameRegs l s t ∧ t = { s with regs := t.regs, out := t.out }

/-- Every byte of memory reads as before. -/
def SameBytes (s t : State) : Prop := ∀ a, t.byte a = s.byte a

/-- The canonical form of registers, memory and check states: keys rising, nothing listed at its default. -/
def State.canonical (s : State) : Bool :=
  Tab.wf regReset s.regs && Memory.wf s.mem && Tab.wf (fun _ => 0) s.marks

/-- A step is safe when it ends in a next state: the spec gives every command of the table an effect. -/
def State.stepsSafely (s : State) : Prop := ∃ t, step s = .next t

end Sys2Proof.Machine
end

