-- ==== Sys2Proof/Certificates/Slice0/Obligations.lean ====
section
/-!
DEFINITION. The statements for the provers.
-/

open Sys2Proof Sys2Proof.Machine

/-- Both domains are held for a restart with RST_CAUSE `cause`: registers at reset, but for the power die (its bit COLD among them), fuses
and straps. -/
def HeldBoth (s t : State) (cause : BitVec 8) : Prop :=
  t.anat.kaHeld = true ∧ t.anat.mainHeld = true ∧ t.anat.cause = cause ∧ t.upd.nvm = s.upd.nvm ∧ t.pending = s.pending ∧
  (∀ a, regDom a ≠ .power → unreset a = false → a ≠ Reg.PWR_PWR_STAT → t.rd a = regReset a) ∧
  (∀ a, regDom a = .power ∨ unreset a = true → t.rd a = s.rd a) ∧
  t.flag Fd.PWR_PWR_STAT_COLD = s.flag Fd.PWR_PWR_STAT_COLD

/-- A request that is executed in DRAM: the engine serves, the request holds its serve entry and waits behind none of its flow, the
checks of R121 pass, and every word that it touches is clean. -/
def Ready (s : State) (k : ReqKind) (q : Request) : Prop :=
  s.anat.kaHeld = false ∧ s.serving = true ∧ s.boot.applying = false ∧ s.txn.serve.contains (k, q) = true ∧ s.waits k q = false ∧
  s.checks k q = (.ok, s) ∧ s.region q.addr.toNat = .dram ∧ ∀ w ∈ wordsOf q.addr.toNat q.bytes.toNat, s.mark w = 0

/-- The bytes of `d` stand at `a`, and every other byte reads as before. -/
def StoredAt (s t : State) (a : Nat) (d : List Byte) : Prop :=
  ∀ x, t.byte x = if a ≤ x ∧ x < a + d.length then d.getD (x - a) 0#8 else s.byte x

/-- A running bobbin fetches row `row` at `addr` with action `a`: it executes, the row is the one that state and conditions address,
and its parity is good. -/
def Fetches (s : State) (n : Fin 64) (addr row a : Nat) : Prop :=
  s.bobRun n ≠ 0 ∧ s.bobsExecute n = true ∧ s.nextRow n = addr ∧ s.rowWord n addr = row ∧ row / 2 ^ 17 % 16 = a ∧
  s.mark (rowAddr n addr) = 0

/-- The state in which a fetched row acts: EXEC.ROW names it, no row is held and the SYNC pulse has passed. -/
def fetched (n addr : Nat) (s : State) : State :=
  let t := (s.setFld (Fd.BOB_EXEC_ROW n) addr).setBob n { s.bob n with sync := false }
  t.setBob n { t.bob n with held := false }

/-- For every command c and every state s, a step of s with c in front of its queue is exec of c on s with the queue's rest as
its queue. (95_what_each_step_holds.md) -/
def Obligations.StepRunsTheFrontCommand : Prop :=
  ∀ (c : Instr) (s : State) (rest : List Instr), step { s with pending := c :: rest } = exec c { s with pending := rest }

/-- The model's choice (log entry 1): with no command waiting a step lets one TICK pass. The clock moves 2,560 ps; out of reset
the time counter moves by INCREMENT; the bytes of memory and the queue stay. (01_node_anatomy.md R17, 12_time_and_picots.md R290) -/
def Obligations.IdleStepIsOneTick : Prop :=
  ∀ s : State, s.pending = [] → ∃ t, step s = .next t ∧ t.clk = s.clk + 2560 ∧
    (s.anat.kaHeld = false → t.ctr = (s.ctr + 2560 * s.increment / 2560) % 2 ^ 96) ∧ t.pending = [] ∧ SameBytes s t

/-- After reset every register reads the reset value of its table; among them WDOG_CFG.TIMEOUT is 1,000 ms, MEM_CFG.SIZE 4 GiB,
DRW_CFG.WAKE_FRAME 1, USB_STAT.SUSPENDED 0, UNRESTRICTED 1 for the control processor and 0 for mailbox and tunnel. No command
waits and no request, lock or tag exists. (18_register_map.md R441, 16_start_up_modes_and_drowse.md R416, 05_one_address_space.md R129) -/
def Obligations.ResetValues : Prop :=
  (∀ a, State.reset.rd a = regReset a) ∧ State.reset.fld Fd.SYS_WDOG_CFG_TIMEOUT = 1000 ∧
  State.reset.fld Fd.MEM_MEM_CFG_SIZE = 1 ∧ State.reset.flag Fd.SYS_DRW_CFG_WAKE_FRAME = true ∧
  State.reset.flag Fd.USB_USB_STAT_SUSPENDED = false ∧ State.reset.flag (Fd.TXN_INIT_CFG_UNRESTRICTED 0) = true ∧
  State.reset.flag (Fd.TXN_INIT_CFG_UNRESTRICTED 1) = false ∧ State.reset.flag (Fd.TXN_INIT_CFG_UNRESTRICTED 2) = false ∧
  State.reset.pending = [] ∧ State.reset.txn = {} ∧ State.reset.canonical = true

/-- Each of POR_N_ASSERT, SYS_RST_N_ASSERT (while POR_N does not already hold the part), CLK_FAIL and CORE_VOLTAGE_FAULT (of a
running part that is not the field holder of a twin) leads to a state in which both domains are held, RST_CAUSE of the coming
start is fixed, every register of the two logic domains but fuses and STRAP reads its reset value, the power die's registers
with PWR_STAT.COLD, fuses and STRAP read as before, and the NVM and the queue of commands are kept. Power loss, unlike POR_N,
leaves the part unpowered: x_TXDIS, CAN and stitch lines are not driven, where POR_N holds x_TXDIS high, CAN_TXD recessive
and ST_RST_N low; field pins are high impedance under either, and at their keepers after a clock failure. Completion, under
conditions on the state and the operands alone, is stated for: porNAssert, sysRstNAssert, clkFail, coreVoltageFault. (01_node_anatomy.md R20, 01_node_anatomy.md R21, 01_node_anatomy.md R451, 18_register_map.md R441) -/
def Obligations.BothDomainsHeld : Prop :=
  (∀ (s : State) (b : Bool), ∃ t, exec (.porNAssert b) s = .next t ∧ HeldBoth s t 1#8 ∧ t.anat.unpowered = b ∧
    (∀ p, t.presents (.txdis p) = some (if b then .undriven else .high)) ∧
    (∀ n, t.presents (.canTxd n) = some (if b then .undriven else .recessive)) ∧
    t.presents .stitchReset = some (if b then .undriven else .low) ∧ ∀ n, t.presents (.fieldPin n) = some .highImpedance) ∧
  (∀ s : State, (s.anat.kaHeld = false ∨ s.anat.heldBy ≠ 0) → ∃ t, exec .sysRstNAssert s = .next t ∧ HeldBoth s t 2#8) ∧
  (∀ (s : State) (l : Fin 3), s.anat.kaHeld = false → s.fieldHolder = false → ∃ t, exec (.clkFail l) s = .next t ∧ HeldBoth s t 4#8 ∧
    ∀ n, t.presents (.fieldPin n) = some .keeper) ∧
  (∀ s : State, s.anat.kaHeld = false → s.fieldHolder = false →
    ∃ t, exec .coreVoltageFault s = .next t ∧ HeldBoth s t (if s.twinEn then 0x41#8 else 0x01#8))

/-- The rising edge of POR_N or SYS_RST_N samples SVC_N and TWIN_POS into STRAP and starts both domains; after a clock failure,
and after a core-voltage fault, both start once the cause has been gone for 1 ms. ROM then chooses a slot from the verdicts
on the two slots, the filtered pin levels are loaded from the first samples, the spread triangle starts, a module that stands
in its cage starts its 100 ms, and a restart after a clock failure is recorded as 0x00B. Completion, under conditions on the
state and the operands alone, is stated for: porNRelease, clkFailRestart, coreVoltageRestart. (16_start_up_modes_and_drowse.md R395, 01_node_anatomy.md R20, 01_node_anatomy.md R451, 18_register_map.md R441) -/
def Obligations.StartAfterBothDomainsWereHeld : Prop :=
  (∀ (s : State) (svc pos : Bool) (v : Slots) (l : BitVec 256), s.anat.kaHeld = true → s.anat.heldBy = 0 →
    exec (.porNRelease svc pos v l) s =
      .next (((s.setFlag Fd.SYS_STRAP_SVC svc).setFlag Fd.SYS_STRAP_TWIN_POS pos).startBoth v l)) ∧
  (∀ (s : State) (v : Slots) (l : BitVec 256), s.anat.kaHeld = true → s.anat.heldBy = 1 →
    exec (.clkFailRestart v l) s = .next ((s.advance msPs).startBoth v l)) ∧
  (∀ (s : State) (v : Slots) (l : BitVec 256), s.anat.kaHeld = true → s.anat.heldBy = 2 →
    exec (.coreVoltageRestart v l) s = .next ((s.advance msPs).startBoth v l)) ∧
  (∀ (s : State) (v : Slots) (l : BitVec 256), ∃ u : State, u.anat.kaHeld = false ∧ u.anat.mainHeld = false ∧
    u.rd Reg.SYS_RST_CAUSE = s.anat.cause.setWidth 32 ∧ u.flag Fd.SYS_CLK_STAT_CLEAN_LOCK = true ∧
    u.flag Fd.SYS_CLK_STAT_CLK_FAIL = (s.anat.heldBy == 1) ∧ u.field.pins = [] ∧ u.anat.triangle = s.clk ∧
    (∀ p, p < 3 → (s.port p).modLow = true → s.flag (Fd.PORT_STAT_MOD_PRESENT p) = false →
      u.deadline (.modPresent p) = some (s.clk + 100 * msPs)) ∧
    s.startBoth v l = ((u.loadLevels l).onlyIf (s.anat.heldBy == 1) (State.sysRec 0x00B 0)).romStart v)

/-- With SVC_N low at the strap edge, no bootable slot, or FAIL_RUN of 4 or more, ROM enters Recovery. Otherwise it chooses the
bootable slot with the higher version, slot 0 when the versions are equal, and with FAIL_RUN 2 or 3 and two bootable slots
the other one, marked as fallback. A slot is bootable when its header and manifest have the formats of R418, its epoch is at
least the fused epoch and its manifest signature verifies. (R398) -/
def Obligations.RomChoosesASlot : Prop :=
  ∀ (s : State) (v : Slots),
    let a := s.bootable 0 v.okA
    let b := s.bootable 1 v.okB
    let va := (s.manifestAt (fwSlot 0)).version
    let vb := (s.manifestAt (fwSlot 1)).version
    let run := s.fld Fd.SYS_BOOT_STAT_FAIL_RUN
    (s.flag Fd.SYS_STRAP_SVC = false → s.chooseSlot v = none) ∧ (a = false → b = false → s.chooseSlot v = none) ∧
    (4 ≤ run → s.chooseSlot v = none) ∧
    (s.flag Fd.SYS_STRAP_SVC = true → run < 4 →
      (a = true → b = false → s.chooseSlot v = some (0, false)) ∧ (a = false → b = true → s.chooseSlot v = some (1, false)) ∧
      (a = true → b = true → run < 2 → s.chooseSlot v = some (if va < vb then 1 else 0, false)) ∧
      (a = true → b = true → 2 ≤ run → s.chooseSlot v = some (if va < vb then 0 else 1, true))) ∧
    (a = true ↔ ((s.manifestAt (fwSlot 0)).wellFormed 1 = true ∧ (s.manifestAt (fwSlot 0)).sigKind = 0 ∧
      (s.manifestAt (fwSlot 0)).target = 0x4160 ∧ s.fusedEpoch ≤ (s.manifestAt (fwSlot 0)).epoch ∧ v.okA = true)) ∧
    (s.chooseSlot v = none → ∃ u : State, u.boot.rom = false ∧ s.romStart v = (u.changeMode .recovery).pinsOff.resumeSession) ∧
    (∀ k fb, s.chooseSlot v = some (k, fb) → (s.romStart v).fld Fd.SYS_BOOT_STAT_SLOT = k ∧
      (s.romStart v).flag Fd.SYS_BOOT_STAT_SLOT_FALLBACK = fb ∧ (s.romStart v).boot.rom = true)

/-- A key write of MAIN_RST, the watchdog, CP_UE and a restart by the firmware (which runs in no Recovery) restart the main
domain of a running part (for watchdog and CP_UE: counted under R409, on a package that is not the field holder of a twin). A
restart leaves the main domain held, its journal, bobbins, controllers, bridge, USB, host port and handovers empty, and the
outputs released; the reset itself keeps every byte of DRAM and of the host window, clears every churn byte, keeps every
register outside the main domain, and with CLK_CTL at reset BOBCLK_IS_CLEAN is 0. Completion, under conditions on the state
and the operands alone, is stated for: mainRst, watchdogExpiry, cpUe, firmwareRestart. (01_node_anatomy.md R22, 16_start_up_modes_and_drowse.md R409, 15_memories_and_queues.md R468, 13_feeds_and_branches.md R344) -/
def Obligations.MainRestartHoldsTheMainDomain : Prop :=
  (∀ (s : State) (w : Word), s.takes none = true → s.asleepOrLoading = false → bits w 16 16 = 0x0A5C → w.getLsbD 0 = true →
    exec (.mainRst w) s = .next (answer (.ok, s.mainRestart Fd.SYS_RST_CAUSE_SOFT))) ∧
  (∀ s : State, s.armed .wdog = true → s.fieldHolder = false →
    ∃ u : State, u = (s.expire .wdog).noteUnsafe ∧ exec .watchdogExpiry s = .next (u.mainRestart Fd.SYS_RST_CAUSE_WDOG)) ∧
  (∀ s : State, s.runs = true → s.fieldHolder = false →
    exec .cpUe s = .next (s.noteUnsafe.mainRestart Fd.SYS_RST_CAUSE_CP_UE)) ∧
  (∀ s : State, s.runs = true → s.mode ≠ .recovery → exec .firmwareRestart s = .next (s.mainRestart Fd.SYS_RST_CAUSE_SOFT)) ∧
  (∀ (s : State) (c : Fld), s.runs = true →
    let t := s.mainRestart c
    t.anat.mainHeld = true ∧ t.anat.outputsReleased = true ∧ t.mode = .recovery ∧ t.boot.cold = false ∧ t.bobs = [] ∧ t.cans = [] ∧
    t.stb = {} ∧ t.usb = {} ∧ t.cyc = {} ∧ t.host = {} ∧ t.hand = [] ∧ t.txn.locks = [] ∧ t.txn.tags = [] ∧ t.txn.serve = []) ∧
  (∀ (s : State) (a : Nat), (a < 0x1000000000 → s.mainReset.byte a = s.byte a) ∧
    (0x1000000000 ≤ a → a < 0x1000400000 → s.mainReset.byte a = 0#8) ∧
    (0x1001000000 ≤ a → a < 0x1001010000 → s.mainReset.byte a = s.byte a)) ∧
  (∀ (s : State) (a : Nat), regDom a ≠ .main → a ≠ Reg.SYS_CLK_STAT → s.mainReset.rd a = s.rd a) ∧
  (∀ s : State, s.mainReset.flag Fd.SYS_CLK_STAT_BOBCLK_IS_CLEAN = false ∧
    s.mainReset.flag Fd.PWR_PWR_STAT_COLD = s.flag Fd.PWR_PWR_STAT_COLD ∧
    s.mainReset.flag Fd.USB_USB_STAT_VBUS = s.flag Fd.USB_USB_STAT_VBUS)

/-- While the main domain alone is held, its release loads the filtered levels, forms the gap record 0x003 with LOST and the
cause in DETAIL, and starts ROM with the verdicts on the two slots. Completion, under conditions on the state and the
operands alone, is stated for: mainDomainResetRelease. (01_node_anatomy.md R22, 16_start_up_modes_and_drowse.md R398, 07_field_pins_and_edge_journal.md R182) -/
def Obligations.MainDomainLeavesReset : Prop :=
  ∀ (s : State) (v : Slots) (l : BitVec 256), s.anat.mainHeld = true → s.anat.kaHeld = false →
    ∃ u : State, u = State.loadLevels l { s with anat := { s.anat with mainHeld := false } } ∧
    exec (.mainDomainResetRelease v l) s =
      .next ((u.pushRec 363 { u.record 4 0x003 (bits (u.rd Reg.SYS_RST_CAUSE) 0 8) false with lost := true }).romStart v)

/-- A write of UNIT_RST or BOB_RST starts the reset of each unit whose bit is 1, in ascending order, outside Recovery, Load and
Drowse; a unit already in reset ignores it; a start sets the busy bit, answers what the unit holds and arms the release 256
PERI cycles (of 5,120 ps) ahead. The release, at its deadline, clears the busy bit. The reset of the cycle engine discards
its staged copies. Completion, under conditions on the state and the operands alone, is stated for: unitRst, bobRst,
unitResetRelease. (01_node_anatomy.md R24, 01_node_anatomy.md R25, 01_node_anatomy.md R26) -/
def Obligations.UnitResets : Prop :=
  (∀ (s : State) (w : Word), s.takes none = true → s.asleepOrLoading = false → exec (.unitRst w) s =
    .next (answer (.ok, s.forEach ((List.range 16).filter fun i => w.getLsbD i) fun i t =>
      match unitOfBit i with
      | some u => t.startUnitReset u
      | none => t))) ∧
  (∀ (s : State) (high : Bool) (w : Word), s.takes none = true → s.asleepOrLoading = false → exec (.bobRst high w) s =
    .next (answer (.ok, s.forEach (named high w) fun n t => t.startUnitReset (.bobbin (Fin.ofNat 64 n))))) ∧
  (∀ (s : State) (u : ResetUnit), s.unitBusy u = true → s.startUnitReset u = s) ∧
  (∀ (s : State) (u : ResetUnit), s.unitBusy u = false →
    s.startUnitReset u = (((s.on (busyBit u)).flushUnit u).unitEffect u).arm (.unit u) 1310720) ∧
  (∀ (s : State) (u : ResetUnit), s.armed (.unit u) = true → exec (.unitResetRelease u) s =
    .next (((s.expire (.unit u)).off (busyBit u)).unitReleased u)) ∧
  (∀ (s : State), (s.unitEffect .cycle).cyc.staged = []) ∧
  (∀ (s : State) (u : ResetUnit), (s.off (busyBit u)).unitBusy u = false) ∧
  (∀ (s : State) (u : ResetUnit), (s.on (busyBit u)).unitBusy u = true)

/-- With every bobbin STOPPED, outside Recovery, Load and Drowse, a write of CLK_CTL that leaves SPREAD alone loads BOBCLK_CLEAN
and CLK_STAT.BOBCLK_IS_CLEAN and nothing else; one that changes SPREAD is refused with WRONG_MODE. SPREAD takes effect at the
next multiple of 32 µs from the start of the triangle. Completion, under conditions on the state and the operands alone, is
stated for: bobclkCleanWrite, spreadApply. (01_node_anatomy.md R18, 01_node_anatomy.md R19) -/
def Obligations.ClockSettings : Prop :=
  (∀ (s : State) (w : Word), s.takes none = true → s.asleepOrLoading = false → s.applying = false →
    bits w 0 2 = s.fld Fd.SYS_CLK_CTL_SPREAD → (∀ n, n < 64 → s.bobRun n = 0) → ∃ t, exec (.bobclkCleanWrite w) s = .next t ∧
    t.flag Fd.SYS_CLK_CTL_BOBCLK_CLEAN = w.getLsbD 4 ∧ t.flag Fd.SYS_CLK_STAT_BOBCLK_IS_CLEAN = w.getLsbD 4 ∧
    t.fld Fd.SYS_CLK_CTL_SPREAD = s.fld Fd.SYS_CLK_CTL_SPREAD ∧ t.out = .answer .ok :: s.out ∧
    OnlyRegsOut [Reg.SYS_CLK_CTL, Reg.SYS_CLK_STAT] s t) ∧
  (∀ (s : State) (w : Word), s.takes none = true → s.asleepOrLoading = false → s.applying = false →
    bits w 0 2 ≠ s.fld Fd.SYS_CLK_CTL_SPREAD → ∃ t, exec (.bobclkCleanWrite w) s = .next t ∧
    t.out = .answer .wrongMode :: s.out ∧ OnlyRegsOut [Reg.TXN_WRONG_MODE_CNT] s t) ∧
  (∀ s : State, s.anat.kaHeld = false → ∃ t, exec .spreadApply s = .next t ∧
    t.anat.spreadNow = BitVec.ofNat 2 (s.fld Fd.SYS_CLK_CTL_SPREAD) ∧
    (s.anat.triangle ≤ s.clk → s.clk ≤ t.clk ∧ t.clk < s.clk + 32 * usPs ∧ (t.clk - s.anat.triangle) % (32 * usPs) = 0) ∧
    SameRegs [] s t ∧ SameBytes s t)

/-- Out of reset and outside near-end loopback loss of light sets LOS and clears RX_LOCK, loss of lock clears RX_LOCK and a
Remote Fault sets REMOTE_FAULT; each declares the link down with its cause and lets the 10 ms of a link up begin anew; a port
that is not up has nothing to declare, and in loopback LOS is shown and ignored. The 10 ms run while the link is down and
x_TXDIS low. LINK_UP shows RX_LOCK with x_TXDIS high too; the link is raised, at the end of the 10 ms, with an accepted
module, x_TXDIS low and no PCS reset, but with 1000BASE-X and AN37_EN a partner without full duplex sets AN_MISMATCH and the
link stays down. At the spur raising it sets LINK_UP and clears AN_MISMATCH (the clearing is the model's choice, log entry
124). The end of damping, and DAMP_CLR, clear DAMPED, and x_TXDIS is then low exactly with an accepted module, a line mode
and no TXDIS_FORCE; no other register and no byte changes. Completion, under conditions on the state and the operands alone,
is stated for: linkDown, linkUp, dampTimeEnd, dampClr. (02_ring_and_spur_ports.md R32, 02_ring_and_spur_ports.md R39, 02_ring_and_spur_ports.md R40, 02_ring_and_spur_ports.md R41, 02_ring_and_spur_ports.md R43) -/
def Obligations.LinkDownAndUp : Prop :=
  (∀ (s : State) (p : Fin 3), s.anat.kaHeld = false → s.flag (Fd.PORT_CTL_LOOP_PCS p) = false →
    exec (.linkDown p 0) s =
      .next ((((s.on (Fd.PORT_STAT_LOS p)).off (Fd.PORT_STAT_RX_LOCK p)).declareDown p 0).restartUp p) ∧
    exec (.linkDown p 1) s = .next (((s.off (Fd.PORT_STAT_RX_LOCK p)).declareDown p 1).restartUp p) ∧
    exec (.linkDown p 2) s = .next (((s.on (Fd.PORT_STAT_REMOTE_FAULT p)).declareDown p 2).restartUp p)) ∧
  (∀ (s : State) (p : Fin 3), s.anat.kaHeld = false → s.flag (Fd.PORT_CTL_LOOP_PCS p) = true →
    exec (.linkDown p 0) s = .next (s.on (Fd.PORT_STAT_LOS p)) ∧ exec (.linkDown p 2) s = .next s) ∧
  (∀ (s : State) (p c : Nat), s.linkIsUp p = false → s.declareDown p c = s) ∧
  (∀ (s : State) (p : Nat), s.linkIsUp p = false → s.flag (Fd.PORT_STAT_TXDIS p) = false →
    (s.restartUp p).deadline (.linkUp p) = some (s.clk + 10 * msPs) ∧ SameRegs [] s (s.restartUp p)) ∧
  (∀ (s : State) (p : Fin 3) (fd : Bool), s.anat.kaHeld = false → s.linkIsUp p = false →
    s.flag (Fd.PORT_STAT_MOD_PRESENT p) = true → s.flag (Fd.PORT_CTL_LOOP_PCS p) = false → s.unitBusy (.pcs p) = false →
    s.speedAct p ≠ 0 →
    let u := ((s.on (Fd.PORT_STAT_RX_LOCK p)).off (Fd.PORT_STAT_LOS p)).off (Fd.PORT_STAT_REMOTE_FAULT p)
    (s.flag (Fd.PORT_STAT_TXDIS p) = true → exec (.linkUp p fd) s = .next u) ∧
    (s.flag (Fd.PORT_STAT_MOD_READY p) = true → s.flag (Fd.PORT_STAT_TXDIS p) = false →
      (s.speedAct p = 1 → s.flag (Fd.PORT_CTL_AN37_EN p) = true → fd = false →
        exec (.linkUp p fd) s = .next (u.on (Fd.PORT_STAT_AN_MISMATCH p))) ∧
      ((s.speedAct p ≠ 1 ∨ s.flag (Fd.PORT_CTL_AN37_EN p) = false ∨ fd = true) →
        exec (.linkUp p fd) s = .next ((u.expire (.linkUp p)).raiseLink p)))) ∧
  (∀ s : State, (s.raiseLink 2).linkIsUp 2 = true ∧ (s.raiseLink 2).flag (Fd.PORT_STAT_AN_MISMATCH 2) = false) ∧
  (∀ (s : State) (p : Fin 3), s.armed (.damp p) = true → exec (.dampTimeEnd p) s = .next ((s.expire (.damp p)).undamp p)) ∧
  (∀ (s : State) (p : Fin 3), s.takes none = true → exec (.dampClr p) s = .next (answer (.ok, s.undamp p))) ∧
  (∀ (s : State) (p : Fin 3), s.anat.kaHeld = false → (s.undamp p).flag (Fd.PORT_STAT_DAMPED p) = false ∧
    (s.undamp p).armed (.damp p) = false ∧
    (s.undamp p).flag (Fd.PORT_STAT_TXDIS p) =
      !(s.flag (Fd.PORT_STAT_MOD_READY p) && !s.flag (Fd.PORT_CTL_TXDIS_FORCE p) && s.speedAct p != 0) ∧
    SameRegs [Reg.PORT_STAT p] s (s.undamp p) ∧ SameBytes s (s.undamp p))

/-- Outside near-end loopback, at a link up: with PREEMPT_EN and VERIFY_DIS preemption is active at once; with PREEMPT_EN alone
VERIFY_STATE is verifying, a verify frame leaves and verifyTime is armed. A response makes VERIFY_STATE succeeded and
preemption active. When verifyTime expires without one, a further verify frame leaves while attempts remain; with
VERIFY_LIMIT attempts made, VERIFY_STATE is failed, VERIFY_FAIL is set and counted, and record 0x005 is formed. Completion,
under conditions on the state and the operands alone, is stated for: verifyRetry, preemptVerifySuccess, preemptVerifyFail. (02_ring_and_spur_ports.md R45, 02_ring_and_spur_ports.md R46) -/
def Obligations.PreemptionVerification : Prop :=
  (∀ (s : State) (p : Fin 3), s.flag (Fd.PORT_PREEMPT_CTL_PREEMPT_EN p) = true → s.flag (Fd.PORT_CTL_LOOP_PCS p) = false →
    (s.flag (Fd.PORT_PREEMPT_CTL_VERIFY_DIS p) = true →
      (s.preemptStart p).flag (Fd.PORT_PREEMPT_STAT_ACTIVE p) = true ∧ OnlyRegs [Reg.PORT_PREEMPT_STAT p] s (s.preemptStart p)) ∧
    (s.flag (Fd.PORT_PREEMPT_CTL_VERIFY_DIS p) = false →
      (s.preemptStart p).fld (Fd.PORT_PREEMPT_STAT_VERIFY_STATE p) = 2 ∧ (s.preemptStart p).out = .verifyFrame p :: s.out ∧
      (s.preemptStart p).deadline (.verify p) = some (s.clk + s.fld (Fd.PORT_PREEMPT_CTL_VERIFY_TIME p) * msPs) ∧
      SameRegs [Reg.PORT_PREEMPT_STAT p] s (s.preemptStart p))) ∧
  (∀ (s : State) (p : Fin 3), s.armed (.verify p) = true → (s.port p).verifyTries < s.fld (Fd.PORT_PREEMPT_CTL_VERIFY_LIMIT p) →
    ∃ t, exec (.verifyRetry p) s = .next t ∧ (t.port p).verifyTries = (s.port p).verifyTries + 1 ∧
      t.out = .verifyFrame p :: s.out ∧ t.armed (.verify p) = true ∧ SameRegs [] s t ∧ SameBytes s t) ∧
  (∀ (s : State) (p : Fin 3), s.fld (Fd.PORT_PREEMPT_STAT_VERIFY_STATE p) = 2 →
    ∃ t, exec (.preemptVerifySuccess p) s = .next t ∧ t.fld (Fd.PORT_PREEMPT_STAT_VERIFY_STATE p) = 3 ∧
      t.flag (Fd.PORT_PREEMPT_STAT_ACTIVE p) = true ∧ t.armed (.verify p) = false ∧ SameRegs [Reg.PORT_PREEMPT_STAT p] s t ∧
      SameBytes s t ∧ t.out = s.out) ∧
  (∀ (s : State) (p : Fin 3), s.armed (.verify p) = true → s.fld (Fd.PORT_PREEMPT_CTL_VERIFY_LIMIT p) ≤ (s.port p).verifyTries →
    exec (.preemptVerifyFail p) s =
      .next (((((s.expire (.verify p)).setFld (Fd.PORT_PREEMPT_STAT_VERIFY_STATE p) 4).on (Fd.PORT_EVT_VERIFY_FAIL p)).bump
        (Reg.PORT_VERIFY_FAIL_CNT p)).sysRec 0x005 p))

/-- x_MODABS_N going low starts 100 ms, in reset only with its end, after which MOD_PRESENT and EVT.MOD_INSERTED are set and,
with MM_EN, 300 ms start, without it the module is ready. The identity is then read: no acknowledge or a wrong check byte
sets MOD_BAD and its event; a good one is kept, arms the poll of DDM_PERIOD times 100 ms, gives SPEED_ACT with AUTO, and
makes the module ready unless AUTO finds no mode, which sets MOD_BAD. Removal declares the link down with cause 3, clears
MOD_PRESENT, MOD_READY and MOD_BAD, sets TXDIS and EVT.MOD_REMOVED, cancels the waits and ends an access without acknowledge.
A poll loads the DDM words and flags, and a flag that rises sets DDM_ALARM. Completion, under conditions on the state and the
operands alone, is stated for: moduleInsert, modPresent, moduleIdentityRead, moduleRemoved, ddmPoll. (02_ring_and_spur_ports.md R31, 02_ring_and_spur_ports.md R35, 02_ring_and_spur_ports.md R36, 02_ring_and_spur_ports.md R37) -/
def Obligations.ModuleManagement : Prop :=
  (∀ (s : State) (p : Fin 3), s.anat.kaHeld = true → ∃ t, exec (.moduleInsert p) s = .next t ∧ (t.port p).modLow = true ∧
    t = { s with ports := t.ports }) ∧
  (∀ (s : State) (p : Fin 3), s.anat.kaHeld = false → s.flag (Fd.PORT_STAT_MOD_PRESENT p) = false →
    ∃ t, exec (.moduleInsert p) s = .next t ∧ t.deadline (.modPresent p) = some (s.clk + 100 * msPs) ∧
    (t.port p).modLow = true ∧ t = { s with ports := t.ports, timers := t.timers }) ∧
  (∀ (s : State) (p : Fin 3), s.armed (.modPresent p) = true →
    let u := ((s.expire (.modPresent p)).on (Fd.PORT_STAT_MOD_PRESENT p)).on (Fd.PORT_EVT_MOD_INSERTED p)
    exec (.modPresent p) s =
      .next (if u.flag (Fd.PORT_MOD_CTL_MM_EN p) then u.arm (.modWait p) (300 * msPs) else u.moduleReady p)) ∧
  (∀ (s : State) (p : Fin 3) (ack : Bool) (a0 : List Byte), s.armed (.modWait p) = true →
    let u := s.expire (.modWait p)
    let v := (u.setPort p { u.port p with ident := a0 }).arm (.ddm p) (u.fld (Fd.PORT_MOD_CTL_DDM_PERIOD p) * 100 * msPs)
    ((ack = false ∨ identityOk a0 = false) → exec (.moduleIdentityRead p ack a0) s =
      .next (((u.on (Fd.PORT_STAT_MOD_BAD p)).on (Fd.PORT_EVT_MOD_BAD p)).driveTxdis p)) ∧
    (ack = true → identityOk a0 = true → v.fld (Fd.PORT_CTL_SPEED p) ≠ 3 → exec (.moduleIdentityRead p ack a0) s =
      .next (v.moduleReady p)) ∧
    (ack = true → identityOk a0 = true → v.fld (Fd.PORT_CTL_SPEED p) = 3 →
      let w := v.setFld (Fd.PORT_STAT_SPEED_ACT p) (autoMode a0)
      w.fld (Fd.PORT_CTL_SPEED p) = 3 → exec (.moduleIdentityRead p ack a0) s =
        .next (if autoMode a0 = 0 then (w.on (Fd.PORT_STAT_MOD_BAD p)).driveTxdis p else w.moduleReady p))) ∧
  (∀ (s : State) (p : Fin 3), s.anat.kaHeld = false → s.linkIsUp p = false → s.flag (Fd.PORT_MOD_ACC_BUSY p) = false → s.fld (Fd.PORT_CTL_SPEED p) ≠ 3 →
    ∃ t, exec (.moduleRemoved p) s = .next t ∧ t.flag (Fd.PORT_STAT_MOD_PRESENT p) = false ∧
    t.flag (Fd.PORT_STAT_MOD_READY p) = false ∧ t.flag (Fd.PORT_STAT_MOD_BAD p) = false ∧ t.flag (Fd.PORT_STAT_TXDIS p) = true ∧
    t.flag (Fd.PORT_EVT_MOD_REMOVED p) = true ∧ (t.port p).ident = [] ∧ t.armed (.modPresent p) = false ∧
    t.armed (.modWait p) = false ∧ t.armed (.ddm p) = false ∧ SameRegs [Reg.PORT_STAT p, Reg.PORT_EVT p] s t ∧ SameBytes s t) ∧
  (∀ (s : State) (p : Fin 3) (ddm flags : List Byte), s.flag (Fd.PORT_MOD_CTL_DDM_EN p) = true → s.flag (Fd.PORT_MOD_CTL_MM_EN p) = true → ddmSupported (s.port p).ident = true →
    ∃ t, exec (.ddmPoll p ddm flags) s = .next t ∧
    t.rd (Reg.PORT_MOD_DDM0 p) = BitVec.ofNat 32 (fieldBE ddm 0 2 + fieldBE ddm 2 2 * 65536) ∧
    t.rd (Reg.PORT_MOD_DDM1 p) = BitVec.ofNat 32 (fieldBE ddm 4 2 + fieldBE ddm 6 2 * 65536) ∧
    t.rd (Reg.PORT_MOD_DDM2 p) = BitVec.ofNat 32 (fieldBE ddm 8 2) ∧
    t.rd (Reg.PORT_MOD_FLAGS p) = BitVec.ofNat 32 (fieldBE flags 0 2 + fieldBE flags 4 2 * 65536) ∧
    (t.rd (Reg.PORT_MOD_FLAGS p) &&& ~~~s.rd (Reg.PORT_MOD_FLAGS p) ≠ 0#32 → t.flag (Fd.PORT_EVT_DDM_ALARM p) = true) ∧
    SameRegs [Reg.PORT_MOD_DDM0 p, Reg.PORT_MOD_DDM1 p, Reg.PORT_MOD_DDM2 p, Reg.PORT_MOD_FLAGS p, Reg.PORT_EVT p] s t ∧
    SameBytes s t)

/-- MOD_ACC.GO while BUSY is refused with BUSY, a write to page A0h with DENIED; otherwise it is taken, and BUSY is set with a
module present, NAK without one. The end of an access clears BUSY and sets DONE, a read placing its byte in MOD_DATA, or NAK
without acknowledge. A write of CTL is refused with WRONG_MODE in Drowse and when it raises LOOP_PCS outside Isolated;
otherwise a change of SPEED or LOOP_PCS declares the link down with cause 4, CTL takes the writable bits, SPEED_ACT the mode,
x_TXDIS follows, and a change of SPEED, LOOP_PCS or AN37_EN lets the 10 ms of a link up begin anew. Completion, under
conditions on the state and the operands alone, is stated for: modAccGo, modAccDone, portSpeedWrite, loopPcsWrite. (02_ring_and_spur_ports.md R30, 02_ring_and_spur_ports.md R38, 02_ring_and_spur_ports.md R39, 02_ring_and_spur_ports.md R42, 02_ring_and_spur_ports.md R470) -/
def Obligations.ModuleAccessAndPortControl : Prop :=
  (∀ (s : State) (p : Fin 3) (w : Word), s.takes none = true →
    (s.flag (Fd.PORT_MOD_ACC_BUSY p) = true → exec (.modAccGo p w) s = .next (answer (.busy, s))) ∧
    (s.flag (Fd.PORT_MOD_ACC_BUSY p) = false → w.getLsbD 9 = true → w.getLsbD 8 = false →
      exec (.modAccGo p w) s = .next (answer (.denied, s))) ∧
    (s.flag (Fd.PORT_MOD_ACC_BUSY p) = false → (w.getLsbD 9 = false ∨ w.getLsbD 8 = true) →
      ∃ t, exec (.modAccGo p w) s = .next t ∧ t.flag (Fd.PORT_MOD_ACC_BUSY p) = s.flag (Fd.PORT_STAT_MOD_PRESENT p) ∧
      t.flag (Fd.PORT_MOD_ACC_NAK p) = (!s.flag (Fd.PORT_STAT_MOD_PRESENT p)) ∧ t.flag (Fd.PORT_MOD_ACC_DONE p) = false ∧
      t.out = .answer .ok :: s.out ∧ OnlyRegsOut [Reg.PORT_MOD_ACC p] s t)) ∧
  (∀ (s : State) (p : Fin 3) (d : Byte), s.flag (Fd.PORT_MOD_ACC_BUSY p) = true →
    (∃ t, exec (.modAccDone p false d) s = .next t ∧ t.flag (Fd.PORT_MOD_ACC_BUSY p) = false ∧
      t.flag (Fd.PORT_MOD_ACC_NAK p) = true ∧ OnlyRegs [Reg.PORT_MOD_ACC p] s t) ∧
    (∃ t, exec (.modAccDone p true d) s = .next t ∧ t.flag (Fd.PORT_MOD_ACC_BUSY p) = false ∧
      t.flag (Fd.PORT_MOD_ACC_DONE p) = true ∧
      (s.flag (Fd.PORT_MOD_ACC_WRITE p) = false → t.fld (Fd.PORT_MOD_DATA_RDATA p) = d.toNat) ∧
      OnlyRegs [Reg.PORT_MOD_ACC p, Reg.PORT_MOD_DATA p] s t)) ∧
  (∀ (s : State) (p : Fin 3) (w : Word), s.takes none = true →
    (s.mode = .drowse → exec (.portSpeedWrite p w) s = .next (answer (wrongMode s))) ∧
    (s.mode ≠ .isolated → w.getLsbD 5 = true → s.flag (Fd.PORT_CTL_LOOP_PCS p) = false →
      exec (.loopPcsWrite p w) s = .next (answer (wrongMode s))) ∧
    (s.mode ≠ .drowse → (s.mode = .isolated ∨ w.getLsbD 5 = false ∨ s.flag (Fd.PORT_CTL_LOOP_PCS p) = true) →
      bits w 0 2 ≠ 3 → ∃ u : State,
      u = (if bits w 0 2 = s.fld (Fd.PORT_CTL_SPEED p) ∧ w.getLsbD 5 = s.flag (Fd.PORT_CTL_LOOP_PCS p) then s else s.declareDown p 4) ∧
      exec (.portSpeedWrite p w) s = .next (answer (.ok, State.onlyIf
        (!(bits w 0 2 == s.fld (Fd.PORT_CTL_SPEED p) && w.getLsbD 5 == s.flag (Fd.PORT_CTL_LOOP_PCS p) &&
          w.getLsbD 3 == s.flag (Fd.PORT_CTL_AN37_EN p))) (State.restartUp p)
        (((u.wr (Reg.PORT_CTL p) (w &&& 0x3B#32)).setFld (Fd.PORT_STAT_SPEED_ACT p) (bits w 0 2)).driveTxdis p))) ∧
      exec (.loopPcsWrite p w) s = exec (.portSpeedWrite p w) s))

/-- An invalid window accepts any SEQ. In a valid one a SEQ 1 to 32,767 above TOP is accepted and becomes TOP; one 0 to 127 below
TOP is accepted exactly when its map bit is 0 and leaves TOP; every other SEQ is stale. Whatever was accepted is a duplicate
when it comes again. A frame of an absent node is discarded and counted in ABSENT_DROP; an accepted one only changes its
window, a duplicate counts in DUP_DISCARD, a stale one in STALE_DISCARD. (03_ring_frames_and_paths.md R68, 03_ring_frames_and_paths.md R70) -/
def Obligations.WindowTest : Prop :=
  (∀ (w : Window) (q : BitVec 16), w.valid = false → windowTest w q = .accept { valid := true, top := q, map := 1#128 }) ∧
  (∀ (w : Window) (q : BitVec 16), w.valid = true → 1 ≤ (q - w.top).toNat → (q - w.top).toNat ≤ 32767 →
    ∃ v, windowTest w q = .accept v ∧ v.valid = true ∧ v.top = q ∧ v.map.getLsbD 0 = true ∧
    ∀ k, k + (q - w.top).toNat < 128 → v.map.getLsbD (k + (q - w.top).toNat) = w.map.getLsbD k) ∧
  (∀ (w : Window) (q : BitVec 16), w.valid = true → (w.top - q).toNat ≤ 127 →
    (w.map.getLsbD (w.top - q).toNat = true → windowTest w q = .dup) ∧
    (w.map.getLsbD (w.top - q).toNat = false → ∃ v, windowTest w q = .accept v ∧ v.valid = true ∧ v.top = w.top)) ∧
  (∀ (w : Window) (q : BitVec 16), w.valid = true → 32767 < (q - w.top).toNat → 127 < (w.top - q).toNat → windowTest w q = .stale) ∧
  (∀ (w v : Window) (q : BitVec 16), windowTest w q = .accept v → windowTest v q = .dup) ∧
  (∀ (s : State) (f : Frame),
    let n := macNodeOf f.sa
    (s.present n = false → s.windowAccepts f = (false, s.bump Reg.WARDEN_ABSENT_DROP)) ∧
    (∀ v, s.present n = true → windowTest (s.window n f.cls.toNat) f.seq = .accept v →
      s.windowAccepts f = (true, s.setWindow n f.cls.toNat v)) ∧
    (s.present n = true → windowTest (s.window n f.cls.toNat) f.seq = .dup →
      s.windowAccepts f = (false, s.bump Reg.WARDEN_DUP_DISCARD)) ∧
    (s.present n = true → windowTest (s.window n f.cls.toNat) f.seq = .stale →
      s.windowAccepts f = (false, s.bump Reg.WARDEN_STALE_DISCARD)))

/-- RING_FRAME_RX: a wrong HCHK counts; otherwise the frame is in reception. An own frame is stripped and counted; one of another
VER or KIND counts and is forwarded; one whose class does not fit its kind or that fails R60 is counted and goes nowhere; a
windowed unicast frame for another node is forwarded; one for this node is queued for the local port. Forwarding drops a
frame with HOPS 0 or a dead port and else sends it with HOPS one less. FRAME_RECEIVED_WHOLE: a bad FCS, a stomp, a PCS error,
a failed reassembly or a length out of range counts its cause and spoils the stored frame; one beyond its cells counts in
LEN_OVERRUN and is spoiled; a good one counts and is completed; a fragment end of 64 bytes or more pauses the reception, its
continuation counts in FRAG_RX. A frame for this node whose place is gone is lost; else it passes the window, LEN (in this
order by the model's choice, log entry 118) and JOINED. Completion, under conditions on the state and the operands alone, is
stated for: ringFrameRx, frameReceivedWhole. (03_ring_frames_and_paths.md R54, 03_ring_frames_and_paths.md R56, 03_ring_frames_and_paths.md R57, 03_ring_frames_and_paths.md R58, 03_ring_frames_and_paths.md R60, 03_ring_frames_and_paths.md R64, 03_ring_frames_and_paths.md R65, 03_ring_frames_and_paths.md R68, 02_ring_and_spur_ports.md R47, 04_switch_core.md R94, 04_switch_core.md R103, 04_switch_core.md R104) -/
def Obligations.FramesOfTheRing : Prop :=
  (∀ (s : State) (p : Fin 2) (f : Frame), s.portUsable p = true → f.etype = 0x88B5#16 → f.hchk ≠ f.check →
    exec (.ringFrameRx p f) s = .next (s.bump (Reg.PORT_RX_HCHK_ERR p))) ∧
  (∀ (s : State) (p : Fin 2) (f : Frame), s.portUsable p = true → f.etype = 0x88B5#16 → f.hchk = f.check → s.hasIdentity = true →
    s.rxOf p = none →
    let rx := fun (id : Option Nat) (use : RxUse) (t : State) =>
      Host.Outcome.next (t.setRx { port := p, frame := f, stored := id, use })
    let fwd := fun (t : State) => rx (t.forward f p []).1 .done (t.forward f p []).2
    (f.sa = s.ownMac → exec (.ringFrameRx p f) s = rx none .stripped
      (if isGroup f.da then s.bump Reg.WARDEN_STRIPPED else (s.bump Reg.WARDEN_STRIPPED).bump Reg.WARDEN_RET_UNICAST)) ∧
    (f.sa ≠ s.ownMac → (f.ver ≠ 2#4 ∨ kindKnown f.kind = false) →
      exec (.ringFrameRx p f) s = fwd (s.bump Reg.WARDEN_RX_UNKNOWN)) ∧
    (f.sa ≠ s.ownMac → f.ver = 2#4 → kindKnown f.kind = true →
      (classMismatch f = true → exec (.ringFrameRx p f) s = rx none .done (s.bump Reg.WARDEN_CLASS_MISUSE)) ∧
      (classMismatch f = false → badHeader f = true → exec (.ringFrameRx p f) s = rx none .done (s.bump Reg.WARDEN_HDR_BAD)) ∧
      (classMismatch f = false → badHeader f = false → kindWindowed f.kind = true → f.da ≠ s.ownMac →
        f.da ≠ macGateway s.ownRing → f.da ≠ macBroadcast s.ownRing → exec (.ringFrameRx p f) s = fwd s) ∧
      (classMismatch f = false → badHeader f = false → kindWindowed f.kind = true → f.da = s.ownMac → f.dstRing.toNat = s.ownRing →
        s.path = 0 → exec (.ringFrameRx p f) s =
          rx (s.switchIn (s.arrival f p) [3]).1 .queued (s.switchIn (s.arrival f p) [3]).2))) ∧
  (∀ (s : State) (f : Frame) (p : Nat) (l : List Nat),
    (f.hops = 0#10 → s.forward f p l = (s.bump Reg.WARDEN_HOPS_EXPIRED).switchIn (s.arrival f p) l) ∧
    (f.hops ≠ 0#10 → s.portUsable (1 - p) = false →
      s.forward f p l = (s.bump Reg.WARDEN_BREAK_DROP).switchIn (s.arrival f p) l) ∧
    (f.hops ≠ 0#10 → s.portUsable (1 - p) = true →
      s.forward f p l = s.switchIn (s.arrival { f with hops := f.hops - 1#10 } p) ((1 - p) :: l))) ∧
  (∀ (s : State) (p : Fin 3) (r : Reception) (id : Nat) (n : BitVec 11), s.rxOf p = some r → r.stored = some id → r.use = .done →
    r.paused = false → r.tag = 0 →
    let u := s.endRx p
    (s.overruns r n.toNat = false →
      exec (.frameReceivedWhole p .badFcs n) s = .next ((u.bump (Reg.PORT_RX_FCS_ERR p)).spoil id) ∧
      exec (.frameReceivedWhole p .stomped n) s = .next ((u.bump (Reg.PORT_RX_STOMPED p)).spoil id) ∧
      exec (.frameReceivedWhole p .pcsError n) s = .next ((u.bump (Reg.PORT_PCS_ERR p)).spoil id) ∧
      exec (.frameReceivedWhole p .reassembly n) s = .next ((u.bump (Reg.PORT_FRAG_ERR p)).spoil id) ∧
      ((n.toNat < 64 ∨ 1522 < n.toNat) →
        exec (.frameReceivedWhole p .good n) s = .next ((u.bump (Reg.PORT_RX_LEN_ERR p)).spoil id)) ∧
      (64 ≤ n.toNat → n.toNat ≤ 1522 → exec (.frameReceivedWhole p .good n) s = .next ((u.countRx p n.toNat).complete id n.toNat))) ∧
    (s.overruns r n.toNat = true → 64 ≤ n.toNat → n.toNat ≤ 1522 → exec (.frameReceivedWhole p .good n) s =
      .next (((u.bump Reg.SWC_LEN_OVERRUN).countRx p n.toNat).spoil id)) ∧
    (p.val < 2 → r.frame.cls ≠ 7#3 → 64 ≤ n.toNat → ∃ t, exec (.frameReceivedWhole p .fragmentEnd n) s = .next t ∧
      t.rxOf p = some { r with paused := true } ∧ t.sw.copies = s.sw.copies ∧ SameRegs [] s t ∧ SameBytes s t)) ∧
  (∀ (s : State) (p : Fin 3) (r : Reception) (n : BitVec 11), s.rxOf p = some r → r.paused = true →
    ∃ t, exec (.frameReceivedWhole p .continued n) s = .next t ∧ t.rxOf p = some { r with paused := false } ∧
      t.rd (Reg.PORT_FRAG_RX p) = BitVec.ofNat 32 (min ((s.rd (Reg.PORT_FRAG_RX p)).toNat + 1) 0xFFFFFFFF) ∧
      SameRegs [Reg.PORT_FRAG_RX p] s t ∧ SameBytes s t) ∧
  (∀ (s : State) (r : Reception), r.use = .queued → r.port < 2 → kindWindowed r.frame.kind = true →
    let v := s.windowAccepts r.frame
    (s.rxCopies r 3 = [] → s.consume r = s) ∧
    (s.rxCopies r 3 ≠ [] → (v.1 = false → s.consume r = v.2.forEach (v.2.rxCopies r 3) State.dropCopy) ∧
      (v.1 = true → r.frame.lenBad = false → s.flag Fd.WARDEN_RING_STAT_JOINED = true → s.consume r = v.2)))

/-- The oldest formed frame is injected and leaves the list. A windowed frame before JOINED is not sent. A broadcast and a class
7 frame go both ways over the usable ring ports with the next SEQ of their class; with none usable they count in BREAK_DROP.
A unicast frame of classes 0 to 6 whose flow is fenced is held and counted in FENCE_HELD; else it goes both ways outside
Split, and in Split in the chosen direction of its flow, or counts in UNREACH without one. At the end of SETTLE the held
frames of the flow are released. A waiting local frame whose copies all have room is admitted; after LOCAL_WAIT_MAX
LOCAL_TIMEOUT counts and, when no copy has room, every copy is dropped and counted. The end of ABSENT_CLEAR sets the eight
windows of the node invalid. On a usable spur with a role and no VID a Crealend frame of bad HCHK counts; a good one to this
node's MAC for another ring is dropped and counted, for node 0 queued for the local port, for another node of the ring put
onto it. Completion, under conditions on the state and the operands alone, is stated for: frameInject, fenceRelease,
localFrameAdmit, localWaitTimeout, absentClearExpiry, spurFrameRx. (03_ring_frames_and_paths.md R62, 03_ring_frames_and_paths.md R63, 03_ring_frames_and_paths.md R67, 03_ring_frames_and_paths.md R70, 03_ring_frames_and_paths.md R72, 03_ring_frames_and_paths.md R75, 03_ring_frames_and_paths.md R76, 03_ring_frames_and_paths.md R77, 04_switch_core.md R99, 02_ring_and_spur_ports.md R50) -/
def Obligations.FramesOfThisNode : Prop :=
  (∀ (s : State) (f : Frame) (l : List Frame), s.txn.toInject = f :: l →
    exec .frameInject s = .next (State.inject f s.epoch { s with txn := { s.txn with toInject := l } })) ∧
  (∀ (s : State) (f : Frame) (e : BitVec 16), kindWindowed f.kind = true → s.flag Fd.WARDEN_RING_STAT_JOINED = false →
    s.inject f e = s) ∧
  (∀ (s : State) (f : Frame) (e : BitVec 16) (da : BitVec 48),
    (kindWindowed f.kind = false ∨ s.flag Fd.WARDEN_RING_STAT_JOINED = true) →
    s.daFor f.dstRing.toNat f.dstNode.toNat = some da → da ≠ s.ownMac → da ≠ macGateway s.ownRing →
    let g : Frame := { f with da, sa := s.ownMac }
    let d := s.daNode da
    let k := flowKey d f.flow.toNat
    ((isGroup da = true ∨ f.cls = 7#3) → s.inject f e = s.launch g none e) ∧
    (isGroup da = false → f.cls ≠ 7#3 →
      (s.fenced d f.flow.toNat = true → ∃ u : State, u.ring.held = s.ring.held ++ [(k, g, e)] ∧ SameRegs [] s u ∧
        s.inject f e = u.bump Reg.WARDEN_FENCE_HELD) ∧
      (s.fenced d f.flow.toNat = false → (∀ h ∈ s.ring.held, h.1 ≠ k) →
        (s.splitPath = false → s.inject f e = s.launch g none e) ∧
        (s.splitPath = true → s.chosen d f.flow.toNat = none → s.inject f e = s.bump Reg.WARDEN_UNREACH) ∧
        (∀ w, s.splitPath = true → s.chosen d f.flow.toNat = some w → s.inject f e = s.launch g (some w) e)))) ∧
  (∀ (s : State) (f : Frame) (e : BitVec 16), s.ringOuts = [] →
    s.launch f none e = (s.takeSeq f.cls.toNat).2.bump Reg.WARDEN_BREAK_DROP) ∧
  (∀ (s : State) (c : Nat), (s.takeSeq c).1 = Tab.get 0#16 s.ring.seqs c ∧
    Tab.get 0#16 (s.takeSeq c).2.ring.seqs c = Tab.get 0#16 s.ring.seqs c + 1#16) ∧
  (∀ (s : State) (d : BitVec 9) (fl : BitVec 6),
    let u := s.advance (((s.fenceEnd d.toNat fl.toNat).getD 0) - s.clk)
    u.live .fenceAll = false → exec (.fenceRelease (some (d, fl))) s = .next (u.releaseHeld (· == flowKey d.toNat fl.toNat))) ∧
  (∀ s : State, s.armed .fenceAll = true →
    let u := s.expire .fenceAll
    exec (.fenceRelease none) s = .next (u.releaseHeld fun k => !u.fenced (k / 64) (k % 64))) ∧
  (∀ (s : State) (c : Fin 8) (w : LocalFrame), s.oldestWaiting c = some w → s.path = 0 →
    (w.outs.all fun o => s.roomAt o c w.item.frame.cells) = true →
    exec (.localFrameAdmit c) s = .next ((s.popWaiting c).switchIn w.item w.outs).2) ∧
  (∀ (s : State) (c : Fin 8) (w : LocalFrame), s.armed (.localWait c) = true →
    let u := s.expire (.localWait c)
    u.oldestWaiting c = some w → u.path = 0 → (∀ o ∈ w.outs, u.roomAt o c w.item.frame.cells = false) →
    exec (.localWaitTimeout c) s = .next (((u.popWaiting c).bump Reg.SWC_LOCAL_TIMEOUT).forEach w.outs fun o t =>
      (t.bump (Reg.SWC_DROP (8 * o + c))).bump (Reg.SWC_MC_DROP o))) ∧
  (∀ (s : State) (n : BitVec 9), s.armed (.absent n.toNat) = true → ∃ t, exec (.absentClearExpiry n) s = .next t ∧
    (∀ c, c < 8 → t.window n.toNat c = {}) ∧ (∀ m c, m ≠ n.toNat → c < 8 → t.window m c = s.window m c) ∧
    t.armed (.absent n.toNat) = false ∧ SameRegs [] s t ∧ SameBytes s t) ∧
  (∀ (s : State) (f : Frame), s.portUsable 2 = true → f.etype = 0x88B5#16 → s.fld Fd.PORT_SPUR_CTL_ROLE ≠ 0 →
    s.fld Fd.PORT_SPUR_CTL_VID = 0 → s.path = 0 → s.rxOf 2 = none →
    let rx := fun (id : Option Nat) (use : RxUse) (t : State) =>
      Host.Outcome.next (t.setRx { port := 2, frame := f, stored := id, use })
    (f.hchk ≠ f.check → exec (.spurFrameRx f none) s = .next (s.bump (Reg.PORT_RX_HCHK_ERR 2))) ∧
    (f.hchk = f.check → f.da = s.ownMac → (s.fld Fd.PORT_SPUR_CTL_ROLE = 2 → f.srcRing.toNat = s.fld Fd.PORT_SPUR_CTL_PEER_RING) →
      f.known = true → classMismatch f = false → badHeader f = false →
      (f.dstRing.toNat ≠ s.ownRing → exec (.spurFrameRx f none) s = rx none .done (s.bump Reg.WARDEN_SPUR_DROP)) ∧
      (f.dstRing.toNat = s.ownRing → f.dstNode = 0#9 → exec (.spurFrameRx f none) s =
        rx (s.switchIn (s.arrival f 2) [3]).1 .queued (s.switchIn (s.arrival f 2) [3]).2) ∧
      (f.dstRing.toNat = s.ownRing → f.dstNode ≠ 0#9 → f.dstNode.toNat ≠ s.ownNode → f.dstNode ≠ 511#9 →
        exec (.spurFrameRx f none) s = rx (s.enterRing f []).1 (s.enterRing f []).2.1 (s.enterRing f []).2.2)))

/-- A node of ROLE 1 with a ring link up becomes the active warden at a multiple of 100 µs: WARDEN_ACTIVE, JOINED and BEACON_OK
are set and the 10 s report timer runs. A beacon launch of the active warden ends the open round and opens the next one, with
the next BSEQ, at a multiple of 100 µs. 300 µs after the last beacon a backup takes over and counts it; another node clears
BEACON_OK. A periodic report is queued every 10 s while active. A beacon of another node is filled and passed on at its
header; come whole and good it is read, a link alarm too; a link alarm with a valid entry counts and puts the link into the
break set at once with a margin of 1 ms; the end of a margin rebuilds the break set. Completion, under conditions on the
state and the operands alone, is stated for: wardenActive, beaconLaunch, beaconOkLoss, topoReportPeriodic, beaconRx,
linkAlarmRx, breakMarginEnd. (03_ring_frames_and_paths.md R78, 03_ring_frames_and_paths.md R82, 03_ring_frames_and_paths.md R83, 03_ring_frames_and_paths.md R84, 03_ring_frames_and_paths.md R85, 03_ring_frames_and_paths.md R86) -/
def Obligations.Warden : Prop :=
  (∀ s : State, s.fld Fd.WARDEN_RING_CTL_ROLE = 1 → s.flag Fd.WARDEN_RING_STAT_WARDEN_ACTIVE = false →
    (s.linkIsUp 0 = true ∨ s.linkIsUp 1 = true) → ∃ t, exec .wardenActive s = .next t ∧
    t.flag Fd.WARDEN_RING_STAT_WARDEN_ACTIVE = true ∧ t.flag Fd.WARDEN_RING_STAT_JOINED = true ∧
    t.flag Fd.WARDEN_RING_STAT_BEACON_OK = true ∧ t.deadline .topo = some (t.clk + 10 * secPs) ∧
    (t.ctr = s.ctr ∨ t.now % 100000 = 0) ∧ SameRegs [Reg.WARDEN_RING_STAT] s t ∧ SameBytes s t) ∧
  (∀ s : State, s.flag Fd.WARDEN_RING_STAT_WARDEN_ACTIVE = false → exec .beaconLaunch s = .next s) ∧
  (∀ s : State, s.flag Fd.WARDEN_RING_STAT_WARDEN_ACTIVE = true → exec .beaconLaunch s = .next s.beaconLaunch ∧
    s.beaconLaunch.ring.round.bseq = s.ring.round.bseq + 1#16 ∧ s.beaconLaunch.ring.round.isOpen = true ∧
    s.beaconLaunch.ring.events = []) ∧
  (∀ s : State, s.armed .beaconOk = true →
    let u := s.expire .beaconOk
    (u.flag Fd.WARDEN_RING_STAT_WARDEN_ACTIVE = false → u.fld Fd.WARDEN_RING_CTL_ROLE = 2 →
      exec .beaconOkLoss s = .next (u.becomeWarden.bump Reg.WARDEN_TAKEOVER_CNT)) ∧
    (u.flag Fd.WARDEN_RING_STAT_WARDEN_ACTIVE = false → u.fld Fd.WARDEN_RING_CTL_ROLE ≠ 2 →
      exec .beaconOkLoss s = .next (u.off Fd.WARDEN_RING_STAT_BEACON_OK))) ∧
  (∀ s : State, s.armed .topo = true → (s.expire .topo).flag Fd.WARDEN_RING_STAT_WARDEN_ACTIVE = true →
    exec .topoReportPeriodic s = .next (((s.expire .topo).arm .topo (10 * secPs)).topoReport)) ∧
  (∀ (s : State) (p : Fin 2) (f : Frame) (e : RxEnd), f.kind = Kd.beacon →
    let t := if s.heldRx p f = true then s else s.ringFrame p f
    let u := if t.heldRx p f = true then t.received p e f.size else t
    (bRole f.payload ≠ 2 → exec (.beaconRx p f e) s = .next u) ∧ (bRole f.payload = 2 → exec (.linkAlarmRx p f e) s = .next u)) ∧
  (∀ (s : State) (p : Fin 2) (f : Frame), s.portUsable p = true → f.etype = 0x88B5#16 → f.hchk = f.check → f.kind = Kd.beacon →
    f.ver = 2#4 → f.cls = 7#3 → badHeader f = false → f.sa ≠ s.ownMac → s.rxOf p = none →
    s.ringFrame p f = (s.passBeacon p f).2.setRx { port := p, frame := f, stored := (s.passBeacon p f).1, use := .beacon }) ∧
  (∀ (s : State) (p : Nat) (f : Frame), s.portUsable (1 - p) = true → f.hops ≠ 0#10 → s.hasIdentity = true → bRole f.payload < 2 →
    bTurned f.payload = false →
    s.passBeacon p f = (s.fillBeacon f).2.forward { f with payload := (s.fillBeacon f).1 } p []) ∧
  (∀ (s : State) (r : Reception), r.use = .beacon → s.frameUse r false = s ∧
    (bRole r.frame.payload < 2 → s.frameUse r true = s.hearBeacon r.frame) ∧
    (bRole r.frame.payload = 2 → s.frameUse r true = s.hearAlarm r.frame)) ∧
  (∀ (s : State) (f : Frame), fieldBE f.payload 32 2 / 2 ^ 15 = 1 →
    s.hearAlarm f = (s.bump Reg.WARDEN_ALARM_RX).linkEvent (fieldBE f.payload 32 2 % 512) (!bUp f.payload)) ∧
  (∀ (s : State) (pos : BitVec 9), s.armed (.heldDown pos.toNat) = true →
    exec (.breakMarginEnd pos true) s = .next (s.expire (.heldDown pos.toNat)).refreshBreaks) ∧
  (∀ (s : State) (pos : BitVec 9), s.armed (.heldUp pos.toNat) = true →
    exec (.breakMarginEnd pos false) s = .next (s.expire (.heldUp pos.toNat)).refreshBreaks)

/-- MODE_REQ with REQ from a node that is not the active warden is refused with WRONG_MODE; on the active warden with MODE_AT
from 2 ms to 60 s ahead and no change due within 2 ms it records the change and sets PENDING, or withdraws it when it asks
for the path mode and seed in force; MODE_AT outside the range is refused with BAD_REQUEST. At its time a change to Seamless
out of Split, or of the seed, puts path mode and seed in force, clears PENDING, commits on a new seed, and outside Seamless
and Split leaves the mode as it is. Completion, under conditions on the state and the operands alone, is stated for: modeReq,
pathModeChange. (03_ring_frames_and_paths.md R87, 03_ring_frames_and_paths.md R88, 04_switch_core.md R110) -/
def Obligations.ScheduledPathModes : Prop :=
  (∀ (s : State) (w : Word), s.takes none = true → w.getLsbD 31 = true →
    let at_ := s.rd64 Reg.WARDEN_MODE_AT_LO Reg.WARDEN_MODE_AT_HI
    (s.flag Fd.WARDEN_RING_STAT_WARDEN_ACTIVE = false → exec (.modeReq w) s = .next (answer (wrongMode s))) ∧
    (s.flag Fd.WARDEN_RING_STAT_WARDEN_ACTIVE = true → (at_ < s.now + 2000000 ∨ s.now + 60000000000 < at_) →
      exec (.modeReq w) s = .next (answer (refuse .badRequest s))) ∧
    (s.flag Fd.WARDEN_RING_STAT_WARDEN_ACTIVE = true → s.now + 2000000 ≤ at_ → at_ ≤ s.now + 60000000000 →
      (∀ c, s.ring.change = some c → s.now + 2000000 ≤ c.1) → ∃ t, exec (.modeReq w) s = .next t ∧
      t.ring.change = (if w.getLsbD 16 = s.splitPath ∧ w.setWidth 16 = (s.rd Reg.WARDEN_SEED).setWidth 16 then none
        else some (at_, w.getLsbD 16, w.setWidth 16)) ∧
      t.flag Fd.WARDEN_RING_STAT_PENDING = t.ring.change.isSome ∧ t.out = .answer .ok :: s.out ∧
      SameRegs [Reg.WARDEN_MODE_REQ, Reg.WARDEN_RING_STAT] s t ∧ SameBytes s t)) ∧
  (∀ (s : State) (at_ : Nat) (m : Bool) (seed : BitVec 16), s.ring.change = some (at_, m, seed) → s.onRing = false →
    ∃ t, exec .pathModeChange s = .next t ∧ t.splitPath = m ∧ t.rd Reg.WARDEN_SEED = seed.setWidth 32 ∧
    t.flag Fd.WARDEN_RING_STAT_PENDING = false ∧ t.ring.change = none ∧ t.mode = s.mode ∧
    ((s.rd Reg.WARDEN_SEED).setWidth 16 = seed → t.rd Reg.SWC_TABLE_EPOCH = s.rd Reg.SWC_TABLE_EPOCH) ∧
    ((s.rd Reg.WARDEN_SEED).setWidth 16 ≠ seed →
      t.rd Reg.SWC_TABLE_EPOCH = BitVec.ofNat 32 (((s.rd Reg.SWC_TABLE_EPOCH).toNat + 1) % 65536)) ∧
    SameRegs [Reg.WARDEN_RING_STAT, Reg.WARDEN_SEED, Reg.SWC_TABLE_EPOCH] s t ∧ SameBytes s t)

/-- PATH_CHANGE to full, where the mode calls for the full path, loads SWC_STAT.PATH 0; to pass-through it answers the requests
held whole for the local port TARGET_RESET, discards what is still in reception, loads 1 and gives the ring-output queues 100
µs; after those the frames left are cut, dropped and counted. An output at a boundary ends the frame or fragment on the wire
and starts the copy that the choice gives: class 7, then class 6, then deficit round robin; where preemption is active an
express frame interrupts a started frame of classes 0 to 6 after 64 bytes or more, and the continuation counts in FRAG_TX; an
uncorrectable control entry starts the purge instead, which empties the full path, counts, loads PATH 2 and lasts 24,576 FAB
cycles; its end gives the whole pool back and the path that the mode calls for. While the main domain does not serve the
responder answers a request: TARGET_RESET while the main domain is held, BUSY during a purge, else WRONG_MODE; a PWRITE gets
a NOTICE with that status. Completion, under conditions on the state and the operands alone, is stated for: pathChange,
fullPathDrainEnd, outputSelect, bufferPurgeEnd, responderRequest. (04_switch_core.md R91, 04_switch_core.md R93, 04_switch_core.md R95, 04_switch_core.md R96, 04_switch_core.md R101, 04_switch_core.md R102, 01_node_anatomy.md R23) -/
def Obligations.PathsOutputsAndPurge : Prop :=
  (∀ s : State, s.pathFor = 0 → s.path = 1 → ∃ t, exec (.pathChange true) s = .next t ∧ t.path = 0 ∧ t.armed .drain = false ∧
    SameRegs [Reg.SWC_SWC_STAT] s t ∧ SameBytes s t ∧ t.sw = s.sw) ∧
  (∀ s : State, s.pathFor = 1 → s.path = 0 → exec (.pathChange false) s = .next s.toPassThrough ∧ s.toPassThrough.path = 1 ∧
    (s.answerLocal.fullRingCopies ≠ [] → s.toPassThrough.armed .drain = true)) ∧
  (∀ (s : State) (k : Copy) (f : Stored) (q : ReqKind), s.storedOf k = some f →
    ((f.whole = false ∨ f.errored = true) → s.answerHeld k = s.dropCopy k) ∧
    (f.whole = true → f.errored = false → reqKindOf f.frame.kind = some q → s.answerHeld k =
      (s.dropCopy k).answerKept .targetReset q { f.frame.request with epoch := f.epoch })) ∧
  (∀ s : State, s.armed .drain = true →
    (s.fullRingCopies = [] → exec .fullPathDrainEnd s = .next (s.cancel .drain)) ∧
    (s.fullRingCopies ≠ [] → exec .fullPathDrainEnd s = .next (s.expire .drain).dropFullRing ∧
      (s.expire .drain).dropFullRing.armed .drain = false)) ∧
  (∀ (s t : State) (o : Fin 4) (k : Copy) (rd : BufferRead), s.atBoundary o = true → (s.wireEnd o).outputOpen o = true →
    (s.wireEnd o).choose o = (some k, t) → exec (.outputSelect o ⟨rd, none⟩) s = .next (t.startOutput o k rd) ∧
    t.startOutput o k .ctrlUncorrectable = t.purge ∧
    (o.val < 3 → t.startOutput o k .clean = t.startCopy k)) ∧
  (∀ (s : State) (o : Fin 4) (k : Copy) (rd : BufferRead) (n : BitVec 12), s.onWire o = some k → s.mayPreempt o n.toNat = true →
    exec (.outputSelect o ⟨rd, some n⟩) s = .next ((s.breakCopy k n.toNat).outputNext o rd)) ∧
  (∀ (s : State) (o n : Nat), s.mayPreempt o n = true → s.preemptActive o = true ∧ (s.expressHead o).isSome = true ∧
    ∃ k f, s.onWire o = some k ∧ s.storedOf k = some f ∧ f.frame.cls ≠ 7#3 ∧ k.sent + 64 ≤ n) ∧
  (∀ (s : State) (k : Copy) (f : Stored), s.storedOf k = some f → k.started = true →
    s.startCopy k = (s.setCopy { k with broken := false }).bump (Reg.PORT_FRAG_TX k.port)) ∧
  (∀ (s : State) (o : Nat) (k : Copy), s.headOf (s.queueOf o 7) = some k → s.chooseFull o = (some k, s)) ∧
  (∀ (s : State) (o : Nat) (k : Copy), s.headOf (s.queueOf o 7) = none → s.headOf (s.queueOf o 6) = some k →
    s.chooseFull o = (some k, s)) ∧
  (∀ s : State, s.purge.path = 2 ∧ s.purge.anat.purging = true ∧ s.purge.deadline .purge = some (s.clk + 24576 * 2560) ∧
    (s.purge.sw.frames.all fun f => f.pt) = true) ∧
  (∀ s : State, s.armed .purge = true → s.anat.kaHeld = false → s.anat.mainHeld = false → ∃ t, exec .bufferPurgeEnd s = .next t ∧
    t.path = (if s.inService then 0 else 1) ∧ t.anat.purging = false ∧ t.rd Reg.SWC_POOL_FREE = 24576#32 ∧
    SameRegs [Reg.SWC_SWC_STAT, Reg.SWC_POOL_FREE, Reg.SWC_POOL_MIN_FREE] s t ∧ SameBytes s t) ∧
  (∀ (s : State) (k : ReqKind) (q : Request), s.anat.kaHeld = false → s.hasIdentity = true → k ≠ .pwrite →
    let u := s.leaveServe k q
    (s.anat.mainHeld = true → exec (.responderRequest k q) s =
      .next ((u.bump Reg.SYS_TGT_RESET_CNT).reply k q .targetReset [])) ∧
    (s.anat.mainHeld = false → s.anat.purging = true → exec (.responderRequest k q) s = .next (u.reply k q .busy [])) ∧
    (s.anat.mainHeld = false → s.anat.purging = false → s.inService = false → exec (.responderRequest k q) s =
      .next ((u.bump Reg.WARDEN_WRONG_MODE_CNT).reply k q .wrongMode []))) ∧
  (∀ (s : State) (q : Request), s.anat.kaHeld = false → s.hasIdentity = true →
    let u := s.leaveServe .pwrite q
    (s.anat.mainHeld = true → exec (.responderRequest .pwrite q) s =
      .next ((u.bump Reg.SYS_TGT_RESET_CNT).notice false q .targetReset).2) ∧
    (s.anat.mainHeld = false → s.anat.purging = true → exec (.responderRequest .pwrite q) s = .next (u.notice false q .busy).2) ∧
    (s.anat.mainHeld = false → s.anat.purging = false → s.inService = false → exec (.responderRequest .pwrite q) s =
      .next ((u.bump Reg.WARDEN_WRONG_MODE_CNT).notice false q .wrongMode).2))

/-- A request that has its serve entry, waits behind no earlier request of its flow, passes the checks of R121 and meets clean
words of DRAM is executed. READ completes OK with the bytes. WRITE completes OK and leaves exactly its data in its bytes;
PWRITE does the same without a completion. LREAD completes with the bytes and takes a lock of the 64-byte blocks it touches
for 20 µs. LWRITE stores its data and releases the lock it lies in. CAS returns the old operand and stores the swap value
exactly when the old operand equals the compare value; FADD returns the old operand and stores the sum modulo 2 to the
operand's width. Every other byte and every register reads as before up to the completion. Completion, under conditions on
the state and the operands alone, is stated for: read, write, pwrite, lread, lwrite, cas, fadd. (05_one_address_space.md R118, 05_one_address_space.md R120, 05_one_address_space.md R121, 05_one_address_space.md R124, 05_one_address_space.md R125, 05_one_address_space.md R127, 05_one_address_space.md R128) -/
def Obligations.MemoryRequests : Prop :=
  (∀ (s : State) (q : Request), Ready s .read q → exec (.read q []) s =
    .next ((s.leaveServe .read q).complete1 .read q .ok (s.readBytes q.addr.toNat q.bytes.toNat))) ∧
  (∀ (s : State) (q : Request), Ready s .write q → ∃ u, exec (.write q []) s = .next (u.complete1 .write q .ok []) ∧
    SameRegs [] s u ∧ StoredAt s u q.addr.toNat q.data) ∧
  (∀ (s : State) (q : Request), Ready s .pwrite q → ∃ u, exec (.pwrite q []) s = .next u ∧ SameRegs [] s u ∧
    u.out = s.out ∧ u.txn.toInject = s.txn.toInject ∧ StoredAt s u q.addr.toNat q.data) ∧
  (∀ (s : State) (q : Request) (k : Nat), Ready s .lread q → s.freeLock = some k → ∃ u, exec (.lread q []) s =
      .next (u.complete1 .lread q .ok (s.readBytes q.addr.toNat q.bytes.toNat)) ∧ SameRegs [] s u ∧ SameBytes s u ∧
    u.txn.locks = s.txn.locks ++ [(k, ⟨q.srcRing, q.srcNode, q.init, q.cls, q.flow, q.addr.toNat / 64 * 64,
      ((q.addr.toNat + q.bytes.toNat - 1) / 64 + 1) * 64, false⟩)] ∧
    u.deadline (.lock k) = some (s.clk + 20000000)) ∧
  (∀ (s : State) (q : Request) (l : Nat × Lock), Ready s .lwrite q →
    (s.txn.locks.find? fun l => l.2.holds q && l.2.covers q.addr.toNat q.bytes.toNat) = some l →
    ∃ u, exec (.lwrite q []) s = .next (u.complete1 .lwrite q .ok []) ∧ SameRegs [] s u ∧ StoredAt s u q.addr.toNat q.data ∧
    u.txn.locks = s.txn.locks.filter (fun e => e.1 != l.1) ∧ u.armed (.lock l.1) = false) ∧
  (∀ (s : State) (q : Request), Ready s .cas q →
    let old := s.readBytes q.addr.toNat q.bytes.toNat
    ∃ u, exec (.cas q []) s = .next (u.complete1 .cas q .ok old) ∧ SameRegs [] s u ∧
    (old = q.data.take q.bytes.toNat → StoredAt s u q.addr.toNat (q.data.drop q.bytes.toNat)) ∧
    (old ≠ q.data.take q.bytes.toNat → SameBytes s u)) ∧
  (∀ (s : State) (q : Request), Ready s .fadd q →
    let old := s.readBytes q.addr.toNat q.bytes.toNat
    ∃ u, exec (.fadd q []) s = .next (u.complete1 .fadd q .ok old) ∧ SameRegs [] s u ∧
    StoredAt s u q.addr.toNat (leBytes q.bytes.toNat (leVal old + leVal q.data))) ∧
  (∀ (s : State) (k : ReqKind) (q : Request) (st : Status) (d : List Byte), SameBytes s (s.complete1 k q st d) ∧
    (k ≠ .pwrite → s.ownReq q = false → (s.complete1 k q st d).txn.toInject = s.txn.toInject ++
      [s.formFrame Kd.cpl q.cls q.flow q.srcRing q.srcNode q.tag (BitVec.ofNat 4 (Status.code st)) (if st = .ok then d else [])]))

/-- A malformed request is refused with BAD_REQUEST; a well-formed one of another node that no access window grants with DENIED,
counted; then the unit state, the map and the region refuse, each with its status; then locks: READ never meets one, WRITE,
PWRITE, CAS, FADD and LREAD that touch a lock of another holder are answered BUSY, an LWRITE without a lock of its holder
LOCK_BROKEN, counted. Whatever the checks refuse, no byte of memory changes. An access window entry with BASE_PG above
LIMIT_PG or NODE_LO above NODE_HI is not acceptable, and a write of one is refused with BAD_REQUEST. A quiesce answers an
arriving request with BUSY. (05_one_address_space.md R121, 05_one_address_space.md R126, 05_one_address_space.md R127, 05_one_address_space.md R138, 05_one_address_space.md R139, 05_one_address_space.md R140, 05_one_address_space.md R147) -/
def Obligations.ChecksAtTheTarget : Prop :=
  (∀ (s : State) (k : ReqKind) (q : Request), formatOk k q = false → s.checks k q = refuse .badRequest s) ∧
  (∀ (s : State) (k : ReqKind) (q : Request), formatOk k q = true → s.ownReq q = false → s.windowGrants k q = false →
    s.checks k q = (.denied, s.bump Reg.TXN_WIN_DENIED)) ∧
  (∀ (s : State) (k : ReqKind) (q : Request), formatOk k q = true → (s.ownReq q = true ∨ s.windowGrants k q = true) →
    (s.stateCheck q.addr.toNat ≠ .ok → s.checks k q = refuse (s.stateCheck q.addr.toNat) s) ∧
    (s.stateCheck q.addr.toNat = .ok → s.mapCheck q.addr.toNat q.bytes.toNat ≠ .ok →
      s.checks k q = refuse (s.mapCheck q.addr.toNat q.bytes.toNat) s) ∧
    (s.stateCheck q.addr.toNat = .ok → s.mapCheck q.addr.toNat q.bytes.toNat = .ok → s.regionCheck k q ≠ .ok →
      s.checks k q = refuse (s.regionCheck k q) s)) ∧
  (∀ (s : State) (q : Request), s.lockCheck .read q = (.ok, s)) ∧
  (∀ (s : State) (k : ReqKind) (q : Request) (l : Nat × Lock), l ∈ s.txn.locks → l.2.holds q = false →
    l.2.touches q.addr.toNat q.bytes.toNat = true → k ≠ .read → k ≠ .lwrite → s.lockCheck k q = (.busy, s)) ∧
  (∀ (s : State) (q : Request), (∀ l ∈ s.txn.locks, l.2.holds q = false) →
    s.lockCheck .lwrite q = (.lockBroken, s.bump Reg.TXN_LOCK_BROKEN_CNT)) ∧
  (∀ (s : State) (k : ReqKind) (q : Request), (s.checks k q).2.mem = s.mem) ∧
  (∀ w0 w1 w2 w3 : Word, (bits w1 0 28 < bits w0 0 28 ∨ bits w2 9 9 < bits w2 0 9) →
    windowOk (leBytes 4 w0.toNat ++ leBytes 4 w1.toNat ++ leBytes 4 w2.toNat ++ leBytes 4 w3.toNat) = false) ∧
  (∀ (s : State) (i : Nat) (w0 w1 w2 w3 : Word), i < 32 → s.permits = true → (bits w1 0 28 < bits w0 0 28 ∨ bits w2 9 9 < bits w2 0 9) →
    s.windowWrite (16 * i) (leBytes 4 w0.toNat ++ leBytes 4 w1.toNat ++ leBytes 4 w2.toNat ++ leBytes 4 w3.toNat) =
      refuse .badRequest s) ∧
  (∀ (s : State) (k : ReqKind) (q : Request), s.serving = true → s.flag Fd.TXN_TXN_STAT_QUIESCING = true → k ≠ .lwrite →
    s.arrive k q = (if k = .pwrite then (s.bump Reg.TXN_SERVE_BUSY).lateError q .busy
      else (s.bump Reg.TXN_SERVE_BUSY).reply k q .busy []))

/-- A non-posted request to another node that passes the initiator's checks takes the lowest free tag, starts its time-out and is
queued as a frame; beyond the quota it is refused with BUSY and counted in QUOTA_BUSY. A completion with the tag and source
of an outstanding request frees the tag and completes it; any other counts in LATE_CPL. A time-out completes the request with
TIMEOUT, quarantines the tag and counts; the end of the quarantine frees it. A NOTICE sets EVT.LATE_ERR, is counted and
stored, and reaches the initiator it names. A lock that expires is released and counted. The end of a quiesce releases every
lock, clears QUIESCING and sets QUIESCE_DONE. Completion, under conditions on the state and the operands alone, is stated
for: requestIssue, cplRx, requestTimeout, tagQuarantineEnd, noticeRx, lockExpiry, quiesceEnd. (05_one_address_space.md R129, 05_one_address_space.md R130, 05_one_address_space.md R131, 05_one_address_space.md R141, 05_one_address_space.md R145, 05_one_address_space.md R146, 05_one_address_space.md R127, 05_one_address_space.md R148) -/
def Obligations.InitiatorsAndTags : Prop :=
  (∀ (s : State) (i : Fin 3) (k : ReqKind) (dst : BitVec 64) (n : BitVec 9) (sz : BitVec 2) (d : List Byte) (c : BitVec 3)
      (fl : BitVec 6) (t : Nat), s.anat.kaHeld = false → k ≠ .pwrite →
    let ring := (dst.extractLsb' 49 6).toNat
    let node := (dst.extractLsb' 40 9).toNat
    let p := beBytes 5 (dst.extractLsb' 0 40).toNat ++ [BitVec.ofNat 8 (i.val * 16 + sz.toNat * 4)] ++ beBytes 2 n.toNat ++ d
    ring ≠ 0 → s.ownDst ring node = false → s.issueCheck i k (dst.extractLsb' 55 9).toNat ring node c.toNat = (.ok, s) →
    s.freeTagNo = some t → ∃ u : State, exec (.requestIssue i k dst n sz d c fl) s =
      .next (u.queueFrame (s.formFrame k.code c fl (BitVec.ofNat 6 ring) (BitVec.ofNat 9 node) (BitVec.ofNat 9 t) 0#4 p)) ∧
    u.rd (Reg.TXN_OUTST i) = BitVec.ofNat 32 ((s.rd (Reg.TXN_OUTST i)).toNat + 1) ∧
    (u.txn.tags.lookup t).isSome = true ∧ u.deadline (.tagTimeout t) = some (s.clk + s.fld (Fd.TXN_TIMEOUT_TIME i) * usPs) ∧
    SameRegs [Reg.TXN_OUTST i, Reg.TXN_PEAK_OUT i] s u ∧ SameBytes s u) ∧
  (∀ (s : State) (i : Nat) (k : ReqKind) (ring node cls : Nat), s.anat.mainHeld = false → s.onRing = true → s.quiescing = false →
    s.flag Fd.WARDEN_RING_STAT_JOINED = true → cls ≠ 7 → node ≠ 511 → s.ownDst ring node = false → (s.daFor ring node).isSome = true →
    s.egress i k ring node = true → k ≠ .pwrite → s.fld (Fd.TXN_INIT_CFG_QUOTA i) ≤ (s.rd (Reg.TXN_OUTST i)).toNat →
    s.issueCheck i k 0 ring node cls = (.busy, s.bump Reg.TXN_QUOTA_BUSY)) ∧
  (∀ (s : State) (f : Frame), s.serving = true →
    (s.txn.tags.lookup f.tag.toNat = none → exec (.cplRx f) s = .next ((s.takeInbox f).bump Reg.TXN_LATE_CPL)) ∧
    (∀ u, s.txn.tags.lookup f.tag.toNat = some u →
      ((u.quarantined = true ∨ u.dstRing ≠ f.srcRing ∨ u.dstNode ≠ f.srcNode) →
        exec (.cplRx f) s = .next ((s.takeInbox f).bump Reg.TXN_LATE_CPL)) ∧
      (u.quarantined = false → u.dstRing = f.srcRing → u.dstNode = f.srcNode → f.status = 0#4 → exec (.cplRx f) s =
        .next (((s.takeInbox f).freeTag f.tag.toNat).initCpl u.init (some f.tag.toNat) (some u) .ok (f.payload.take f.len.toNat))))) ∧
  (∀ (s : State) (t : BitVec 9), s.armed (.tagTimeout t.toNat) = true → exec (.requestTimeout t) s =
    .next (((s.expire (.tagTimeout t.toNat)).giveUpTag t.toNat .timeout).bump Reg.TXN_TIMEOUT_CNT)) ∧
  (∀ (s : State) (t : BitVec 9), s.armed (.tagQuarantine t.toNat) = true → ∃ u, exec (.tagQuarantineEnd t) s = .next u ∧
    (∀ e ∈ u.txn.tags, e.1 ≠ t.toNat) ∧ SameBytes s u) ∧
  (∀ (s : State) (f : Frame), s.serving = true → fieldBE f.payload 0 1 = 1 → fieldBE f.payload 1 1 % 16 = 0 →
    ∃ t, exec (.noticeRx f) s = .next t ∧ t.flag Fd.TXN_EVT_LATE_ERR = true ∧
    t.rd Reg.TXN_NOTICE_RX = BitVec.ofNat 32 (min ((s.rd Reg.TXN_NOTICE_RX).toNat + 1) 0xFFFFFFFF) ∧
    (∀ w, w < 6 → t.rd (Reg.TXN_NOTICE_LAST w) = BitVec.ofNat 32 (leVal ((f.payload.drop (4 * w)).take 4))) ∧
    t.out = .irq 0x30000 :: s.out ∧ SameBytes s t) ∧
  (∀ (s : State) (k : Fin 8), s.armed (.lock k) = true → ∃ t, exec (.lockExpiry k) s = .next t ∧ (∀ l ∈ t.txn.locks, l.1 ≠ k.val) ∧
    t.rd Reg.TXN_LOCK_EXPIRED = BitVec.ofNat 32 (min ((s.rd Reg.TXN_LOCK_EXPIRED).toNat + 1) 0xFFFFFFFF) ∧
    SameRegs [Reg.TXN_LOCK_EXPIRED] s t ∧ SameBytes s t) ∧
  (∀ s : State, s.armed .quiesce = true →
    let t := (if s.quiet then s else s.expire .quiesce).endQuiesce
    t.txn.locks = [] ∧ t.flag Fd.TXN_TXN_STAT_QUIESCING = false ∧ t.flag Fd.TXN_TXN_STAT_QUIESCE_DONE = true ∧
    (t.flag Fd.SYS_MODE_STAT_ENTERING = false → t.flag Fd.SYS_MODE_STAT_ACTIVATING = false → exec .quiesceEnd s = .next t))

/-- A register command does nothing while both domains are held, is answered TARGET_RESET while the main domain or its unit is in
reset, WRONG_MODE in Load unless the firmware acts, and acts otherwise. A register write at an address or of a length that is
no multiple of 4 is refused with BAD_REQUEST, one at an offset outside every block with UNMAPPED; one of LOCAL_WAIT_MAX loads
the field and nothing else. Reading POOL_MIN_FREE returns the minimum and loads the present value; reading the low half of a
byte counter returns it, latches the high half and clears both; a value latched is what the next read of the high half
returns. Counting never passes all-ones and adds 1 below it. Completion, under conditions on the state and the operands
alone, is stated for: registerWrite, stickyPeakRead, pairLoRead. (00_scope.md R7, 00_scope.md R9, 00_scope.md R10, 01_node_anatomy.md R23, 01_node_anatomy.md R25, 04_switch_core.md R100, 05_one_address_space.md R115, 16_start_up_modes_and_drowse.md R406, 18_register_map.md R443) -/
def Obligations.RegisterCommands : Prop :=
  (∀ (s : State) (u : Option ResetUnit) (f : State → Res), (s.anat.kaHeld = true → s.command u f = s) ∧
    (s.anat.kaHeld = false → (s.anat.mainHeld = true ∨ (∃ r, u = some r ∧ s.unitBusy r = true)) →
      s.command u f = answer (refuse .targetReset s)) ∧
    (s.runs = true → (∀ r, u = some r → s.unitBusy r = false) → s.mode = .load → s.boot.applying = false →
      s.command u f = answer (wrongMode s)) ∧
    (s.takes u = true → s.command u f = answer (f s))) ∧
  (∀ (s : State) (i : Fin 3) (a : BitVec 40) (d : List Byte), s.runs = true → 0x3000000000 ≤ a.toNat → a.toNat < 0x3001000000 →
    (a.toNat % 4 ≠ 0 ∨ d.length % 4 ≠ 0 ∨ d = []) → ∃ t, exec (.registerWrite i a d) s = .next t ∧
    t.out = .answer .badRequest :: s.out ∧ OnlyRegsOut [Reg.TXN_BAD_REQ_CNT] s t) ∧
  (∀ (s : State) (i : Fin 3) (a : BitVec 40) (d : List Byte), s.runs = true → 0x3000150000 ≤ a.toNat → a.toNat < 0x3001000000 →
    a.toNat % 4 = 0 → d.length % 4 = 0 → d ≠ [] → ∃ t, exec (.registerWrite i a d) s = .next t ∧
    t.out = .answer .unmapped :: s.out ∧ OnlyRegsOut [Reg.TXN_UNMAPPED_CNT] s t) ∧
  (∀ (s : State) (i : Fin 3) (w : Word), s.runs = true → s.asleepOrLoading = false → s.mode ≠ .load → s.boot.applying = false →
    bits w 0 16 ≠ 0 → ∃ t, exec (.registerWrite i 0x300002007C#40 (leBytes 4 w.toNat)) s = .next t ∧ t.out = .answer .ok :: s.out ∧
    t.fld Fd.SWC_LOCAL_WAIT_MAX_TIME = bits w 0 16 ∧ OnlyRegsOut [Reg.SWC_LOCAL_WAIT_MAX] s t) ∧
  (∀ s : State, s.runs = true → ∃ t, exec (.stickyPeakRead (BitVec.ofNat 24 Reg.SWC_POOL_MIN_FREE)) s = .next t ∧
    t.out = .data .ok (leBytes 4 (s.rd Reg.SWC_POOL_MIN_FREE).toNat) :: s.out ∧
    bits (t.rd Reg.SWC_POOL_MIN_FREE) 0 15 = bits (s.rd Reg.SWC_POOL_FREE) 0 15 ∧ OnlyRegsOut [Reg.SWC_POOL_MIN_FREE] s t) ∧
  (∀ (s : State) (p : Nat), s.runs = true → p < 3 → s.unitBusy (.pcs (Fin.ofNat 3 p)) = false →
    ∃ t, exec (.pairLoRead (BitVec.ofNat 24 (Reg.PORT_TX_BYTES_LO p))) s = .next t ∧
    t.out = .data .ok (leBytes 4 (s.rd (Reg.PORT_TX_BYTES_LO p)).toNat) :: s.out ∧ t.rd (Reg.PORT_TX_BYTES_LO p) = 0#32 ∧
    t.rd (Reg.PORT_TX_BYTES_HI p) = 0#32 ∧ t.latches.lookup (Reg.PORT_TX_BYTES_HI p) = some (s.rd (Reg.PORT_TX_BYTES_HI p)) ∧
    SameRegs [Reg.PORT_TX_BYTES_LO p, Reg.PORT_TX_BYTES_HI p] s t ∧ SameBytes s t) ∧
  (∀ (s : State) (p : Nat) (v : Word), p < 3 → s.latches.lookup (Reg.PORT_TX_BYTES_HI p) = some v →
    (s.readReg [Reg.PORT_TX_BYTES_HI p] (Reg.PORT_TX_BYTES_HI p)).1 = v) ∧
  (∀ (s : State) (a b : Nat), ((s.rd a).toNat < 0xFFFFFFFF → ((s.bump a).rd a).toNat = (s.rd a).toNat + 1) ∧
    (s.rd a = 0xFFFFFFFF#32 → (s.bump a).rd a = 0xFFFFFFFF#32) ∧ (b ≠ a → (s.bump a).rd b = s.rd b))

/-- With the stream running in Seamless or Split a snapshot takes SLOT_LEN bytes for the cycle of its instant. A launch of stream
T is for the cycle of its instant, expects as many copies back as there are usable ring ports, and counts the copies that the
launch before still missed in RET_MISS. A copy of another node is handled at its header where that has not come yet, and then
at its end. At the header a copy of a stream in whose copies the engine takes no part goes on unchanged but for HOPS, and one
of the current cycle goes on with the node's own segment unless it is a reflected one. A good copy of the cycle that is not
late is staged with its subscribed slots; a late one counts in SUB_LATE, an errored one in COPY_BAD. A copy of the own launch
that returns good is absorbed, whether or not the node still launches: one less is due, and its direction is marked returned.
After three applies without a copy a backup takes the stream over, and counts it. No byte of memory changes by a snapshot, a
launch or a take-over. Completion, under conditions on the state and the operands alone, is stated for: cycleSnapshot,
cycleLaunch, cycleAbsorb, cycleFrameRx, cycleMasterTakeover. (06_cycle_frames.md R152, 06_cycle_frames.md R153, 06_cycle_frames.md R157, 06_cycle_frames.md R158, 06_cycle_frames.md R159, 06_cycle_frames.md R163, 06_cycle_frames.md R166) -/
def Obligations.CycleCopies : Prop :=
  (∀ s : State, s.cycRuns (s.fld Fd.CYC_PUB_CFG_STREAM) = true → s.flag Fd.CYC_PUB_CFG_EN = true → s.onRing = true →
    let i := s.fld Fd.CYC_PUB_CFG_STREAM
    let k := s.cycFor i (max s.cyc.snapNext (max s.cyc.pubFrom (s.str i).from_))
    ∃ t d, exec .cycleSnapshot s = .next t ∧ t.cyc.snap = some (k, d) ∧ d.length = s.slotLen i ∧
    t.cyc.snapNext = k + 1 ∧ SameRegs [Reg.CYC_PUB_ZERO] s t ∧ SameBytes s t) ∧
  (∀ (s : State) (i : Fin 32), s.launches i = true →
    let k := s.cycFor i (max (s.str i).launchNext (s.str i).from_)
    ∃ t, exec (.cycleLaunch i) s = .next t ∧ (t.str i).launchNext = k + 1 ∧
    (t.str i).due = s.ringOuts.length ∧ (t.str i).retE = false ∧ (t.str i).retW = false ∧
    t.rd Reg.CYC_RET_MISS = BitVec.ofNat 32 (min ((s.rd Reg.CYC_RET_MISS).toNat + (s.str i).due) 0xFFFFFFFF) ∧ SameBytes s t) ∧
  (∀ (s : State) (i lo c : Nat), s.cycNow i = some c → c ≤ s.cycFor i lo ∧ s.cycFor i lo ≤ c + 1 ∧
    (lo ≤ c + 1 → lo ≤ s.cycFor i lo)) ∧
  (∀ (s : State) (p : Fin 2) (f : Frame) (e : RxEnd), f.kind = Kd.cycle →
    let t := if s.heldRx p f = true then s else s.ringFrame p f
    let u := if t.heldRx p f = true then t.received p e f.size else t
    (f.sa = s.ownMac → s.hasIdentity = true → exec (.cycleAbsorb p f e) s = .next u) ∧
    (f.sa ≠ s.ownMac ∨ s.hasIdentity = false → exec (.cycleFrameRx p f e) s = .next u)) ∧
  (∀ (s : State) (p : Fin 2) (f : Frame), s.portUsable p = true → s.portUsable (1 - p.val) = true → f.etype = 0x88B5#16 → f.hchk = f.check →
    f.kind = Kd.cycle → f.ver = 2#4 → f.cls = 7#3 → badHeader f = false → f.sa ≠ s.ownMac → s.rxOf p = none →
    let b := f.payload
    let i := fieldBE b 0 1 % 32
    let fwd := fun (g : Frame) (k : Option Nat) =>
      (s.forward g p []).2.setRx { port := p, frame := f, stored := (s.forward g p []).1, use := .cycle k false }
    (s.cycReads i = false → s.ringFrame p f = fwd f none) ∧
    (∀ k, s.cycReads i = true → s.copyCycle i (fieldBE b 4 4) = some k → s.cycTaken i k = true →
      s.ringFrame p f = fwd { f with payload := if reflected b then b else s.filled i k b } (some k))) ∧
  (∀ (s : State) (r : Reception) (k : Nat) (good : Bool), r.use = .cycle (some k) false → reflected r.frame.payload = false →
    s.frameUse r good = s.readCopy r.port (fieldBE r.frame.payload 0 1 % 32) k r.frame good) ∧
  (∀ (s : State) (p t k : Nat) (f : Frame), f.sa ≠ s.ownMac →
    (k < (s.str t).applyNext → ∃ u : State, SameRegs [] s u ∧ s.readCopy p t k f true = u.bump Reg.CYC_SUB_LATE) ∧
    ((s.str t).applyNext ≤ k → ∃ u : State, SameRegs [] s u ∧ s.readCopy p t k f false = u.bump Reg.CYC_COPY_BAD) ∧
    ((s.str t).applyNext ≤ k → ∃ u : State, SameRegs [] s u ∧ s.readCopy p t k f true = u ∧
      (u.cyc.staged.find? fun c => c.port == p) = some ⟨p, t, k, s.slotsIn t k f.payload⟩ ∧ (u.str t).seen = k + 1 ∧
      (u.str t).missed = 0 ∧ (u.str t).takeover = false)) ∧
  (∀ (s : State) (r : Reception), r.use = .stripped → r.frame.kind = Kd.cycle → s.frameUse r false = s ∧
    s.frameUse r true = s.absorb r.frame) ∧
  (∀ (s : State) (f : Frame) (i : Nat), i = fieldBE f.payload 0 1 % 32 → s.cycRuns i = true → s.onRing = true →
    reflected f.payload = false → (s.str i).launchNext ≠ 0 → ((s.str i).launchNext - 1) % 2 ^ 32 = fieldBE f.payload 4 4 →
    let t := s.absorb f
    (t.str i).due = (s.str i).due - 1 ∧ (t.str i).retE = ((s.str i).retE || !f.dir) ∧ (t.str i).retW = ((s.str i).retW || f.dir) ∧
    (t.str i).launchNext = (s.str i).launchNext ∧
    t.rd Reg.CYC_ABSORB_CNT = BitVec.ofNat 32 (min ((s.rd Reg.CYC_ABSORB_CNT).toNat + 1) 0xFFFFFFFF)) ∧
  (∀ (s : State) (i : Fin 32), s.cycRuns i = true → s.onRing = true → s.fld (Fd.CYC_STR_CFG_ROLE i) = 2 → 3 ≤ (s.str i).missed →
    (s.str i).takeover = false → ∃ t, exec (.cycleMasterTakeover i) s = .next t ∧ (t.str i).takeover = true ∧
    t.rd Reg.CYC_MASTER_TAKEOVER = BitVec.ofNat 32 (min ((s.rd Reg.CYC_MASTER_TAKEOVER).toNat + 1) 0xFFFFFFFF) ∧
    (∀ j, j ≠ i.val → t.str j = s.str j) ∧ SameRegs [Reg.CYC_MASTER_TAKEOVER] s t ∧ SameBytes s t)

/-- The first copy of cycle k that commits entry j writes its bytes into the filling half, later ones of the cycle change
nothing. A staged copy that is late counts and commits nothing, nor does any while the engine is in reset. At the apply an
entry that got its bytes is fresh with CNUM_LAST k and STALE_RUN 0; another one is stale: its bytes of the applied half are
copied into the filling half, FRESH clears, STALE_RUN and SUB_STALE count. An apply of a running stream swaps the halves and
moves to the next cycle. Setting EN of a stream is refused with BAD_REQUEST when its figures do not fit, and otherwise starts
the stream at its next cycle; a change of a running one is refused with WRONG_MODE; the same for a publication that does not
fit. Completion, under conditions on the state and the operands alone, is stated for: cycleCopyCommit, cycleApply,
streamEnWrite. (06_cycle_frames.md R159, 06_cycle_frames.md R160, 06_cycle_frames.md R166, 06_cycle_frames.md R167) -/
def Obligations.CycleImage : Prop :=
  (∀ (s : State) (k j : Nat) (d : List Byte), Tab.get 0 s.cyc.got j ≠ k + 1 →
    let t := s.commitSlots k [(j, d)]
    Tab.get 0 t.cyc.got j = k + 1 ∧ StoredAt s t (s.imageAt (1 - s.half) j) d ∧ SameRegs [] s t ∧ t.commitSlots k [(j, d)] = t) ∧
  (∀ (s : State) (p : Fin 2) (c : StagedCopy), (s.cyc.staged.find? fun c => c.port == p.val) = some c → ∃ u : State, SameRegs [] s u ∧
    SameBytes s u ∧ u.cyc.got = s.cyc.got ∧ (u.cyc.staged.all fun d => d.port != p.val) = true ∧
    exec (.cycleCopyCommit p) s = .next (if s.unitBusy .cycle = true then u
      else if c.k < (s.str c.stream).applyNext then u.bump Reg.CYC_SUB_LATE else u.commitSlots c.k c.slots)) ∧
  (∀ (s : State) (k j : Nat), j < 64 →
    (Tab.get 0 s.cyc.got j = k + 1 → (s.settle k j).flag (freshFld j) = true ∧
      (s.settle k j).fld (Fd.CYC_SUB_STAT_STALE_RUN j) = 0 ∧ SameBytes s (s.settle k j)) ∧
    (Tab.get 0 s.cyc.got j ≠ k + 1 → (s.settle k j).flag (freshFld j) = false ∧
      StoredAt s (s.settle k j) (s.imageAt (1 - s.half) j) (s.readBytes (s.imageAt s.half j) (s.subLen j)) ∧
      (s.settle k j).rd Reg.CYC_SUB_STALE = BitVec.ofNat 32 (min ((s.rd Reg.CYC_SUB_STALE).toNat + 1) 0xFFFFFFFF))) ∧
  (∀ (s : State) (i : Fin 32), s.cycRuns i = true → s.cycFills = true → ∃ t k, exec (.cycleApply i) s = .next t ∧
    (s.str i).applyNext ≤ k ∧ (t.str i).applyNext = k + 1 ∧ t.half = 1 - s.half) ∧
  (∀ (s : State) (i : Fin 32) (w : Word), s.takes (some .cycle) = true → s.flag (Fd.CYC_STR_CFG_EN i) = false →
    w.getLsbD 31 = true → bits w 28 2 ≠ 3 →
    (s.streamFits i w = false → exec (.streamEnWrite (.stream i) w) s = .next (answer (refuse .badRequest s))) ∧
    (s.streamFits i w = true → ∃ t, exec (.streamEnWrite (.stream i) w) s = .next t ∧ t.out = .answer .ok :: s.out ∧
      t.rd (Reg.CYC_STR_CFG i) = w &&& 0xB0FF01FF#32 ∧ (t.str i).from_ = s.cycNext i ∧ (t.str i).launchNext = s.cycNext i ∧
      (t.str i).applyNext = s.cycNext i ∧ SameRegs [Reg.CYC_STR_CFG i] s t ∧ SameBytes s t)) ∧
  (∀ (s : State) (i : Fin 32) (w : Word), s.takes (some .cycle) = true → s.flag (Fd.CYC_STR_CFG_EN i) = true →
    bits w 0 9 ≠ s.slotLen i → exec (.streamEnWrite (.stream i) w) s = .next (answer (wrongMode s))) ∧
  (∀ (s : State) (w : Word), s.takes (some .cycle) = true → s.flag Fd.CYC_PUB_CFG_EN = false → w.getLsbD 31 = true →
    s.pubFits (bits w 24 5) (bits w 0 8) = false → exec (.streamEnWrite .publication w) s = .next (answer (refuse .badRequest s)))

/-- In a mode that admits FPIN writes OUT, OUT_SET, OUT_CLR and OUT_TGL give the 16 bits of OUT their value and change nothing
else. FUNC 3 is refused with BAD_REQUEST; OUTPUT claims a free pin for software, and of a pin that another owner holds is
refused with BUSY and counted; another FUNC releases software's pin; the configuration in Load claims nothing before the
entry to service. FILT takes its value and leaves the filtered level alone. In Recovery, Load without the firmware and Drowse
each is refused with WRONG_MODE. An accepted level of a pin of a good bank inverts the filtered level, and journals where its
direction is selected, with the instant at which its run began. A rejected glitch counts. A failing supply freezes the bank,
sets VIO_FAIL and its event and forms record 0x006; a bank that returns sets VIO_OK, forms the record and takes the present
levels. Completion, under conditions on the state and the operands alone, is stated for: outWrite, outSet, outClr, outTgl,
pinCfgWrite, filtWrite, filterAccept, glitchReject, bankSupplyFail, bankSupplyReturn. (07_field_pins_and_edge_journal.md R170, 07_field_pins_and_edge_journal.md R171, 07_field_pins_and_edge_journal.md R172, 07_field_pins_and_edge_journal.md R174, 07_field_pins_and_edge_journal.md R176, 07_field_pins_and_edge_journal.md R177, 07_field_pins_and_edge_journal.md R191) -/
def Obligations.FieldPinCommands : Prop :=
  (∀ (s : State) (b : Fin 16) (w : Word), s.takes none = true → s.asleepOrLoading = false →
    let o := s.rd (Reg.PB_OUT b)
    let leaves := fun (v : Word) (t : State) => t.rd (Reg.PB_OUT b) = v &&& 0xFFFF#32 ∧ t.out = .answer .ok :: s.out ∧
      OnlyRegsOut [Reg.PB_OUT b] s t
    (∃ t, exec (.outWrite b w) s = .next t ∧ leaves w t) ∧ (∃ t, exec (.outSet b w) s = .next t ∧ leaves (o ||| w) t) ∧
    (∃ t, exec (.outClr b w) s = .next t ∧ leaves (o &&& ~~~w) t) ∧ (∃ t, exec (.outTgl b w) s = .next t ∧ leaves (o ^^^ w) t)) ∧
  (∀ (s : State) (b : Fin 16) (n : Fin 256) (w : Word), s.takes none = true → s.asleepOrLoading = true →
    exec (.outWrite b w) s = .next (answer (wrongMode s)) ∧ exec (.pinCfgWrite n w) s = .next (answer (wrongMode s)) ∧
    exec (.filtWrite n w) s = .next (answer (wrongMode s))) ∧
  (∀ (s : State) (n : Fin 256) (w : Word), s.takes none = true → s.applying = true → bits w 0 2 = 2 →
    exec (.pinCfgWrite n w) s = .next (answer (.ok, s.wr (Reg.PIN_CFG n) (w &&& 0xFE0007F3#32)))) ∧
  (∀ (s : State) (n : Fin 256) (w : Word), s.takes none = true → s.asleepOrLoading = false → s.applying = false →
    (bits w 0 2 = 3 → exec (.pinCfgWrite n w) s = .next (answer (refuse .badRequest s))) ∧
    (bits w 0 2 = 2 → s.fld (Fd.PIN_STAT_OWNER n) = 0 → ∃ t, exec (.pinCfgWrite n w) s = .next t ∧
      t.rd (Reg.PIN_CFG n) = w &&& 0xFE0007F3#32 ∧ t.fld (Fd.PIN_STAT_OWNER n) = 1 ∧ t.out = .answer .ok :: s.out ∧
      OnlyRegsOut [Reg.PIN_CFG n, Reg.PIN_STAT n] s t) ∧
    (bits w 0 2 = 2 → 1 < s.fld (Fd.PIN_STAT_OWNER n) →
      exec (.pinCfgWrite n w) s = .next (answer (.busy, s.bump Reg.FPIN_OWN_BUSY))) ∧
    (bits w 0 2 < 2 → s.fld (Fd.PIN_STAT_OWNER n) = 1 → s.fld (Fd.PIN_STAT_OWNER_IDX n) = 0 → ∃ t, exec (.pinCfgWrite n w) s = .next t ∧
      t.rd (Reg.PIN_CFG n) = w &&& 0xFE0007F3#32 ∧ t.fld (Fd.PIN_STAT_OWNER n) = 0 ∧
      SameRegs [Reg.PIN_CFG n, Reg.PIN_STAT n] s t ∧ SameBytes s t) ∧
    (∃ t, exec (.filtWrite n w) s = .next t ∧ t.rd (Reg.PIN_FILT n) = w &&& 0x1FFFF#32 ∧ t.level n = s.level n ∧
      t.fifos = s.fifos ∧ OnlyRegsOut [Reg.PIN_FILT n] s t)) ∧
  (∀ (s : State) (n : Fin 256) (stretch : BitVec 32), s.bankFailed (n.val / 16) = false → s.mode ≠ .drowse →
    let u := s.setFlag (Fd.PIN_STAT_LEVEL n) (!s.level n)
    let i := s.captured n stretch.toNat
    exec (.filterAccept n stretch) s = .next (u.edgeRecord n i (!s.level n) false) ∧ u.level n = (!s.level n) ∧
    SameRegs [Reg.PIN_STAT n] s u ∧ (u.journals = false ∨ u.journalsEdge n (!s.level n) = false →
      u.edgeRecord n i (!s.level n) false = u)) ∧
  (∀ (s : State) (n : Fin 256), s.fld (Fd.PIN_FILT_COUNT n) ≠ 0 → s.bankFailed (n.val / 16) = false → ∃ t,
    exec (.glitchReject n) s = .next t ∧ t.fld (Fd.PIN_CNT_GLITCH_CNT n) =
      min (s.fld (Fd.PIN_CNT_GLITCH_CNT n) + 1) (2 ^ (Fd.PIN_CNT_GLITCH_CNT n).width - 1) ∧
    (t.pin n).glitches = (s.pin n).glitches + 1 ∧ t.level n = s.level n ∧ SameRegs [Reg.PIN_CNT n] s t ∧ SameBytes s t) ∧
  (∀ (s : State) (b : Fin 16), s.bankFailed b = false → ∃ u : State, exec (.bankSupplyFail b) s = .next (u.sysRec 0x006 (256 + b)) ∧
    u.bankFailed b = true ∧ u.flag (Fd.PB_BANK_STAT_VIO_OK b) = false ∧ u.flag (Fd.PB_BANK_STAT_VIO_FAIL b) = true ∧
    (u.rd Reg.FPIN_FPIN_EVT).getLsbD b = true ∧ SameRegs [Reg.PB_BANK_STAT b, Reg.FPIN_FPIN_EVT] s u ∧ SameBytes s u) ∧
  (∀ (s : State) (b : Fin 16) (l : BitVec 16), s.bankFailed b = true → ∃ u : State, u.bankFailed b = false ∧
    u.flag (Fd.PB_BANK_STAT_VIO_OK b) = true ∧ SameRegs [Reg.PB_BANK_STAT b] s u ∧ exec (.bankSupplyReturn b l) s =
      .next ((u.sysRec 0x006 b).forEach (List.range 16) fun k v => v.reconcile (16 * b + k) (l.getLsbD k)))

/-- No pin is driven while a domain is held, while the outputs are released, by a bank that has failed, or when nobody owns it.
In Isolated, Seamless and Split a pin of software drives its bit of OUT, push-pull, or low only under open drain; a pin of
another owner drives the owner's value while its enable stands. In Pass-through an owned pin drives its SAFE level, in Drowse
its DROWSE level: 1 low, 2 high, else nothing. In Standby, Recovery and Load nothing is driven. A level of 0b00 leaves the
keeper engaged; a listen-only pin, and every pin in Recovery, has neither pull nor keeper from PULL. A write of OUT in
Isolated, Seamless or Split is therefore what a software pin shows at once. Completion, under conditions on the state and the
operands alone, is stated for: outWrite. (07_field_pins_and_edge_journal.md R174, 07_field_pins_and_edge_journal.md R175, 07_field_pins_and_edge_journal.md R178, 07_field_pins_and_edge_journal.md R179, 07_field_pins_and_edge_journal.md R170, 01_node_anatomy.md R20) -/
def Obligations.WhatAPinDrives : Prop :=
  (∀ (s : State) (n : Nat), (s.anat.kaHeld = true ∨ s.anat.mainHeld = true ∨ s.anat.outputsReleased = true ∨
    s.bankFailed (n / 16) = true ∨ s.fld (Fd.PIN_STAT_OWNER n) = 0) → s.pinDrive n = none) ∧
  (∀ (s : State) (n : Nat), s.runs = true → s.anat.outputsReleased = false → s.bankFailed (n / 16) = false →
    s.boot.drowsy = false →
    (s.inField = true → s.fld (Fd.PIN_STAT_OWNER n) = 1 →
      s.pinDrive n = (if s.flag (Fd.PIN_CFG_OD n) = true ∧ (s.rd (Reg.PB_OUT (n / 16))).getLsbD (n % 16) = true then none
        else some ((s.rd (Reg.PB_OUT (n / 16))).getLsbD (n % 16)))) ∧
    (s.inField = true → 1 < s.fld (Fd.PIN_STAT_OWNER n) → s.flag (Fd.PIN_CFG_OD n) = false →
      s.pinDrive n = if (s.pin n).enable then some (s.pin n).value else none) ∧
    (s.mode = .passThrough → s.fld (Fd.PIN_STAT_OWNER n) ≠ 0 → s.flag (Fd.PIN_CFG_OD n) = false →
      s.pinDrive n = match s.fld (Fd.PIN_CFG_SAFE n) with | 1 => some false | 2 => some true | _ => none) ∧
    (s.mode = .drowse → s.fld (Fd.PIN_STAT_OWNER n) ≠ 0 → s.flag (Fd.PIN_CFG_OD n) = false →
      s.pinDrive n = match s.fld (Fd.PIN_CFG_DROWSE n) with | 1 => some false | 2 => some true | _ => none) ∧
    ((s.mode = .standby ∨ s.mode = .recovery ∨ s.mode = .load) → s.pinDrive n = none) ∧
    (s.mode = .drowse → s.fld (Fd.PIN_CFG_DROWSE n) = 0 → s.pinKeeper n = true) ∧
    (s.mode = .passThrough → s.fld (Fd.PIN_STAT_OWNER n) ≠ 0 → s.fld (Fd.PIN_CFG_SAFE n) = 0 → s.pinKeeper n = true) ∧
    (s.mode ≠ .recovery → s.fld (Fd.PIN_CFG_FUNC n) ≠ 1 → s.pinPull n = s.fld (Fd.PIN_CFG_PULL n)) ∧
    ((s.mode = .recovery ∨ s.fld (Fd.PIN_CFG_FUNC n) = 1) → s.pinPull n = 0)) ∧
  (∀ (s : State) (b : Fin 16) (k : Fin 16) (w : Word), s.takes none = true → s.asleepOrLoading = false → s.inField = true →
    s.boot.drowsy = false → s.anat.outputsReleased = false → s.bankFailed b = false → s.fld (Fd.PIN_STAT_OWNER (16 * b + k)) = 1 →
    s.flag (Fd.PIN_CFG_OD (16 * b + k)) = false → ∃ t, exec (.outWrite b w) s = .next t ∧
    t.pinDrive (16 * b + k) = some (w.getLsbD k))

/-- The writer takes the oldest record of the burst FIFO whose turn it is, writes its 16 bytes with the low 32 bits of WR_TOTAL
as SEQ at the position that WR_TOTAL names, and moves WR_TOTAL on by one; no other byte of memory changes. With every FIFO
empty nothing changes. A burst FIFO with room keeps a record, with LOST if it lost one before; a full one loses it and
counts. The flush deadline passes. RD_POS takes a position up to WR_TOTAL, one beyond is refused with BAD_REQUEST, and RD[2]
with WRONG_MODE while it streams. A reader newly overrun has OVR set and counts, RD[2] moving on while it streams; a level
newly reached sets its event. A restart puts every position to 0 and record 0x007 first. Completion, under conditions on the
state and the operands alone, is stated for: journalRecordWrite, journalFlush, rdPosWrite. (07_field_pins_and_edge_journal.md R181, 07_field_pins_and_edge_journal.md R184, 07_field_pins_and_edge_journal.md R185, 07_field_pins_and_edge_journal.md R187, 07_field_pins_and_edge_journal.md R188, 07_field_pins_and_edge_journal.md R189, 07_field_pins_and_edge_journal.md R190) -/
def Obligations.EdgeJournal : Prop :=
  (∀ (s : State) (i : Nat) (r : JRec) (l : List JRec), s.journals = true → s.mode ≠ .drowse → s.jrnCap ≠ 0 → s.runs = true →
    s.unitBusy .journal = false → s.nextFifo = some i → Tab.get [] s.fifos i = r :: l → ∃ t, exec .journalRecordWrite s = .next t ∧
    StoredAt s t (s.fld Fd.JRN_BASE_MIB * 2 ^ 20 + s.wrTotal % s.jrnCap * 16)
      (JRec.encode { r with lost := r.lost || s.field.gap } (s.wrTotal % 2 ^ 32)) ∧
    t.wrTotal = min (s.wrTotal + 1) (2 ^ 64 - 1) ∧ Tab.get [] t.fifos i = l ∧ (∀ j, j ≠ i → Tab.get [] t.fifos j = Tab.get [] s.fifos j)) ∧
  (∀ s : State, s.nextFifo = none → exec .journalRecordWrite s = .next s) ∧
  (∀ (r : JRec) (q : Nat), (r.encode q).length = 16) ∧
  (∀ (s : State) (i : Nat) (r : JRec), (Tab.get [] s.fifos i).length < fifoCap i →
    Tab.get [] (s.pushRec i r).fifos i = Tab.get [] s.fifos i ++ [{ r with lost := r.lost || s.fifoLost.contains i }] ∧
    SameRegs [] s (s.pushRec i r)) ∧
  (∀ (s : State) (i : Nat) (r : JRec), fifoCap i ≤ (Tab.get [] s.fifos i).length → (s.pushRec i r).fifos = s.fifos ∧
    (s.pushRec i r).fifoLost.contains i = true ∧
    (s.pushRec i r).rd Reg.JRN_LOST_TOTAL = BitVec.ofNat 32 (min ((s.rd Reg.JRN_LOST_TOTAL).toNat + 1) 0xFFFFFFFF)) ∧
  (∀ s : State, s.armed .flush = true → ∃ t, exec .journalFlush s = .next t ∧ t.armed .flush = false ∧ SameRegs [] s t ∧ SameBytes s t) ∧
  (∀ (s : State) (r : Fin 4) (v : BitVec 64), s.takes (some .journal) = true →
    (r = 2 → s.streaming = true → exec (.rdPosWrite r v) s = .next (answer (wrongMode s))) ∧
    ((r ≠ 2 ∨ s.streaming = false) → s.wrTotal < v.toNat → exec (.rdPosWrite r v) s = .next (answer (refuse .badRequest s))) ∧
    ((r ≠ 2 ∨ s.streaming = false) → v.toNat ≤ s.wrTotal → ∃ t, exec (.rdPosWrite r v) s = .next t ∧ t.rdPos r = v.toNat ∧
      SameBytes s t ∧ (r ≠ 2 → t.out = .answer .ok :: s.out ∧
        OnlyRegsOut [Reg.RD_RD_POS_LO r, Reg.RD_RD_POS_HI r, Reg.JRN_EVT, Reg.RD_RD_STAT r, Reg.JRN_OVR_CNT] s t))) ∧
  (∀ (s t : State) (r : Fin 4), t.overrun r = true → s.overrun r = false →
    (t.noteReader r s).flag (Fd.RD_RD_STAT_OVR r) = true ∧
    (t.noteReader r s).rd Reg.JRN_OVR_CNT = BitVec.ofNat 32 (min ((t.rd Reg.JRN_OVR_CNT).toNat + 1) 0xFFFFFFFF) ∧
    (r = 2 → t.streaming = true → (t.noteReader r s).rdPos 2 = t.wrTotal - t.jrnCap)) ∧
  (∀ (s t : State) (r : Fin 4), t.levelReached r = true → s.levelReached r = false →
    ((t.noteReader r s).rd Reg.JRN_EVT).getLsbD r = true) ∧
  (∀ s : State, s.field.restarted = false →
    let t := s.restartJournal
    t.wrTotal = 0 ∧ (∀ r, r < 4 → t.rdPos r = 0) ∧ t.flag Fd.JRN_EVT_RESTARTED = true ∧
    (Tab.get [] t.fifos 363).head?.map (·.source) = some 0x007)

/-- A row with good parity whose action can complete is completed: the action is carried out, STATE becomes NEXT, MAP the row's
map bit and RUN RUNNING; HALT instead stops with cause 2. PULL takes the head of the TX queue and stalls on an empty one;
PUSH appends the right-aligned shift register to the RX queue and stalls on a full one. SHIN, SHOUT and SHIO shift by one;
CLOAD loads counter and prescaler, CDEC counts the prescaler and then the counter down and stops at 0; SCLR clears the shift
register and reloads the bit counter; CAPT copies the counters. A row with bad parity stops the bobbin with cause 4.
Completion, under conditions on the state and the operands alone, is stated for: nop, shin, shout, shio, cload0, cdec0,
cload1, cdec1, sclr, irq, cload01, cdec01, capt, halt, pull, push. (08_bobbin_engines.md R198, 08_bobbin_engines.md R199, 08_bobbin_engines.md R200, 08_bobbin_engines.md R203, 08_bobbin_engines.md R204, 08_bobbin_engines.md R207, 08_bobbin_engines.md R210, 08_bobbin_engines.md R217) -/
def Obligations.BobbinRows : Prop :=
  (∀ (s : State) (n : Fin 64) (addr row : Nat),
    let run := fun (c : Instr) => exec c s = .next ((fetched n addr s).completeRow n addr row)
    (Fetches s n addr row 0 → run (.nop n)) ∧ (Fetches s n addr row 1 → run (.shin n)) ∧ (Fetches s n addr row 2 → run (.shout n)) ∧
    (Fetches s n addr row 3 → run (.shio n)) ∧ (Fetches s n addr row 6 → run (.cload0 n)) ∧ (Fetches s n addr row 7 → run (.cdec0 n)) ∧
    (Fetches s n addr row 8 → run (.cload1 n)) ∧ (Fetches s n addr row 9 → run (.cdec1 n)) ∧ (Fetches s n addr row 10 → run (.sclr n)) ∧
    (Fetches s n addr row 11 → run (.irq n)) ∧ (Fetches s n addr row 12 → run (.cload01 n)) ∧ (Fetches s n addr row 13 → run (.cdec01 n)) ∧
    (Fetches s n addr row 14 → run (.capt n)) ∧ (Fetches s n addr row 15 → run (.halt n)) ∧
    (Fetches s n addr row 4 → ∀ h l, (s.bob n).tx = h :: l → exec (.pull n) s = .next ((fetched n addr s).pullRow n addr row h l)) ∧
    (Fetches s n addr row 5 → (s.bob n).rx.length < s.bobDepth n → run (.push n)) ∧
    (Fetches s n addr row 4 → (s.bob n).tx = [] → ∃ t, exec (.pull n) s = .next t ∧ t.bobRun n = 2 ∧
      t.rd (Reg.BOB_STALL_CYC n) = BitVec.ofNat 32 (min ((s.rd (Reg.BOB_STALL_CYC n)).toNat + 1) 0xFFFFFFFF)) ∧
    (Fetches s n addr row 5 → s.bobDepth n ≤ (s.bob n).rx.length → ∃ t, exec (.push n) s = .next t ∧ t.bobRun n = 2)) ∧
  (∀ (s : State) (n : Fin 64) (addr row : Nat),
    let t := s.completeRow n addr row
    t.fld (Fd.BOB_STAT_STATE n) = row % 32 ∧ t.fld (Fd.BOB_STAT_MAP n) = row / 2 ^ 23 % 2 ∧
    (row / 2 ^ 17 % 16 ≠ 15 → t.bobRun n = 1) ∧ (row / 2 ^ 17 % 16 = 15 → t.bobRun n = 0 ∧ t.fld (Fd.BOB_STAT_STOP_CAUSE n) = 2) ∧
    SameBytes s t) ∧
  (∀ (s : State) (n : Fin 64) (h : QWord) (l : List QWord) (addr row : Nat), h.upset = 0 → h.poison = false →
    s.pullRow n addr row h l = ((State.wr (Reg.BOB_SR n) (s.pullValue n h.data)
      (s.setBob n { s.bob n with tx := l })).loadBits n).completeRow n addr row) ∧
  (∀ (s : State) (n : Fin 64) (e : Bool),
    ((s.act n 5 e).bob n).rx = (s.bob n).rx ++ [{ data := s.pushValue n, last := e }] ∧ (s.act n 5 e).rd (Reg.BOB_SR n) = 0#32 ∧
    (s.act n 5 e).rd (Reg.BOB_RX_LAST n) = s.pushValue n ∧
    (s.act n 1 e).rd (Reg.BOB_SR n) = (if s.flag (Fd.BOB_SHIFT_CFG_DIR n)
      then (s.rd (Reg.BOB_SR n) <<< 1) ||| (if s.inBit n then 1#32 else 0#32)
      else (s.rd (Reg.BOB_SR n) >>> 1) ||| (if s.inBit n then 0x80000000#32 else 0#32)) ∧
    s.act n 3 e = s.act n 1 e ∧ s.act n 2 e = s.shift n false ∧
    (s.act n 1 e).fld (Fd.BOB_EXEC_BITCNT n) = s.fld (Fd.BOB_EXEC_BITCNT n) - 1 ∧
    (s.act n 6 e).fld (Fd.BOB_CNT_VAL_C0 n) = s.fld (Fd.BOB_CNT_CFG0_RELOAD n) ∧
    (s.act n 8 e).fld (Fd.BOB_CNT_VAL_C1 n) = s.fld (Fd.BOB_CNT_CFG1_RELOAD n) ∧
    s.act n 12 e = (s.act n 6 e).act n 8 e ∧ s.act n 13 e = (s.act n 7 e).act n 9 e ∧
    (s.act n 10 e).rd (Reg.BOB_SR n) = 0#32 ∧ (s.act n 10 e).fld (Fd.BOB_EXEC_BITCNT n) = s.bobBits n ∧
    (s.act n 14 e).rd (Reg.BOB_SR n) = s.rd (Reg.BOB_CNT_VAL n) ∧ s.act n 0 e = s ∧ s.act n 15 e = s ∧ s.act n 11 e = s.bobIrq n ∧
    (s.fld (Fd.BOB_CNT_VAL_C0 n) = 0 → s.act n 7 e = s) ∧
    (s.fld (Fd.BOB_CNT_VAL_C0 n) ≠ 0 → 0 < (s.bob n).p0 → ((s.act n 7 e).bob n).p0 = (s.bob n).p0 - 1 ∧ SameRegs [] s (s.act n 7 e)) ∧
    (s.fld (Fd.BOB_CNT_VAL_C0 n) ≠ 0 → (s.bob n).p0 = 0 →
      (s.act n 7 e).fld (Fd.BOB_CNT_VAL_C0 n) = s.fld (Fd.BOB_CNT_VAL_C0 n) - 1 ∧
      ((s.act n 7 e).bob n).p0 = s.fld (Fd.BOB_CNT_CFG0_PRE n))) ∧
  (∀ (s : State) (n : Fin 64) (addr : Nat), s.mark (rowAddr n addr) ≠ 0 →
    (s.runRow n addr).bobRun n = 0 ∧ (s.runRow n addr).fld (Fd.BOB_STAT_STOP_CAUSE n) = 4)

/-- START of a stopped, unlent bobbin in Isolated, Seamless or Split clears shift register and counters, loads the bit counter,
takes START_STATE and IMAP0, clears PRICK_DIRTY and runs; STOP of a running one stops it with cause 1; RESUME of a clean
stopped one runs on with its shift state; a lent bobbin answers START and RESUME with BUSY. Group commands do the same for
all named bobbins, or are refused for all. SYNC sets the pulse of the running bobbins of the named cushions. A cycle of a
stalled bobbin executes its row again. TXQ appends a word while there is room, else answers BUSY, sets TX_OVF and stores
nothing; RXQ returns the head, or VALID 0 when empty. Completion, under conditions on the state and the operands alone, is
stated for: start, resume, stop, groupStart, groupStop, groupResume, syncPulse, stallEnd, txqPush, rxqPop. (08_bobbin_engines.md R202, 08_bobbin_engines.md R206, 08_bobbin_engines.md R207, 08_bobbin_engines.md R210, 08_bobbin_engines.md R211, 08_bobbin_engines.md R213, 08_bobbin_engines.md R214, 08_bobbin_engines.md R215) -/
def Obligations.BobbinCommands : Prop :=
  (∀ (s : State) (n : Fin 64), s.takes (some (.bobbin n)) = true → s.asleepOrLoading = false → s.inField = true → s.boot.drowsy = false →
    s.bobLent n = false → s.bobRun n = 0 →
    (∃ t, exec (.start n) s = .next t ∧ t.bobRun n = 1 ∧ t.fld (Fd.BOB_STAT_STATE n) = s.fld (Fd.BOB_CFG_START_STATE n) ∧
      t.flag (Fd.BOB_STAT_MAP n) = false ∧ t.flag (Fd.BOB_STAT_PRICK_DIRTY n) = false ∧ t.rd (Reg.BOB_SR n) = 0#32 ∧
      t.rd (Reg.BOB_CNT_VAL n) = 0#32 ∧ t.fld (Fd.BOB_EXEC_BITCNT n) = s.bobBits n ∧ (t.bob n).held = false ∧
      t.out = .answer .ok :: s.out ∧
      SameRegs [Reg.BOB_SR n, Reg.BOB_CNT_VAL n, Reg.BOB_EXEC n, Reg.BOB_STAT n] s t ∧ SameBytes s t) ∧
    (s.flag (Fd.BOB_STAT_PRICK_DIRTY n) = false → ∃ t, exec (.resume n) s = .next t ∧ t.bobRun n = 1 ∧
      t.fld (Fd.BOB_STAT_STATE n) = s.fld (Fd.BOB_STAT_STATE n) ∧ t.bob n = s.bob n ∧ OnlyRegsOut [Reg.BOB_STAT n] s t) ∧
    (s.flag (Fd.BOB_STAT_PRICK_DIRTY n) = true → exec (.resume n) s = .next (answer (wrongMode s)))) ∧
  (∀ (s : State) (n : Fin 64), s.takes (some (.bobbin n)) = true → s.asleepOrLoading = false →
    (s.bobLent n = true → exec (.start n) s = .next (answer (.busy, s)) ∧ exec (.resume n) s = .next (answer (.busy, s))) ∧
    (s.bobRun n ≠ 0 → ∃ t, exec (.stop n) s = .next t ∧ t.bobRun n = 0 ∧ t.fld (Fd.BOB_STAT_STOP_CAUSE n) = 1 ∧
      t.rd (Reg.BOB_SR n) = s.rd (Reg.BOB_SR n) ∧ SameBytes s t) ∧
    (s.bobRun n = 0 → exec (.stop n) s = .next (answer (.ok, s)))) ∧
  (∀ (s : State) (hi : Bool) (w : Word), s.takes none = true →
    (s.bobGate true false (named hi w) = .ok → exec (.groupStart hi w) s = .next (answer (.ok, s.forEach (named hi w) State.startBob))) ∧
    (s.bobGate false false (named hi w) = .ok → exec (.groupStop hi w) s = .next (answer (.ok, s.forEach (named hi w) State.haltBob))) ∧
    (s.bobGate true true (named hi w) = .ok →
      exec (.groupResume hi w) s = .next (answer (.ok, s.forEach (named hi w) State.resumeBob))) ∧
    (s.bobGate true false (named hi w) ≠ .ok →
      exec (.groupStart hi w) s = .next (answer (refuse (s.bobGate true false (named hi w)) s)))) ∧
  (∀ (s : State) (w : Word), s.takes none = true → s.asleepOrLoading = false → ∃ t, exec (.syncPulse w) s = .next t ∧
    (∀ n, n < 64 → (t.bob n).sync = ((w.getLsbD (n / 16) && s.bobRun n == 1) || (s.bob n).sync)) ∧ SameRegs [] s t ∧ SameBytes s t) ∧
  (∀ (s : State) (n : Fin 64), s.bobRun n = 2 → s.bobsExecute n = true → s.mark (rowAddr n (s.fld (Fd.BOB_EXEC_ROW n))) = 0 →
    s.rowWord n (s.fld (Fd.BOB_EXEC_ROW n)) / 2 ^ 17 % 16 = 4 →
    (∀ h l, (s.bob n).tx = h :: l → exec (.stallEnd n) s = .next ((fetched n (s.fld (Fd.BOB_EXEC_ROW n)) s).pullRow n
      (s.fld (Fd.BOB_EXEC_ROW n)) (s.rowWord n (s.fld (Fd.BOB_EXEC_ROW n))) h l)) ∧
    ((s.bob n).tx = [] → ∃ t, exec (.stallEnd n) s = .next t ∧ t.bobRun n = 2 ∧
      t.rd (Reg.BOB_STALL_CYC n) = BitVec.ofNat 32 (min ((s.rd (Reg.BOB_STALL_CYC n)).toNat + 1) 0xFFFFFFFF))) ∧
  (∀ (s : State) (n : Fin 64) (wide : Bool) (v : BitVec 64), s.takes (some (.bobbin n)) = true → s.asleepOrLoading = false →
    s.bobLent n = false →
    ((s.bob n).tx.length < s.bobDepth n → ∃ t, exec (.txqPush n wide v 0) s = .next t ∧ t.out = .answer .ok :: s.out ∧
      (t.bob n).tx = (s.bob n).tx ++ [{ data := v.setWidth 32, last := wide && v.getLsbD 34 }] ∧
      SameRegs [Reg.BOB_QPEAK n] s t ∧ SameBytes s t) ∧
    (s.bobDepth n ≤ (s.bob n).tx.length → exec (.txqPush n wide v 0) s = .next (answer (.busy, s.on (Fd.BOB_STAT_TX_OVF n))))) ∧
  (∀ (s : State) (n : Fin 64), s.takes (some (.bobbin n)) = true → s.asleepOrLoading = false → s.bobLent n = false →
    ((s.bob n).rx = [] → exec (.rxqPop n 0) s = .next (s.emit (.data .ok (leBytes 8 0)))) ∧
    (∀ h l, (s.bob n).rx = h :: l → h.upset = 0 → ∃ t, exec (.rxqPop n 0) s = .next t ∧ (t.bob n).rx = l ∧
      t.out = .data .ok (leBytes 8 (h.data.toNat + 2 ^ 32 + (if h.poison then 2 ^ 33 else 0) + (if h.last then 2 ^ 34 else 0))) :: s.out ∧
      SameRegs [] s t ∧ SameBytes s t))

/-- A JOIN by an unlent bobbin of a stopped group that no other join holds empties the queues of the group and lends every member
but the leader; a JOIN of 3, or by a bobbin that cannot lead it, is BAD_REQUEST. A slot is refused with WRONG_MODE while the
bobbin runs, with BAD_REQUEST when slot 6 or 7 would drive; else it takes its value, marks the pricking dirty, its driver is
off until a row applies, and a driving one claims its pin. A pricking is refused with WRONG_MODE while the bobbin runs, which
sets PRICK_WERR; else its rows are stored with their highest byte 0, and the pricking is dirty. Completion, under conditions
on the state and the operands alone, is stated for: queueJoin, slotWrite, prickingWrite. (08_bobbin_engines.md R194, 08_bobbin_engines.md R197, 08_bobbin_engines.md R205, 08_bobbin_engines.md R206, 08_bobbin_engines.md R212) -/
def Obligations.BobbinTables : Prop :=
  (∀ (s : State) (n : Fin 64) (w : Word), s.takes (some (.bobbin n)) = true → s.asleepOrLoading = false →
    ((bits w 0 2 = 3 ∨ n.val % 2 ^ bits w 0 2 ≠ 0) → exec (.queueJoin n w) s = .next (answer (refuse .badRequest s))) ∧
    (bits w 0 2 ≠ 3 → n.val % 2 ^ bits w 0 2 = 0 → s.bobLent n = false → s.fld (Fd.BOB_QCFG_JOIN n) = 0 →
      (∀ m ∈ joinMembers n (bits w 0 2), s.bobRun m = 0 ∧ s.otherJoin n m = false) → ∃ t, exec (.queueJoin n w) s = .next t ∧
      t.rd (Reg.BOB_QCFG n) = BitVec.ofNat 32 (bits w 0 2) ∧ t.out = .answer .ok :: s.out ∧
      (∀ m ∈ joinMembers n (bits w 0 2), (t.bob m).tx = [] ∧ (t.bob m).rx = [] ∧ t.bobLent m = (m != n.val)) ∧ SameBytes s t)) ∧
  (∀ (s : State) (n : Fin 64) (k : Fin 8) (w : Word), s.takes (some (.bobbin n)) = true → s.asleepOrLoading = false →
    (s.bobRun n ≠ 0 → exec (.slotWrite n k w) s = .next (answer (wrongMode s))) ∧
    (s.bobRun n = 0 → 6 ≤ k.val → w.getLsbD 9 = true → exec (.slotWrite n k w) s = .next (answer (refuse .badRequest s))) ∧
    (s.bobRun n = 0 → w.getLsbD 9 = false → s.slotDrives n k = false → ∃ t, exec (.slotWrite n k w) s = .next t ∧
      t.rd (Reg.BOB_SLOT n k) = w &&& 0x73F#32 ∧ t.flag (Fd.BOB_STAT_PRICK_DIRTY n) = true ∧ t.out = .answer .ok :: s.out ∧
      (k.val < 6 → (t.bob n).oen.getLsbD k = false) ∧ SameRegs [Reg.BOB_SLOT n k, Reg.BOB_STAT n] s t ∧ SameBytes s t) ∧
    (s.bobRun n = 0 → s.applying = false → k.val < 6 → bits w 9 2 = 3 → s.slotDrives n k = false → (∀ i, i < 6 → s.slotDrives n i = false) →
      s.fld (Fd.PIN_STAT_OWNER (n / 16 * 64 + bits w 0 6)) = 0 → ∃ t, exec (.slotWrite n k w) s = .next t ∧
      t.rd (Reg.BOB_SLOT n k) = w &&& 0x73F#32 ∧ t.ownedBy (n / 16 * 64 + bits w 0 6) (.bobbin n) = true ∧
      (t.bob n).oen.getLsbD k = false ∧
      SameRegs [Reg.BOB_SLOT n k, Reg.BOB_STAT n, Reg.PIN_STAT (n / 16 * 64 + bits w 0 6)] s t ∧ SameBytes s t)) ∧
  (∀ (s : State) (n : Fin 64) (off : BitVec 12) (b : List Byte), s.takes (some (.bobbin n)) = true → s.asleepOrLoading = false →
    off.toNat % 4 = 0 → b.length % 4 = 0 → b ≠ [] → off.toNat + b.length ≤ 0x1000 →
    (s.bobRun n ≠ 0 → exec (.prickingWrite n off b) s = .next (answer (wrongMode (s.on (Fd.BOB_STAT_PRICK_WERR n))))) ∧
    (s.bobRun n = 0 → ∃ t, exec (.prickingWrite n off b) s = .next t ∧ t.flag (Fd.BOB_STAT_PRICK_DIRTY n) = true ∧
      (∀ x, t.byte x = if rowAddr n 0 + off.toNat ≤ x ∧ x < rowAddr n 0 + off.toNat + b.length then
          (if (x - rowAddr n 0) % 4 = 3 then 0#8 else b.getD (x - rowAddr n 0 - off.toNat) 0#8) else s.byte x) ∧
      t.out = .answer .ok :: s.out ∧ SameRegs [Reg.BOB_STAT n] s t))

/-- CTL with EN = 1 on a disabled controller clears its counters and starts integration; after it the controller is error active
with counters 0. CTL with EN = 0 leaves it to go off, which clears state and counters. A well-formed entry is queued while
there is room, else BUSY with TX_OVF counted; a malformed one is BAD_REQUEST. A sent frame leaves with ESI its own error
state if it is an FD frame, counts TX_OK, lowers TEC by 1 and removes the head. Lost arbitration clears CLASH_RUN and keeps
the head; a transmit error counts ERR_TX and raises TEC by 8, and by 8 again for each further error that ISO 11898-1 counts
in its error frame; an identifier clash sets ID_CLASH, counts, and at CLASH_MAX drops the head. TEC above 255 is bus-off, a
counter above 127 error passive. Recovery clears both counters. ABORT_HEAD removes a head that is not on the wire and marks
one that is. Completion, under conditions on the state and the operands alone, is stated for: canEnable, canIntegration,
canDisable, canOff, txPush, frameSent, arbitrationLost, txError, busOffRecovery, abortHead. (09_can_fd_buses.md R223, 09_can_fd_buses.md R226, 09_can_fd_buses.md R227, 09_can_fd_buses.md R228, 09_can_fd_buses.md R229, 09_can_fd_buses.md R230, 09_can_fd_buses.md R231, 09_can_fd_buses.md R232) -/
def Obligations.CanTransmit : Prop :=
  (∀ (s : State) (n : Fin 8) (w : Word), s.takes (some (.can n)) = true → s.asleepOrLoading = false → bits w 1 2 < 2 →
    s.flag (Fd.CAN_CTL_EN n) = false → s.flag (Fd.CAN_STAT_ABORT_PEND n) = false → ∃ t, exec (.canEnable n w) s = .next t ∧
    t.rd (Reg.CAN_CTL n) = (w ||| 1#32) &&& 0x01FF0F7F#32 ∧ (t.can n).integrating = true ∧ t.rd (Reg.CAN_ERR_CNT n) = 0#32 ∧
    t.canState n = 0 ∧ t.out = .answer .ok :: s.out ∧
    SameRegs [Reg.CAN_CTL n, Reg.CAN_ERR_CNT n, Reg.CAN_STAT n, Reg.CAN_CLASH_RUN n] s t ∧ SameBytes s t) ∧
  (∀ (s : State) (n : Fin 8), (s.can n).integrating = true → s.canService = true → s.rd (Reg.CAN_ERR_CNT n) = 0#32 → s.canState n = 0 →
    ∃ t, exec (.canIntegration n) s = .next t ∧ t.canState n = 1 ∧ (t.can n).integrating = false ∧ (t.can n).queue = (s.can n).queue ∧
    SameRegs [Reg.CAN_ERR_CNT n, Reg.CAN_STAT n] s t ∧ SameBytes s t) ∧
  (∀ (s : State) (n : Fin 8) (w : Word), s.takes (some (.can n)) = true → s.asleepOrLoading = false → bits w 1 2 = s.fld (Fd.CAN_CTL_OPMODE n) →
    bits w 1 2 < 2 → (w ^^^ s.rd (Reg.CAN_CTL n)) &&& 0x01FF004E#32 = 0#32 → ∃ t, exec (.canDisable n w) s = .next t ∧
    t.rd (Reg.CAN_CTL n) = (w &&& ~~~1#32) &&& 0x01FF0F7F#32 ∧ t.out = .answer .ok :: s.out ∧ OnlyRegsOut [Reg.CAN_CTL n] s t) ∧
  (∀ (s : State) (n : Fin 8), s.flag (Fd.CAN_CTL_EN n) = false → s.flag (Fd.CAN_STAT_ABORT_PEND n) = false → ∃ t,
    exec (.canOff n) s = .next t ∧ t.canState n = 0 ∧ t.canOnWire n = false ∧ t.rd (Reg.CAN_ERR_CNT n) = 0#32 ∧
    (t.can n).integrating = false ∧ (t.can n).queue = (s.can n).queue ∧
    SameRegs [Reg.CAN_ERR_CNT n, Reg.CAN_STAT n, Reg.CAN_CLASH_RUN n] s t ∧ SameBytes s t) ∧
  (∀ (s : State) (n : Fin 8) (b : List Byte), s.takes (some (.can n)) = true → s.asleepOrLoading = false → s.mode ≠ .standby →
    s.mode ≠ .passThrough → (entryOk b = false → exec (.txPush n b []) s = .next (answer (refuse .badRequest s))) ∧
    (entryOk b = true → (s.can n).queue.length < 32 → ∃ t, exec (.txPush n b []) s = .next t ∧
      (t.can n).queue = (s.can n).queue ++ [entryOf b] ∧ t.out = .answer .ok :: s.out ∧ SameRegs [Reg.CAN_QPEAK n] s t ∧ SameBytes s t) ∧
    (entryOk b = true → 32 ≤ (s.can n).queue.length → exec (.txPush n b []) s =
      .next (answer (.busy, (s.on (Fd.CAN_STAT_TX_OVF n)).bump (Reg.CAN_TX_OVF_CNT n))))) ∧
  (∀ (s : State) (n : Fin 8) (age : BitVec 40) (tdc : Option (BitVec 8)) (d : CanDelay) (e : List QWord)
      (l : List (List QWord)), s.canSends n = true →
    (s.can n).queue = e :: l →
    (s.flag (Fd.CAN_CTL_TDC_EN n) = false → s.canLoops n = false → s.flag (Fd.CAN_CTL_JTX n) = false →
      exec (.frameSent n age tdc) s =
        .next (((((s.emit (.can n ((entryWord e 0).getLsbD 29) ((entryWord e 0).setWidth 29) (s.ownFrame n e))).bump
          (Reg.CAN_TX_OK n)).setErr n (s.tec n - 1) (s.recCnt n))).dropHead n)) ∧
    (s.flag (Fd.CAN_STAT_ABORT_PEND n) = false → ∃ t, exec (.arbitrationLost n) s = .next t ∧ t.fld (Fd.CAN_CLASH_RUN_RUN n) = 0 ∧
      t.canOnWire n = false ∧ (t.can n).queue = e :: l ∧ OnlyRegs [Reg.CAN_CLASH_RUN n, Reg.CAN_STAT n] s t) ∧
    (s.flag (Fd.CAN_STAT_ABORT_PEND n) = false → s.flag (Fd.CAN_CTL_TDC_EN n) = false →
      exec (.txError n age ⟨.counted, 0#4⟩ d) s = .next (((((s.bump (Reg.CAN_ERR_TX n)).off (Fd.CAN_CLASH_RUN_RUN n)).off
        (Fd.CAN_STAT_TX_ACTIVE n))).setErr n (s.tec n + 8) (s.recCnt n)))) ∧
  (∀ (s : State) (n k : Nat), n < 8 → s.canState n ≠ 3 → s.tec n + 8 * k ≤ 255 → (s.pile n true k).tec n = s.tec n + 8 * k) ∧
  (∀ (s : State) (n : Fin 8) (e : List QWord), (s.ownFrame n e).esi = ((entryWord e 0).getLsbD 31 && s.canState n == 2) ∧
    (s.ownFrame n e).fdf = (entryWord e 0).getLsbD 31) ∧
  (∀ (s : State) (n : Fin 8) (sof : Instant),
    let run := min (s.fld (Fd.CAN_CLASH_RUN_RUN n) + 1) 15
    (s.clash n sof).flag (Fd.CAN_STAT_ID_CLASH n) = true ∧
    (s.fld (Fd.CAN_CTL_CLASH_MAX n) ≠ run → (s.clash n sof).fld (Fd.CAN_CLASH_RUN_RUN n) = run ∧
      ((s.clash n sof).can n).queue = (s.can n).queue ∧
      (s.clash n sof).rd (Reg.CAN_CLASH_CNT n) = BitVec.ofNat 32 (min ((s.rd (Reg.CAN_CLASH_CNT n)).toNat + 1) 0xFFFFFFFF)) ∧
    (s.fld (Fd.CAN_CTL_CLASH_MAX n) = run → (s.clash n sof).fld (Fd.CAN_CLASH_RUN_RUN n) = 0 ∧
      ((s.can n).queue.length ≤ 1 → ((s.clash n sof).can n).queue = []))) ∧
  (∀ (s : State) (n tec rec_ : Nat), n < 8 → tec ≤ 511 → rec_ ≤ 511 → (s.setErr n tec rec_).tec n = tec ∧ (s.setErr n tec rec_).recCnt n = rec_ ∧
    (s.setErr n tec rec_).canState n = (if 255 < tec then 3 else if 127 < tec ∨ 127 < rec_ then 2 else 1)) ∧
  (∀ (s : State) (n : Fin 8), s.canState n = 3 → s.canService = true → ∃ t, exec (.busOffRecovery n) s = .next t ∧ t.canState n = 1 ∧
    t.tec n = 0 ∧ t.recCnt n = 0 ∧ (t.can n).queue = (s.can n).queue) ∧
  (∀ (s : State) (n : Fin 8), s.takes (some (.can n)) = true → s.asleepOrLoading = false → s.mode ≠ .standby → s.mode ≠ .passThrough →
    s.flag (Fd.CAN_STAT_ABORT_PEND n) = false →
    (s.canOnWire n = true → ∃ t, exec (.abortHead n) s = .next t ∧ t.flag (Fd.CAN_STAT_ABORT_PEND n) = true ∧ OnlyRegsOut [Reg.CAN_STAT n] s t) ∧
    (s.canOnWire n = false → exec (.abortHead n) s = .next (answer (.ok, s.abortNow n)) ∧
      ∀ e l, (s.can n).queue = e :: l → s.abortNow n =
        (((s.bump (Reg.CAN_ABORT_CNT n)).canStateRec n 0x7 (entryTag e) s.instant)).dropHead n))

/-- The first filter that matches an identifier names the object; without one the catch-all takes it when enabled, else it counts
in RX_UNMATCHED. A stored frame writes its 80-byte object and nothing else of memory: the identifier word, the DLC word with
GEN one higher and LOST when NEW was set, the start time, and the data followed by zeros; NEW is set, RX_OK and with LOST
RX_OVERWRITE count. Reading an object returns its 80 bytes and clears NEW. A valid reception outside listen-only lowers a REC
up to 127 by 1. A receive error outside listen-only and bus-off raises REC by 1, a heavy one by 8. A protocol exception
counts and starts integration. A filter entry is stored when it is acceptable, else BAD_REQUEST. Completion, under conditions
on the state and the operands alone, is stated for: canIdComplete, canFrameStored, objectRead, canRxError, protocolException,
filterWrite. (09_can_fd_buses.md R222, 09_can_fd_buses.md R231, 09_can_fd_buses.md R233, 09_can_fd_buses.md R234, 09_can_fd_buses.md R235, 09_can_fd_buses.md R236, 09_can_fd_buses.md R237) -/
def Obligations.CanReceive : Prop :=
  (∀ (s : State) (n : Fin 8) (ide : Bool) (id : BitVec 29), s.canHears n = true → ∃ t, exec (.canIdComplete n ide id) s = .next t ∧
    (t.can n).rx = some (s.matchObject n ide id) ∧ SameBytes s t ∧
    ((s.matchObject n ide id).obj = none → t.rd (Reg.CAN_RX_UNMATCHED n) =
      BitVec.ofNat 32 (min ((s.rd (Reg.CAN_RX_UNMATCHED n)).toNat + 1) 0xFFFFFFFF) ∧ SameRegs [Reg.CAN_RX_UNMATCHED n] s t) ∧
    ((s.matchObject n ide id).obj ≠ none → SameRegs [] s t)) ∧
  (∀ (s : State) (n k : Nat) (ide : Bool) (id : BitVec 29), k < 512 → (ide = true ∨ id.toNat < 2048) →
    s.filterMatches n ide id.toNat k = true → (∀ j, j < k → s.filterMatches n ide id.toNat j = false) →
    (s.matchObject n ide id).obj = some k ∧ (s.matchObject n ide id).catchAll = false) ∧
  (∀ (s : State) (n : Nat) (ide : Bool) (id : BitVec 29), (ide = true ∨ id.toNat < 2048) →
    (∀ j, j < 512 → s.filterMatches n ide id.toNat j = false) → (s.matchObject n ide id).obj =
      if s.flag (Fd.CAN_CTL_CATCH_EN n) then some (s.fld (Fd.CAN_CTL_CATCH_OBJ n)) else none) ∧
  (∀ (s : State) (n : Fin 8) (f : CanFrame) (age : BitVec 40) (r : CanRx) (k : Nat), s.canState n ≠ 0 → (s.can n).rx = some r →
    r.obj = some k → k < 512 → ∃ u : State, (u.can n).rx = none ∧ SameRegs [] s u ∧ SameBytes s u ∧
    exec (.canFrameStored n f age) s = .next ((u.storeObject n k r f (s.sofAt age)).recOk n)) ∧
  (∀ (s : State) (n : Fin 8), (s.canListens n = true → s.recOk n = s) ∧
    (s.canListens n = false → s.canState n ≠ 3 → s.recCnt n ≤ 127 → s.recOk n = s.setErr n (s.tec n) (s.recCnt n - 1))) ∧
  (∀ (s : State) (n k : Nat) (r : CanRx) (f : CanFrame) (sof : Instant), n < 8 → k < 512 → r.jrn = false →
    let t := s.storeObject n k r f sof
    let a := 0x3100100000 + 0x10000 * n + 80 * k
    (∀ x, (x < a ∨ a + 80 ≤ x) → t.byte x = s.byte x) ∧ t.byte (a + 6) = s.byte (a + 6) + 1#8 ∧
    (t.byte (a + 4)).getLsbD 6 = s.objNew n k ∧ t.objNew n k = true ∧
    t.readBytes (a + 8) 8 = leBytes 8 (sof.ctr / 2 ^ 32) ∧
    (∀ i, i < 64 → t.byte (a + 16 + i) = if i < dlcLen f.fdf f.rtr f.dlc.toNat then f.data.getD i 0#8 else 0#8) ∧
    t.rd (Reg.CAN_RX_OK n) = BitVec.ofNat 32 (min ((s.rd (Reg.CAN_RX_OK n)).toNat + 1) 0xFFFFFFFF)) ∧
  (∀ (s : State) (n : Fin 8) (k : Fin 512), s.takes (some (.can n)) = true → ∃ t, exec (.objectRead n k) s = .next t ∧
    t.out = .data .ok (s.readBytes (objAddr n k) 80) :: s.out ∧ t.objNew n k = false ∧
    OnlyRegsOut [Reg.CAN_OBJ_NEW n (k.val / 32)] s t) ∧
  (∀ (s : State) (n : Fin 8) (heavy : Bool), s.canHears n = true → s.canListens n = false → s.canState n ≠ 3 → s.recCnt n ≤ 500 →
    ∃ t, exec (.canRxError n ⟨heavy, 0#4⟩) s = .next t ∧ t.recCnt n = s.recCnt n + (if heavy then 8 else 1) ∧ t.tec n = s.tec n ∧
    (t.can n).rx = none ∧ SameBytes s t) ∧
  (∀ (s : State) (n : Fin 8), s.canHears n = true → ∃ t, exec (.protocolException n) s = .next t ∧ (t.can n).integrating = true ∧
    (t.can n).rx = none ∧ t.rd (Reg.CAN_PEX_CNT n) = BitVec.ofNat 32 (min ((s.rd (Reg.CAN_PEX_CNT n)).toNat + 1) 0xFFFFFFFF) ∧
    SameRegs [Reg.CAN_PEX_CNT n] s t ∧ SameBytes s t) ∧
  (∀ (s : State) (n : Fin 8) (k : Fin 512) (v : BitVec 64), s.takes (some (.can n)) = true → s.asleepOrLoading = false →
    (filterOk (v.setWidth 32) ((v >>> 32).setWidth 32) = true → ∃ t, exec (.filterWrite n k v) s = .next t ∧
      StoredAt s t (filterAddr n k) (leBytes 8 v.toNat) ∧ t.out = .answer .ok :: s.out ∧ SameRegs [] s t) ∧
    (filterOk (v.setWidth 32) ((v >>> 32).setWidth 32) = false →
      exec (.filterWrite n k v) s = .next (answer (refuse .badRequest s))))

/-- The head request of a serving bridge starts: it is counted, and the instant from which TMO runs is noted; an LREAD takes the
lock and ST_LOCK_N; one behind a lock of another holder is answered BUSY unless it reads. At its end an unbuffered READ or
WRITE puts its cycles on the bus, leaves the queue and completes OK. ST_ERR, and the time-out, set EVT.ERR, take the request
out of the queue, let the one that has waited longest enter, and answer FAR_ERROR; the time-out, TMO µs of the time counter
after the start, also sets EVT.TMO. A read-ahead of a window that is as it was fills a buffer and counts; a buffer older than
50 µs is gone. The lock that expires is dropped, counted and flagged; ST_LOCK_N stays low to the end of a request that runs.
An interrupt line in edge mode sets its pending bit as it goes low, in level mode pending follows it. A window whose figures
do not fit is refused with BAD_REQUEST. STB_CTL is refused with BUSY while a request waits, and otherwise discards every
buffer. Completion, under conditions on the state and the operands alone, is stated for: bridgeRequest, bridgeRequestEnd,
stErr, windowTimeout, readAhead, prefetchAged, stitchLockExpiry, stitchIrq, windowEnable, stbCtlWrite. (10_stitch_bus_bridge.md R250, 10_stitch_bus_bridge.md R252, 10_stitch_bus_bridge.md R254, 10_stitch_bus_bridge.md R255, 10_stitch_bus_bridge.md R256, 10_stitch_bus_bridge.md R258, 10_stitch_bus_bridge.md R259, 10_stitch_bus_bridge.md R260, 10_stitch_bus_bridge.md R262, 10_stitch_bus_bridge.md R263, 10_stitch_bus_bridge.md R266, 10_stitch_bus_bridge.md R267) -/
def Obligations.StitchBridge : Prop :=
  (∀ (s : State) (e : StReq) (l : List StReq), s.stb.queue = e :: l → s.stb.running = false → s.bridgeRuns = true →
    let other := (s.txn.locks.any fun l => l.2.stitch && !l.2.holds e.req) || (e.kind == .lread && s.freeLock.isNone)
    (e.buffered = false → e.kind ≠ .lread → (e.kind = .read ∨ other = false) → exec .bridgeRequest s =
      .next { (s.bump (if e.reads then Reg.STB_RD_REQ else Reg.STB_WR_REQ)) with
        stb := { s.stb with running := true, began := s.now, left := [], spoiled := [], got := [] } }) ∧
    (∀ k, e.kind = .lread → other = false → s.freeLock = some k → ∃ t, exec .bridgeRequest s = .next t ∧ t.stb.running = true ∧
      t.stb.lockLow = true ∧ t.txn.locks = s.txn.locks ++ [(k, ⟨e.req.srcRing, e.req.srcNode, e.req.init, e.req.cls, e.req.flow,
        0x2000000000, 0x3000000000, true⟩)] ∧ SameRegs [Reg.STB_RD_REQ] s t ∧ SameBytes s t) ∧
    (e.kind ≠ .read → other = true → exec .bridgeRequest s = .next (State.fail e.kind e.req (.busy, s.popBridge)))) ∧
  (∀ (s : State) (e : StReq) (l : List StReq) (ad : List (Word × Bool)), s.stb.queue = e :: l → s.stb.running = true →
    s.bridgeRuns = true → e.buffered = false →
    let bs := e.map.beats e.offset e.req.bytes.toNat
    (e.kind = .write ∨ e.kind = .read ∧ bs.length ≤ ad.length) → exec (.bridgeRequestEnd ad) s =
      .next (((s.emit (e.map.onBus (e.kind == .write) (fun o => e.req.data.getD (o - e.offset) 0#8) bs)).popBridge).complete1 e.kind e.req .ok
        (if e.kind = .read then e.map.sampled bs ad else []))) ∧
  (∀ (s : State) (e : StReq) (l : List StReq) (n : Nat) (ad : List (Word × Bool)), s.stb.queue = e :: l → s.stb.running = true →
    s.bridgeRuns = true → exec (.stErr n ad) s = .next (s.failBridge e n ad 0) ∧
    exec (.windowTimeout n ad) s = .next ((s.toTime (s.stb.began + 1000 * e.map.tmo)).failBridge e n ad 1)) ∧
  (∀ (s : State) (e : StReq) (n c : Nat) (ad : List (Word × Bool)), e.buffered = false → e.kind ≠ .pwrite →
    n < (e.map.beats e.offset e.req.bytes.toNat).length →
    let t := s.failBridge e n ad c
    t.flag Fd.STB_EVT_ERR = true ∧ t.stb.queue = s.stb.queue.drop 1 ++ s.stb.waiting.take 1 ∧ t.stb.running = false ∧ SameBytes s t ∧
    t.rd Reg.STB_ERR_CNT = BitVec.ofNat 32 (min ((s.rd Reg.STB_ERR_CNT).toNat + 1) 0xFFFFFFFF) ∧
    (c = 1 → t.flag Fd.STB_EVT_TMO = true ∧
      t.rd Reg.STB_TMO_CNT = BitVec.ofNat 32 (min ((s.rd Reg.STB_TMO_CNT).toNat + 1) 0xFFFFFFFF)) ∧
    (s.ownReq e.req = false → ∃ f, t.txn.toInject = s.txn.toInject ++ [f] ∧ f.kind = Kd.cpl ∧ f.status = 3#4)) ∧
  (∀ (s : State) (m : StWin) (k : Nat) (l : List (StWin × Nat)) (ad : List (Word × Bool)), s.stb.ahead = (m, k) :: l → s.stb.queue = [] →
    s.bridgeRuns = true → s.stb.bufs.length ≤ 7 → (∀ b ∈ s.stb.bufs, s.now < b.filled + 50000) → s.stWin m.win = m →
    s.bufOf m.win k = none → (m.beats k 64).length ≤ ad.length → ∃ t b, exec (.readAhead ad false) s = .next t ∧
    t.stb.ahead = l.filter (fun a => (s.bufOf a.1.win a.2).isNone) ∧
    t.stb.bufs = b :: s.stb.bufs ∧ b.map = m ∧ b.block = k ∧ b.filled = s.now ∧ b.used = 0#16 ∧ SameRegs [Reg.STB_PF_AHEAD] s t ∧
    SameBytes s t) ∧
  (∀ s : State, s.stb.bufs ≠ [] → ∃ t, exec .prefetchAged s = .next t ∧ (∀ b ∈ t.stb.bufs, b ∈ s.stb.bufs ∧ t.now < b.filled + 50000) ∧
    t.stb.bufs.length < s.stb.bufs.length ∧ SameBytes s t) ∧
  (∀ s : State, s.armed .stitchLock = true → s.stitchLocked = true → ∃ t, exec .stitchLockExpiry s = .next t ∧ t.stitchLocked = false ∧
    t.stb.lockLow = (s.stb.running && s.stb.lockLow) ∧
    t.flag Fd.STB_EVT_LOCK_BRK = true ∧ t.rd Reg.TXN_LOCK_EXPIRED = BitVec.ofNat 32 (min ((s.rd Reg.TXN_LOCK_EXPIRED).toNat + 1) 0xFFFFFFFF) ∧
    SameRegs [Reg.TXN_LOCK_EXPIRED, Reg.STB_LOCK_BRK_CNT, Reg.STB_EVT] s t ∧ SameBytes s t) ∧
  (∀ (s : State) (k : Fin 4) (low : Bool), s.runs = true → s.flag ⟨Reg.STB_IRQ_EN_CP, k, 1⟩ = false → ∃ t, exec (.stitchIrq k low) s = .next t ∧
    t.flag ⟨Reg.STB_IRQ_STAT, k, 1⟩ = low ∧
    (s.flag ⟨Reg.STB_IRQ_CFG, k, 1⟩ = false → t.flag ⟨Reg.STB_IRQ_PEND, k, 1⟩ = low) ∧
    (s.flag ⟨Reg.STB_IRQ_CFG, k, 1⟩ = true → t.flag ⟨Reg.STB_IRQ_PEND, k, 1⟩ =
      ((low && !s.flag ⟨Reg.STB_IRQ_STAT, k, 1⟩) || s.flag ⟨Reg.STB_IRQ_PEND, k, 1⟩)) ∧
    OnlyRegs [Reg.STB_IRQ_STAT, Reg.STB_IRQ_PEND] s t) ∧
  (∀ (s : State) (i : Fin 16) (w : Word), s.takes (some .stitch) = true → s.asleepOrLoading = false → (s.stWin i).enabled = false →
    let v := (w ||| 0x80000000#32) &&& 0x83FF3307#32
    let fits := ({ s.stWin i with cfg := v }).mayEnable (bits (s.rd (Reg.WIN_SIZE i)) 0 6)
      (((List.range 16).filter (· != i.val)).map s.stWin |>.filter StWin.enabled)
    ((bits w 8 2 = 3 ∨ fits = false) → exec (.windowEnable i w) s = .next (answer (refuse .badRequest s))) ∧
    (bits w 8 2 ≠ 3 → fits = true → exec (.windowEnable i w) s = .next (answer (.ok, s.wr (Reg.WIN_WIN_CFG i) v)))) ∧
  (∀ (s : State) (w : Word), s.takes (some .stitch) = true → s.asleepOrLoading = false →
    ((s.stb.queue ≠ [] ∨ s.stitchLocked = true) → exec (.stbCtlWrite w) s = .next (answer (.busy, s))) ∧
    (s.stb.queue = [] → s.stitchLocked = false → ∃ t, exec (.stbCtlWrite w) s = .next t ∧ t.rd Reg.STB_STB_CTL = w &&& 3#32 ∧
      t.stb.bufs = [] ∧ t.stb.ahead = [] ∧ t.out = .answer .ok :: s.out ∧ SameBytes s t))

/-- VBUS connects at full speed when EN and the mode allow it; its loss disconnects. A bus reset clears address, configuration
and suspend, starts the chirp unless FS_ONLY, and is counted; chirp K gives high speed, its time-out leaves full speed.
Suspend sets SUSPENDED and its event; a host resume of a suspended bus is recorded and ends pending remote wakes; the end of
a resume clears SUSPENDED. A remote wake waits while the bus is suspended and is signalled, counted, once the host has armed
it. Port power clears over-current and starts the blanking time; a powered, connected port resets for 12 ms and is then
enabled at the speed found; over-current switches a powered port off after the blanking time, is recorded and counted; babble
disables an enabled port and counts. The hub answers hub-class requests: its descriptor, the status of a port, the clearing
of a change; it stalls an unknown one. Completion, under conditions on the state and the operands alone, is stated for:
vbusPresent, vbusLoss, busReset, highSpeedEntry, chirpTimeout, suspend, hostResume, resumeEnd, remoteWakeRequest,
remoteWakeSignal, deviceRemoteWakeup, setPortPower, clearPortPower, portConnectionChange, portReset, portResetEnd,
overCurrent, babble, configChange. (11_usb_hub_and_station_function.md R270, 11_usb_hub_and_station_function.md R271, 11_usb_hub_and_station_function.md R272, 11_usb_hub_and_station_function.md R273, 11_usb_hub_and_station_function.md R274, 11_usb_hub_and_station_function.md R275, 11_usb_hub_and_station_function.md R276, 11_usb_hub_and_station_function.md R277) -/
def Obligations.UsbBusAndPorts : Prop :=
  (∀ s : State, s.connected = false → s.flag Fd.USB_USB_CTL_EN = true → s.usbMode = true → ∃ t, exec .vbusPresent s = .next t ∧
    t.connected = true ∧ t.fld Fd.USB_USB_STAT_SPEED = 1 ∧ t.flag Fd.USB_USB_STAT_VBUS = true ∧ OnlyRegs [Reg.USB_USB_STAT] s t) ∧
  (∀ s : State, ∃ t, exec .vbusLoss s = .next t ∧ t.connected = false ∧ t.flag Fd.USB_USB_STAT_VBUS = false ∧ t.suspended = false ∧
    t.usb.snap = none ∧ (t.txn.cpls.all fun c => c.init != 2) = true ∧ SameBytes s t) ∧
  (∀ s : State, s.connected = true → ∃ t, exec .busReset s = .next t ∧ t.connected = true ∧ t.suspended = false ∧
    t.fld Fd.USB_USB_STAT_ADDRESS = 0 ∧ t.flag Fd.USB_USB_STAT_CONFIGURED = false ∧ t.fld Fd.USB_USB_STAT_SPEED = 1 ∧
    t.usb.hubAddress = 0#7 ∧ t.usb.hubConf = false ∧ t.usb.changes = [] ∧
    t.usb.chirping = (!s.flag Fd.USB_USB_CTL_FS_ONLY) ∧ t.flag Fd.USB_EVT_BUS_RESET = true ∧
    t.rd Reg.USB_BUS_RESET_CNT = BitVec.ofNat 32 (min ((s.rd Reg.USB_BUS_RESET_CNT).toNat + 1) 0xFFFFFFFF) ∧ SameBytes s t) ∧
  (∀ s : State, s.connected = true → s.usb.chirping = true →
    (∃ t, exec .highSpeedEntry s = .next t ∧ t.fld Fd.USB_USB_STAT_SPEED = 2 ∧ t.usb.chirping = false ∧
      SameRegs [Reg.USB_USB_STAT] s t ∧ SameBytes s t) ∧
    exec .chirpTimeout s = .next { s with usb := { s.usb with chirping := false } }) ∧
  (∀ s : State, s.connected = true → s.suspended = false → ∃ t, exec .suspend s = .next t ∧ t.suspended = true ∧
    t.flag Fd.USB_EVT_SUSPEND = true ∧ t.usb.suspendedAt = s.clk ∧ SameBytes s t) ∧
  (∀ s : State, s.suspended = true → s.mode ≠ .drowse → s.flag Fd.SYS_MODE_STAT_ENTERING = false → ∃ t, exec .hostResume s = .next t ∧
    t.flag Fd.USB_USB_STAT_IN_RESUME = true ∧ t.flag Fd.USB_WAKE_SRC_HOST_RESUME = true ∧ t.usb.hostK = true ∧ t.usb.wakeFn = false ∧
    t.usb.wakeDs = 0#4 ∧ SameRegs [Reg.USB_USB_STAT, Reg.USB_WAKE_SRC] s t ∧ SameBytes s t) ∧
  (∀ s : State, s.flag Fd.USB_USB_STAT_IN_RESUME = true → ∃ t, exec .resumeEnd s = .next t ∧ t.suspended = false ∧
    t.flag Fd.USB_USB_STAT_IN_RESUME = false ∧ t.flag Fd.USB_EVT_RESUME = true ∧ t.usb.hostK = false ∧ SameBytes s t) ∧
  (∀ (s : State) (n : Fin 4), s.suspended = true → s.usb.hostK = false →
    (∃ t, exec (.remoteWakeRequest none) s = .next t ∧ t.usb.wakeFn = true ∧ t.flag Fd.USB_WAKE_SRC_FN_REMOTE = true ∧
      SameRegs [Reg.USB_WAKE_SRC] s t ∧ SameBytes s t) ∧
    (s.flag (Fd.USB_DS_STAT_SUSPEND n) = true → ∃ t, exec (.remoteWakeRequest (some n)) s = .next t ∧ t.usb.wakeDs.getLsbD n = true ∧ SameRegs [Reg.USB_WAKE_SRC] s t)) ∧
  (∀ s : State, s.suspended = true → s.usb.wakeFn = true → s.usb.wakeDs = 0#4 → s.flag Fd.USB_USB_STAT_RWAKE_ARMED = true →
    s.usb.hostK = false → ∃ t, exec .remoteWakeSignal s = .next t ∧ t.usb.wakeFn = false ∧
    t.flag Fd.USB_USB_STAT_IN_RESUME = true ∧ t.usb.hostK = true ∧ s.usb.suspendedAt + 5 * msPs ≤ t.clk ∧
    t.rd Reg.USB_RWAKE_CNT = BitVec.ofNat 32 (min ((s.rd Reg.USB_RWAKE_CNT).toNat + 1) 0xFFFFFFFF) ∧ SameBytes s t) ∧
  (∀ (s : State) (on : Bool), s.connected = true → ∃ t, exec (.deviceRemoteWakeup on) s = .next t ∧
    t.flag Fd.USB_USB_STAT_RWAKE_ARMED = on ∧ OnlyRegs [Reg.USB_USB_STAT] s t) ∧
  (∀ (s : State) (n : Fin 4), s.connected = true →
    (s.mode ≠ .recovery → s.flag (Fd.USB_DS_STAT_POWER n) = false → ∃ t, exec (.setPortPower (n.castSucc)) s = .next t ∧
      t.flag (Fd.USB_DS_STAT_POWER n) = true ∧ t.flag (Fd.USB_DS_STAT_OVER_CURRENT n) = false ∧
      t.deadline (.ocBlank n) = some (s.clk + s.fld Fd.USB_USB_CTL_OC_BLANK * msPs) ∧ SameRegs [Reg.USB_DS_STAT n] s t ∧ SameBytes s t) ∧
    (∃ t, exec (.clearPortPower (n.castSucc)) s = .next t ∧ t.flag (Fd.USB_DS_STAT_POWER n) = false ∧
      t.flag (Fd.USB_DS_STAT_CONNECT n) = false ∧ t.flag (Fd.USB_DS_STAT_ENABLE n) = false ∧ SameRegs [Reg.USB_DS_STAT n] s t ∧ SameBytes s t) ∧
    (s.flag (Fd.USB_DS_STAT_POWER n) = true → ∀ a, ∃ t, exec (.portConnectionChange n a) s = .next t ∧
      t.flag (Fd.USB_DS_STAT_CONNECT n) = a ∧ (n.val, PortChange.connection) ∈ t.usb.changes ∧ SameRegs [Reg.USB_DS_STAT n] s t) ∧
    (s.flag (Fd.USB_DS_STAT_POWER n) = true → s.flag (Fd.USB_DS_STAT_CONNECT n) = true → ∃ t, exec (.portReset n) s = .next t ∧
      t.flag (Fd.USB_DS_STAT_RESET n) = true ∧ t.flag (Fd.USB_DS_STAT_ENABLE n) = false ∧
      t.deadline (.portReset n) = some (s.clk + 12 * msPs) ∧ SameRegs [Reg.USB_DS_STAT n] s t ∧ SameBytes s t)) ∧
  (∀ (s : State) (n : Fin 4) (v : Fin 3), s.armed (.portReset n) = true → ∃ t, exec (.portResetEnd n v) s = .next t ∧
    t.flag (Fd.USB_DS_STAT_RESET n) = false ∧ t.flag (Fd.USB_DS_STAT_ENABLE n) = true ∧ t.fld (Fd.USB_DS_STAT_SPEED n) = v ∧
    SameRegs [Reg.USB_DS_STAT n] s t ∧ SameBytes s t) ∧
  (∀ (s : State) (n : Fin 4), s.flag (Fd.USB_DS_STAT_POWER n) = true → s.live (.ocBlank n) = false → ∃ t, exec (.overCurrent n) s = .next t ∧
    t.flag (Fd.USB_DS_STAT_POWER n) = false ∧ t.flag (Fd.USB_DS_STAT_OVER_CURRENT n) = true ∧ t.flag (Fd.USB_DS_STAT_OC_SEEN n) = true ∧
    t.rd Reg.USB_OC_CNT = BitVec.ofNat 32 (min ((s.rd Reg.USB_OC_CNT).toNat + 1) 0xFFFFFFFF) ∧ SameBytes s t) ∧
  (∀ (s : State) (n : Fin 4), s.flag (Fd.USB_DS_STAT_ENABLE n) = true → ∃ t, exec (.babble n) s = .next t ∧
    t.flag (Fd.USB_DS_STAT_ENABLE n) = false ∧ t.flag (Fd.USB_DS_STAT_PORT_BABBLE n) = true ∧
    SameRegs [Reg.USB_DS_STAT n, Reg.USB_BABBLE_CNT] s t ∧ SameBytes s t) ∧
  (∀ (s : State) (n : Fin 5) (c : PortChange) (k : BitVec 16), s.connected = true → s.suspended = false →
    (9 ≤ k.toNat → exec (.configChange true (.getHubDescriptor k) true) s =
      .next (s.emit (.hubEp0 (some [9, 0x29, 5, 0x0D, 0x00, 10, 0, 0x20, 0xFF])))) ∧
    exec (.configChange true (.getPortStatus n) true) s = .next (s.emit (.hubEp0 (some (s.portStatus n)))) ∧
    (∃ t, exec (.configChange true (.clearPortChange n c) true) s = .next t ∧ (n.val, c) ∉ t.usb.changes ∧ SameRegs [] s t ∧ SameBytes s t) ∧
    exec (.configChange true .unknown true) s = .next (s.emit (.hubEp0 none)))

/-- SET_ADDRESS, SET_CONFIGURATION and the setting load ADDRESS, CONFIGURED and ALT and set CONFIG_CHG; a setting other than 0
below high speed or in Recovery, and an unknown request, are stalled; a new SETUP abandons an open transfer, counted. EP1
sends up to 64 records from RD[2] and moves it on, once in a microframe, or three times in setting 2; without a filled buffer
it counts a missed interval. EP5 sends a part of the snapshot, or counts a missed interval; EP2 sends up to 8 events, or NAK;
EP4 the next packet of the completions of the tunnel, or NAK. A request message on EP3 is issued for INIT 2; one that a short
packet cuts counts in TUN_MSG_BAD; one that goes on in the next packet is kept; a packet that finds the buffer full is
answered NAK. Each vendor request that reaches its status stage has its effect: the identity, the start and stop of the
stream, the positions, IMG_SEL, and SVC_N; a start above WR_TOTAL is stalled, one that has been overwritten moves on; one
that does not reach it has none. Completion, under conditions on the state and the operands alone, is stated for:
configChange, journalStreamPacket, snapshotPacket, eventPacket, tunnelCompletion, tunnelMessage, getIdentity, jstreamStart,
jstreamStop, getJrnPos, setImgSel, getSvc. (11_usb_hub_and_station_function.md R278, 11_usb_hub_and_station_function.md R279, 11_usb_hub_and_station_function.md R280, 11_usb_hub_and_station_function.md R281, 11_usb_hub_and_station_function.md R282, 11_usb_hub_and_station_function.md R283, 11_usb_hub_and_station_function.md R285, 11_usb_hub_and_station_function.md R286) -/
def Obligations.StationFunction : Prop :=
  (∀ s : State, s.fnUp = true → s.usb.ctrlOpen = false →
    (∀ a, ∃ t, exec (.configChange false (.setAddress a) true) s = .next t ∧ t.fld Fd.USB_USB_STAT_ADDRESS = a.toNat ∧
      SameRegs [Reg.USB_USB_STAT] s t ∧ SameBytes s t) ∧
    (∀ v : BitVec 8, v.toNat ≤ 1 → ∃ t, exec (.configChange false (.setConfiguration v) true) s = .next t ∧
      t.flag Fd.USB_USB_STAT_CONFIGURED = (v == 1#8) ∧ t.fld Fd.USB_USB_STAT_ALT = 0 ∧ t.flag Fd.USB_EVT_CONFIG_CHG = true ∧
      t.usb.snap = none ∧ SameRegs [Reg.USB_USB_STAT, Reg.USB_EVT, Reg.USB_TUN_DROP] s t ∧ SameBytes s t) ∧
    (∀ alt : BitVec 8, s.flag Fd.USB_USB_STAT_CONFIGURED = true →
      ((alt = 0#8 ∨ alt.toNat ≤ 2 ∧ s.highSpeed = true ∧ s.mode ≠ .recovery) →
        ∃ t, exec (.configChange false (.setInterface 0#8 alt) true) s = .next t ∧ t.flag Fd.USB_USB_STAT_CONFIGURED = true ∧
        t.fld Fd.USB_USB_STAT_ALT = alt.toNat ∧ t.flag Fd.USB_EVT_CONFIG_CHG = true ∧
        SameRegs [Reg.USB_USB_STAT, Reg.USB_EVT, Reg.USB_TUN_DROP] s t ∧ SameBytes s t) ∧
      ((2 < alt.toNat ∨ alt ≠ 0#8 ∧ (s.highSpeed = false ∨ s.mode = .recovery)) →
        exec (.configChange false (.setInterface 0#8 alt) true) s = .next (s.emit .usbStall))) ∧
    exec (.configChange false .unknown true) s = .next (s.emit .usbStall) ∧
    (∀ r, exec (.configChange false r false) s = .next { s with usb := { s.usb with ctrlOpen := true } })) ∧
  (∀ s : State, s.usb.ctrlOpen = true → s.ctrlAbort.usb.ctrlOpen = false ∧ s.ctrlAbort.flag Fd.USB_EVT_CTRL_ABORT = true ∧
    s.ctrlAbort.rd Reg.USB_CTRL_ABORT_CNT = BitVec.ofNat 32 (min ((s.rd Reg.USB_CTRL_ABORT_CNT).toNat + 1) 0xFFFFFFFF)) ∧
  (∀ (s : State) (first ready : Bool), s.isoReady = true →
    let gone := if first then 0 else s.usb.sent
    let k := min 64 (s.wrTotal - s.rdPos 2)
    ((s.streaming = false ∨ ready = false) → ∃ t, exec (.journalStreamPacket ⟨first, ready⟩) s = .next t ∧ t.out = .usb 1 [] :: s.out ∧
      t.rd Reg.USB_MISSED_EP1 = BitVec.ofNat 32 (min ((s.rd Reg.USB_MISSED_EP1).toNat + 1) 0xFFFFFFFF) ∧
      SameRegs [Reg.USB_MISSED_EP1] s t ∧ SameBytes s t) ∧
    (s.streaming = true → gone < (if s.fld Fd.USB_USB_STAT_ALT = 2 then 3 else 1) → s.rdPos 2 ≤ s.wrTotal →
      ∃ t b, exec (.journalStreamPacket ⟨first, true⟩) s = .next t ∧ t.out = .usb 1 b :: s.out ∧ b.length = 16 * k ∧
      t.rdPos 2 = s.rdPos 2 + k ∧ t.usb.sent = gone + 1 ∧ SameRegs [Reg.RD_RD_POS_LO 2, Reg.RD_RD_POS_HI 2] s t ∧ SameBytes s t) ∧
    (s.streaming = true → first = false → (if s.fld Fd.USB_USB_STAT_ALT = 2 then 3 else 1) ≤ s.usb.sent →
      exec (.journalStreamPacket ⟨first, true⟩) s = .next s)) ∧
  (∀ s : State, s.isoReady = true → s.mode ≠ .passThrough →
    (∀ r, s.usb.snap = none ∨ r = false → exec (.snapshotPacket r) s = .next ((s.bump Reg.USB_MISSED_EP5).emit (.usb 5 []))) ∧
    (∀ l, s.usb.snap = some l → ∃ t b, exec (.snapshotPacket true) s = .next t ∧ t.usb.part = s.usb.part + 1 ∧
      t.out = .usb 5 (leBytes 4 s.usb.swaps ++ leBytes 2 s.usb.part ++ b) :: s.out ∧ b.length ≤ 1018 ∧ SameRegs [] s t ∧ SameBytes s t)) ∧
  (∀ s : State, s.fnReady = true →
    (s.usb.events = [] → exec .eventPacket s = .next (s.emit (.usbNak 2))) ∧
    (s.usb.events ≠ [] → ∃ t, exec .eventPacket s = .next t ∧ t.usb.events = s.usb.events.drop 8 ∧
      t.out = .usb 2 ((s.usb.events.take 8).flatMap StEvent.encode) :: s.out ∧ SameRegs [] s t ∧ SameBytes s t) ∧
    (s.usb.ep4 = [] → (s.txn.cpls.find? fun c => c.init == 2) = none → exec .tunnelCompletion s = .next (s.emit (.usbNak 4))) ∧
    (∀ c, s.usb.ep4 = [] → (s.txn.cpls.find? fun c => c.init == 2) = some c → ∃ t, exec .tunnelCompletion s = .next t ∧
      t.txn.cpls = s.txn.cpls.erase c ∧ t.out = .usb 4 (c.encode.take s.bulkMax) :: s.out ∧ t.usb.ep4 = c.encode.drop s.bulkMax ∧
      SameRegs [] s t ∧ SameBytes s t) ∧
    (s.usb.ep4 ≠ [] → ∃ t, exec .tunnelCompletion s = .next t ∧ t.txn = s.txn ∧ t.out = .usb 4 (s.usb.ep4.take s.bulkMax) :: s.out ∧
      t.usb.ep4 = s.usb.ep4.drop s.bulkMax ∧ SameRegs [] s t ∧ SameBytes s t)) ∧
  (∀ (s : State) (b : List Byte), s.fnReady = true →
    exec (.tunnelMessage ⟨false, b⟩) s = .next (s.emit (.usbNak 3)) ∧
    (s.usb.ep3 = [] → 0 < b.length → b.length < 12 → ∃ t, exec (.tunnelMessage ⟨true, b⟩) s = .next t ∧ t.usb.ep3 = [] ∧
      t.rd Reg.USB_TUN_MSG_BAD = BitVec.ofNat 32 (min ((s.rd Reg.USB_TUN_MSG_BAD).toNat + 1) 0xFFFFFFFF) ∧
      SameRegs [Reg.USB_TUN_MSG_BAD] s t ∧ SameBytes s t) ∧
    (s.usb.ep3 = [] → b.length = s.bulkMax → b.length < 12 + leVal ((b.drop 8).take 2) → ∃ t, exec (.tunnelMessage ⟨true, b⟩) s = .next t ∧
      t.usb.ep3 = b ∧ SameRegs [] s t ∧ SameBytes s t) ∧
    (s.usb.ep3 = [] → 12 ≤ b.length → b.length < s.bulkMax → b.length = 12 + leVal ((b.drop 8).take 2) → b.length % 4 = 0 →
      b.headD 0#8 = 1#8 →
      let t := (if s.highSpeed then s.emit (.usbNyet 3) else s).issueMsg 2 b
      exec (.tunnelMessage ⟨true, b⟩) s = .next { t with usb := { t.usb with ep3 := [] } })) ∧
  (∀ (s : State) (pos sel : BitVec 64) (lvl : Bool), s.fnUp = true → s.usb.ctrlOpen = false →
    exec (.getIdentity true) s = .next (s.emit (.usb 0 (idBytes (s.fld Fd.UPD_EPOCH_FUSED) 64))) ∧
    (s.wrTotal < pos.toNat → exec (.jstreamStart pos true) s = .next (s.emit .usbStall)) ∧
    (pos.toNat ≤ s.wrTotal → ∃ t, exec (.jstreamStart pos true) s = .next t ∧ t.streaming = true ∧ SameBytes s t ∧
      t.rdPos 2 = (if s.jrnCap < s.wrTotal - pos.toNat then s.wrTotal - s.jrnCap else pos.toNat) ∧
      (s.wrTotal - pos.toNat ≤ s.jrnCap →
        OnlyRegs [Reg.RD_RD_POS_LO 2, Reg.RD_RD_POS_HI 2, Reg.USB_JSTREAM, Reg.JRN_EVT] s t)) ∧
    (∃ t, exec (.jstreamStop true) s = .next t ∧ t.streaming = false ∧ OnlyRegs [Reg.USB_JSTREAM] s t) ∧
    exec (.getJrnPos true) s = .next (s.emit (.usb 0 (leBytes 8 s.wrTotal ++ leBytes 8 (s.rdPos 2) ++ leBytes 8 s.jrnCap))) ∧
    (∃ t, exec (.setImgSel sel true) s = .next t ∧ t.rd64 Reg.USB_IMG_SEL_LO Reg.USB_IMG_SEL_HI = sel.toNat ∧
      OnlyRegs [Reg.USB_IMG_SEL_LO, Reg.USB_IMG_SEL_HI] s t) ∧
    exec (.getSvc lvl true) s = .next (s.emit (.usb 0 [if lvl then 1#8 else 0#8])) ∧
    exec (.setImgSel sel false) s = .next { s with usb := { s.usb with ctrlOpen := true } })

/-- The first copy of a sequenceId of a one-step Sync gives its domain the offset t2 − t1 − c − d_in, a two-step one waits for
its Follow_Up; a second copy only counts in TIME_DUP. Announce loads ANN and GM_ID, Signaling has no further effect. A PTP
frame that its port does not admit is dropped: with a tag or another DA at a ring port, counted at the spur without role or
with another VID. A PTP message that comes good at a spur that may take it is injected as a TIME frame and counts, else it
counts in MSG_DROP. A grandmaster sends a Sync when its counter reaches a multiple of its interval, and an Announce every
second. A due Pdelay_Req is sent with the next sequenceId while its port is usable, and its t1 is taken as it leaves; an
unanswered one before it counts, and the third clears LD_VALID. A Pdelay_Req that comes good is answered with a one-step
Pdelay_Resp, which carries its turnaround as it leaves. A valid response loads LD with the mean of the last eight
measurements; one outside 0 to 10 µs counts in PD_BAD and changes nothing else. Completion, under conditions on the state and
the operands alone, is stated for: syncRx, followUpRx, announceRx, signalingRx, spurPtpRx, gmSyncTx, gmAnnounceTx,
pdelayReqTx, pdelayReqRx, pdelayRespRx. (12_time_and_picots.md R294, 12_time_and_picots.md R297, 12_time_and_picots.md R298, 12_time_and_picots.md R299, 12_time_and_picots.md R300, 12_time_and_picots.md R302) -/
def Obligations.TimeMessages : Prop :=
  (∀ (s : State) (p : Fin 3) (f : Frame) (t2 : BitVec 96) (d : Nat) (m : List Byte), s.ptpFor f 0x0 = some (d, m) →
    let part := ((t2.toNat / 65536 : Nat) : Int) - ptpCorr m - s.dIn p.val
    let u := (s.takeMail f).setDom d { s.dom d with seqs := ptpSeq m :: (s.dom d).seqs.take 7 }
    ((s.dom d).seqs.contains (ptpSeq m) = true → exec (.syncRx p f t2) s = .next ((s.takeMail f).bump Reg.TIME_TIME_DUP)) ∧
    ((s.dom d).seqs.contains (ptpSeq m) = false → fieldBE m 6 1 / 2 % 2 = 0 →
      exec (.syncRx p f t2) s = .next (u.offset d (part - ptpStamp m))) ∧
    ((s.dom d).seqs.contains (ptpSeq m) = false → fieldBE m 6 1 / 2 % 2 = 1 → ∃ t, exec (.syncRx p f t2) s = .next t ∧
      (t.dom d).twoStep = some (ptpSeq m, part) ∧ t.regs = s.regs ∧ t.ctr = s.ctr)) ∧
  (∀ (s : State) (p : Fin 3) (f : Frame) (d : Nat) (m : List Byte) (part : Int), s.ptpFor f 0x8 = some (d, m) →
    (s.dom d).twoStep = some (ptpSeq m, part) → exec (.followUpRx p f) s =
      .next (((s.takeMail f).setDom d { s.dom d with twoStep := none }).offset d (part - ptpCorr m - ptpStamp m))) ∧
  (∀ (s : State) (p : Fin 3) (f : Frame) (d : Nat) (m : List Byte), s.ptpFor f 0xB = some (d, m) → d < 2 →
    ∃ t, exec (.announceRx p f) s = .next t ∧ (t.rd (Reg.DOM_ANN d)).toNat = fieldBE m 48 1 * 2 ^ 16 + fieldBE m 44 2 ∧
      t.rd64 (Reg.DOM_GM_ID_LO d) (Reg.DOM_GM_ID_HI d) = fieldBE m 53 8 ∧ t.ctr = s.ctr ∧ t.tim = s.tim ∧
      SameRegs [Reg.DOM_ANN d, Reg.DOM_GM_ID_LO d, Reg.DOM_GM_ID_HI d] s t ∧ SameBytes s t) ∧
  (∀ (s : State) (p : Fin 3) (f : Frame) (d : Nat) (m : List Byte), s.ptpFor f 0xC = some (d, m) →
    exec (.signalingRx p f) s = .next (s.takeMail f)) ∧
  (∀ (s : State) (p : Nat) (b : Bool) (f : PtpFrame), s.anat.kaHeld = false → s.portUsable p = true →
    (p < 2 → (f.vid ≠ none ∨ f.da ≠ 0x0180C200000E#48) → s.ptpIn p b f = (false, s)) ∧
    (p = 2 → s.path = 0 → s.fld Fd.PORT_SPUR_CTL_ROLE = 0 → s.ptpIn p b f = (false, s.bump (Reg.PORT_RX_ROLE_DROP 2))) ∧
    (p = 2 → s.path = 0 → s.fld Fd.PORT_SPUR_CTL_ROLE ≠ 0 → s.vidOk f.vid = false →
      s.ptpIn p b f = (false, s.bump (Reg.PORT_RX_FOREIGN 2)))) ∧
  (∀ (s u : State) (f : PtpFrame),
    let takes := u.flag Fd.TIME_TIME_CTL_SPUR_IN && fieldBE f.msg 1 1 % 16 == 2 && [0x0, 0x8, 0xB, 0xC].contains (ptpType f.msg)
    (isPdelay f.msg = true → exec (.spurPtpRx f) s = .next s) ∧
    (isPdelay f.msg = false → s.ptpIn 2 false f = (false, u) → exec (.spurPtpRx f) s = .next u) ∧
    (isPdelay f.msg = false → s.ptpIn 2 false f = (true, u) →
      (takes = true → (u.ptpDomain f.msg).isSome = true →
        exec (.spurPtpRx f) s = .next ((u.inject (u.timeFrame 1 f.msg) u.epoch).bump Reg.TIME_SPUR_INJ)) ∧
      (takes = true → u.ptpDomain f.msg = none → exec (.spurPtpRx f) s = .next (u.bump Reg.TIME_DOM_OTHER)) ∧
      (takes = false → exec (.spurPtpRx f) s = .next (u.bump Reg.TIME_MSG_DROP)))) ∧
  (∀ (s : State) (d : Fin 2), s.flag (Fd.DOM_GM_CFG_GM_EN d.val) = true → s.anat.kaHeld = false →
    (∃ t m, let per := 1000000000 / 2 ^ s.fld (Fd.DOM_GM_CFG_LOG_SYNC d.val)
      let u := s.toTime ((s.now / per + 1) * per)
      exec (.gmSyncTx d) s = .next t ∧ ptpType m = 0 ∧ t = (u.inject (u.timeFrame 2 m) u.epoch).bump Reg.TIME_GM_TX) ∧
    (∀ a, s.deadline (.gmAnnounce d.val) = some a → ∃ (t u : State) (m : List Byte), exec (.gmAnnounceTx d) s = .next t ∧ ptpType m = 0xB ∧
      u.clk = max s.clk a ∧ u.deadline (.gmAnnounce d.val) = some (u.clk + 1000000000000) ∧ t = u.inject (u.timeFrame 2 m) u.epoch)) ∧
  (∀ (s : State) (p : Fin 3) (a : Nat), s.deadline (.pdReq p.val) = some a → s.flag (Fd.PD_PD_CFG_EN p.val) = true →
    s.pdelayPort p.val = true → ∃ (v : State) (m : List Byte), exec (.pdelayReqTx p) s =
        .next ((v.pdelaySend p.val m).arm (.pdReq p.val) (1000000000000 / 2 ^ s.fld (Fd.PD_PD_CFG_LOG_INT p.val))) ∧
      ptpType m = 2 ∧ ptpSeq m = (s.pd p.val).seq % 65536 ∧ v.clk = max s.clk a ∧
      (v.pd p.val).req = none ∧ (v.pd p.val).seq = ((s.pd p.val).seq + 1) % 65536 ∧
      ((s.pd p.val).req = none → SameRegs [] s v) ∧
      ((s.pd p.val).req.isSome = true → (v.pd p.val).fails = (s.pd p.val).fails + 1 ∧
        v.rd (Reg.TIME_PD_FAIL p.val) = BitVec.ofNat 32 (min ((s.rd (Reg.TIME_PD_FAIL p.val)).toNat + 1) 0xFFFFFFFF) ∧
        (2 ≤ (s.pd p.val).fails → v.flag (Fd.PD_LD_STAT_LD_VALID p.val) = false))) ∧
  (∀ (s : State) (p : Nat) (f : Frame), f.plainPtp = true → ptpType f.payload = 2 →
    ((s.pdelayLeaves p f).pd p).req = some (ptpSeq f.payload, s.clk)) ∧
  (∀ (s : State) (f : Stored) (k : Copy), f.frame.plainPtp = true → f.frame.seam = false → ptpType f.frame.payload = 3 →
    (s.egressFrame f k).payload = putBE f.frame.payload 8 8 (tickCorr ((k.startAt - f.since) / 2560))) ∧
  (∀ (s u : State) (p : Fin 3) (f : PtpFrame), ptpType f.msg = 2 →
    (s.ptpIn p.val true f = (false, u) → exec (.pdelayReqRx p f.toPtpWire f.msg) s = .next u) ∧
    (s.ptpIn p.val true f = (true, u) → ∃ m, exec (.pdelayReqRx p f.toPtpWire f.msg) s = .next (u.pdelaySend p.val m) ∧ ptpType m = 3 ∧
      ptpSeq m = ptpSeq f.msg ∧ fieldBE m 34 10 = 0 ∧ fieldBE m 6 1 / 2 % 2 = 0)) ∧
  (∀ (s u v : State) (p : Fin 3) (f g : PtpFrame), ptpType f.msg = 3 → s.ptpIn p.val true f = (true, u) →
    exec (.pdelayRespRx p f none) s = .next (u.pdelayTake p.val f.msg none) ∧
    (u.ptpIn p.val true g = (true, v) → exec (.pdelayRespRx p f (some g)) s = .next (v.pdelayTake p.val f.msg (some g.msg)))) ∧
  (∀ (s : State) (p : Fin 3) (msg : List Byte) (fu : Option (List Byte)) (t1 : Nat), (s.pd p.val).req = some (ptpSeq msg, t1) →
    ptpType msg = 3 → ((fieldBE msg 6 1 / 2 % 2 = 1) ↔ fu.isSome = true) →
    let x := pdMeasure ((s.clk - t1) / 2560) msg fu
    let l := (x.toNat :: (s.pd p.val).meas).take 8
    (0 ≤ x → x ≤ 10000 * 65536 →
      let t := s.pdelayTake p.val msg fu
      t.rd (Reg.PD_LD p.val) = BitVec.ofNat 32 (l.foldl (· + ·) 0 / l.length) ∧ (t.pd p.val).req = none ∧ (t.pd p.val).fails = 0 ∧
      (t.pd p.val).meas = l ∧ (3 ≤ l.length → t.flag (Fd.PD_LD_STAT_LD_VALID p.val) = true) ∧
      SameRegs [Reg.PD_LD p.val, Reg.PD_LD_STAT p.val] s t ∧ SameBytes s t) ∧
    (x < 0 ∨ 10000 * 65536 < x → s.pdelayTake p.val msg fu = s.bump Reg.TIME_PD_BAD))

/-- A Sync offset of the steering domain beyond JUMP_THRESHOLD without an armed step is refused: the counter stands, JUMP_REFUSED
is set and the domain is not locked; with no locked other domain INCREMENT stands too and the refusal counts once. With a
step armed, or at the first correction, the counter takes the offset at once and STEP_ARMED and INITIAL clear. Within the
threshold the counter stands, the offset is recorded, the domain is present and INCREMENT stays within 1,000 ppm. SYNC_LOSS
unlocks a domain and selects the locked other one without a step; a revert returns to PREFER; the end of a slew clears
SLEWING; ten seconds of refusals set JUMP_PERSIST. ACCEPT_STEP arms and DISARM disarms, but not in Drowse. TIME_SET within
the threshold loads and is no step, at INITIAL too (log entry 112); beyond it it steps at INITIAL or when armed, and is
refused otherwise; NOW_LO returns the counter and latches the rest; INCR is written within range while the servo is off.
INCREMENT of a steered counter is the model's free value (log entry 3). Completion, under conditions on the state and the
operands alone, is stated for: syncLoss, domainRevert, slewComplete, jumpPersist, acceptStep, disarm, timeSet, nowLoRead,
incrWrite. (12_time_and_picots.md R291, 12_time_and_picots.md R292, 12_time_and_picots.md R303, 12_time_and_picots.md R304, 12_time_and_picots.md R305, 12_time_and_picots.md R306, 12_time_and_picots.md R307, 12_time_and_picots.md R308) -/
def Obligations.TimeCorrections : Prop :=
  (∀ (s : State) (d : Fin 2) (θ : Int), s.flag (Fd.DOM_GM_CFG_GM_EN d.val) = false → s.sel = d.val →
    s.flag Fd.TIME_TIME_CTL_SERVO_EN = true →
    (s.flag Fd.TIME_TIME_STAT_INITIAL = false → s.jumpLimit < θ.natAbs → s.flag Fd.TIME_TIME_STAT_STEP_ARMED = false →
      let t := s.offset d.val θ
      t.ctr = s.ctr ∧ t.flag Fd.TIME_TIME_STAT_JUMP_REFUSED = true ∧ t.domLocked d.val = false ∧
      (s.domLocked (1 - d.val) = false → t.increment = s.increment ∧ t.rd Reg.TIME_JUMP_REFUSED_CNT =
        BitVec.ofNat 32 (min ((s.rd Reg.TIME_JUMP_REFUSED_CNT).toNat + 1) 0xFFFFFFFF))) ∧
    (s.flag Fd.TIME_TIME_STAT_INITIAL = true ∨ (s.jumpLimit < θ.natAbs ∧ s.flag Fd.TIME_TIME_STAT_STEP_ARMED = true) →
      let t := s.offset d.val θ
      t.ctr = (((s.ctr : Int) - θ * 65536) % 2 ^ 96).toNat ∧ t.flag Fd.TIME_TIME_STAT_INITIAL = false ∧
      t.flag Fd.TIME_TIME_STAT_STEP_ARMED = false ∧ t.flag Fd.TIME_TIME_STAT_STEPPED = true) ∧
    (s.flag Fd.TIME_TIME_STAT_INITIAL = false → θ.natAbs ≤ s.jumpLimit →
      let t := s.offset d.val θ
      t.ctr = s.ctr ∧ t.rd (Reg.DOM_OFS d.val) = ofsWord θ ∧ t.flag (presentFld d.val) = true ∧
      incrLo ≤ t.increment ∧ t.increment ≤ incrHi)) ∧
  (∀ (s : State) (d : Fin 2), s.flag (Fd.DOM_GM_CFG_GM_EN d.val) = false → s.armed (.syncLoss d.val) = true →
    ∃ t, exec (.syncLoss d) s = .next t ∧ t.flag (presentFld d.val) = false ∧ t.domLocked d.val = false ∧
      (s.sel = d.val → s.domLocked d.val = true → s.domLocked (1 - d.val) = true → (s.ofs (1 - d.val)).natAbs ≤ s.jumpLimit →
        t.sel = 1 - d.val ∧ t.ctr = (s.expire (.syncLoss d.val)).ctr ∧
        t.rd Reg.TIME_SWITCH_CNT = BitVec.ofNat 32 (min ((s.rd Reg.TIME_SWITCH_CNT).toNat + 1) 0xFFFFFFFF))) ∧
  (∀ (s : State) (p : Nat), s.fld Fd.TIME_TIME_CTL_PREFER = p → s.flag Fd.TIME_TIME_CTL_REVERT = true → s.sel ≠ p →
    s.domLocked p = true → (s.ofs p).natAbs ≤ s.jumpLimit → ∃ t, exec .domainRevert s = .next t ∧ t.sel = p ∧
      t.clk = max s.clk ((s.dom p).lockedAt + 10000000000000)) ∧
  (∀ (s : State) (x : Nat × Int), s.tim.slew = some x → ∃ t, exec .slewComplete s = .next t ∧
    t.tim.slew = none ∧ t.flag Fd.TIME_TIME_STAT_SLEWING = false ∧ t.sel = s.sel) ∧
  (∀ (s : State) (a : Nat) (c : Int), s.tim.refused = some (a, c) → s.flag Fd.TIME_TIME_STAT_JUMP_PERSIST = false →
    ∃ t, exec .jumpPersist s = .next t ∧ t.flag Fd.TIME_TIME_STAT_JUMP_PERSIST = true ∧
      t.clk = max s.clk (a + 10000000000000)) ∧
  (∀ s : State, s.takes none = true →
    (s.mode ≠ .drowse → exec .acceptStep s = .next (answer (.ok, s.on Fd.TIME_TIME_STAT_STEP_ARMED)) ∧
      exec .disarm s = .next (answer (.ok, s.off Fd.TIME_TIME_STAT_STEP_ARMED))) ∧
    (s.mode = .drowse → exec .acceptStep s = .next (answer (wrongMode s)))) ∧
  (∀ (s : State) (v : BitVec 64), s.takes none = true → s.flag Fd.TIME_TIME_CTL_SERVO_EN = false →
    let c := ((v.toNat : Int) - s.now) * 65536
    (s.jumpLimit < c.natAbs → s.flag Fd.TIME_TIME_STAT_INITIAL = true ∨ s.flag Fd.TIME_TIME_STAT_STEP_ARMED = true →
      ∃ t, exec (.timeSet v) s = .next t ∧ t.now = v.toNat ∧ t.flag Fd.TIME_TIME_STAT_STEPPED = true ∧
        t.flag Fd.TIME_TIME_STAT_INITIAL = false ∧ t.out.head? = some (.answer .ok)) ∧
    (s.flag Fd.TIME_TIME_STAT_INITIAL = false → c.natAbs ≤ s.jumpLimit →
      exec (.timeSet v) s = .next (answer (.ok, s.loadCtr (v.toNat * 2 ^ 32)))) ∧
    (s.flag Fd.TIME_TIME_STAT_INITIAL = true → c.natAbs ≤ s.jumpLimit → ∃ t, exec (.timeSet v) s = .next t ∧ t.now = v.toNat ∧
      t.flag Fd.TIME_TIME_STAT_INITIAL = false ∧ t.flag Fd.TIME_TIME_STAT_STEPPED = s.flag Fd.TIME_TIME_STAT_STEPPED ∧
      t.rd Reg.TIME_STEP_CNT = s.rd Reg.TIME_STEP_CNT) ∧
    (s.flag Fd.TIME_TIME_STAT_INITIAL = false → s.jumpLimit < c.natAbs → s.flag Fd.TIME_TIME_STAT_STEP_ARMED = false →
      ∃ t, exec (.timeSet v) s = .next t ∧ t.ctr = s.ctr ∧ t.flag Fd.TIME_TIME_STAT_JUMP_REFUSED = true ∧
        t.domLocked s.sel = s.domLocked s.sel ∧ t.out.head? = some (.answer .wrongMode))) ∧
  (∀ s : State, s.takes none = true → ∃ t, exec .nowLoRead s = .next t ∧ t.out = .data .ok (leBytes 4 s.now) :: s.out ∧
    t.latches.lookup Reg.TIME_NOW_HI = some (BitVec.ofNat 32 (s.now / 2 ^ 32)) ∧
    t.latches.lookup Reg.TIME_NOW_FRAC = some (BitVec.ofNat 32 s.ctr) ∧ SameRegs [] s t ∧ SameBytes s t) ∧
  (∀ (s : State) (v : BitVec 40), s.takes none = true →
    (s.flag Fd.TIME_TIME_CTL_SERVO_EN = true → exec (.incrWrite v) s = .next (answer (wrongMode s))) ∧
    (s.flag Fd.TIME_TIME_CTL_SERVO_EN = false → incrLo ≤ v.toNat → v.toNat ≤ incrHi → ∃ t, exec (.incrWrite v) s = .next t ∧
      t.increment = v.toNat ∧ t.out = .answer .ok :: s.out ∧ OnlyRegsOut [Reg.TIME_INCR_FRAC, Reg.TIME_INCR_NS] s t) ∧
    (s.flag Fd.TIME_TIME_CTL_SERVO_EN = false → v.toNat < incrLo ∨ incrHi < v.toNat →
      exec (.incrWrite v) s = .next (answer (refuse .badRequest s))))

/-- Setting EN of a picot is refused with BAD_REQUEST when WIDTH is below 16 ns, when a periodic picot has P − WIDTH below 16 ns,
and when a one-shot picot has START below now + 1 µs. Otherwise, when no pin is asked for or the pin is free, a periodic
picot starts with the smallest k for which t_k lies at or beyond now + 1 µs; no earlier pulse is fired or counted. Every t_k
follows from START and P alone, so nodes that share them produce the same edges. Completion, under conditions on the state
and the operands alone, is stated for: picotEnable. (12_time_and_picots.md R311) -/
def Obligations.PicotStart : Prop :=
  (∀ (s : State) (i : Fin 16) (w : Word), s.takes none = true → s.mode ≠ .load → s.asleepOrLoading = false →
    s.flag (Fd.PIC_PIC_CTL_EN i.val) = false →
    let width := (s.rd (Reg.PIC_WIDTH i.val)).toNat
    let start := s.rd64 (Reg.PIC_START_LO i.val) (Reg.PIC_START_HI i.val)
    let refused := width < 16 ∨ (w.getLsbD 30 = true ∧ s.picP i.val < (width + 16) * 65536) ∨ (w.getLsbD 30 = false ∧ start < s.now + 1000)
    (refused → exec (.picotEnable i w) s = .next (answer (refuse .badRequest s))) ∧
    (¬ refused → (w.getLsbD 28 = true → s.fld (Fd.PIN_STAT_OWNER (bits w 0 8)) = 0) → ∃ t, exec (.picotEnable i w) s = .next t ∧
      t.picRuns i.val = true ∧ t.flag (Fd.PIC_PIC_CTL_EN i.val) = true ∧ t.out.head? = some (.answer .ok) ∧
      t.rd (Reg.PIC_FIRED i.val) = 0#32 ∧ (t.pic i.val).pulses = 0 ∧ (t.pic i.val).inPulse = false ∧
      (w.getLsbD 30 = false → (t.pic i.val).k = 0) ∧
      (w.getLsbD 30 = true → (s.now + 1000) * 65536 ≤ start * 65536 + (t.pic i.val).k * s.picP i.val ∧
        ∀ j, j < (t.pic i.val).k → start * 65536 + j * s.picP i.val < (s.now + 1000) * 65536))) ∧
  (∀ (s u : State) (i k : Nat), s.rd64 (Reg.PIC_START_LO i) (Reg.PIC_START_HI i) = u.rd64 (Reg.PIC_START_LO i) (Reg.PIC_START_HI i) →
    s.picP i = u.picP i → s.picAt i k = u.picAt i k)

/-- A picot of allowed settings and without a pin starts with its output idle; one on a free pin owns the pin. Clearing EN ends a
pulse in progress, stops the series and gives the pin up. In a mode with pins, a start edge makes the output active at its
time, counts it and, with JSTART, records it; in Pass-through and Drowse the pulse is skipped. An end edge makes the output
idle and goes on to the next pulse. Completion, under conditions on the state and the operands alone, is stated for:
picotEnable, picotDisable, picotStartEdge, picotEndEdge. (12_time_and_picots.md R310, 12_time_and_picots.md R312, 12_time_and_picots.md R314, 12_time_and_picots.md R316) -/
def Obligations.Picots : Prop :=
  (∀ (s : State) (i : Fin 16) (w : Word), s.takes none = true → s.mode ≠ .load → s.asleepOrLoading = false →
    s.flag (Fd.PIC_PIC_CTL_EN i.val) = false →
    let v := (w ||| 0x80000000#32) &&& 0xFC0000FF#32
    (s.picOk i.val v = true → w.getLsbD 28 = false → ∃ t, exec (.picotEnable i w) s = .next t ∧
      t.rd (Reg.PIC_PIC_CTL i.val) = v ∧ t.flag (Fd.PIC_PIC_STAT_LEVEL i.val) = w.getLsbD 29 ∧ t.out = .answer .ok :: s.out ∧
      SameRegs [Reg.PIC_PIC_CTL i.val, Reg.PIC_PIC_STAT i.val, Reg.PIC_FIRED i.val] s t ∧ SameBytes s t) ∧
    (s.picOk i.val v = true → w.getLsbD 28 = true → s.fld (Fd.PIN_STAT_OWNER (bits v 0 8)) = 0 → ∃ t,
      exec (.picotEnable i w) s = .next t ∧ t.ownedBy (bits v 0 8) (.picot i.val) = true)) ∧
  (∀ (s : State) (i : Fin 16) (w : Word), s.takes none = true → s.asleepOrLoading = false → s.flag (Fd.PIC_PIC_CTL_EN i.val) = true →
    (w ||| 0x80000000#32) &&& 0xFC0000FF#32 = s.rd (Reg.PIC_PIC_CTL i.val) → ∃ t, exec (.picotDisable i w) s = .next t ∧
      t.flag (Fd.PIC_PIC_CTL_EN i.val) = false ∧ t.picRuns i.val = false ∧ (t.pic i.val).inPulse = false ∧
      t.out.head? = some (.answer .ok) ∧ SameBytes s t) ∧
  (∀ (s : State) (i : Fin 16), s.picRuns i.val = true → (s.pic i.val).inPulse = false → s.runs = true →
    (s.picSilent = false → ∃ t, exec (.picotStartEdge i) s = .next t ∧ (t.pic i.val).inPulse = true ∧
      t.flag (Fd.PIC_PIC_STAT_LEVEL i.val) = (!s.flag (Fd.PIC_PIC_CTL_POL i.val)) ∧ (t.pic i.val).k = (s.pic i.val).k ∧
      t.rd (Reg.PIC_FIRED i.val) = BitVec.ofNat 32 (min ((s.rd (Reg.PIC_FIRED i.val)).toNat + 1) 0xFFFFFFFF) ∧
      t.ctr = max s.ctr (s.picAt i.val (s.pic i.val).k * 2 ^ 32) ∧
      (s.flag (Fd.PIC_PIC_CTL_JSTART i.val) = false → t.fifos = s.fifos)) ∧
    (s.picSilent = true → exec (.picotStartEdge i) s = .next ((s.toTime (s.picAt i.val (s.pic i.val).k)).picSkip i.val 1))) ∧
  (∀ (s : State) (i : Fin 16), s.picRuns i.val = true → (s.pic i.val).inPulse = true → s.runs = true →
    ∃ t, exec (.picotEndEdge i) s = .next t ∧ (t.pic i.val).inPulse = false ∧ (t.pic i.val).k = (s.pic i.val).k + 1 ∧
      (t.pic i.val).pulses = (s.pic i.val).pulses + 1 ∧
      t.flag (Fd.PIC_PIC_STAT_LEVEL i.val) = s.flag (Fd.PIC_PIC_CTL_POL i.val) ∧
      t.ctr = max s.ctr ((s.picAt i.val (s.pic i.val).k + (s.rd (Reg.PIC_WIDTH i.val)).toNat) * 2 ^ 32))

/-- While the power die has its supply: a conducting feed in reverse is turned off with REVERSE, REV_SEEN, its count and event
0x7 level 0; an enabled feed in range conducts again with event 0x7 level 1; a feed that comes in range sets IN_RANGE, ends
UV and OV with their events, and, enabled with a forward drop, conducts, by a ramp when the node bus is more than 1 V below
it; a feed that leaves the range turns off, sets UV or OV with its sticky bit, counts and queues its event with level 1. The
end of the ramp clears INRUSH. A metering sample stores its voltage and its current held to full scale, adds P × 19 µs to
ENERGY in µJ keeping the fraction, loads POWER with the mean of the last 1,024 products and raises I_PEAK to the current's
magnitude. ECLR over a working link owned by this package clears ENERGY. The event order, the conduction event's place and
POWER before 1,024 samples are the model's (log entry 8). Completion, under conditions on the state and the operands alone,
is stated for: feedReverse, feedConduct, feedInRange, feedUndervoltage, feedOvervoltage, inrushEnd, meteringSample, eclr. (13_feeds_and_branches.md R320, 13_feeds_and_branches.md R321, 13_feeds_and_branches.md R322, 13_feeds_and_branches.md R333, 13_feeds_and_branches.md R334) -/
def Obligations.FeedsAndMetering : Prop :=
  (∀ (s : State) (f : Fin 2), s.pow.up = true →
    (s.flag (Fd.FEED_F_STAT_CONDUCTING f.val) = true → ∃ t, exec (.feedReverse f) s = .next t ∧
      t.flag (Fd.FEED_F_STAT_CONDUCTING f.val) = false ∧ t.flag (Fd.FEED_F_STAT_REVERSE f.val) = true ∧
      t.flag (Fd.FEED_F_STAT_REV_SEEN f.val) = true ∧
      t.rd (Reg.FEED_REV_CNT f.val) = BitVec.ofNat 32 (min ((s.rd (Reg.FEED_REV_CNT f.val)).toNat + 1) 0xFFFFFFFF) ∧
      (s.pow.events.length < 64 → ∃ b, t.pow.events = s.pow.events ++ [⟨0x7, f.val, false, b, 0, s.clk⟩]) ∧
      SameRegs [Reg.FEED_F_STAT f.val, Reg.FEED_REV_CNT f.val, Reg.PWR_EVQ_LOST] s t ∧ SameBytes s t) ∧
    (s.flag (Fd.FEED_F_STAT_CONDUCTING f.val) = false → s.flag (Fd.FEED_F_STAT_IN_RANGE f.val) = true →
      s.flag (Fd.FEED_F_CFG2_EN f.val) = true → ∃ t, exec (.feedConduct f) s = .next t ∧
      t.flag (Fd.FEED_F_STAT_CONDUCTING f.val) = true ∧ t.flag (Fd.FEED_F_STAT_REVERSE f.val) = false ∧
      (s.pow.events.length < 64 → ∃ b, t.pow.events = s.pow.events ++ [⟨0x7, f.val, true, b, 0, s.clk⟩]) ∧
      SameRegs [Reg.FEED_F_STAT f.val, Reg.PWR_EVQ_LOST] s t ∧ SameBytes s t) ∧
    (s.flag (Fd.FEED_F_STAT_IN_RANGE f.val) = false → ∀ drop : Fin 3, ∃ t, exec (.feedInRange f drop) s = .next t ∧
      t.flag (Fd.FEED_F_STAT_IN_RANGE f.val) = true ∧ t.flag (Fd.FEED_F_STAT_UV f.val) = false ∧
      t.flag (Fd.FEED_F_STAT_OV f.val) = false ∧
      (s.flag (Fd.FEED_F_CFG2_EN f.val) = true → drop.val < 2 → t.flag (Fd.FEED_F_STAT_CONDUCTING f.val) = true ∧
        t.flag (Fd.FEED_F_STAT_INRUSH f.val) = decide (drop.val = 0)) ∧
      SameRegs [Reg.FEED_F_STAT f.val, Reg.PWR_EVQ_LOST] s t ∧ SameBytes s t) ∧
    (s.flag (Fd.FEED_F_STAT_IN_RANGE f.val) = true → ∃ t, exec (.feedUndervoltage f) s = .next t ∧
      t.flag (Fd.FEED_F_STAT_IN_RANGE f.val) = false ∧ t.flag (Fd.FEED_F_STAT_CONDUCTING f.val) = false ∧
      t.flag (Fd.FEED_F_STAT_UV f.val) = true ∧ t.flag (Fd.FEED_F_STAT_UV_SEEN f.val) = true ∧
      t.rd (Reg.FEED_UV_CNT f.val) = BitVec.ofNat 32 (min ((s.rd (Reg.FEED_UV_CNT f.val)).toNat + 1) 0xFFFFFFFF) ∧
      (s.pow.events.length < 64 → ∃ b, t.pow.events = s.pow.events ++ [⟨0x8, f.val, true, b, 0, s.clk⟩]) ∧ SameBytes s t) ∧
    (s.flag (Fd.FEED_F_STAT_IN_RANGE f.val) = true → ∃ t, exec (.feedOvervoltage f) s = .next t ∧
      t.flag (Fd.FEED_F_STAT_IN_RANGE f.val) = false ∧ t.flag (Fd.FEED_F_STAT_CONDUCTING f.val) = false ∧
      t.flag (Fd.FEED_F_STAT_OV f.val) = true ∧ t.flag (Fd.FEED_F_STAT_OV_SEEN f.val) = true ∧
      t.rd (Reg.FEED_OV_CNT f.val) = BitVec.ofNat 32 (min ((s.rd (Reg.FEED_OV_CNT f.val)).toNat + 1) 0xFFFFFFFF) ∧
      (s.pow.events.length < 64 → ∃ b, t.pow.events = s.pow.events ++ [⟨0x9, f.val, true, b, 0, s.clk⟩]) ∧ SameBytes s t)) ∧
  (∀ (s : State) (f : Fin 2), ∃ t, exec (.inrushEnd f) s = .next t ∧ t.flag (Fd.FEED_F_STAT_INRUSH f.val) = false ∧
    OnlyRegs [Reg.FEED_F_STAT f.val] s t) ∧
  (∀ (s : State) (k : Fin 19) (v i : BitVec 16), s.pow.up = true →
    let u := s.iUnit k.val
    let c := clampI (25000000 / max 1 (bits (s.rd (pathReg k.val 0x50)) 0 16) / u) i.toInt
    let m := Tab.get {} s.pow.meas k.val
    let p : Int := (2 * u * v.toNat : Nat) * c
    let l := (p :: m.prods).take 1024
    ∃ t, exec (.meteringSample k v i) s = .next t ∧ (Tab.get {} t.pow.meas k.val).v = v ∧ (Tab.get {} t.pow.meas k.val).i = c ∧
      t.rd64 (pathReg k.val 0x48) (pathReg k.val 0x4C) =
        (((s.rd64 (pathReg k.val 0x48) (pathReg k.val 0x4C) : Int) + ((m.frac : Int) + p * 19) / 1000000) % 2 ^ 64).toNat ∧
      ((Tab.get {} t.pow.meas k.val).frac : Int) = ((m.frac : Int) + p * 19) % 1000000 ∧
      t.rd (pathReg k.val 0x44) = BitVec.ofInt 32 (l.foldl (· + ·) 0 / (l.length : Int) / 1000) ∧
      (c.natAbs < 2 ^ 32 → (t.rd (pathReg k.val 0x54)).toNat = max (s.rd (pathReg k.val 0x54)).toNat c.natAbs) ∧
      SameRegs [pathReg k.val 0x44, pathReg k.val 0x48, pathReg k.val 0x4C, pathReg k.val 0x54] s t ∧ SameBytes s t) ∧
  (∀ (s : State) (k : Fin 19), s.takes none = true → s.asleepOrLoading = false → s.pow.up = true →
    s.flag Fd.PWR_PWR_STAT_PLK_LOST = false → s.actClash s.ownSrc s.ownAct = false →
    ∃ t, exec (.eclr k) s = .next t ∧ t.rd64 (pathReg k.val 0x48) (pathReg k.val 0x4C) = 0 ∧
      (Tab.get {} t.pow.meas k.val).frac = 0 ∧ t.out.head? = some (.answer .ok) ∧ SameBytes s t)

/-- A trip ends power-good, sets TRIPPED and LAST_CAUSE, counts TRIP_CNT and the count of a fast or start cause, and latches the
branch off when RETRY_COUNT stands at RETRY_MAX (never at 255); else it waits T_f × DUTY_RATIO. The soft-start timeout, the
fault timer (cause 2 while starting, else 0) and a fast current trip it. Limiting runs the fault timer, on from its held
value within 10 ms; its end holds it. The off-time's end counts a retry and starts the branch; CLEAR_TIME on clears
RETRY_COUNT; power-good rises after PG_DELAY, and its fall at a sample below PG_THRESH − 2 points counts. Over a working link
owned by this package, ON starts an OFF branch and changes no other state, OFF turns it off from any state and clears
RETRY_COUNT, and RESTART starts a latched, waiting or OFF branch with RETRY_COUNT 0 and changes no other state. Times are
exact here (log entry 8). Completion, under conditions on the state and the operands alone, is stated for: softStartEnd,
softStartTimeout, fastTrip, limitBegin, limitEnd, faultTimerExpiry, faultTimerClear, offTimeEnd, clearTimeEnd, powerGoodRise,
powerGoodFall, branchOn, branchOff, restart. (13_feeds_and_branches.md R324, 13_feeds_and_branches.md R325, 13_feeds_and_branches.md R326, 13_feeds_and_branches.md R327, 13_feeds_and_branches.md R328, 13_feeds_and_branches.md R329, 13_feeds_and_branches.md R331) -/
def Obligations.Branches : Prop :=
  (∀ (s : State) (n : Fin 16) (c : Nat), c < 3 →
    let t := s.trip n.val c
    let r := s.fld (Fd.BR_BR_STAT_RETRY_COUNT n.val)
    let m := s.fld (Fd.BR_BR_RETRY_RETRY_MAX n.val)
    t.flag (Fd.BR_BR_STAT_PG n.val) = false ∧ t.flag (Fd.BR_BR_STAT_TRIPPED n.val) = true ∧ t.fld (Fd.BR_BR_STAT_LAST_CAUSE n.val) = c ∧
    t.fld (Fd.BR_BR_STAT_RETRY_COUNT n.val) = r ∧ (t.br n.val).limitAt = none ∧
    t.rd (Reg.BR_TRIP_CNT n.val) = BitVec.ofNat 32 (min ((s.rd (Reg.BR_TRIP_CNT n.val)).toNat + 1) 0xFFFFFFFF) ∧
    (c = 1 → t.rd (Reg.BR_FAST_CNT n.val) = BitVec.ofNat 32 (min ((s.rd (Reg.BR_FAST_CNT n.val)).toNat + 1) 0xFFFFFFFF)) ∧
    (c = 2 → t.rd (Reg.BR_START_CNT n.val) = BitVec.ofNat 32 (min ((s.rd (Reg.BR_START_CNT n.val)).toNat + 1) 0xFFFFFFFF)) ∧
    (r = m → m ≠ 255 → t.brState n.val = 5 ∧ (t.br n.val).offEnd = none ∧
      t.rd (Reg.BR_LATCH_CNT n.val) = BitVec.ofNat 32 (min ((s.rd (Reg.BR_LATCH_CNT n.val)).toNat + 1) 0xFFFFFFFF)) ∧
    (r ≠ m ∨ m = 255 → t.brState n.val = 4 ∧
      (t.br n.val).offEnd = some (s.clk + s.faultTime n.val (c == 2) * s.fld (Fd.BR_BR_RETRY_DUTY_RATIO n.val))) ∧
    SameRegs [Reg.BR_BR_STAT n.val, Reg.BR_TRIP_CNT n.val, Reg.BR_FAST_CNT n.val, Reg.BR_START_CNT n.val, Reg.BR_LATCH_CNT n.val,
      Reg.BR_PG_LOSS_CNT n.val, Reg.PWR_EVQ_LOST] s t ∧ SameBytes s t) ∧
  (∀ (s : State) (n : Fin 16), s.brState n.val = 1 →
    (∃ t, exec (.softStartEnd n) s = .next t ∧ t.brState n.val = (if (s.br n.val).limitAt.isSome then 3 else 2) ∧
      (t.br n.val).onAt = (if (s.br n.val).limitAt.isSome then none else some s.clk) ∧
      SameRegs [Reg.BR_BR_STAT n.val] s t ∧ SameBytes s t) ∧
    (∀ a, (s.br n.val).startAt = some a →
      exec (.softStartTimeout n) s = .next ((s.toClk (a + s.startLimit n.val)).trip n.val 2))) ∧
  (∀ (s : State) (n : Fin 16), s.brOn n.val = true →
    exec (.fastTrip n) s = .next (s.trip n.val 1) ∧
    ((s.br n.val).limitAt = none → ∃ t, exec (.limitBegin n) s = .next t ∧ (t.br n.val).limitAt = some s.clk ∧
      (t.br n.val).faultT = (if ((s.br n.val).idleAt.map fun a => decide (s.clk < a + 10000000000)).getD false
        then (s.br n.val).faultT else 0) ∧
      (s.brState n.val = 2 → t.brState n.val = 3) ∧ (s.brState n.val = 1 → t.brState n.val = 1) ∧
      SameRegs [Reg.BR_BR_STAT n.val, Reg.PWR_EVQ_LOST] s t ∧ SameBytes s t)) ∧
  (∀ (s : State) (n : Fin 16) (a : Nat), (s.br n.val).limitAt = some a →
    (∃ t, exec (.limitEnd n) s = .next t ∧ (t.br n.val).limitAt = none ∧
      (t.br n.val).faultT = (s.br n.val).faultT + (s.clk - a) ∧ (s.brState n.val = 3 → t.brState n.val = 2) ∧
      SameRegs [Reg.BR_BR_STAT n.val, Reg.PWR_EVQ_LOST] s t ∧ SameBytes s t) ∧
    exec (.faultTimerExpiry n) s = .next ((s.toClk (a + (s.faultTime n.val (s.brState n.val == 1) - (s.br n.val).faultT))).trip n.val
      (if s.brState n.val = 1 then 2 else 0))) ∧
  (∀ (s : State) (n : Fin 16) (a : Nat),
    ((s.br n.val).idleAt = some a → ∃ t, exec (.faultTimerClear n) s = .next t ∧ (t.br n.val).faultT = 0 ∧
      t.clk = max s.clk (a + 10000000000) ∧ SameRegs [] s t ∧ SameBytes s t) ∧
    ((s.br n.val).offEnd = some a → ∃ t, exec (.offTimeEnd n) s = .next t ∧ t.brState n.val = 1 ∧
      t.fld (Fd.BR_BR_STAT_RETRY_COUNT n.val) = min (s.fld (Fd.BR_BR_STAT_RETRY_COUNT n.val) + 1) 255 ∧
      (t.br n.val).startAt = some (max s.clk a) ∧ SameRegs [Reg.BR_BR_STAT n.val, Reg.PWR_EVQ_LOST] s t ∧ SameBytes s t) ∧
    ((s.br n.val).onAt = some a → ∃ t, exec (.clearTimeEnd n) s = .next t ∧ t.fld (Fd.BR_BR_STAT_RETRY_COUNT n.val) = 0 ∧
      t.brState n.val = s.brState n.val ∧ t.clk = max s.clk (a + s.fld (Fd.BR_BR_CLEAR_CLEAR_TIME n.val) * 10000000000) ∧
      SameRegs [Reg.BR_BR_STAT n.val] s t ∧ SameBytes s t) ∧
    ((s.br n.val).pgAt = some a → s.brOn n.val = true → (s.br n.val).limitAt = none → s.flag (Fd.BR_BR_STAT_PG n.val) = false →
      ∃ t, exec (.powerGoodRise n) s = .next t ∧ t.flag (Fd.BR_BR_STAT_PG n.val) = true ∧
      t.clk = max s.clk (a + s.fld (Fd.BR_BR_PG_PG_DELAY n.val) * 100000000) ∧
      SameRegs [Reg.BR_BR_STAT n.val, Reg.PWR_EVQ_LOST] s t ∧ SameBytes s t)) ∧
  (∀ (s : State) (n : Fin 16), s.pgBelow n.val = true → s.flag (Fd.BR_BR_STAT_PG n.val) = true → ∃ t, exec (.powerGoodFall n) s = .next t ∧
    t.flag (Fd.BR_BR_STAT_PG n.val) = false ∧
    t.rd (Reg.BR_PG_LOSS_CNT n.val) = BitVec.ofNat 32 (min ((s.rd (Reg.BR_PG_LOSS_CNT n.val)).toNat + 1) 0xFFFFFFFF) ∧
    SameRegs [Reg.BR_BR_STAT n.val, Reg.BR_PG_LOSS_CNT n.val, Reg.PWR_EVQ_LOST] s t ∧ SameBytes s t) ∧
  (∀ (s : State) (n : Fin 16) (keep : Bool), s.takes none = true → s.asleepOrLoading = false → s.pow.up = true →
    s.flag Fd.PWR_PWR_STAT_PLK_LOST = false → s.actClash s.ownSrc s.ownAct = false → s.mode ≠ .load →
    (∃ t, exec (.branchOn n keep) s = .next t ∧ t.out.head? = some (.answer .ok) ∧ t.flag (Fd.BR_BR_CTL_HOLD_KEEP n.val) = keep ∧
      t.fld (Fd.BR_BR_STAT_RETRY_COUNT n.val) = s.fld (Fd.BR_BR_STAT_RETRY_COUNT n.val) ∧
      t.brState n.val = (if s.brState n.val = 0 then 1 else s.brState n.val)) ∧
    (∃ t, exec (.branchOff n keep) s = .next t ∧ t.out.head? = some (.answer .ok) ∧ t.flag (Fd.BR_BR_CTL_HOLD_KEEP n.val) = keep ∧
      t.brState n.val = 0 ∧ t.fld (Fd.BR_BR_STAT_RETRY_COUNT n.val) = 0 ∧ t.flag (Fd.BR_BR_STAT_PG n.val) = false ∧
      (t.br n.val).offEnd = none) ∧
    (∃ t, exec (.restart n keep) s = .next t ∧ t.out.head? = some (.answer .ok) ∧
      (s.brState n.val = 0 ∨ s.brState n.val = 4 ∨ s.brState n.val = 5 → t.brState n.val = 1 ∧
        t.fld (Fd.BR_BR_STAT_RETRY_COUNT n.val) = 0) ∧
      (s.brState n.val = 1 ∨ s.brState n.val = 2 ∨ s.brState n.val = 3 → t.brState n.val = s.brState n.val ∧
        t.fld (Fd.BR_BR_STAT_RETRY_COUNT n.val) = s.fld (Fd.BR_BR_STAT_RETRY_COUNT n.val))))

/-- An answered transaction puts its bytes with both CRCs on the wires and ends hold-over. A POLL returns STAT and the next of
the 38 values and turns its rotation on; a READ returns a half of a register, a low half latching the high one; a WRITE by a
SRC that may not write is answered 0x01 and counts ACT_CLASH, a low half is buffered, a high half applies the register. A
transaction of this package lost on its way counts PLK_NOANS; three lost set PLK_LOST. 50 µs without a valid transaction
enter hold-over for HOLD_TIME; its end turns off each branch without HOLD_KEEP. A power die reset puts its registers at reset
and sets COLD; a cold start queues event 0xB. A request to BR_LIMIT over a working link writes the masked value or reads the
register when no half is latched, and with PLK_LOST a write is refused with WRONG_MODE. Completion, under conditions on the
state and the operands alone, is stated for: plkPoll, plkRead, plkWrite, powerLinkLost, holdOverStart, holdTimeEnd,
powerDieReset, powerDieColdStart, pwrLinkAccess. (01_node_anatomy.md R15, 01_node_anatomy.md R16, 01_node_anatomy.md R17, 01_node_anatomy.md R21, 13_feeds_and_branches.md R339, 13_feeds_and_branches.md R340, 13_feeds_and_branches.md R341, 13_feeds_and_branches.md R342, 13_feeds_and_branches.md R343, 13_feeds_and_branches.md R344, 13_feeds_and_branches.md R346) -/
def Obligations.PowerLink : Prop :=
  (∀ (s : State) (src act : Bool), s.pow.up = true → (src.toNat = s.ownSrc → s.runs = true) →
    let n := src.toNat
    let act' := if n = s.ownSrc then s.ownAct else act
    let u := s.plkValid n act'
    let wire := fun (t : State) (m r : List Byte) => t.out = .plk (n == 1) (m ++ [crc8 0#8 m]) (r ++ [crc8 (crc8 0#8 m) r]) :: s.out
    (∃ t, exec (.plkPoll src act .answered) s = .next t ∧ t.pow.hold = false ∧ (t.plkSrc n).next = ((s.plkSrc n).next + 1) % 38 ∧
      wire t [plkCmd 0 act' n 0] (BitVec.ofNat 8 (u.pollAnswer n (s.plkSrc n).held).1 :: beBytes 2 (u.pollAnswer n (s.plkSrc n).held).2) ∧
      (act' = true → t.pow.owner = some (n, s.clk))) ∧
    (∀ a : BitVec 12, ∃ t, exec (.plkRead src act a .answered) s = .next t ∧ t.pow.hold = false ∧
      wire t [plkCmd 1 act' n a.toNat, BitVec.ofNat 8 a.toNat] (beBytes 2 (u.dieRead n a.toNat).1.toNat)) ∧
    (∀ (a : BitVec 12) (d : BitVec 16), ∃ t, exec (.plkWrite src act a d .answered) s = .next t ∧
      wire t ([plkCmd 2 act' n a.toNat, BitVec.ofNat 8 a.toNat] ++ beBytes 2 d.toNat)
        [BitVec.ofNat 8 (u.dieWrite n a.toNat (s.actClash n act') d).1] ∧
      (s.actClash n act' = true → t.rd Reg.PWR_ACT_CLASH = BitVec.ofNat 32 (min ((s.rd Reg.PWR_ACT_CLASH).toNat + 1) 0xFFFFFFFF)) ∧
      (s.actClash n act' = false → a.toNat % 2 = 0 → (t.plkSrc n).low = some (a.toNat, d))) ∧
    (n = s.ownSrc → ∃ t, exec (.plkPoll src act .masterLost) s = .next t ∧
      t.rd Reg.PWR_PLK_NOANS = BitVec.ofNat 32 (min ((s.rd Reg.PWR_PLK_NOANS).toNat + 1) 0xFFFFFFFF) ∧
      t.anat.plkFailRun = s.anat.plkFailRun + 1 ∧ SameRegs [Reg.PWR_PLK_NOANS] s t ∧ SameBytes s t)) ∧
  (∀ (s : State) (n a : Nat) (d : BitVec 16), (s.dieWrite n a true d) = (1, s.bump Reg.PWR_ACT_CLASH) ∧
    (a % 2 = 1 → (s.plkSrc n).low = none →
      s.dieWrite n a false d = (s.setPlkSrc n { s.plkSrc n with low := none }).dieApply (a / 2 * 4) (d ++ 0#16)) ∧
    (∀ v, a % 2 = 1 → (s.plkSrc n).low = some (a - 1, v) →
      s.dieWrite n a false d = (s.setPlkSrc n { s.plkSrc n with low := none }).dieApply (a / 2 * 4) (d ++ v)) ∧
    ((s.plkSrc n).latch.lookup a = none → dieReg (a / 2 * 4) = true →
      (s.dieRead n a).1 = (s.rd (0xF0000 + a / 2 * 4)).extractLsb' (16 * (a % 2)) 16) ∧
    ((s.plkSrc n).latch.lookup a = none → dieReg (a / 2 * 4) = false → s.dieRead n a = (0#16, s))) ∧
  (∀ s : State, 3 ≤ s.anat.plkFailRun → s.flag Fd.PWR_PWR_STAT_PLK_LOST = false → ∃ t, exec .powerLinkLost s = .next t ∧
    t.flag Fd.PWR_PWR_STAT_PLK_LOST = true ∧ SameBytes s t) ∧
  (∀ s : State, s.pow.up = true → s.pow.hold = false → s.fld Fd.PWR_HOLD_CFG_HOLD_TIME ≠ 0 → s.flag Fd.PWR_HOLD_CFG_HOLD_UNLIM = false →
    ∃ t, exec .holdOverStart s = .next t ∧ t.pow.hold = true ∧ t.clk = max s.clk (s.pow.lastValid + 50000000) ∧
      t.pow.holdEnd = some (t.clk + s.fld Fd.PWR_HOLD_CFG_HOLD_TIME * 10000000000) ∧ SameRegs [Reg.PWR_EVQ_LOST] s t ∧ SameBytes s t) ∧
  (∀ (s : State) (a : Nat), s.pow.holdEnd = some a → ∃ t, exec .holdTimeEnd s = .next t ∧ t.pow.holdEnd = none ∧ t.clk = max s.clk a ∧
    (∀ n : Fin 16, t.brState n.val = if s.flag (Fd.BR_BR_CTL_HOLD_KEEP n.val) then s.brState n.val else 0) ∧ SameBytes s t) ∧
  (∀ s : State, ∃ t, exec .powerDieReset s = .next t ∧ t.pow.up = false ∧ t.flag Fd.PWR_PWR_STAT_COLD = true ∧
    (∀ a, a < 0x10000 → dieReg a = true → t.rd (0xF0000 + a) = regReset (0xF0000 + a)) ∧
    (∀ a, a < 0xF0000 ∨ 0x100000 ≤ a → t.rd a = s.rd a) ∧ SameBytes s t) ∧
  (∀ s : State, ∃ t, exec .powerDieColdStart s = .next t ∧ t.pow.up = true ∧ t.flag Fd.PWR_PWR_STAT_COLD = true ∧
    t.pow.events = [⟨0xB, 2, false, false, 0, s.clk⟩] ∧ (∀ n : Fin 16, t.brState n.val = 0) ∧
    (∀ a, a < 0xF0000 ∨ 0x100000 ≤ a → t.rd a = s.rd a) ∧ SameBytes s t) ∧
  (∀ (s : State) (n : Fin 16) (w : Word), s.takes none = true → s.asleepOrLoading = false →
    let off := BitVec.ofNat 16 (0x1004 + 0x100 * n.val)
    (s.pow.up = true → s.flag Fd.PWR_PWR_STAT_PLK_LOST = false → s.actClash s.ownSrc s.ownAct = false → s.mode ≠ .load →
      s.pwrInRange (0x1004 + 0x100 * n.val) w = true → ∃ t, exec (.pwrLinkAccess off (some w)) s = .next t ∧
      t.rd (Reg.BR_BR_LIMIT n.val) = w &&& 0x01FFFFFF#32 ∧ t.out.head? = some (.answer .ok)) ∧
    (s.pow.up = true → s.flag Fd.PWR_PWR_STAT_PLK_LOST = false → (s.plkSrc s.ownSrc).latch = [] →
      ∃ t, exec (.pwrLinkAccess off none) s = .next t ∧ t.rd (Reg.BR_BR_LIMIT n.val) = s.rd (Reg.BR_BR_LIMIT n.val) ∧
      t.out.head? = some (.data .ok (leBytes 4 (s.rd (Reg.BR_BR_LIMIT n.val)).toNat))) ∧
    (s.flag Fd.PWR_PWR_STAT_PLK_LOST = true → ∃ t, exec (.pwrLinkAccess off (some w)) s = .next t ∧
      t.rd (Reg.BR_BR_LIMIT n.val) = s.rd (Reg.BR_BR_LIMIT n.val) ∧ t.out.head? = some (.answer .wrongMode)))

/-- At a tethered package a heartbeat loads the partner's readiness and holds the tether for 3 µs, and in Standby the eight SEQ
counters; its loss clears TETHER_OK and counts; heartbeats for 100 µs set it again. The tether status loads the partner's
digest and CFG_MISMATCH. A standby applies the partner's writes, another mode none. A level that differs from the mirror for
the third time sets its IN_DIFF bit, one that agrees does not. A release seen by a ready standby ends the partner's ACT and
makes it wait out the output gap with evidence 1. A push-pull pin whose level is not the driven value sets its DRIVE_FAULT
bit and counts. CLR_LIMIT clears REVERT_LIMIT. Completion, under conditions on the state and the operands alone, is stated
for: tetherHeartbeat, tetherLoss, tetherBack, tetherStatus, stateDelta, inputMirror, twinRelN, rel, driveFault, clrLimit. (14_twin_nodes.md R353, 14_twin_nodes.md R354, 14_twin_nodes.md R357, 14_twin_nodes.md R361, 14_twin_nodes.md R367, 14_twin_nodes.md R368) -/
def Obligations.Tether : Prop :=
  (∀ (s : State) (h : Heartbeat), s.tethered = true → ∃ t, exec (.tetherHeartbeat h) s = .next t ∧
    t.flag Fd.TWIN_TWIN_STAT_PARTNER_READY = h.ready ∧ t.twin.hb = h ∧ t.twin.hbAt = some s.clk ∧
    t.deadline .tether = some (s.clk + 3000000) ∧
    (s.mode = .standby → ∀ c, c < 8 → Tab.get 0#16 t.ring.seqs c = h.seqs.getD c 0#16) ∧
    SameRegs [Reg.TWIN_TWIN_STAT] s t ∧ SameBytes s t) ∧
  (∀ (s : State) (a : Nat), s.deadline .tether = some a → s.tetherOk = true → ∃ t, exec .tetherLoss s = .next t ∧
    t.tetherOk = false ∧ t.twin.upSince = none ∧
    t.rd Reg.TWIN_TETHER_LOSS_CNT = BitVec.ofNat 32 (min ((s.rd Reg.TWIN_TETHER_LOSS_CNT).toNat + 1) 0xFFFFFFFF) ∧
    SameRegs [Reg.TWIN_TWIN_STAT, Reg.TWIN_TETHER_LOSS_CNT] s t ∧ SameBytes s t) ∧
  (∀ (s : State) (a : Nat), s.tethered = true → s.tetherOk = false → s.twin.upSince = some a → ∃ t, exec .tetherBack s = .next t ∧
    t.tetherOk = true ∧ t.clk = max s.clk (a + 100000000) ∧ SameRegs [Reg.TWIN_TWIN_STAT] s t ∧ SameBytes s t) ∧
  (∀ (s : State) (d : BitVec 64), s.tethered = true → ∃ t, exec (.tetherStatus d) s = .next t ∧
    t.rd64 Reg.TWIN_PARTNER_DIGEST_LO Reg.TWIN_PARTNER_DIGEST_HI = d.toNat ∧
    t.flag Fd.TWIN_TWIN_STAT_CFG_MISMATCH = !t.digestsMatch ∧
    SameRegs [Reg.TWIN_TWIN_STAT, Reg.TWIN_PARTNER_DIGEST_LO, Reg.TWIN_PARTNER_DIGEST_HI] s t ∧ SameBytes s t) ∧
  (∀ (s : State) (a : BitVec 40) (b : List Byte) (l : List (BitVec 40 × List Byte)),
    (s.mode ≠ .standby → exec (.stateDelta l) s = .next s) ∧
    (s.mode = .standby → exec (.stateDelta [(a, b)]) s = .next (s.localWrite a.toNat b).2)) ∧
  (∀ (s : State) (v : BitVec 256), s.tethered = true → ∃ t, exec (.inputMirror v) s = .next t ∧
    (∀ n, n < 256 → s.level n ≠ v.getLsbD n → 2 ≤ Tab.get 0 s.twin.diffs n →
      t.flag ⟨Reg.TWIN_IN_DIFF (n / 32), n % 32, 1⟩ = true) ∧
    (∀ n, n < 256 → (s.level n = v.getLsbD n ∨ Tab.get 0 s.twin.diffs n < 2) →
      t.flag ⟨Reg.TWIN_IN_DIFF (n / 32), n % 32, 1⟩ = s.flag ⟨Reg.TWIN_IN_DIFF (n / 32), n % 32, 1⟩) ∧
    SameRegs ((List.range 8).map Reg.TWIN_IN_DIFF) s t ∧ SameBytes s t) ∧
  (∀ s : State, s.tethered = true → s.fieldHolder = false → s.twinState = 2 → s.twin.take = none →
    ∃ t, exec .twinRelN s = .next t ∧ exec .rel s = .next t ∧ t.twin.actAt = none ∧ t.twin.take = some (1, s.clk) ∧
      t.twin.handAt = none ∧ SameRegs [] s t ∧ SameBytes s t) ∧
  (∀ (s : State) (n : Fin 256) (v : Bool), s.pinDrive n.val = some v → s.flag (Fd.PIN_CFG_OD n.val) = false →
    (s.level n.val = v → exec (.driveFault n) s = .next s) ∧
    (s.level n.val ≠ v → ∃ t, exec (.driveFault n) s = .next t ∧ t.flag ⟨Reg.TWIN_DRIVE_FAULT (n.val / 32), n.val % 32, 1⟩ = true ∧
      t.rd Reg.TWIN_DRIVE_FAULT_CNT = BitVec.ofNat 32 (min ((s.rd Reg.TWIN_DRIVE_FAULT_CNT).toNat + 1) 0xFFFFFFFF) ∧
      OnlyRegs [Reg.TWIN_DRIVE_FAULT (n.val / 32), Reg.TWIN_DRIVE_FAULT_CNT] s t)) ∧
  (∀ s : State, s.takes none = true → exec .clrLimit s = .next (answer (.ok, s.off Fd.TWIN_TWIN_STAT_REVERT_LIMIT)))

/-- A standby whose output gap ends without the partner's ACT takes the field outputs on its evidence, 40 to 64 PERI cycles after
the release; with the ACT it does not. A package that was ready when the tether was lost takes them at its next own slot on
evidence 2, and a first package after a reset on evidence 5, unless the partner's ACT is seen. A claim is repeated every 100
µs in state FIELD. The active warden answers a claim of the entry's GSEQ by the next GSEQ with the claimant as holder, a
grant and a count; another claim leaves the entry. A heartbeat's readiness is recorded. The identity holder sends its
heartbeat at a multiple of 100 µs. A newer grant of this package ends the claims; with it the package becomes ACTIVE at R +
RTT + QUIET, with no duplicate-discard window and no late-error entry left. Completion, under conditions on the state and the
operands alone, is stated for: outputGapEnd, silent, startEvidence, claimRepeat, claimRx, twinHeartbeatRx, twinHeartbeatTx,
grantRx, identityTake. (14_twin_nodes.md R357, 14_twin_nodes.md R359, 14_twin_nodes.md R362, 14_twin_nodes.md R363, 14_twin_nodes.md R364, 14_twin_nodes.md R365, 14_twin_nodes.md R370) -/
def Obligations.TwinTaking : Prop :=
  (∀ (s : State) (n : Fin 25) (ev a : Nat), s.twin.take = some (ev, a) →
    let u := s.until (a + (40 + n.val) * 5120)
    (u.partnerAct = false → s.mode = .standby → exec (.outputGapEnd n) s = .next (u.takeField ev)) ∧
    (u.partnerAct = true → exec (.outputGapEnd n) s = .next (u.setTwin { s.twin with take := none }))) ∧
  (∀ s : State, s.tethered = true → s.mode = .standby → s.twin.take = none →
    let u := s.toOwnSlot
    (s.tetherOk = false → s.twin.wasReady = true → u.partnerAct = false → ∃ v, exec .silent s = .next (v.takeField 2) ∧
      v = u.setTwin { s.twin with relAt := s.twin.hbAt.getD u.clk + 1000000, wasReady := false }) ∧
    (s.tetherOk = false → s.twin.wasReady = true → u.partnerAct = true → exec .silent s = .next u) ∧
    (s.twinPos = false → s.boot.cold = true → s.twin.enteredAt.isSome = true → u.partnerAct = false → ∃ v,
      exec .startEvidence s = .next (v.takeField 5) ∧ v = u.setTwin { s.twin with relAt := u.clk })) ∧
  (∀ (s : State) (a : Nat), s.deadline .claim = some a → s.twinState = 3 → ∃ t, exec .claimRepeat s = .next t ∧
    t.deadline .claim = some (max s.clk a + 100000000) ∧ SameRegs [Reg.TWIN_CLAIM_TX] s t ∧ SameBytes s t) ∧
  (∀ (s : State) (f : Frame), s.flag Fd.WARDEN_RING_STAT_WARDEN_ACTIVE = true →
    let n := f.srcNode.toNat
    (f.isTwin 2 = true →
      (fieldBE f.payload 2 2 = s.fld (Fd.TWIN_GRANT_TAB_GSEQ n) ∨ s.flag (Fd.TWIN_GRANT_TAB_VALID n) = false →
        ∃ t, exec (.claimRx f) s = .next t ∧ t.flag (Fd.TWIN_GRANT_TAB_VALID n) = true ∧
          t.fld (Fd.TWIN_GRANT_TAB_GSEQ n) = (fieldBE f.payload 2 2 + 1) % 65536 ∧
          t.flag (Fd.TWIN_GRANT_TAB_HOLDER n) = decide (fieldBE f.payload 1 1 / 128 = 1) ∧
          t.rd Reg.TWIN_TWIN_GRANT_CNT = BitVec.ofNat 32 (min ((s.rd Reg.TWIN_TWIN_GRANT_CNT).toNat + 1) 0xFFFFFFFF) ∧
          (∃ g, t.txn.toInject = s.txn.toInject ++ [g] ∧ g.kind = Kd.twin ∧ g.dstNode = f.srcNode ∧ fieldBE g.payload 0 1 = 3) ∧
          SameRegs [Reg.TWIN_GRANT_TAB n, Reg.TWIN_TWIN_GRANT_CNT] s t ∧ SameBytes s t) ∧
      (fieldBE f.payload 2 2 ≠ s.fld (Fd.TWIN_GRANT_TAB_GSEQ n) → s.flag (Fd.TWIN_GRANT_TAB_VALID n) = true →
        ∃ t, exec (.claimRx f) s = .next t ∧ t.regs = s.regs ∧ t.txn.toInject.length = s.txn.toInject.length + 1)) ∧
    (f.isTwin 1 = true → ∃ t, exec (.twinHeartbeatRx f) s = .next t ∧
      t.flag (Fd.TWIN_GRANT_TAB_PARTNER_READY n) = decide (fieldBE f.payload 1 1 / 8 % 2 = 1) ∧
      t.twin.hbRx.lookup n = some s.clk ∧ SameRegs [Reg.TWIN_GRANT_TAB n] s t ∧ SameBytes s t)) ∧
  (∀ (s : State) (w : Nat), s.twinEn = true → s.twinState = 4 → s.onRing = true →
    let u := s.toTime ((s.now / 100000 + 1) * 100000)
    u.activeWarden = some w → ∃ t g, exec .twinHeartbeatTx s = .next t ∧ t.ctr = u.ctr ∧
      t.txn.toInject = s.txn.toInject ++ [g] ∧ g.kind = Kd.twin ∧ g.dstNode = BitVec.ofNat 9 w ∧ fieldBE g.payload 0 1 = 1 ∧
      g.payload.length = 24 ∧ SameRegs [] s t ∧ SameBytes s t) ∧
  (∀ (s : State) (f : Frame), s.tethered = true → f.isTwin 3 = true → s.twinState = 3 →
    let g := fieldBE f.payload 2 2
    1 ≤ (g + 65536 - s.gseq) % 65536 → (g + 65536 - s.gseq) % 65536 ≤ 32767 →
    (fieldBE f.payload 1 1 / 128 = 1 ↔ s.twinPos = true) → ∃ t, exec (.grantRx f) s = .next t ∧ t.gseq = g ∧
      t.deadline .claim = none ∧ t.twin.granted = true ∧ t.out = .tether f.payload :: s.out ∧
      SameRegs [Reg.TWIN_TWIN_STAT] s t ∧ SameBytes s t) ∧
  (∀ s : State, s.tethered = true → s.twinState = 3 → s.twin.granted = true → ∃ t, exec .identityTake s = .next t ∧
    t.twinState = 4 ∧ t.twin.noIdentity = false ∧ t.ring.windows = [] ∧
    t.clk = max s.clk (s.twin.relAt + (s.rd Reg.WARDEN_RTT).toNat * 1000 + s.fld Fd.TWIN_TWIN_CFG_QUIET * 1000000) ∧
    (∀ k, k < 64 → t.flag (Fd.TXN_LATEC_VALID k) = false) ∧
    SameRegs (Reg.TWIN_TWIN_STAT :: Reg.TXN_LATE_WR :: (List.range 0x800).map (0x30800 + ·)) s t ∧ SameBytes s t)

/-- A second package that holds the outputs agrees to a revert 1 ms ahead; a first package ready for HOLDOFF asks for one, or
sets REVERT_LIMIT when three fell into the last 60 minutes. At the agreed instant the holder releases with cause 6 and stands
by, and the ready first package waits out the gap with evidence 3 and counts REVERT_CNT. DRILL is WRONG_MODE outside ACTIVE,
BUSY while the partner is not ready or a drill or revert is pending, BAD_REQUEST when DRILL_AT is not 2 ms to 60 s ahead, and
else pending. At DRILL_AT the holder releases with cause 7. DRILL_HOLD after it DRILL_STAT records PASS when no part failed,
and the original holder waits to take back with evidence 4, an evidence code that is the model's (log entry 9). Completion,
under conditions on the state and the operands alone, is stated for: revertRequest, revertHandover, drill, drillStart,
drillTakeback. (14_twin_nodes.md R358, 14_twin_nodes.md R366, 14_twin_nodes.md R367, 14_twin_nodes.md R369) -/
def Obligations.RevertAndDrill : Prop :=
  (∀ s : State, s.tethered = true → s.drillPending = false → s.twin.handAt = none →
    (s.twinPos = true → s.fieldHolder = true →
      exec .revertRequest s = .next (s.setTwin { s.twin with handAt := some (s.now + 1000000) })) ∧
    (∀ a, s.twinPos = false → s.twin.readySince = some a → s.twinState = 2 → s.flag Fd.TWIN_TWIN_CFG_REVERT_EN = true →
      s.flag Fd.TWIN_TWIN_STAT_REVERT_LIMIT = false →
      let u := s.until (a + s.fld Fd.TWIN_TWIN_CFG_HOLDOFF * 1000000000000)
      let recent := s.twin.reverts.filter fun r => decide (u.clk < r + 3600000000000000)
      (3 ≤ recent.length → exec .revertRequest s = .next (u.on Fd.TWIN_TWIN_STAT_REVERT_LIMIT)) ∧
      (recent.length < 3 → ∃ t, exec .revertRequest s = .next t ∧ t.twin.handAt = some (u.now + 1000000) ∧
        t.out = .tether [] :: s.out ∧ SameRegs [] s t ∧ SameBytes s t))) ∧
  (∀ (s : State) (a : Nat), s.twin.handAt = some a →
    (s.twinPos = true → s.fieldHolder = true → ∃ u, exec .revertHandover s = .next (u.handBack 6) ∧
      u = (s.toTime a).setTwin { s.twin with handAt := none }) ∧
    (s.twinPos = false → s.twinState = 2 → ∃ t, exec .revertHandover s = .next t ∧ t.twin.take = some (3, (s.toTime a).clk) ∧
      t.rd Reg.TWIN_REVERT_CNT = BitVec.ofNat 32 (min ((s.rd Reg.TWIN_REVERT_CNT).toNat + 1) 0xFFFFFFFF) ∧
      SameRegs [Reg.TWIN_REVERT_CNT] s t ∧ SameBytes s t)) ∧
  (∀ s : State, s.takes none = true →
    let at_ := s.rd64 Reg.TWIN_DRILL_AT_LO Reg.TWIN_DRILL_AT_HI
    let busy := s.partnerReady = false ∨ s.drillPending = true ∨ s.twin.handAt.isSome = true
    (s.twinState ≠ 4 → exec .drill s = .next (answer (refuse .wrongMode s))) ∧
    (s.twinState = 4 → busy → exec .drill s = .next (answer (refuse .busy s))) ∧
    (s.twinState = 4 → ¬ busy → (at_ < s.now + 2000000 ∨ s.now + 60000000000 < at_) →
      exec .drill s = .next (answer (refuse .badRequest s))) ∧
    (s.twinState = 4 → ¬ busy → s.now + 2000000 ≤ at_ → at_ ≤ s.now + 60000000000 →
      exec .drill s = .next (answer (.ok, s.on Fd.TWIN_DRILL_STAT_PENDING)))) ∧
  (∀ s : State, s.drillPending = true → s.twinState = 4 → s.twin.drillRun = false → ∃ t u, exec .drillStart s = .next t ∧
    u = (s.toTime (s.rd64 Reg.TWIN_DRILL_AT_LO Reg.TWIN_DRILL_AT_HI)).handBack 7 ∧ t = u.setTwin { u.twin with drillRun := true }) ∧
  (∀ (s : State) (p : DrillParts), s.twin.drillRun = true → s.mode = .standby → ∃ t, exec (.drillTakeback p) s = .next t ∧
    t.flag Fd.TWIN_DRILL_STAT_PASS = !p.list.contains .failed ∧ t.drillPending = false ∧ t.twin.drillRun = false ∧
    (∀ i, i < 5 → t.flag ⟨Reg.TWIN_DRILL_STAT, 5 + i, 1⟩ = decide (p.list[i]? = some .noTraffic)) ∧
    t.twin.take = some (4, (s.toTime (s.rd64 Reg.TWIN_DRILL_AT_LO Reg.TWIN_DRILL_AT_HI +
      s.fld Fd.TWIN_TWIN_CFG_DRILL_HOLD * 1000000000)).clk) ∧ SameRegs [Reg.TWIN_DRILL_STAT] s t ∧ SameBytes s t)

/-- While both domains run, the control processor's 4-byte write of TWIN_CFG in a mode other than Load is refused with
WRONG_MODE. The firmware's write in Load is refused with BAD_REQUEST when HOLDOFF or QUIET is 0 or DRILL_HOLD is not 1 to 60;
it then leaves the register. Otherwise the register takes EN, REVERT_EN and the three times. Completion, under conditions on
the state and the operands alone, is stated for: registerWrite. (14_twin_nodes.md R371) -/
def Obligations.TwinConfiguration : Prop :=
  ∀ (s : State) (w : Word), s.runs = true → s.boot.applying = false →
    let go := exec (.registerWrite 0 0x3000100000#40 (leBytes 4 w.toNat)) s
    let bad := bits w 16 8 = 0 ∨ bits w 8 8 = 0 ∨ bits w 0 8 = 0 ∨ 60 < bits w 0 8
    (s.mode ≠ .load → ∃ t, go = .next t ∧ t.out = .answer .wrongMode :: s.out ∧
      OnlyRegsOut [Reg.TXN_WRONG_MODE_CNT] s t) ∧
    (s.mode = .load → bad → ∃ t, go = .next t ∧ t.out = .answer .badRequest :: s.out ∧
      OnlyRegsOut [Reg.TXN_BAD_REQ_CNT] s t) ∧
    (s.mode = .load → ¬ bad → ∃ t, go = .next t ∧ t.out = .answer .ok :: s.out ∧
      t.rd Reg.TWIN_TWIN_CFG = w &&& 0xC0FFFFFF#32 ∧ OnlyRegsOut [Reg.TWIN_TWIN_CFG] s t)

/-- A handover to a new owner sets PENDING, leaves OWNER and sends no answer yet; it is BAD_REQUEST for an owner above 4, BUSY
while one is pending, OK without a change for the present owner, WRONG_MODE when it would take the enabled cycle engine's
churn, and WRONG_MODE in Recovery, Load or Drowse. Its completion gives OWNER the new value, clears PENDING and sends the
completion. A running scrub reads the block at SCRUB_POS, writes corrected words back unless the block was written since,
leaves uncorrectable ones, and goes on to the next block; after the last one PASS_DONE is set and it starts again. No byte
changes. Completion, under conditions on the state and the operands alone, is stated for: churnHandover, handoverComplete,
patrolScrub. (15_memories_and_queues.md R374, 15_memories_and_queues.md R376, 15_memories_and_queues.md R377) -/
def Obligations.ChurnsAndScrub : Prop :=
  (∀ (s : State) (n : Fin 16) (w : Word), s.runs = true →
    let own := s.fld (Fd.MEM_CHURN_OWN_OWNER n.val)
    let cyc := own = 4 ∧ s.flag Fd.CYC_CYC_CTL_EN = true ∧ s.fld Fd.CYC_CYC_CTL_CHURN = n.val
    (s.asleepOrLoading = true → exec (.churnHandover n w) s = .next (answer (refuse .wrongMode s))) ∧
    (s.asleepOrLoading = false → 4 < bits w 0 3 → exec (.churnHandover n w) s = .next (answer (refuse .badRequest s))) ∧
    (s.asleepOrLoading = false → bits w 0 3 ≤ 4 → (s.hand.lookup n.val).isSome = true →
      exec (.churnHandover n w) s = .next (answer (.busy, s))) ∧
    (s.asleepOrLoading = false → bits w 0 3 ≤ 4 → s.hand.lookup n.val = none →
      (bits w 0 3 = own → exec (.churnHandover n w) s = .next (answer (.ok, s))) ∧
      (bits w 0 3 ≠ own → cyc → exec (.churnHandover n w) s = .next (answer (refuse .wrongMode s))) ∧
      (bits w 0 3 ≠ own → ¬ cyc → s.mode ≠ .load → ∃ t, exec (.churnHandover n w) s = .next t ∧
        t.flag (Fd.MEM_CHURN_OWN_PENDING n.val) = true ∧ t.fld (Fd.MEM_CHURN_OWN_OWNER n.val) = own ∧ t.out = s.out ∧
        (t.hand.lookup n.val).map (·.owner) = some (bits w 0 3) ∧ SameRegs [Reg.MEM_CHURN_OWN n.val] s t ∧ SameBytes s t))) ∧
  (∀ (s : State) (n : Fin 16) (h : Handover), s.hand.lookup n.val = some h → h.owner ≤ 4 →
    (h.req = none → h.direct = true → ∃ t, exec (.handoverComplete n) s = .next t ∧ t.fld (Fd.MEM_CHURN_OWN_OWNER n.val) = h.owner ∧
      t.flag (Fd.MEM_CHURN_OWN_PENDING n.val) = false ∧ t.hand.lookup n.val = none ∧ t.out = .answer .ok :: s.out ∧
      SameRegs [Reg.MEM_CHURN_OWN n.val] s t ∧ SameBytes s t) ∧
    (∀ k q, h.req = some (k, q) → (∀ e ∈ s.hand, e.1 ≠ n.val → e.2.req ≠ some (k, q)) → ∃ u,
      exec (.handoverComplete n) s = .next (u.complete1 k q .ok []) ∧ u.fld (Fd.MEM_CHURN_OWN_OWNER n.val) = h.owner ∧
      u.flag (Fd.MEM_CHURN_OWN_PENDING n.val) = false ∧ SameRegs [Reg.MEM_CHURN_OWN n.val] s u ∧ SameBytes s u)) ∧
  (∀ (s : State) (written : Bool), s.scrubbing = true → ∃ t, exec (.patrolScrub [] written) s = .next t ∧
    t.scrubPos = (if s.dramTop ≤ s.scrubPos + 64 then 0 else s.scrubPos + 64) ∧
    (s.dramTop ≤ s.scrubPos + 64 → t.flag Fd.MEM_MEM_STAT_PASS_DONE = true) ∧
    (∀ i, i < 8 → t.mark (s.scrubPos + 8 * i) =
      if s.mark (s.scrubPos + 8 * i) ≤ 2 ∧ written = false then 0 else s.mark (s.scrubPos + 8 * i)) ∧ SameBytes s t) ∧
  (∀ (s : State) (ups : List Upset) (written : Bool), s.scrubbing = false → exec (.patrolScrub ups written) s = .next s)

/-- At a serving port outside the entry to Drowse, READ and QREAD of the window return its bytes, wrapping at 64 KiB; a fabric
write to the same word makes the read void, sets COLLIDE and counts; a byte of bad parity makes it void, sets PERR and
counts. WRITE and QWRITE of the window store their bytes, wrapping; a command cut after c bytes has stored those and is void.
READ_STAT returns byte 0 of H_STAT over and over; a read of H_IRQ_EN returns its four bytes. ENTER_QPI and EXIT_QPI change
the mode they are valid in and are void in the other. A write of DOORBELL_OUT loads it and interrupts the control processor;
a fabric write of DOORBELL_IN loads it and sets its interrupt bit. A command at a port that does not serve is void and
counts. The bytes of a void read are free. Completion, under conditions on the state and the operands alone, is stated for:
hostRead, hostQread, readStat, hostWrite, hostQwrite, enterQpi, exitQpi, doorbellOut, doorbellIn. (00_scope.md R10, 15_memories_and_queues.md R380, 15_memories_and_queues.md R381, 15_memories_and_queues.md R383, 15_memories_and_queues.md R384, 15_memories_and_queues.md R387) -/
def Obligations.HostPort : Prop :=
  (∀ (s : State) (a : BitVec 24) (n : BitVec 12), s.hostServes = true → s.flag Fd.SYS_MODE_STAT_ENTERING = false → n ≠ 0#12 →
    let at_ := fun (i : Nat) => 0x1001000000 + (a.toNat + i) % 0x10000
    (a.toNat < 0x10000 → (∀ i, i < n.toNat → s.mark (at_ i) = 0) → ∃ t, exec (.hostRead a n false) s = .next t ∧
      exec (.hostQread a n false) s = .next t ∧ t.out = .host false ((List.range n.toNat).map fun i => s.byte (at_ i)) :: s.out ∧
      t.host.void = false ∧ SameRegs [] s t ∧ SameBytes s t) ∧
    (a.toNat < 0x10000 → ∃ t l, exec (.hostRead a n true) s = .next t ∧ t.out = .host true l :: s.out ∧ l.length = n.toNat ∧
      t.flag Fd.HOST_H_STAT_COLLIDE = true ∧ t.host.void = true ∧
      SameRegs [Reg.HOST_H_STAT, Reg.HOST_COLLIDE_CNT, Reg.HOST_VOID_CNT] s t ∧ SameBytes s t) ∧
    (a.toNat < 0x10000 → ∀ i, i < n.toNat → s.mark (at_ i) ≠ 0 → ∃ t l, exec (.hostRead a n false) s = .next t ∧
      t.out = .host true l :: s.out ∧ t.flag Fd.HOST_H_STAT_PERR = true ∧
      SameRegs [Reg.HOST_H_STAT, Reg.MEM_WIN_PERR, Reg.HOST_VOID_CNT] s t ∧ SameBytes s t) ∧
    (∃ t, exec (.readStat n) s = .next t ∧
      t.out = .host false (List.replicate n.toNat ((s.regValue Reg.HOST_H_STAT).extractLsb' 0 8)) :: s.out ∧ SameRegs [] s t) ∧
    (∃ t, exec (.hostRead 0x010008#24 4#12 false) s = .next t ∧ SameRegs [] s t ∧
      t.out = .host false ((List.range 4).map fun i => (s.regValue Reg.HOST_H_IRQ_EN).extractLsb' (8 * i) 8) :: s.out)) ∧
  (∀ (s : State) (a : BitVec 24) (d : List Byte), s.hostServes = true → s.flag Fd.SYS_MODE_STAT_ENTERING = false → a.toNat < 0x10000 →
    d ≠ [] → d.length ≤ 0x10000 →
    let k := fun (x : Nat) => (x - 0x1001000000 + (0x10000 - a.toNat)) % 0x10000
    let win := fun (x : Nat) => 0x1001000000 ≤ x ∧ x < 0x1001010000
    (∃ t, exec (.hostWrite a d none) s = .next t ∧ exec (.hostQwrite a d none) s = .next t ∧ t.out = .host false [] :: s.out ∧
      (∀ x, (win x ∧ k x < d.length → t.byte x = d.getD (k x) 0#8 ∧ t.mark x = 0) ∧
        (¬ (win x ∧ k x < d.length) → t.byte x = s.byte x ∧ t.mark x = s.mark x)) ∧ SameRegs [] s t) ∧
    (∀ c : BitVec 12, c.toNat < d.length → ∃ t, exec (.hostWrite a d (some c)) s = .next t ∧ t.out = .host true [] :: s.out ∧
      (∀ x, (win x ∧ k x < c.toNat → t.byte x = d.getD (k x) 0#8) ∧ (¬ (win x ∧ k x < c.toNat) → t.byte x = s.byte x)) ∧
      SameRegs [Reg.HOST_VOID_CNT] s t)) ∧
  (∀ (s : State), s.hostServes = true → s.flag Fd.SYS_MODE_STAT_ENTERING = false →
    (s.flag Fd.HOST_HOST_CFG_QPI = false → (∃ t, exec .enterQpi s = .next t ∧ t.flag Fd.HOST_HOST_CFG_QPI = true ∧
        t.out = .host false [] :: s.out ∧ SameRegs [Reg.HOST_HOST_CFG] s t ∧ SameBytes s t) ∧
      (∃ t, exec .exitQpi s = .next t ∧ t.out = .host true [] :: s.out ∧ SameRegs [Reg.HOST_VOID_CNT] s t ∧ SameBytes s t)) ∧
    (s.flag Fd.HOST_HOST_CFG_QPI = true → (∃ t, exec .exitQpi s = .next t ∧ t.flag Fd.HOST_HOST_CFG_QPI = false ∧
        t.out = .host false [] :: s.out ∧ SameRegs [Reg.HOST_HOST_CFG] s t ∧ SameBytes s t) ∧
      (∃ t, exec .enterQpi s = .next t ∧ t.out = .host true [] :: s.out ∧ SameRegs [Reg.HOST_VOID_CNT] s t ∧ SameBytes s t)) ∧
    (∀ w, ∃ t, exec (.doorbellOut w) s = .next t ∧ t.rd Reg.HOST_DOORBELL_OUT = w ∧
      t.out = .host false [] :: .irq 0x130000 :: s.out ∧ SameRegs [Reg.HOST_DOORBELL_OUT] s t ∧ SameBytes s t)) ∧
  (∀ (s : State) (a : BitVec 24) (n : BitVec 12) (hit : Bool), s.anat.kaHeld = false → s.anat.mainHeld = false → s.hostServes = false →
    s.flag Fd.SYS_MODE_STAT_ENTERING = false → s.mode ≠ .drowse → ∃ t l, exec (.hostRead a n hit) s = .next t ∧
      t.out = .host true l :: s.out ∧ l.length = n.toNat ∧
      t.rd Reg.HOST_VOID_CNT = BitVec.ofNat 32 (min ((s.rd Reg.HOST_VOID_CNT).toNat + 1) 0xFFFFFFFF) ∧
      SameRegs [Reg.HOST_VOID_CNT] s t ∧ SameBytes s t) ∧
  (∀ (s : State) (w : Word), s.takes none = true →
    (s.asleepOrLoading = true → exec (.doorbellIn w) s = .next (answer (refuse .wrongMode s))) ∧
    (s.asleepOrLoading = false → ∃ t, exec (.doorbellIn w) s = .next t ∧ t.rd Reg.HOST_DOORBELL_IN = w ∧
      t.flag ⟨Reg.HOST_H_IRQ_PEND, 2, 1⟩ = true ∧ t.out = .answer .ok :: s.out ∧
      OnlyRegsOut [Reg.HOST_DOORBELL_IN, Reg.HOST_H_IRQ_PEND] s t))

/-- At a serving port outside the entry to Drowse, a pushed word that is not the last joins the message when fewer than 128 words
stand, else it is dropped and MB_OVF is set; a last word is followed by the taking of the message, which discards one whose
length does not match its header, counts it and answers BAD_REQUEST, and issues a request. A pop of k words takes k words off
the completion queue and returns their pop values when no error arises. A waiting completion of INIT 1 enters the queue word
by word and sets the MB_CPL interrupt when there is room, else it waits. Completion, under conditions on the state and the
operands alone, is stated for: mbPush, mbPop, mbCompletion. (15_memories_and_queues.md R385, 15_memories_and_queues.md R386, 15_memories_and_queues.md R389) -/
def Obligations.Mailbox : Prop :=
  (∀ (s : State) (w : Word), s.hostServes = true → s.flag Fd.SYS_MODE_STAT_ENTERING = false →
    let add : Bool → State := fun last => { s with host := { s.host with req := s.host.req ++ [{ data := w, first := s.host.req.isEmpty, last }] } }
    (s.host.req.length < 128 →
      (∃ t, exec (.mbPush [(w, false)]) s = .next t ∧ t.host.req = (add false).host.req ∧ t.host.void = false ∧
        t.out = .host false [] :: s.out ∧ SameRegs [] s t ∧ SameBytes s t) ∧
      exec (.mbPush [(w, true)]) s = .next ((add true).mbTake.hostGood [])) ∧
    (128 ≤ s.host.req.length → ∃ t, exec (.mbPush [(w, false)]) s = .next t ∧ t.host.req = s.host.req ∧ t.host.dropped = true ∧
      t.flag Fd.HOST_H_STAT_MB_OVF = true ∧ SameRegs [Reg.HOST_H_STAT] s t ∧ SameBytes s t)) ∧
  (∀ s : State,
    let b := s.host.req.flatMap fun w => leBytes 4 w.data.toNat
    let bad := s.host.dropped = true ∨ b.length ≠ (12 + leVal ((b.drop 8).take 2) + 3) / 4 * 4
    let u : State := { s with host := { s.host with req := [], dropped := false } }
    (bad → s.mbTake = State.refuseIssue 1 .read 0 (leVal ((b.drop 2).take 2)) (.badRequest, u.bump Reg.HOST_MB_BAD_MSG)) ∧
    (¬ bad → b.head? = some 1#8 → s.mbTake = u.issueMsg 1 b) ∧
    (¬ bad → b.head? ≠ some 1#8 → s.mbTake = u.bump Reg.HOST_MB_BAD_MSG)) ∧
  (∀ (s : State) (k : BitVec 8) (ups : List (Fin 3)), s.hostServes = true → s.flag Fd.SYS_MODE_STAT_ENTERING = false → k ≠ 0#8 →
    (∃ t, exec (.mbPop k ups) s = .next t ∧ t.host.cpl = s.host.cpl.drop k.toNat ∧ SameBytes s t) ∧
    (k.toNat ≤ s.host.cpl.length → (∀ w ∈ s.host.cpl, w.upset = 0) → ∃ t, exec (.mbPop k []) s = .next t ∧ SameRegs [] s t ∧
      t.out = .host false ((s.host.cpl.take k.toNat).flatMap fun w => leBytes 8 w.popValue) :: s.out)) ∧
  (∀ s : State, s.mbRuns = true →
    (s.txn.cpls.find? (fun c => c.init == 1) = none → exec .mbCompletion s = .next s) ∧
    (∀ c, s.txn.cpls.find? (fun c => c.init == 1) = some c →
      (128 < s.host.cpl.length + (wordsLe c.encode).length → exec .mbCompletion s = .next s) ∧
      (s.host.cpl.length + (wordsLe c.encode).length ≤ 128 → ∃ t, exec .mbCompletion s = .next t ∧
        t.host.cpl.map (·.data) = s.host.cpl.map (·.data) ++ wordsLe c.encode ∧ t.txn.cpls = s.txn.cpls.erase c ∧
        t.flag ⟨Reg.HOST_H_IRQ_PEND, 0, 1⟩ = true ∧ SameRegs [Reg.HOST_MB_COUNT, Reg.HOST_H_IRQ_PEND] s t ∧ SameBytes s t)))

/-- With a chosen slot whose chunks have the hashes of its manifest the firmware starts; otherwise FAIL_RUN counts and ROM starts
again. In Load, training sets TRAINED and ends self-refresh. In Load with the DRAM trained, the firmware applies a
configuration: with no usable image CONFIG_MISSING is set, the identity is 0 and the node is bare; a failed check sets
CONFIG_CONFLICT and CONFLICT_INFO from the unchanged state and the node is bare; otherwise the settings are in force, CFG_REV
is the revision, and the node enters its configured mode, or Pass-through with SAFE_HOLD set when a restart limit asked for
it. Success clears FAIL_RUN. Completion, under conditions on the state and the operands alone, is stated for: romImageLoad,
dramTrainingDone, configApply. (16_start_up_modes_and_drowse.md R399, 16_start_up_modes_and_drowse.md R400, 16_start_up_modes_and_drowse.md R402, 16_start_up_modes_and_drowse.md R404, 16_start_up_modes_and_drowse.md R409) -/
def Obligations.StartToService : Prop :=
  (∀ s : State, s.slotChosen = true →
    let ok := s.chunksOk s.bootSlot (s.manifestAt s.bootSlot).chunks
    (ok = true → exec .romImageLoad s = .next s.startFirmware) ∧
    (ok = false → exec .romImageLoad s = .next ((s.bumpFld Fd.SYS_BOOT_STAT_FAIL_RUN 1).romStart s.boot.slots))) ∧
  (∀ s : State, s.mode = .load → s.runs = true → ∃ t, exec .dramTrainingDone s = .next t ∧ t.flag Fd.MEM_MEM_STAT_TRAINED = true ∧
    t.flag Fd.MEM_MEM_STAT_SELF_REFRESH = false ∧ t.anat.dramSelfRefresh = false ∧ SameRegs [Reg.MEM_MEM_STAT] s t ∧ SameBytes s t) ∧
  (∀ (s : State) (c : ConfigChoice), s.mode = .load → s.runs = true → s.flag Fd.MEM_MEM_STAT_TRAINED = true →
    let u := s.setFld Fd.SYS_CFG_STAT_FORMAT_MAX c.formatMax.toNat
    (u.chooseCfg c = none → exec (.configApply c) s =
      .next ((u.on Fd.SYS_CFG_STAT_CONFIG_MISSING).setIdentity 0 0).enterBare.advanceEpoch) ∧
    (∀ h, u.chooseCfg c = some h →
      let migrate := h.td80 || h.format < c.formatMax.toNat
      let v := u.noteCfg h migrate
      (∀ check index w, v.applyImage h c = (some (check, index), w) → exec (.configApply c) s =
        .next (State.wr Reg.SYS_CONFLICT_INFO (BitVec.ofNat 32 (check * 2 ^ 24 + index))
          (v.on Fd.SYS_CFG_STAT_CONFIG_CONFLICT)).enterBare.advanceEpoch) ∧
      (∀ w, v.applyImage h c = (none, w) →
        let x := ((w.noteDigest h).wr Reg.SYS_CFG_REV (BitVec.ofNat 32 h.revision)).onlyIf migrate (State.writeBack h c)
        (x.boot.safeNext = false → exec (.configApply c) s = .next (x.enterConfigured h.startRing).bootSuccess.advanceEpoch) ∧
        (x.boot.safeNext = true → exec (.configApply c) s = .next (x.enterSafeHold h.startRing).bootSuccess)))) ∧
  (∀ s : State, s.enterBare.fld Fd.SYS_BOOT_STAT_FAIL_RUN = 0 ∧ s.bootSuccess.fld Fd.SYS_BOOT_STAT_FAIL_RUN = 0 ∧
    (∀ b, (s.enterSafeHold b).flag Fd.SYS_MODE_STAT_SAFE_HOLD = true))

/-- A TARGET without CLR_HOLD is BUSY during ENTERING, WAKING or ACTIVATING, and WRONG_MODE while SAFE_HOLD stands. CLR_HOLD
without SAFE_HOLD is BAD_REQUEST. Otherwise TARGET ISOLATED leads from Seamless or Split, and for a package that is no twin
from Pass-through, to Isolated; TARGET RING with an identity and no conflict leads from Isolated or Pass-through to the path
mode in force; TARGET PASS leads from a service mode to Pass-through; TARGET DROWSE, where it is allowed, sets ENTERING and
starts the quiesce. ISOLATED, RING and DROWSE are WRONG_MODE in Standby of a twin. With SAFE_HOLD, CLR_HOLD and TARGET
ISOLATED in Pass-through lead to Isolated and clear it. WDOG_KICK with its key restarts a running time-out, with another key
does nothing, and is refused in Recovery and Drowse. Completion, under conditions on the state and the operands alone, is
stated for: targetIsolated, targetRing, targetPass, targetDrowse, wdogKick. (16_start_up_modes_and_drowse.md R407, 16_start_up_modes_and_drowse.md R408, 16_start_up_modes_and_drowse.md R409, 16_start_up_modes_and_drowse.md R410, 16_start_up_modes_and_drowse.md R411, 16_start_up_modes_and_drowse.md R412, 16_start_up_modes_and_drowse.md R416) -/
def Obligations.ModeCommands : Prop :=
  (∀ (s : State) (clr : Bool), s.runs = true → s.flag Fd.SYS_MODE_STAT_SAFE_HOLD = false →
    exec (.targetIsolated true) s = .next (answer (refuse .badRequest s)) ∧ exec (.targetRing true) s = .next (answer (refuse .badRequest s)) ∧
    exec (.targetPass true) s = .next (answer (refuse .badRequest s)) ∧ exec (.targetDrowse true) s = .next (answer (refuse .badRequest s)) ∧
    (s.flag Fd.SYS_MODE_STAT_ENTERING = true ∨ s.flag Fd.SYS_MODE_STAT_WAKING = true ∨ s.flag Fd.SYS_MODE_STAT_ACTIVATING = true →
      clr = false → exec (.targetIsolated clr) s = .next (answer (.busy, s)) ∧ exec (.targetRing clr) s = .next (answer (.busy, s)) ∧
      exec (.targetPass clr) s = .next (answer (.busy, s)) ∧ exec (.targetDrowse clr) s = .next (answer (.busy, s)))) ∧
  (∀ s : State, s.runs = true → s.flag Fd.SYS_MODE_STAT_ENTERING = false → s.flag Fd.SYS_MODE_STAT_WAKING = false →
    s.flag Fd.SYS_MODE_STAT_ACTIVATING = false →
    (s.flag Fd.SYS_MODE_STAT_SAFE_HOLD = true →
      exec (.targetIsolated false) s = .next (answer (refuseMode s)) ∧ exec (.targetRing false) s = .next (answer (refuseMode s)) ∧
      exec (.targetPass false) s = .next (answer (refuseMode s)) ∧ exec (.targetDrowse false) s = .next (answer (refuseMode s)) ∧
      (s.mode = .passThrough → s.twinEn = false → exec (.targetIsolated true) s =
        .next (answer (.ok, (s.changeMode .isolated).off Fd.SYS_MODE_STAT_SAFE_HOLD)))) ∧
    (s.flag Fd.SYS_MODE_STAT_SAFE_HOLD = false →
      (s.onRing = true ∨ (s.mode = .passThrough ∧ s.twinEn = false) →
        exec (.targetIsolated false) s = .next (answer (.ok, s.changeMode .isolated))) ∧
      (s.ringAllowed = true → s.mode = .isolated ∨ (s.mode = .passThrough ∧ s.twinEn = false) →
        exec (.targetRing false) s = .next (answer (.ok, s.changeMode s.pathModeMode))) ∧
      (s.ringAllowed = false → exec (.targetRing false) s = .next (answer (refuseMode s))) ∧
      (s.inField = true ∨ s.mode = .standby → exec (.targetPass false) s = .next (answer (.ok, s.passThrough))) ∧
      (s.drowseAllowed = true → ∃ t, exec (.targetDrowse false) s = .next t ∧ t.flag Fd.SYS_MODE_STAT_ENTERING = true ∧
        t.flag Fd.TXN_TXN_STAT_QUIESCING = true ∧ t.flag Fd.TXN_TXN_STAT_QUIESCE_DONE = false ∧
        t.deadline .quiesce = some (s.clk + 5000000000) ∧ t.mode = s.mode ∧ t.boot.held = s.mode ∧ t.out = .answer .ok :: s.out ∧
        SameRegs [Reg.SYS_MODE_STAT, Reg.TXN_TXN_STAT] s t ∧ SameBytes s t) ∧
      (s.mode = .standby → exec (.targetIsolated false) s = .next (answer (refuseMode s)) ∧
        exec (.targetRing false) s = .next (answer (refuseMode s)) ∧ exec (.targetDrowse false) s = .next (answer (refuseMode s))) ∧
      (s.mode = .recovery ∨ s.mode = .load ∨ s.mode = .drowse →
        exec (.targetPass false) s = .next (answer (refuseMode s)) ∧ exec (.targetDrowse false) s = .next (answer (refuseMode s))))) ∧
  (∀ (s : State) (w : Word), s.runs = true →
    (s.mode = .load ∨ s.asleepOrLoading = false → bits w 0 16 = 0x5A17 → s.armed .wdog = true → ∃ t, exec (.wdogKick w) s = .next t ∧
      t.deadline .wdog = some (s.clk + s.fld Fd.SYS_WDOG_CFG_TIMEOUT * 1000000000) ∧ t.out = .answer .ok :: s.out ∧
      SameRegs [] s t ∧ SameBytes s t) ∧
    (s.mode = .load ∨ s.asleepOrLoading = false → bits w 0 16 ≠ 0x5A17 → exec (.wdogKick w) s = .next (answer (.ok, s))) ∧
    (s.mode = .recovery ∨ s.mode = .drowse → exec (.wdogKick w) s = .next (answer (refuse .wrongMode s))))

/-- While both domains run, TARGET DROWSE without CLR_HOLD is refused with WRONG_MODE when no mode change is in progress and the
mode is not Isolated, Seamless or Split, or TWIN_CFG.EN is 1, or the node has the warden or backup warden role, or it is
master or backup of an enabled cycle stream, or an ACTIVATE is scheduled, or USB is powered and not suspended. (16_start_up_modes_and_drowse.md R411) -/
def Obligations.DrowseRefusals : Prop :=
  ∀ s : State, s.runs = true → s.flag Fd.SYS_MODE_STAT_ENTERING = false → s.flag Fd.SYS_MODE_STAT_WAKING = false →
    s.flag Fd.SYS_MODE_STAT_ACTIVATING = false →
    (s.mode ≠ .isolated ∧ s.mode ≠ .seamless ∧ s.mode ≠ .split) ∨ s.flag Fd.TWIN_TWIN_CFG_EN = true ∨
      s.fld Fd.WARDEN_RING_CTL_ROLE ≠ 0 ∨
      (∃ n, n < 32 ∧ s.flag (Fd.CYC_STR_CFG_EN n) = true ∧ s.fld (Fd.CYC_STR_CFG_ROLE n) ≠ 0) ∨
      s.fld Fd.UPD_UPD_STAT_STATE = 5 ∨ (s.flag Fd.USB_USB_STAT_VBUS = true ∧ s.flag Fd.USB_USB_STAT_SUSPENDED = false) →
    ∃ t, exec (.targetDrowse false) s = .next t ∧ t.out = .answer .wrongMode :: s.out ∧ OnlyRegsOut [Reg.SYS_WRONG_MODE_CNT] s t

/-- The entry ends in Drowse with the DRAM in self-refresh and ENTERING clear; a wake source that came before starts the wake at
once. In Drowse without a wake in progress, each accepted source sets its bit in DRW_WAKE_SRC and WAKING, counts WAKE_CNT and
starts the 1.8 ms: a WAKE frame at or after its time, the time counter at the WAKE_AT of a frame or, with WAKE_TIMER, at
DRW_WAKE_AT, a falling HOST_CS_N, whose command is void, and the edge of a wake pin, which is named. A WAKE frame for later
sets the time. Outside Drowse and its entry a WAKE frame counts as ignored. The end of a wake clears WAKING. Completion,
under conditions on the state and the operands alone, is stated for: drowseEntered, wakeFrameRx, wakeTimer, hostCsWake,
pinWake, wakeComplete. (16_start_up_modes_and_drowse.md R412, 16_start_up_modes_and_drowse.md R413, 16_start_up_modes_and_drowse.md R414, 16_start_up_modes_and_drowse.md R415, 15_memories_and_queues.md R388) -/
def Obligations.DrowseAndWake : Prop :=
  (∀ s : State, s.flag Fd.SYS_MODE_STAT_ENTERING = true → s.boot.drowsy = true → ∃ t, exec .drowseEntered s = .next t ∧
    t.mode = .drowse ∧ t.flag Fd.SYS_MODE_STAT_ENTERING = false ∧ t.flag Fd.MEM_MEM_STAT_SELF_REFRESH = true ∧
    t.anat.dramSelfRefresh = true ∧ (t.boot.wakePend = true → t.flag Fd.SYS_MODE_STAT_WAKING = true)) ∧
  (∀ s : State, s.mode = .drowse → s.flag Fd.SYS_MODE_STAT_ENTERING = false → s.flag Fd.SYS_MODE_STAT_WAKING = false →
    let woken := fun (t : State) (bit : Fld) => t.flag bit = true ∧ t.flag Fd.SYS_MODE_STAT_WAKING = true ∧
      t.rd Reg.SYS_WAKE_CNT = BitVec.ofNat 32 (min ((s.rd Reg.SYS_WAKE_CNT).toNat + 1) 0xFFFFFFFF) ∧
      t.deadline .wake = some (t.clk + 1800000000) ∧ t.mode = .drowse ∧ SameBytes s t
    (∀ f : Frame, f.kind = Kd.wake → fieldBE f.payload 0 1 = 1 →
      s.flag (if f.dstNode = 511#9 then Fd.SYS_DRW_CFG_WAKE_BCAST else Fd.SYS_DRW_CFG_WAKE_FRAME) = true →
      (fieldBE f.payload 4 8 ≤ s.now → ∃ t, exec (.wakeFrameRx f) s = .next t ∧ woken t Fd.SYS_DRW_WAKE_SRC_FRAME) ∧
      (s.now < fieldBE f.payload 4 8 → fieldBE f.payload 4 8 ≤ s.now + 60000000000 → ∃ t, exec (.wakeFrameRx f) s = .next t ∧
        t.boot.wakeAt = some (fieldBE f.payload 4 8) ∧ SameRegs [] s t ∧ SameBytes s t)) ∧
    (∀ a, s.boot.wakeAt = some a → ∃ t, exec .wakeTimer s = .next t ∧ woken t Fd.SYS_DRW_WAKE_SRC_FRAME ∧
      t.ctr = max s.ctr (a * 2 ^ 32) ∧ t.boot.wakeAt = none) ∧
    (s.boot.wakeAt = none → s.flag Fd.SYS_DRW_CFG_WAKE_TIMER = true → ∃ t, exec .wakeTimer s = .next t ∧
      woken t Fd.SYS_DRW_WAKE_SRC_TIMER ∧ t.ctr = max s.ctr (s.rd64 Reg.SYS_DRW_WAKE_AT_LO Reg.SYS_DRW_WAKE_AT_HI * 2 ^ 32)) ∧
    (s.runs = true → ∃ t, exec .hostCsWake s = .next t ∧ woken t Fd.SYS_DRW_WAKE_SRC_HOST ∧ t.out = .host true [] :: s.out) ∧
    (∀ n : Fin 256, s.flag (Fd.PIN_CFG_WAKE_EN n.val) = true → s.field.wakeEdge = true → ∃ t, exec (.pinWake n) s = .next t ∧
      woken t Fd.SYS_DRW_WAKE_SRC_PIN_EDGE ∧
      (s.flag Fd.SYS_DRW_WAKE_SRC_PIN_EDGE = false → t.fld Fd.SYS_DRW_WAKE_SRC_PIN = n.val) ∧
      (s.flag Fd.SYS_DRW_WAKE_SRC_PIN_EDGE = true → t.fld Fd.SYS_DRW_WAKE_SRC_PIN = s.fld Fd.SYS_DRW_WAKE_SRC_PIN))) ∧
  (∀ (s : State) (f : Frame), f.kind = Kd.wake → s.mode ≠ .drowse → s.flag Fd.SYS_MODE_STAT_ENTERING = false →
    exec (.wakeFrameRx f) s = .next ((s.takeMail f).bump Reg.SYS_WAKE_IGNORED)) ∧
  (∀ s : State, s.armed .wake = true → ∃ t, exec .wakeComplete s = .next t ∧ t = (s.expire .wake).wakeDone ∧
    t.flag Fd.SYS_MODE_STAT_WAKING = false)

/-- A CHUNK frame is consumed where ROM or the firmware takes it, and dropped and counted in Load and Drowse; from a source not
allowed it counts as denied, with a reserved CTYPE as unknown. A whole DATA part without an objection joins its assembly, the
third completes the chunk; a refused part is counted and, if unicast, answered. A chunk by USB is taken or refused with a
status. QUERY, ACTIVATE and ABORT carry out their control and answer with a STATUS; a broadcast QUERY is answered after node
number × 20 µs. An accepted ACTIVATE schedules the activation, an accepted ABORT ends the session. An assembly of 100 ms is
discarded. A neighbour that reports RECOVERY is helped, chunk by chunk, until the last one or BUSY. Completion, under
conditions on the state and the operands alone, is stated for: chunkData, query, activate, abort, chunkStatusRx, updData,
updControl, statusReply, assemblyExpiry, helperChunkTx. (17_image_updates_and_recovery.md R421, 17_image_updates_and_recovery.md R422, 17_image_updates_and_recovery.md R423, 17_image_updates_and_recovery.md R424, 17_image_updates_and_recovery.md R425, 17_image_updates_and_recovery.md R427, 17_image_updates_and_recovery.md R431, 17_image_updates_and_recovery.md R435) -/
def Obligations.UpdateMessages : Prop :=
  (∀ (s : State) (f : Frame) (sig : SigCheck) (ok : Bool), f.kind = Kd.chunk →
    let u := s.takeMail f
    (u.inRom = false → u.chunkService = false → exec (.chunkData f sig ok) s =
      .next (if u.dropsChunk then u.bump Reg.UPD_CHUNK_DROP else u)) ∧
    (u.inRom = true ∨ u.chunkService = true →
      (3 < fieldBE f.payload 0 1 → exec (.chunkData f sig ok) s = .next (u.bump Reg.WARDEN_RX_UNKNOWN)) ∧
      (fieldBE f.payload 0 1 = 1 → u.srcAllowed f = false → exec (.chunkData f sig ok) s = .next (u.bump Reg.UPD_CHUNK_DENIED)) ∧
      (fieldBE f.payload 0 1 = 1 → u.srcAllowed f = true →
        let part := fieldBE f.payload 1 1 % 4
        let src := UpdSrc.ring f.srcRing f.srcNode
        let d := (f.payload.drop 4).take 8
        let c := fieldBE f.payload 2 2
        let total := fieldBE f.payload 12 2
        let ty := fieldBE f.payload 14 1
        let whole := part ≠ 3 ∧ f.len.toNat = (if part = 2 then 1232 else 1456) ∧ f.payload.length = f.len.toNat
        (whole → u.dataResult src d c total ty = .ok → exec (.chunkData f sig ok) s =
          .next (u.takePart src part c total ty (fieldBE f.payload 15 1) d (f.payload.drop 16) sig ok)) ∧
        (¬ whole → f.dstNode = 511#9 → exec (.chunkData f sig ok) s = .next u) ∧
        (¬ whole → f.dstNode ≠ 511#9 → exec (.chunkData f sig ok) s = .next (u.sendStatus src .badRequest)) ∧
        (whole → u.dataResult src d c total ty = .busy → f.dstNode = 511#9 →
          exec (.chunkData f sig ok) s = .next (u.bump Reg.UPD_CHUNK_BUSY))) ∧
      (fieldBE f.payload 0 1 = 3 → u.srcAllowed f = true →
        let src := UpdSrc.ring f.srcRing f.srcNode
        let go := fun (op : Nat) => u.control src op ((f.payload.drop 8).take 8) (fieldBE f.payload 16 8) false
        (fieldBE f.payload 1 1 = 1 → f.dstNode ≠ 511#9 → exec (.query f) s = .next (u.sendStatus src .ok)) ∧
        (fieldBE f.payload 1 1 = 1 → f.dstNode = 511#9 → ∃ t, exec (.query f) s = .next t ∧ SameRegs [] s t ∧
          t.upd.due = s.upd.due ++ [(f.srcRing, f.srcNode, s.clk + s.ownNode * 20000000)]) ∧
        (fieldBE f.payload 1 1 = 2 → exec (.activate f) s = .next ((go 2).2.sendStatus src (go 2).1)) ∧
        (fieldBE f.payload 1 1 = 3 → exec (.abort f) s = .next ((go 3).2.sendStatus src (go 3).1))) ∧
      (fieldBE f.payload 0 1 = 2 → exec (.chunkStatusRx f) s = .next (u.chunkStatus f)))) ∧
  (∀ (s : State) (src : UpdSrc) (d : List Byte) (a : Nat) (svc : Bool),
    (s.activateResult src d a = .ok → ∃ t, s.control src 2 d a svc = (.ok, t) ∧ t.updState = 5 ∧
      (a < 2 ^ 64 → t.rd64 Reg.UPD_ACT_AT_LO Reg.UPD_ACT_AT_HI = a) ∧ SameBytes s t) ∧
    (s.abortResult src d svc = .ok → ∃ t, s.control src 3 d a svc = (.ok, t) ∧ t.updState = 0 ∧
      t.fld Fd.UPD_UPD_STAT_LAST_END = 3 ∧ t.upd.asm = []) ∧
    (∀ r, r ≠ .ok → s.abortResult src d svc = r → s.control src 3 d a svc = (r, s.countResult r))) ∧
  (∀ (s : State) (c total : BitVec 16) (ty man : Byte) (d b : List Byte) (sig : SigCheck) (ok : Bool), s.fnReady = true →
    s.inRom = true ∨ s.chunkService = true →
    let r := s.dataResult .usb d c.toNat total.toNat ty.toNat
    (r = .ok → exec (.updData c total ty man d b sig ok) s =
      .next (s.wholeChunk .usb d c.toNat total.toNat ty.toNat man.toNat b sig ok)) ∧
    (r ≠ .ok → exec (.updData c total ty man d b sig ok) s = .next ((s.countResult r).sendStatus .usb r))) ∧
  (∀ (s : State) (op : Byte) (d : List Byte) (a : BitVec 64) (svc : Bool), s.fnReady = true → s.inRom = true ∨ s.chunkService = true →
    exec (.updControl op d a svc) s = .next ((s.control .usb op.toNat d a.toNat svc).2.sendStatus .usb
      (s.control .usb op.toNat d a.toNat svc).1)) ∧
  (∀ (s : State) (r : BitVec 6) (n : BitVec 9) (a : Nat) (l : List (BitVec 6 × BitVec 9 × Nat)), s.upd.due = (r, n, a) :: l → ∃ t u : State,
    exec .statusReply s = .next t ∧ u.upd.due = l ∧ u.clk = max s.clk a ∧ t = u.sendStatus (.ring r n) .ok) ∧
  (∀ (s : State) (x : Assembly), s.upd.asm = [x] → ∃ t, exec .assemblyExpiry s = .next t ∧
    t.clk = max s.clk (x.since + 100000000000) ∧ t.upd.asm = [] ∧ SameRegs [] s t ∧ SameBytes s t) ∧
  (∀ (s : State) (n c a : Nat), s.upd.help = some (n, c, a) → s.inService = true → s.updState = 0 →
    let m := s.manifestAt (fwSlot (s.fld Fd.SYS_BOOT_STAT_SLOT))
    ∃ t, exec .helperChunkTx s = .next t ∧ t.clk = max s.clk (a + 200000000) ∧
      t.txn.toInject.length = s.txn.toInject.length + 3 ∧
      t.upd.help = (if c + 1 < m.chunks + m.manChunks then some (n, c + 1, t.clk) else none) ∧ SameRegs [] s t ∧ SameBytes s t)

/-- A chunk that is held counts as a duplicate; in MANIFEST a chunk beyond the manifest counts as early, in FILLING one with
another hash as bad; a manifest chunk that fails its read-back ends the session as rejected with code 11. An ended session is
IDLE with its end and reject code, its owner, counts and times cleared and no assembly left. A session expires after
EXPIRY_DAYS with end 4. Staging that reads back leads to COMPLETE, else it ends the session with code 11. At ACT_AT a
scheduled activation becomes ACTIVATING and the quiesce starts; in Pass-through after the quiesce it is carried out. ROM with
every chunk of a firmware writes chunk 0 and restarts the main domain, and without a session sends a status each second.
Completion, under conditions on the state and the operands alone, is stated for: sessionExpiry, stagingCopy, activation,
romRecoveryComplete, recoveryStatusTx. (17_image_updates_and_recovery.md R425, 17_image_updates_and_recovery.md R426, 17_image_updates_and_recovery.md R428, 17_image_updates_and_recovery.md R429, 17_image_updates_and_recovery.md R430, 17_image_updates_and_recovery.md R432, 17_image_updates_and_recovery.md R433, 17_image_updates_and_recovery.md R434, 17_image_updates_and_recovery.md R435) -/
def Obligations.UpdateSessions : Prop :=
  (∀ (s : State) (c man : Nat) (b : List Byte) (sig : SigCheck) (ok : Bool),
    (s.held c = true → s.takeChunk c man b sig ok = s.bump Reg.UPD_CHUNK_DUP) ∧
    (s.held c = false → s.updState = 1 → man ≤ c → s.takeChunk c man b sig ok = s.bump Reg.UPD_CHUNK_EARLY) ∧
    (s.held c = false → s.updState = 1 → c < man → s.takeChunk c man b sig false = s.endSession 2 11) ∧
    (s.held c = false → s.updState = 2 → sha256 b ≠ s.stagedBytes (128 + 32 * (c - s.stagedManifest.manChunks)) 32 →
      s.takeChunk c man b sig ok = s.bump Reg.UPD_CHUNK_BAD)) ∧
  (∀ (s : State) (e r : Nat), e < 16 → r < 16 →
    let t := s.endSession e r
    t.updState = 0 ∧ t.fld Fd.UPD_UPD_STAT_LAST_END = e ∧ t.fld Fd.UPD_UPD_STAT_REJECT = r ∧ t.updOwner = 0 ∧ t.updType = 0 ∧
    t.fld Fd.UPD_UPD_STAT_N_HELD = 0 ∧ t.rd Reg.UPD_UPD_OWNER = 0#32 ∧ t.rd Reg.UPD_UPD_TOTAL = 0#32 ∧
    (∀ i, i < 8 → t.rd (Reg.UPD_DIGEST i) = 0#32) ∧ t.rd64 Reg.UPD_OPENED_LO Reg.UPD_OPENED_HI = 0 ∧
    t.rd64 Reg.UPD_ACT_AT_LO Reg.UPD_ACT_AT_HI = 0 ∧ t.upd.asm = [] ∧ SameBytes s t) ∧
  (∀ (s : State) (a : Nat), s.chunkService = true → s.flag Fd.TIME_TIME_STAT_INITIAL = false → 1 ≤ s.updState → s.updState ≤ 4 →
    s.openedAt = some a → ∃ u, exec .sessionExpiry s = .next (u.endSession 4 0) ∧
      u = s.toTime (a + s.fld Fd.UPD_UPD_CFG_EXPIRY_DAYS * 86400000000000)) ∧
  (∀ s : State, s.updState = 3 → s.chunkService = true →
    (∃ t, exec (.stagingCopy true) s = .next t ∧ t.updState = 4) ∧
    (∃ t, exec (.stagingCopy false) s = .next t ∧ t.updState = 0 ∧ t.fld Fd.UPD_UPD_STAT_REJECT = 11)) ∧
  (∀ (s : State) (ok : Bool),
    (s.updState = 5 → s.chunkService = true → ∃ t, exec (.activation ok) s = .next t ∧ t.updState = 6 ∧
      t.flag Fd.SYS_MODE_STAT_ACTIVATING = true ∧ t.flag Fd.TXN_TXN_STAT_QUIESCING = true ∧
      t.ctr = max s.ctr (s.rd64 Reg.UPD_ACT_AT_LO Reg.UPD_ACT_AT_HI * 2 ^ 32) ∧ t.deadline .quiesce = some (t.clk + 5000000000)) ∧
    (s.updState = 6 → s.mode = .passThrough → s.flag Fd.TXN_TXN_STAT_QUIESCE_DONE = true →
      exec (.activation ok) s = .next ((if ok then (s.writeChunk0.bump Reg.UPD_ACTIVATE_CNT).endSession 1 0
        else s.endSession 5 0).mainRestart Fd.SYS_RST_CAUSE_ACTIVATE))) ∧
  (∀ s : State, s.inRom = true →
    (s.updState = 2 → s.allHeld = true → ∃ u, exec .romRecoveryComplete s =
      .next (((u.off Fd.SYS_BOOT_STAT_FAIL_RUN).endSession 1 0).mainRestart Fd.SYS_RST_CAUSE_SOFT) ∧
      (u = s.writeChunk0 ∨ u = s.writeChunk0.nvErase (fwSlot (1 - s.romTarget)) 4096)) ∧
    (s.updState = 0 → ∃ u, exec .recoveryStatusTx s = .next (u.sendStatus (.ring (BitVec.ofNat 6 s.ownRing) 511#9) .ok) ∧
      u.clk = max s.clk (s.upd.statusAt + 1000000000000) ∧ u.upd.statusAt = u.clk ∧ SameRegs [] s u))

/-- From every state, whatever its queue holds, a step answers a next state: no command of the table ends in a fault or a refusal
of the model. A command that the spec refuses is answered with its status, one that arrives where nothing takes it changes
nothing, and an empty queue is idle time. (00_scope.md R3, 18_register_map.md R438) -/
def Obligations.EveryStepCompletes : Prop :=
  ∀ s : State, s.stepsSafely

/-- For every state whose registers, memory and check states are in canonical form (keys rising, no entry at its default) and
every step that answers a next state, the next state is in canonical form too: equal contents stay equal data, whatever
command is at the front of the queue and with whatever operands. (00_scope.md R7, 15_memories_and_queues.md R375, 15_memories_and_queues.md R468) -/
def Obligations.CanonicalStays : Prop :=
  ∀ s t : State, s.canonical = true → step s = .next t → t.canonical = true

/-- The registers, memory and check states of the state after reset are in canonical form, and its memory lists nothing. What a
byte that nothing has written reads as is the model's choice (log entry 4). (00_scope.md R7, 15_memories_and_queues.md R468) -/
def Obligations.ResetIsCanonical : Prop :=
  State.reset.canonical = true ∧ State.reset.mem = [] ∧ Memory.wf State.reset.mem = true
end

