-- ==== Sys2Proof/Laws/Tab.lean ====
section
/-!
SUPPORT. Sparse tables: what a lookup finds after an update, and that every update keeps the canonical form.
-/

namespace Sys2Proof.Machine

variable {α : Type}

/-- Keys strictly rising, no entry at its default. -/
theorem Tab.wf_iff [DecidableEq α] (d : Nat → α) (l : List (Nat × α)) :
    Tab.wf d l = true ↔ l.Pairwise (fun x y => x.1 < y.1) ∧ ∀ e ∈ l, e.2 ≠ d e.1 := by
  induction l with
  | nil => simp [Tab.wf]
  | cons e t ih =>
    obtain ⟨k, v⟩ := e
    cases t with
    | nil => simp [Tab.wf]
    | cons e' t =>
      obtain ⟨k', v'⟩ := e'
      simp only [Tab.wf, Bool.and_eq_true, decide_eq_true_eq, ih, List.pairwise_cons, List.mem_cons, forall_eq_or_imp]
      constructor
      · rintro ⟨⟨h1, h2⟩, ⟨h3, h4⟩, h5, h6⟩
        exact ⟨⟨⟨h2, fun a ha => Nat.lt_trans h2 (h3 a ha)⟩, h3, h4⟩, h1, h5, h6⟩
      · rintro ⟨⟨⟨h2, _⟩, h3, h4⟩, h1, h5, h6⟩
        exact ⟨⟨h1, h2⟩, ⟨h3, h4⟩, h5, h6⟩

@[simp] theorem Tab.get_nil (d : α) (a : Nat) : Tab.get d [] a = d := rfl

theorem Tab.get_erase_ne (d : α) (t : List (Nat × α)) {a b : Nat} (h : b ≠ a) :
    Tab.get d (Tab.erase t a) b = Tab.get d t b := by
  induction t with
  | nil => rfl
  | cons e t ih =>
    obtain ⟨k, v⟩ := e
    by_cases hk : k = a
    · have : k ≠ b := fun hb => h (hb ▸ hk)
      simp_all [Tab.erase, Tab.get]
    · simp only [Tab.erase, List.filter_cons, bne_iff_ne, ne_eq, hk, not_false_eq_true, ↓reduceIte, Tab.get]
      split
      · rfl
      · exact ih

theorem Tab.get_erase_same (d : α) (t : List (Nat × α)) (a : Nat) : Tab.get d (Tab.erase t a) a = d := by
  induction t with
  | nil => rfl
  | cons e t ih =>
    obtain ⟨k, v⟩ := e
    by_cases hk : k = a
    · simpa [Tab.erase, hk] using ih
    · simp only [Tab.erase, List.filter_cons, bne_iff_ne, ne_eq, hk, not_false_eq_true, ↓reduceIte, Tab.get]
      exact ih

theorem Tab.get_insert_same (d : α) (t : List (Nat × α)) (a : Nat) (v : α) (h : ∀ e ∈ t, e.1 ≠ a) :
    Tab.get d (Tab.insert t a v) a = v := by
  induction t with
  | nil => simp [Tab.insert, Tab.get]
  | cons e t ih =>
    obtain ⟨k, w⟩ := e
    have hk : k ≠ a := h (k, w) (by simp)
    simp only [Tab.insert]
    split
    · simp [Tab.get]
    · simp only [Tab.get, hk, ↓reduceIte]
      exact ih fun e he => h e (List.mem_cons_of_mem _ he)

theorem Tab.get_insert_ne (d : α) (t : List (Nat × α)) {a b : Nat} (v : α) (h : b ≠ a) :
    Tab.get d (Tab.insert t a v) b = Tab.get d t b := by
  induction t with
  | nil => simp [Tab.insert, Tab.get, Ne.symm h]
  | cons e t ih =>
    obtain ⟨k, w⟩ := e
    simp only [Tab.insert]
    split
    · simp [Tab.get, Ne.symm h]
    · simp only [Tab.get, ih]

theorem Tab.erase_ne {t : List (Nat × α)} {a : Nat} : ∀ e ∈ Tab.erase t a, e.1 ≠ a := by
  intro e he
  simpa using (List.mem_filter.mp he).2

/-- A lookup after an update at the same key. -/
@[simp] theorem Tab.get_set_same [DecidableEq α] (d : α) (t : List (Nat × α)) (a : Nat) (v : α) : Tab.get d (Tab.set d t a v) a = v := by
  unfold Tab.set
  split
  · rename_i h; rw [Tab.get_erase_same, h]
  · exact Tab.get_insert_same d _ a v Tab.erase_ne

/-- A lookup after an update at another key; the default at that key may differ from the updated one's. -/
theorem Tab.get_set_ne [DecidableEq α] (d d' : α) (t : List (Nat × α)) {a b : Nat} (v : α) (h : b ≠ a) :
    Tab.get d' (Tab.set d t a v) b = Tab.get d' t b := by
  unfold Tab.set
  split
  · exact Tab.get_erase_ne d' t h
  · rw [Tab.get_insert_ne d' _ v h, Tab.get_erase_ne d' t h]

/-- Removing entries keeps the form. -/
theorem Tab.wf_filter [DecidableEq α] (d : Nat → α) (p : Nat × α → Bool) {t : List (Nat × α)} (h : Tab.wf d t = true) :
    Tab.wf d (t.filter p) = true := by
  rw [Tab.wf_iff] at h ⊢
  exact ⟨h.1.filter p, fun e he => h.2 e (List.mem_filter.mp he).1⟩

theorem Tab.mem_insert {t : List (Nat × α)} {a : Nat} {v : α} {e : Nat × α} (h : e ∈ Tab.insert t a v) : e = (a, v) ∨ e ∈ t := by
  induction t with
  | nil => simpa [Tab.insert] using h
  | cons x t ih =>
    obtain ⟨k, w⟩ := x
    simp only [Tab.insert] at h
    split at h
    · simpa using h
    · rcases List.mem_cons.mp h with rfl | h
      · exact .inr (by simp)
      · rcases ih h with rfl | h
        · exact .inl rfl
        · exact .inr (List.mem_cons_of_mem _ h)

theorem Tab.wf_insert [DecidableEq α] (d : Nat → α) {t : List (Nat × α)} {a : Nat} {v : α} (h : Tab.wf d t = true) (hv : v ≠ d a)
    (hn : ∀ e ∈ t, e.1 ≠ a) : Tab.wf d (Tab.insert t a v) = true := by
  rw [Tab.wf_iff] at h ⊢
  constructor
  · obtain ⟨hp, -⟩ := h
    induction t with
    | nil => simp [Tab.insert]
    | cons x t ih =>
      obtain ⟨k, w⟩ := x
      rw [List.pairwise_cons] at hp
      simp only [Tab.insert]
      have hk : k ≠ a := hn (k, w) (by simp)
      split
      · rename_i hlt
        refine List.pairwise_cons.mpr ⟨?_, List.pairwise_cons.mpr hp⟩
        intro e he
        rcases List.mem_cons.mp he with rfl | he
        · exact hlt
        · exact Nat.lt_trans hlt (hp.1 e he)
      · rename_i hge
        refine List.pairwise_cons.mpr ⟨?_, ih (fun e he => hn e (List.mem_cons_of_mem _ he)) hp.2⟩
        intro e he
        rcases Tab.mem_insert he with rfl | he
        · show k < a
          omega
        · exact hp.1 e he
  · intro e he
    rcases Tab.mem_insert he with rfl | he
    · exact hv
    · exact h.2 e he

/-- An update keeps the form. -/
theorem Tab.wf_set [DecidableEq α] (d : Nat → α) {t : List (Nat × α)} (a : Nat) (v : α) (h : Tab.wf d t = true) :
    Tab.wf d (Tab.set (d a) t a v) = true := by
  unfold Tab.set
  split
  · exact Tab.wf_filter d _ h
  · rename_i hv
    exact Tab.wf_insert d (Tab.wf_filter d _ h) hv Tab.erase_ne

/-- A table cut down to the keys that `p` keeps reads its default elsewhere. -/
theorem Tab.get_filter (d : Nat → α) (t : List (Nat × α)) (p : Nat → Bool) (a : Nat) :
    Tab.get (d a) (t.filter fun e => p e.1) a = if p a then Tab.get (d a) t a else d a := by
  induction t with
  | nil => simp [Tab.get]
  | cons e t ih =>
    obtain ⟨k, v⟩ := e
    by_cases hk : k = a
    · subst hk
      by_cases h : p k <;> simp_all [Tab.get]
    · by_cases h : p k <;> simp [h, hk, Tab.get, ih]

end Sys2Proof.Machine
end

