-- ==== Sys2Proof/Laws/State.lean ====
section
/-!
SUPPORT. One lemma per field per update of the state, so that no later proof unfolds a record update.
-/

namespace Sys2Proof.Machine

variable (s : State)

/-! ### wr -/

@[simp] theorem State.wr_mem (a : Nat) (v : Word) : (s.wr a v).mem = s.mem := rfl
@[simp] theorem State.wr_marks (a : Nat) (v : Word) : (s.wr a v).marks = s.marks := rfl
@[simp] theorem State.wr_latches (a : Nat) (v : Word) : (s.wr a v).latches = s.latches := rfl
@[simp] theorem State.wr_clk (a : Nat) (v : Word) : (s.wr a v).clk = s.clk := rfl
@[simp] theorem State.wr_ctr (a : Nat) (v : Word) : (s.wr a v).ctr = s.ctr := rfl
@[simp] theorem State.wr_past (a : Nat) (v : Word) : (s.wr a v).past = s.past := rfl
@[simp] theorem State.wr_timers (a : Nat) (v : Word) : (s.wr a v).timers = s.timers := rfl
@[simp] theorem State.wr_out (a : Nat) (v : Word) : (s.wr a v).out = s.out := rfl
@[simp] theorem State.wr_freeCtr (a : Nat) (v : Word) : (s.wr a v).freeCtr = s.freeCtr := rfl
@[simp] theorem State.wr_mode (a : Nat) (v : Word) : (s.wr a v).mode = s.mode := rfl
@[simp] theorem State.wr_anat (a : Nat) (v : Word) : (s.wr a v).anat = s.anat := rfl
@[simp] theorem State.wr_ports (a : Nat) (v : Word) : (s.wr a v).ports = s.ports := rfl
@[simp] theorem State.wr_ring (a : Nat) (v : Word) : (s.wr a v).ring = s.ring := rfl
@[simp] theorem State.wr_sw (a : Nat) (v : Word) : (s.wr a v).sw = s.sw := rfl
@[simp] theorem State.wr_txn (a : Nat) (v : Word) : (s.wr a v).txn = s.txn := rfl
@[simp] theorem State.wr_fifos (a : Nat) (v : Word) : (s.wr a v).fifos = s.fifos := rfl
@[simp] theorem State.wr_fifoLost (a : Nat) (v : Word) : (s.wr a v).fifoLost = s.fifoLost := rfl
@[simp] theorem State.wr_cyc (a : Nat) (v : Word) : (s.wr a v).cyc = s.cyc := rfl
@[simp] theorem State.wr_field (a : Nat) (v : Word) : (s.wr a v).field = s.field := rfl
@[simp] theorem State.wr_bobs (a : Nat) (v : Word) : (s.wr a v).bobs = s.bobs := rfl
@[simp] theorem State.wr_cans (a : Nat) (v : Word) : (s.wr a v).cans = s.cans := rfl
@[simp] theorem State.wr_stb (a : Nat) (v : Word) : (s.wr a v).stb = s.stb := rfl
@[simp] theorem State.wr_usb (a : Nat) (v : Word) : (s.wr a v).usb = s.usb := rfl
@[simp] theorem State.wr_tim (a : Nat) (v : Word) : (s.wr a v).tim = s.tim := rfl
@[simp] theorem State.wr_pow (a : Nat) (v : Word) : (s.wr a v).pow = s.pow := rfl
@[simp] theorem State.wr_twin (a : Nat) (v : Word) : (s.wr a v).twin = s.twin := rfl
@[simp] theorem State.wr_host (a : Nat) (v : Word) : (s.wr a v).host = s.host := rfl
@[simp] theorem State.wr_hand (a : Nat) (v : Word) : (s.wr a v).hand = s.hand := rfl
@[simp] theorem State.wr_boot (a : Nat) (v : Word) : (s.wr a v).boot = s.boot := rfl
@[simp] theorem State.wr_upd (a : Nat) (v : Word) : (s.wr a v).upd = s.upd := rfl
@[simp] theorem State.wr_pending (a : Nat) (v : Word) : (s.wr a v).pending = s.pending := rfl
@[simp] theorem State.wr_byte (a : Nat) (v : Word) (x : Nat) : (s.wr a v).byte x = s.byte x := rfl
@[simp] theorem State.wr_mark (a : Nat) (v : Word) (x : Nat) : (s.wr a v).mark x = s.mark x := rfl

/-! ### setFld -/

@[simp] theorem State.setFld_mem (f : Fld) (v : Nat) : (s.setFld f v).mem = s.mem := rfl
@[simp] theorem State.setFld_marks (f : Fld) (v : Nat) : (s.setFld f v).marks = s.marks := rfl
@[simp] theorem State.setFld_latches (f : Fld) (v : Nat) : (s.setFld f v).latches = s.latches := rfl
@[simp] theorem State.setFld_clk (f : Fld) (v : Nat) : (s.setFld f v).clk = s.clk := rfl
@[simp] theorem State.setFld_ctr (f : Fld) (v : Nat) : (s.setFld f v).ctr = s.ctr := rfl
@[simp] theorem State.setFld_past (f : Fld) (v : Nat) : (s.setFld f v).past = s.past := rfl
@[simp] theorem State.setFld_timers (f : Fld) (v : Nat) : (s.setFld f v).timers = s.timers := rfl
@[simp] theorem State.setFld_out (f : Fld) (v : Nat) : (s.setFld f v).out = s.out := rfl
@[simp] theorem State.setFld_freeCtr (f : Fld) (v : Nat) : (s.setFld f v).freeCtr = s.freeCtr := rfl
@[simp] theorem State.setFld_mode (f : Fld) (v : Nat) : (s.setFld f v).mode = s.mode := rfl
@[simp] theorem State.setFld_anat (f : Fld) (v : Nat) : (s.setFld f v).anat = s.anat := rfl
@[simp] theorem State.setFld_ports (f : Fld) (v : Nat) : (s.setFld f v).ports = s.ports := rfl
@[simp] theorem State.setFld_ring (f : Fld) (v : Nat) : (s.setFld f v).ring = s.ring := rfl
@[simp] theorem State.setFld_sw (f : Fld) (v : Nat) : (s.setFld f v).sw = s.sw := rfl
@[simp] theorem State.setFld_txn (f : Fld) (v : Nat) : (s.setFld f v).txn = s.txn := rfl
@[simp] theorem State.setFld_fifos (f : Fld) (v : Nat) : (s.setFld f v).fifos = s.fifos := rfl
@[simp] theorem State.setFld_fifoLost (f : Fld) (v : Nat) : (s.setFld f v).fifoLost = s.fifoLost := rfl
@[simp] theorem State.setFld_cyc (f : Fld) (v : Nat) : (s.setFld f v).cyc = s.cyc := rfl
@[simp] theorem State.setFld_field (f : Fld) (v : Nat) : (s.setFld f v).field = s.field := rfl
@[simp] theorem State.setFld_bobs (f : Fld) (v : Nat) : (s.setFld f v).bobs = s.bobs := rfl
@[simp] theorem State.setFld_cans (f : Fld) (v : Nat) : (s.setFld f v).cans = s.cans := rfl
@[simp] theorem State.setFld_stb (f : Fld) (v : Nat) : (s.setFld f v).stb = s.stb := rfl
@[simp] theorem State.setFld_usb (f : Fld) (v : Nat) : (s.setFld f v).usb = s.usb := rfl
@[simp] theorem State.setFld_tim (f : Fld) (v : Nat) : (s.setFld f v).tim = s.tim := rfl
@[simp] theorem State.setFld_pow (f : Fld) (v : Nat) : (s.setFld f v).pow = s.pow := rfl
@[simp] theorem State.setFld_twin (f : Fld) (v : Nat) : (s.setFld f v).twin = s.twin := rfl
@[simp] theorem State.setFld_host (f : Fld) (v : Nat) : (s.setFld f v).host = s.host := rfl
@[simp] theorem State.setFld_hand (f : Fld) (v : Nat) : (s.setFld f v).hand = s.hand := rfl
@[simp] theorem State.setFld_boot (f : Fld) (v : Nat) : (s.setFld f v).boot = s.boot := rfl
@[simp] theorem State.setFld_upd (f : Fld) (v : Nat) : (s.setFld f v).upd = s.upd := rfl
@[simp] theorem State.setFld_pending (f : Fld) (v : Nat) : (s.setFld f v).pending = s.pending := rfl
@[simp] theorem State.setFld_byte (f : Fld) (v : Nat) (x : Nat) : (s.setFld f v).byte x = s.byte x := rfl
@[simp] theorem State.setFld_mark (f : Fld) (v : Nat) (x : Nat) : (s.setFld f v).mark x = s.mark x := rfl

/-! ### on -/

@[simp] theorem State.on_mem (f : Fld) : (s.on f).mem = s.mem := rfl
@[simp] theorem State.on_marks (f : Fld) : (s.on f).marks = s.marks := rfl
@[simp] theorem State.on_latches (f : Fld) : (s.on f).latches = s.latches := rfl
@[simp] theorem State.on_clk (f : Fld) : (s.on f).clk = s.clk := rfl
@[simp] theorem State.on_ctr (f : Fld) : (s.on f).ctr = s.ctr := rfl
@[simp] theorem State.on_past (f : Fld) : (s.on f).past = s.past := rfl
@[simp] theorem State.on_timers (f : Fld) : (s.on f).timers = s.timers := rfl
@[simp] theorem State.on_out (f : Fld) : (s.on f).out = s.out := rfl
@[simp] theorem State.on_freeCtr (f : Fld) : (s.on f).freeCtr = s.freeCtr := rfl
@[simp] theorem State.on_mode (f : Fld) : (s.on f).mode = s.mode := rfl
@[simp] theorem State.on_anat (f : Fld) : (s.on f).anat = s.anat := rfl
@[simp] theorem State.on_ports (f : Fld) : (s.on f).ports = s.ports := rfl
@[simp] theorem State.on_ring (f : Fld) : (s.on f).ring = s.ring := rfl
@[simp] theorem State.on_sw (f : Fld) : (s.on f).sw = s.sw := rfl
@[simp] theorem State.on_txn (f : Fld) : (s.on f).txn = s.txn := rfl
@[simp] theorem State.on_fifos (f : Fld) : (s.on f).fifos = s.fifos := rfl
@[simp] theorem State.on_fifoLost (f : Fld) : (s.on f).fifoLost = s.fifoLost := rfl
@[simp] theorem State.on_cyc (f : Fld) : (s.on f).cyc = s.cyc := rfl
@[simp] theorem State.on_field (f : Fld) : (s.on f).field = s.field := rfl
@[simp] theorem State.on_bobs (f : Fld) : (s.on f).bobs = s.bobs := rfl
@[simp] theorem State.on_cans (f : Fld) : (s.on f).cans = s.cans := rfl
@[simp] theorem State.on_stb (f : Fld) : (s.on f).stb = s.stb := rfl
@[simp] theorem State.on_usb (f : Fld) : (s.on f).usb = s.usb := rfl
@[simp] theorem State.on_tim (f : Fld) : (s.on f).tim = s.tim := rfl
@[simp] theorem State.on_pow (f : Fld) : (s.on f).pow = s.pow := rfl
@[simp] theorem State.on_twin (f : Fld) : (s.on f).twin = s.twin := rfl
@[simp] theorem State.on_host (f : Fld) : (s.on f).host = s.host := rfl
@[simp] theorem State.on_hand (f : Fld) : (s.on f).hand = s.hand := rfl
@[simp] theorem State.on_boot (f : Fld) : (s.on f).boot = s.boot := rfl
@[simp] theorem State.on_upd (f : Fld) : (s.on f).upd = s.upd := rfl
@[simp] theorem State.on_pending (f : Fld) : (s.on f).pending = s.pending := rfl
@[simp] theorem State.on_byte (f : Fld) (x : Nat) : (s.on f).byte x = s.byte x := rfl
@[simp] theorem State.on_mark (f : Fld) (x : Nat) : (s.on f).mark x = s.mark x := rfl

/-! ### off -/

@[simp] theorem State.off_mem (f : Fld) : (s.off f).mem = s.mem := rfl
@[simp] theorem State.off_marks (f : Fld) : (s.off f).marks = s.marks := rfl
@[simp] theorem State.off_latches (f : Fld) : (s.off f).latches = s.latches := rfl
@[simp] theorem State.off_clk (f : Fld) : (s.off f).clk = s.clk := rfl
@[simp] theorem State.off_ctr (f : Fld) : (s.off f).ctr = s.ctr := rfl
@[simp] theorem State.off_past (f : Fld) : (s.off f).past = s.past := rfl
@[simp] theorem State.off_timers (f : Fld) : (s.off f).timers = s.timers := rfl
@[simp] theorem State.off_out (f : Fld) : (s.off f).out = s.out := rfl
@[simp] theorem State.off_freeCtr (f : Fld) : (s.off f).freeCtr = s.freeCtr := rfl
@[simp] theorem State.off_mode (f : Fld) : (s.off f).mode = s.mode := rfl
@[simp] theorem State.off_anat (f : Fld) : (s.off f).anat = s.anat := rfl
@[simp] theorem State.off_ports (f : Fld) : (s.off f).ports = s.ports := rfl
@[simp] theorem State.off_ring (f : Fld) : (s.off f).ring = s.ring := rfl
@[simp] theorem State.off_sw (f : Fld) : (s.off f).sw = s.sw := rfl
@[simp] theorem State.off_txn (f : Fld) : (s.off f).txn = s.txn := rfl
@[simp] theorem State.off_fifos (f : Fld) : (s.off f).fifos = s.fifos := rfl
@[simp] theorem State.off_fifoLost (f : Fld) : (s.off f).fifoLost = s.fifoLost := rfl
@[simp] theorem State.off_cyc (f : Fld) : (s.off f).cyc = s.cyc := rfl
@[simp] theorem State.off_field (f : Fld) : (s.off f).field = s.field := rfl
@[simp] theorem State.off_bobs (f : Fld) : (s.off f).bobs = s.bobs := rfl
@[simp] theorem State.off_cans (f : Fld) : (s.off f).cans = s.cans := rfl
@[simp] theorem State.off_stb (f : Fld) : (s.off f).stb = s.stb := rfl
@[simp] theorem State.off_usb (f : Fld) : (s.off f).usb = s.usb := rfl
@[simp] theorem State.off_tim (f : Fld) : (s.off f).tim = s.tim := rfl
@[simp] theorem State.off_pow (f : Fld) : (s.off f).pow = s.pow := rfl
@[simp] theorem State.off_twin (f : Fld) : (s.off f).twin = s.twin := rfl
@[simp] theorem State.off_host (f : Fld) : (s.off f).host = s.host := rfl
@[simp] theorem State.off_hand (f : Fld) : (s.off f).hand = s.hand := rfl
@[simp] theorem State.off_boot (f : Fld) : (s.off f).boot = s.boot := rfl
@[simp] theorem State.off_upd (f : Fld) : (s.off f).upd = s.upd := rfl
@[simp] theorem State.off_pending (f : Fld) : (s.off f).pending = s.pending := rfl
@[simp] theorem State.off_byte (f : Fld) (x : Nat) : (s.off f).byte x = s.byte x := rfl
@[simp] theorem State.off_mark (f : Fld) (x : Nat) : (s.off f).mark x = s.mark x := rfl

/-! ### setFlag -/

@[simp] theorem State.setFlag_mem (f : Fld) (b : Bool) : (s.setFlag f b).mem = s.mem := rfl
@[simp] theorem State.setFlag_marks (f : Fld) (b : Bool) : (s.setFlag f b).marks = s.marks := rfl
@[simp] theorem State.setFlag_latches (f : Fld) (b : Bool) : (s.setFlag f b).latches = s.latches := rfl
@[simp] theorem State.setFlag_clk (f : Fld) (b : Bool) : (s.setFlag f b).clk = s.clk := rfl
@[simp] theorem State.setFlag_ctr (f : Fld) (b : Bool) : (s.setFlag f b).ctr = s.ctr := rfl
@[simp] theorem State.setFlag_past (f : Fld) (b : Bool) : (s.setFlag f b).past = s.past := rfl
@[simp] theorem State.setFlag_timers (f : Fld) (b : Bool) : (s.setFlag f b).timers = s.timers := rfl
@[simp] theorem State.setFlag_out (f : Fld) (b : Bool) : (s.setFlag f b).out = s.out := rfl
@[simp] theorem State.setFlag_freeCtr (f : Fld) (b : Bool) : (s.setFlag f b).freeCtr = s.freeCtr := rfl
@[simp] theorem State.setFlag_mode (f : Fld) (b : Bool) : (s.setFlag f b).mode = s.mode := rfl
@[simp] theorem State.setFlag_anat (f : Fld) (b : Bool) : (s.setFlag f b).anat = s.anat := rfl
@[simp] theorem State.setFlag_ports (f : Fld) (b : Bool) : (s.setFlag f b).ports = s.ports := rfl
@[simp] theorem State.setFlag_ring (f : Fld) (b : Bool) : (s.setFlag f b).ring = s.ring := rfl
@[simp] theorem State.setFlag_sw (f : Fld) (b : Bool) : (s.setFlag f b).sw = s.sw := rfl
@[simp] theorem State.setFlag_txn (f : Fld) (b : Bool) : (s.setFlag f b).txn = s.txn := rfl
@[simp] theorem State.setFlag_fifos (f : Fld) (b : Bool) : (s.setFlag f b).fifos = s.fifos := rfl
@[simp] theorem State.setFlag_fifoLost (f : Fld) (b : Bool) : (s.setFlag f b).fifoLost = s.fifoLost := rfl
@[simp] theorem State.setFlag_cyc (f : Fld) (b : Bool) : (s.setFlag f b).cyc = s.cyc := rfl
@[simp] theorem State.setFlag_field (f : Fld) (b : Bool) : (s.setFlag f b).field = s.field := rfl
@[simp] theorem State.setFlag_bobs (f : Fld) (b : Bool) : (s.setFlag f b).bobs = s.bobs := rfl
@[simp] theorem State.setFlag_cans (f : Fld) (b : Bool) : (s.setFlag f b).cans = s.cans := rfl
@[simp] theorem State.setFlag_stb (f : Fld) (b : Bool) : (s.setFlag f b).stb = s.stb := rfl
@[simp] theorem State.setFlag_usb (f : Fld) (b : Bool) : (s.setFlag f b).usb = s.usb := rfl
@[simp] theorem State.setFlag_tim (f : Fld) (b : Bool) : (s.setFlag f b).tim = s.tim := rfl
@[simp] theorem State.setFlag_pow (f : Fld) (b : Bool) : (s.setFlag f b).pow = s.pow := rfl
@[simp] theorem State.setFlag_twin (f : Fld) (b : Bool) : (s.setFlag f b).twin = s.twin := rfl
@[simp] theorem State.setFlag_host (f : Fld) (b : Bool) : (s.setFlag f b).host = s.host := rfl
@[simp] theorem State.setFlag_hand (f : Fld) (b : Bool) : (s.setFlag f b).hand = s.hand := rfl
@[simp] theorem State.setFlag_boot (f : Fld) (b : Bool) : (s.setFlag f b).boot = s.boot := rfl
@[simp] theorem State.setFlag_upd (f : Fld) (b : Bool) : (s.setFlag f b).upd = s.upd := rfl
@[simp] theorem State.setFlag_pending (f : Fld) (b : Bool) : (s.setFlag f b).pending = s.pending := rfl
@[simp] theorem State.setFlag_byte (f : Fld) (b : Bool) (x : Nat) : (s.setFlag f b).byte x = s.byte x := rfl
@[simp] theorem State.setFlag_mark (f : Fld) (b : Bool) (x : Nat) : (s.setFlag f b).mark x = s.mark x := rfl

/-! ### bumpBy -/

@[simp] theorem State.bumpBy_mem (a n : Nat) : (s.bumpBy a n).mem = s.mem := rfl
@[simp] theorem State.bumpBy_marks (a n : Nat) : (s.bumpBy a n).marks = s.marks := rfl
@[simp] theorem State.bumpBy_latches (a n : Nat) : (s.bumpBy a n).latches = s.latches := rfl
@[simp] theorem State.bumpBy_clk (a n : Nat) : (s.bumpBy a n).clk = s.clk := rfl
@[simp] theorem State.bumpBy_ctr (a n : Nat) : (s.bumpBy a n).ctr = s.ctr := rfl
@[simp] theorem State.bumpBy_past (a n : Nat) : (s.bumpBy a n).past = s.past := rfl
@[simp] theorem State.bumpBy_timers (a n : Nat) : (s.bumpBy a n).timers = s.timers := rfl
@[simp] theorem State.bumpBy_out (a n : Nat) : (s.bumpBy a n).out = s.out := rfl
@[simp] theorem State.bumpBy_freeCtr (a n : Nat) : (s.bumpBy a n).freeCtr = s.freeCtr := rfl
@[simp] theorem State.bumpBy_mode (a n : Nat) : (s.bumpBy a n).mode = s.mode := rfl
@[simp] theorem State.bumpBy_anat (a n : Nat) : (s.bumpBy a n).anat = s.anat := rfl
@[simp] theorem State.bumpBy_ports (a n : Nat) : (s.bumpBy a n).ports = s.ports := rfl
@[simp] theorem State.bumpBy_ring (a n : Nat) : (s.bumpBy a n).ring = s.ring := rfl
@[simp] theorem State.bumpBy_sw (a n : Nat) : (s.bumpBy a n).sw = s.sw := rfl
@[simp] theorem State.bumpBy_txn (a n : Nat) : (s.bumpBy a n).txn = s.txn := rfl
@[simp] theorem State.bumpBy_fifos (a n : Nat) : (s.bumpBy a n).fifos = s.fifos := rfl
@[simp] theorem State.bumpBy_fifoLost (a n : Nat) : (s.bumpBy a n).fifoLost = s.fifoLost := rfl
@[simp] theorem State.bumpBy_cyc (a n : Nat) : (s.bumpBy a n).cyc = s.cyc := rfl
@[simp] theorem State.bumpBy_field (a n : Nat) : (s.bumpBy a n).field = s.field := rfl
@[simp] theorem State.bumpBy_bobs (a n : Nat) : (s.bumpBy a n).bobs = s.bobs := rfl
@[simp] theorem State.bumpBy_cans (a n : Nat) : (s.bumpBy a n).cans = s.cans := rfl
@[simp] theorem State.bumpBy_stb (a n : Nat) : (s.bumpBy a n).stb = s.stb := rfl
@[simp] theorem State.bumpBy_usb (a n : Nat) : (s.bumpBy a n).usb = s.usb := rfl
@[simp] theorem State.bumpBy_tim (a n : Nat) : (s.bumpBy a n).tim = s.tim := rfl
@[simp] theorem State.bumpBy_pow (a n : Nat) : (s.bumpBy a n).pow = s.pow := rfl
@[simp] theorem State.bumpBy_twin (a n : Nat) : (s.bumpBy a n).twin = s.twin := rfl
@[simp] theorem State.bumpBy_host (a n : Nat) : (s.bumpBy a n).host = s.host := rfl
@[simp] theorem State.bumpBy_hand (a n : Nat) : (s.bumpBy a n).hand = s.hand := rfl
@[simp] theorem State.bumpBy_boot (a n : Nat) : (s.bumpBy a n).boot = s.boot := rfl
@[simp] theorem State.bumpBy_upd (a n : Nat) : (s.bumpBy a n).upd = s.upd := rfl
@[simp] theorem State.bumpBy_pending (a n : Nat) : (s.bumpBy a n).pending = s.pending := rfl
@[simp] theorem State.bumpBy_byte (a n : Nat) (x : Nat) : (s.bumpBy a n).byte x = s.byte x := rfl
@[simp] theorem State.bumpBy_mark (a n : Nat) (x : Nat) : (s.bumpBy a n).mark x = s.mark x := rfl

/-! ### bump -/

@[simp] theorem State.bump_mem (a : Nat) : (s.bump a).mem = s.mem := rfl
@[simp] theorem State.bump_marks (a : Nat) : (s.bump a).marks = s.marks := rfl
@[simp] theorem State.bump_latches (a : Nat) : (s.bump a).latches = s.latches := rfl
@[simp] theorem State.bump_clk (a : Nat) : (s.bump a).clk = s.clk := rfl
@[simp] theorem State.bump_ctr (a : Nat) : (s.bump a).ctr = s.ctr := rfl
@[simp] theorem State.bump_past (a : Nat) : (s.bump a).past = s.past := rfl
@[simp] theorem State.bump_timers (a : Nat) : (s.bump a).timers = s.timers := rfl
@[simp] theorem State.bump_out (a : Nat) : (s.bump a).out = s.out := rfl
@[simp] theorem State.bump_freeCtr (a : Nat) : (s.bump a).freeCtr = s.freeCtr := rfl
@[simp] theorem State.bump_mode (a : Nat) : (s.bump a).mode = s.mode := rfl
@[simp] theorem State.bump_anat (a : Nat) : (s.bump a).anat = s.anat := rfl
@[simp] theorem State.bump_ports (a : Nat) : (s.bump a).ports = s.ports := rfl
@[simp] theorem State.bump_ring (a : Nat) : (s.bump a).ring = s.ring := rfl
@[simp] theorem State.bump_sw (a : Nat) : (s.bump a).sw = s.sw := rfl
@[simp] theorem State.bump_txn (a : Nat) : (s.bump a).txn = s.txn := rfl
@[simp] theorem State.bump_fifos (a : Nat) : (s.bump a).fifos = s.fifos := rfl
@[simp] theorem State.bump_fifoLost (a : Nat) : (s.bump a).fifoLost = s.fifoLost := rfl
@[simp] theorem State.bump_cyc (a : Nat) : (s.bump a).cyc = s.cyc := rfl
@[simp] theorem State.bump_field (a : Nat) : (s.bump a).field = s.field := rfl
@[simp] theorem State.bump_bobs (a : Nat) : (s.bump a).bobs = s.bobs := rfl
@[simp] theorem State.bump_cans (a : Nat) : (s.bump a).cans = s.cans := rfl
@[simp] theorem State.bump_stb (a : Nat) : (s.bump a).stb = s.stb := rfl
@[simp] theorem State.bump_usb (a : Nat) : (s.bump a).usb = s.usb := rfl
@[simp] theorem State.bump_tim (a : Nat) : (s.bump a).tim = s.tim := rfl
@[simp] theorem State.bump_pow (a : Nat) : (s.bump a).pow = s.pow := rfl
@[simp] theorem State.bump_twin (a : Nat) : (s.bump a).twin = s.twin := rfl
@[simp] theorem State.bump_host (a : Nat) : (s.bump a).host = s.host := rfl
@[simp] theorem State.bump_hand (a : Nat) : (s.bump a).hand = s.hand := rfl
@[simp] theorem State.bump_boot (a : Nat) : (s.bump a).boot = s.boot := rfl
@[simp] theorem State.bump_upd (a : Nat) : (s.bump a).upd = s.upd := rfl
@[simp] theorem State.bump_pending (a : Nat) : (s.bump a).pending = s.pending := rfl
@[simp] theorem State.bump_byte (a : Nat) (x : Nat) : (s.bump a).byte x = s.byte x := rfl
@[simp] theorem State.bump_mark (a : Nat) (x : Nat) : (s.bump a).mark x = s.mark x := rfl

/-! ### bumpFld -/

@[simp] theorem State.bumpFld_mem (f : Fld) (n : Nat) : (s.bumpFld f n).mem = s.mem := rfl
@[simp] theorem State.bumpFld_marks (f : Fld) (n : Nat) : (s.bumpFld f n).marks = s.marks := rfl
@[simp] theorem State.bumpFld_latches (f : Fld) (n : Nat) : (s.bumpFld f n).latches = s.latches := rfl
@[simp] theorem State.bumpFld_clk (f : Fld) (n : Nat) : (s.bumpFld f n).clk = s.clk := rfl
@[simp] theorem State.bumpFld_ctr (f : Fld) (n : Nat) : (s.bumpFld f n).ctr = s.ctr := rfl
@[simp] theorem State.bumpFld_past (f : Fld) (n : Nat) : (s.bumpFld f n).past = s.past := rfl
@[simp] theorem State.bumpFld_timers (f : Fld) (n : Nat) : (s.bumpFld f n).timers = s.timers := rfl
@[simp] theorem State.bumpFld_out (f : Fld) (n : Nat) : (s.bumpFld f n).out = s.out := rfl
@[simp] theorem State.bumpFld_freeCtr (f : Fld) (n : Nat) : (s.bumpFld f n).freeCtr = s.freeCtr := rfl
@[simp] theorem State.bumpFld_mode (f : Fld) (n : Nat) : (s.bumpFld f n).mode = s.mode := rfl
@[simp] theorem State.bumpFld_anat (f : Fld) (n : Nat) : (s.bumpFld f n).anat = s.anat := rfl
@[simp] theorem State.bumpFld_ports (f : Fld) (n : Nat) : (s.bumpFld f n).ports = s.ports := rfl
@[simp] theorem State.bumpFld_ring (f : Fld) (n : Nat) : (s.bumpFld f n).ring = s.ring := rfl
@[simp] theorem State.bumpFld_sw (f : Fld) (n : Nat) : (s.bumpFld f n).sw = s.sw := rfl
@[simp] theorem State.bumpFld_txn (f : Fld) (n : Nat) : (s.bumpFld f n).txn = s.txn := rfl
@[simp] theorem State.bumpFld_fifos (f : Fld) (n : Nat) : (s.bumpFld f n).fifos = s.fifos := rfl
@[simp] theorem State.bumpFld_fifoLost (f : Fld) (n : Nat) : (s.bumpFld f n).fifoLost = s.fifoLost := rfl
@[simp] theorem State.bumpFld_cyc (f : Fld) (n : Nat) : (s.bumpFld f n).cyc = s.cyc := rfl
@[simp] theorem State.bumpFld_field (f : Fld) (n : Nat) : (s.bumpFld f n).field = s.field := rfl
@[simp] theorem State.bumpFld_bobs (f : Fld) (n : Nat) : (s.bumpFld f n).bobs = s.bobs := rfl
@[simp] theorem State.bumpFld_cans (f : Fld) (n : Nat) : (s.bumpFld f n).cans = s.cans := rfl
@[simp] theorem State.bumpFld_stb (f : Fld) (n : Nat) : (s.bumpFld f n).stb = s.stb := rfl
@[simp] theorem State.bumpFld_usb (f : Fld) (n : Nat) : (s.bumpFld f n).usb = s.usb := rfl
@[simp] theorem State.bumpFld_tim (f : Fld) (n : Nat) : (s.bumpFld f n).tim = s.tim := rfl
@[simp] theorem State.bumpFld_pow (f : Fld) (n : Nat) : (s.bumpFld f n).pow = s.pow := rfl
@[simp] theorem State.bumpFld_twin (f : Fld) (n : Nat) : (s.bumpFld f n).twin = s.twin := rfl
@[simp] theorem State.bumpFld_host (f : Fld) (n : Nat) : (s.bumpFld f n).host = s.host := rfl
@[simp] theorem State.bumpFld_hand (f : Fld) (n : Nat) : (s.bumpFld f n).hand = s.hand := rfl
@[simp] theorem State.bumpFld_boot (f : Fld) (n : Nat) : (s.bumpFld f n).boot = s.boot := rfl
@[simp] theorem State.bumpFld_upd (f : Fld) (n : Nat) : (s.bumpFld f n).upd = s.upd := rfl
@[simp] theorem State.bumpFld_pending (f : Fld) (n : Nat) : (s.bumpFld f n).pending = s.pending := rfl
@[simp] theorem State.bumpFld_byte (f : Fld) (n : Nat) (x : Nat) : (s.bumpFld f n).byte x = s.byte x := rfl
@[simp] theorem State.bumpFld_mark (f : Fld) (n : Nat) (x : Nat) : (s.bumpFld f n).mark x = s.mark x := rfl

/-! ### wr64 -/

@[simp] theorem State.wr64_mem (lo hi v : Nat) : (s.wr64 lo hi v).mem = s.mem := rfl
@[simp] theorem State.wr64_marks (lo hi v : Nat) : (s.wr64 lo hi v).marks = s.marks := rfl
@[simp] theorem State.wr64_latches (lo hi v : Nat) : (s.wr64 lo hi v).latches = s.latches := rfl
@[simp] theorem State.wr64_clk (lo hi v : Nat) : (s.wr64 lo hi v).clk = s.clk := rfl
@[simp] theorem State.wr64_ctr (lo hi v : Nat) : (s.wr64 lo hi v).ctr = s.ctr := rfl
@[simp] theorem State.wr64_past (lo hi v : Nat) : (s.wr64 lo hi v).past = s.past := rfl
@[simp] theorem State.wr64_timers (lo hi v : Nat) : (s.wr64 lo hi v).timers = s.timers := rfl
@[simp] theorem State.wr64_out (lo hi v : Nat) : (s.wr64 lo hi v).out = s.out := rfl
@[simp] theorem State.wr64_freeCtr (lo hi v : Nat) : (s.wr64 lo hi v).freeCtr = s.freeCtr := rfl
@[simp] theorem State.wr64_mode (lo hi v : Nat) : (s.wr64 lo hi v).mode = s.mode := rfl
@[simp] theorem State.wr64_anat (lo hi v : Nat) : (s.wr64 lo hi v).anat = s.anat := rfl
@[simp] theorem State.wr64_ports (lo hi v : Nat) : (s.wr64 lo hi v).ports = s.ports := rfl
@[simp] theorem State.wr64_ring (lo hi v : Nat) : (s.wr64 lo hi v).ring = s.ring := rfl
@[simp] theorem State.wr64_sw (lo hi v : Nat) : (s.wr64 lo hi v).sw = s.sw := rfl
@[simp] theorem State.wr64_txn (lo hi v : Nat) : (s.wr64 lo hi v).txn = s.txn := rfl
@[simp] theorem State.wr64_fifos (lo hi v : Nat) : (s.wr64 lo hi v).fifos = s.fifos := rfl
@[simp] theorem State.wr64_fifoLost (lo hi v : Nat) : (s.wr64 lo hi v).fifoLost = s.fifoLost := rfl
@[simp] theorem State.wr64_cyc (lo hi v : Nat) : (s.wr64 lo hi v).cyc = s.cyc := rfl
@[simp] theorem State.wr64_field (lo hi v : Nat) : (s.wr64 lo hi v).field = s.field := rfl
@[simp] theorem State.wr64_bobs (lo hi v : Nat) : (s.wr64 lo hi v).bobs = s.bobs := rfl
@[simp] theorem State.wr64_cans (lo hi v : Nat) : (s.wr64 lo hi v).cans = s.cans := rfl
@[simp] theorem State.wr64_stb (lo hi v : Nat) : (s.wr64 lo hi v).stb = s.stb := rfl
@[simp] theorem State.wr64_usb (lo hi v : Nat) : (s.wr64 lo hi v).usb = s.usb := rfl
@[simp] theorem State.wr64_tim (lo hi v : Nat) : (s.wr64 lo hi v).tim = s.tim := rfl
@[simp] theorem State.wr64_pow (lo hi v : Nat) : (s.wr64 lo hi v).pow = s.pow := rfl
@[simp] theorem State.wr64_twin (lo hi v : Nat) : (s.wr64 lo hi v).twin = s.twin := rfl
@[simp] theorem State.wr64_host (lo hi v : Nat) : (s.wr64 lo hi v).host = s.host := rfl
@[simp] theorem State.wr64_hand (lo hi v : Nat) : (s.wr64 lo hi v).hand = s.hand := rfl
@[simp] theorem State.wr64_boot (lo hi v : Nat) : (s.wr64 lo hi v).boot = s.boot := rfl
@[simp] theorem State.wr64_upd (lo hi v : Nat) : (s.wr64 lo hi v).upd = s.upd := rfl
@[simp] theorem State.wr64_pending (lo hi v : Nat) : (s.wr64 lo hi v).pending = s.pending := rfl
@[simp] theorem State.wr64_byte (lo hi v : Nat) (x : Nat) : (s.wr64 lo hi v).byte x = s.byte x := rfl
@[simp] theorem State.wr64_mark (lo hi v : Nat) (x : Nat) : (s.wr64 lo hi v).mark x = s.mark x := rfl

/-! ### hostPend -/

@[simp] theorem State.hostPend_mem (b : Nat) : (s.hostPend b).mem = s.mem := State.on_mem s _
@[simp] theorem State.hostPend_marks (b : Nat) : (s.hostPend b).marks = s.marks := State.on_marks s _
@[simp] theorem State.hostPend_latches (b : Nat) : (s.hostPend b).latches = s.latches := State.on_latches s _
@[simp] theorem State.hostPend_clk (b : Nat) : (s.hostPend b).clk = s.clk := State.on_clk s _
@[simp] theorem State.hostPend_ctr (b : Nat) : (s.hostPend b).ctr = s.ctr := State.on_ctr s _
@[simp] theorem State.hostPend_past (b : Nat) : (s.hostPend b).past = s.past := State.on_past s _
@[simp] theorem State.hostPend_timers (b : Nat) : (s.hostPend b).timers = s.timers := State.on_timers s _
@[simp] theorem State.hostPend_out (b : Nat) : (s.hostPend b).out = s.out := State.on_out s _
@[simp] theorem State.hostPend_freeCtr (b : Nat) : (s.hostPend b).freeCtr = s.freeCtr := State.on_freeCtr s _
@[simp] theorem State.hostPend_mode (b : Nat) : (s.hostPend b).mode = s.mode := State.on_mode s _
@[simp] theorem State.hostPend_anat (b : Nat) : (s.hostPend b).anat = s.anat := State.on_anat s _
@[simp] theorem State.hostPend_ports (b : Nat) : (s.hostPend b).ports = s.ports := State.on_ports s _
@[simp] theorem State.hostPend_ring (b : Nat) : (s.hostPend b).ring = s.ring := State.on_ring s _
@[simp] theorem State.hostPend_sw (b : Nat) : (s.hostPend b).sw = s.sw := State.on_sw s _
@[simp] theorem State.hostPend_txn (b : Nat) : (s.hostPend b).txn = s.txn := State.on_txn s _
@[simp] theorem State.hostPend_fifos (b : Nat) : (s.hostPend b).fifos = s.fifos := State.on_fifos s _
@[simp] theorem State.hostPend_fifoLost (b : Nat) : (s.hostPend b).fifoLost = s.fifoLost := State.on_fifoLost s _
@[simp] theorem State.hostPend_cyc (b : Nat) : (s.hostPend b).cyc = s.cyc := State.on_cyc s _
@[simp] theorem State.hostPend_field (b : Nat) : (s.hostPend b).field = s.field := State.on_field s _
@[simp] theorem State.hostPend_bobs (b : Nat) : (s.hostPend b).bobs = s.bobs := State.on_bobs s _
@[simp] theorem State.hostPend_cans (b : Nat) : (s.hostPend b).cans = s.cans := State.on_cans s _
@[simp] theorem State.hostPend_stb (b : Nat) : (s.hostPend b).stb = s.stb := State.on_stb s _
@[simp] theorem State.hostPend_usb (b : Nat) : (s.hostPend b).usb = s.usb := State.on_usb s _
@[simp] theorem State.hostPend_tim (b : Nat) : (s.hostPend b).tim = s.tim := State.on_tim s _
@[simp] theorem State.hostPend_pow (b : Nat) : (s.hostPend b).pow = s.pow := State.on_pow s _
@[simp] theorem State.hostPend_twin (b : Nat) : (s.hostPend b).twin = s.twin := State.on_twin s _
@[simp] theorem State.hostPend_host (b : Nat) : (s.hostPend b).host = s.host := State.on_host s _
@[simp] theorem State.hostPend_hand (b : Nat) : (s.hostPend b).hand = s.hand := State.on_hand s _
@[simp] theorem State.hostPend_boot (b : Nat) : (s.hostPend b).boot = s.boot := State.on_boot s _
@[simp] theorem State.hostPend_upd (b : Nat) : (s.hostPend b).upd = s.upd := State.on_upd s _
@[simp] theorem State.hostPend_pending (b : Nat) : (s.hostPend b).pending = s.pending := State.on_pending s _
@[simp] theorem State.hostPend_byte (b : Nat) (x : Nat) : (s.hostPend b).byte x = s.byte x := State.on_byte s _ x
@[simp] theorem State.hostPend_mark (b : Nat) (x : Nat) : (s.hostPend b).mark x = s.mark x := State.on_mark s _ x

/-! ### setByte -/

@[simp] theorem State.setByte_regs (a : Nat) (b : Byte) : (s.setByte a b).regs = s.regs := rfl
@[simp] theorem State.setByte_marks (a : Nat) (b : Byte) : (s.setByte a b).marks = s.marks := rfl
@[simp] theorem State.setByte_latches (a : Nat) (b : Byte) : (s.setByte a b).latches = s.latches := rfl
@[simp] theorem State.setByte_clk (a : Nat) (b : Byte) : (s.setByte a b).clk = s.clk := rfl
@[simp] theorem State.setByte_ctr (a : Nat) (b : Byte) : (s.setByte a b).ctr = s.ctr := rfl
@[simp] theorem State.setByte_past (a : Nat) (b : Byte) : (s.setByte a b).past = s.past := rfl
@[simp] theorem State.setByte_timers (a : Nat) (b : Byte) : (s.setByte a b).timers = s.timers := rfl
@[simp] theorem State.setByte_out (a : Nat) (b : Byte) : (s.setByte a b).out = s.out := rfl
@[simp] theorem State.setByte_freeCtr (a : Nat) (b : Byte) : (s.setByte a b).freeCtr = s.freeCtr := rfl
@[simp] theorem State.setByte_mode (a : Nat) (b : Byte) : (s.setByte a b).mode = s.mode := rfl
@[simp] theorem State.setByte_anat (a : Nat) (b : Byte) : (s.setByte a b).anat = s.anat := rfl
@[simp] theorem State.setByte_ports (a : Nat) (b : Byte) : (s.setByte a b).ports = s.ports := rfl
@[simp] theorem State.setByte_ring (a : Nat) (b : Byte) : (s.setByte a b).ring = s.ring := rfl
@[simp] theorem State.setByte_sw (a : Nat) (b : Byte) : (s.setByte a b).sw = s.sw := rfl
@[simp] theorem State.setByte_txn (a : Nat) (b : Byte) : (s.setByte a b).txn = s.txn := rfl
@[simp] theorem State.setByte_fifos (a : Nat) (b : Byte) : (s.setByte a b).fifos = s.fifos := rfl
@[simp] theorem State.setByte_fifoLost (a : Nat) (b : Byte) : (s.setByte a b).fifoLost = s.fifoLost := rfl
@[simp] theorem State.setByte_cyc (a : Nat) (b : Byte) : (s.setByte a b).cyc = s.cyc := rfl
@[simp] theorem State.setByte_field (a : Nat) (b : Byte) : (s.setByte a b).field = s.field := rfl
@[simp] theorem State.setByte_bobs (a : Nat) (b : Byte) : (s.setByte a b).bobs = s.bobs := rfl
@[simp] theorem State.setByte_cans (a : Nat) (b : Byte) : (s.setByte a b).cans = s.cans := rfl
@[simp] theorem State.setByte_stb (a : Nat) (b : Byte) : (s.setByte a b).stb = s.stb := rfl
@[simp] theorem State.setByte_usb (a : Nat) (b : Byte) : (s.setByte a b).usb = s.usb := rfl
@[simp] theorem State.setByte_tim (a : Nat) (b : Byte) : (s.setByte a b).tim = s.tim := rfl
@[simp] theorem State.setByte_pow (a : Nat) (b : Byte) : (s.setByte a b).pow = s.pow := rfl
@[simp] theorem State.setByte_twin (a : Nat) (b : Byte) : (s.setByte a b).twin = s.twin := rfl
@[simp] theorem State.setByte_host (a : Nat) (b : Byte) : (s.setByte a b).host = s.host := rfl
@[simp] theorem State.setByte_hand (a : Nat) (b : Byte) : (s.setByte a b).hand = s.hand := rfl
@[simp] theorem State.setByte_boot (a : Nat) (b : Byte) : (s.setByte a b).boot = s.boot := rfl
@[simp] theorem State.setByte_upd (a : Nat) (b : Byte) : (s.setByte a b).upd = s.upd := rfl
@[simp] theorem State.setByte_pending (a : Nat) (b : Byte) : (s.setByte a b).pending = s.pending := rfl
@[simp] theorem State.setByte_rd (a : Nat) (b : Byte) (x : Nat) : (s.setByte a b).rd x = s.rd x := rfl
@[simp] theorem State.setByte_fld (a : Nat) (b : Byte) (x : Fld) : (s.setByte a b).fld x = s.fld x := rfl
@[simp] theorem State.setByte_mark (a : Nat) (b : Byte) (x : Nat) : (s.setByte a b).mark x = s.mark x := rfl

/-! ### setMark -/

@[simp] theorem State.setMark_regs (w g : Nat) : (s.setMark w g).regs = s.regs := rfl
@[simp] theorem State.setMark_mem (w g : Nat) : (s.setMark w g).mem = s.mem := rfl
@[simp] theorem State.setMark_latches (w g : Nat) : (s.setMark w g).latches = s.latches := rfl
@[simp] theorem State.setMark_clk (w g : Nat) : (s.setMark w g).clk = s.clk := rfl
@[simp] theorem State.setMark_ctr (w g : Nat) : (s.setMark w g).ctr = s.ctr := rfl
@[simp] theorem State.setMark_past (w g : Nat) : (s.setMark w g).past = s.past := rfl
@[simp] theorem State.setMark_timers (w g : Nat) : (s.setMark w g).timers = s.timers := rfl
@[simp] theorem State.setMark_out (w g : Nat) : (s.setMark w g).out = s.out := rfl
@[simp] theorem State.setMark_freeCtr (w g : Nat) : (s.setMark w g).freeCtr = s.freeCtr := rfl
@[simp] theorem State.setMark_mode (w g : Nat) : (s.setMark w g).mode = s.mode := rfl
@[simp] theorem State.setMark_anat (w g : Nat) : (s.setMark w g).anat = s.anat := rfl
@[simp] theorem State.setMark_ports (w g : Nat) : (s.setMark w g).ports = s.ports := rfl
@[simp] theorem State.setMark_ring (w g : Nat) : (s.setMark w g).ring = s.ring := rfl
@[simp] theorem State.setMark_sw (w g : Nat) : (s.setMark w g).sw = s.sw := rfl
@[simp] theorem State.setMark_txn (w g : Nat) : (s.setMark w g).txn = s.txn := rfl
@[simp] theorem State.setMark_fifos (w g : Nat) : (s.setMark w g).fifos = s.fifos := rfl
@[simp] theorem State.setMark_fifoLost (w g : Nat) : (s.setMark w g).fifoLost = s.fifoLost := rfl
@[simp] theorem State.setMark_cyc (w g : Nat) : (s.setMark w g).cyc = s.cyc := rfl
@[simp] theorem State.setMark_field (w g : Nat) : (s.setMark w g).field = s.field := rfl
@[simp] theorem State.setMark_bobs (w g : Nat) : (s.setMark w g).bobs = s.bobs := rfl
@[simp] theorem State.setMark_cans (w g : Nat) : (s.setMark w g).cans = s.cans := rfl
@[simp] theorem State.setMark_stb (w g : Nat) : (s.setMark w g).stb = s.stb := rfl
@[simp] theorem State.setMark_usb (w g : Nat) : (s.setMark w g).usb = s.usb := rfl
@[simp] theorem State.setMark_tim (w g : Nat) : (s.setMark w g).tim = s.tim := rfl
@[simp] theorem State.setMark_pow (w g : Nat) : (s.setMark w g).pow = s.pow := rfl
@[simp] theorem State.setMark_twin (w g : Nat) : (s.setMark w g).twin = s.twin := rfl
@[simp] theorem State.setMark_host (w g : Nat) : (s.setMark w g).host = s.host := rfl
@[simp] theorem State.setMark_hand (w g : Nat) : (s.setMark w g).hand = s.hand := rfl
@[simp] theorem State.setMark_boot (w g : Nat) : (s.setMark w g).boot = s.boot := rfl
@[simp] theorem State.setMark_upd (w g : Nat) : (s.setMark w g).upd = s.upd := rfl
@[simp] theorem State.setMark_pending (w g : Nat) : (s.setMark w g).pending = s.pending := rfl
@[simp] theorem State.setMark_rd (w g : Nat) (x : Nat) : (s.setMark w g).rd x = s.rd x := rfl
@[simp] theorem State.setMark_fld (w g : Nat) (x : Fld) : (s.setMark w g).fld x = s.fld x := rfl
@[simp] theorem State.setMark_byte (w g : Nat) (x : Nat) : (s.setMark w g).byte x = s.byte x := rfl

/-! ### emit -/

@[simp] theorem State.emit_regs (o : Out) : (s.emit o).regs = s.regs := rfl
@[simp] theorem State.emit_mem (o : Out) : (s.emit o).mem = s.mem := rfl
@[simp] theorem State.emit_marks (o : Out) : (s.emit o).marks = s.marks := rfl
@[simp] theorem State.emit_latches (o : Out) : (s.emit o).latches = s.latches := rfl
@[simp] theorem State.emit_clk (o : Out) : (s.emit o).clk = s.clk := rfl
@[simp] theorem State.emit_ctr (o : Out) : (s.emit o).ctr = s.ctr := rfl
@[simp] theorem State.emit_past (o : Out) : (s.emit o).past = s.past := rfl
@[simp] theorem State.emit_timers (o : Out) : (s.emit o).timers = s.timers := rfl
@[simp] theorem State.emit_freeCtr (o : Out) : (s.emit o).freeCtr = s.freeCtr := rfl
@[simp] theorem State.emit_mode (o : Out) : (s.emit o).mode = s.mode := rfl
@[simp] theorem State.emit_anat (o : Out) : (s.emit o).anat = s.anat := rfl
@[simp] theorem State.emit_ports (o : Out) : (s.emit o).ports = s.ports := rfl
@[simp] theorem State.emit_ring (o : Out) : (s.emit o).ring = s.ring := rfl
@[simp] theorem State.emit_sw (o : Out) : (s.emit o).sw = s.sw := rfl
@[simp] theorem State.emit_txn (o : Out) : (s.emit o).txn = s.txn := rfl
@[simp] theorem State.emit_fifos (o : Out) : (s.emit o).fifos = s.fifos := rfl
@[simp] theorem State.emit_fifoLost (o : Out) : (s.emit o).fifoLost = s.fifoLost := rfl
@[simp] theorem State.emit_cyc (o : Out) : (s.emit o).cyc = s.cyc := rfl
@[simp] theorem State.emit_field (o : Out) : (s.emit o).field = s.field := rfl
@[simp] theorem State.emit_bobs (o : Out) : (s.emit o).bobs = s.bobs := rfl
@[simp] theorem State.emit_cans (o : Out) : (s.emit o).cans = s.cans := rfl
@[simp] theorem State.emit_stb (o : Out) : (s.emit o).stb = s.stb := rfl
@[simp] theorem State.emit_usb (o : Out) : (s.emit o).usb = s.usb := rfl
@[simp] theorem State.emit_tim (o : Out) : (s.emit o).tim = s.tim := rfl
@[simp] theorem State.emit_pow (o : Out) : (s.emit o).pow = s.pow := rfl
@[simp] theorem State.emit_twin (o : Out) : (s.emit o).twin = s.twin := rfl
@[simp] theorem State.emit_host (o : Out) : (s.emit o).host = s.host := rfl
@[simp] theorem State.emit_hand (o : Out) : (s.emit o).hand = s.hand := rfl
@[simp] theorem State.emit_boot (o : Out) : (s.emit o).boot = s.boot := rfl
@[simp] theorem State.emit_upd (o : Out) : (s.emit o).upd = s.upd := rfl
@[simp] theorem State.emit_pending (o : Out) : (s.emit o).pending = s.pending := rfl
@[simp] theorem State.emit_rd (o : Out) (x : Nat) : (s.emit o).rd x = s.rd x := rfl
@[simp] theorem State.emit_fld (o : Out) (x : Fld) : (s.emit o).fld x = s.fld x := rfl
@[simp] theorem State.emit_byte (o : Out) (x : Nat) : (s.emit o).byte x = s.byte x := rfl
@[simp] theorem State.emit_mark (o : Out) (x : Nat) : (s.emit o).mark x = s.mark x := rfl

/-! ### irq -/

@[simp] theorem State.irq_regs (l : Nat) : (State.irq l s).regs = s.regs := rfl
@[simp] theorem State.irq_mem (l : Nat) : (State.irq l s).mem = s.mem := rfl
@[simp] theorem State.irq_marks (l : Nat) : (State.irq l s).marks = s.marks := rfl
@[simp] theorem State.irq_latches (l : Nat) : (State.irq l s).latches = s.latches := rfl
@[simp] theorem State.irq_clk (l : Nat) : (State.irq l s).clk = s.clk := rfl
@[simp] theorem State.irq_ctr (l : Nat) : (State.irq l s).ctr = s.ctr := rfl
@[simp] theorem State.irq_past (l : Nat) : (State.irq l s).past = s.past := rfl
@[simp] theorem State.irq_timers (l : Nat) : (State.irq l s).timers = s.timers := rfl
@[simp] theorem State.irq_freeCtr (l : Nat) : (State.irq l s).freeCtr = s.freeCtr := rfl
@[simp] theorem State.irq_mode (l : Nat) : (State.irq l s).mode = s.mode := rfl
@[simp] theorem State.irq_anat (l : Nat) : (State.irq l s).anat = s.anat := rfl
@[simp] theorem State.irq_ports (l : Nat) : (State.irq l s).ports = s.ports := rfl
@[simp] theorem State.irq_ring (l : Nat) : (State.irq l s).ring = s.ring := rfl
@[simp] theorem State.irq_sw (l : Nat) : (State.irq l s).sw = s.sw := rfl
@[simp] theorem State.irq_txn (l : Nat) : (State.irq l s).txn = s.txn := rfl
@[simp] theorem State.irq_fifos (l : Nat) : (State.irq l s).fifos = s.fifos := rfl
@[simp] theorem State.irq_fifoLost (l : Nat) : (State.irq l s).fifoLost = s.fifoLost := rfl
@[simp] theorem State.irq_cyc (l : Nat) : (State.irq l s).cyc = s.cyc := rfl
@[simp] theorem State.irq_field (l : Nat) : (State.irq l s).field = s.field := rfl
@[simp] theorem State.irq_bobs (l : Nat) : (State.irq l s).bobs = s.bobs := rfl
@[simp] theorem State.irq_cans (l : Nat) : (State.irq l s).cans = s.cans := rfl
@[simp] theorem State.irq_stb (l : Nat) : (State.irq l s).stb = s.stb := rfl
@[simp] theorem State.irq_usb (l : Nat) : (State.irq l s).usb = s.usb := rfl
@[simp] theorem State.irq_tim (l : Nat) : (State.irq l s).tim = s.tim := rfl
@[simp] theorem State.irq_pow (l : Nat) : (State.irq l s).pow = s.pow := rfl
@[simp] theorem State.irq_twin (l : Nat) : (State.irq l s).twin = s.twin := rfl
@[simp] theorem State.irq_host (l : Nat) : (State.irq l s).host = s.host := rfl
@[simp] theorem State.irq_hand (l : Nat) : (State.irq l s).hand = s.hand := rfl
@[simp] theorem State.irq_boot (l : Nat) : (State.irq l s).boot = s.boot := rfl
@[simp] theorem State.irq_upd (l : Nat) : (State.irq l s).upd = s.upd := rfl
@[simp] theorem State.irq_pending (l : Nat) : (State.irq l s).pending = s.pending := rfl
@[simp] theorem State.irq_rd (l : Nat) (x : Nat) : (State.irq l s).rd x = s.rd x := rfl
@[simp] theorem State.irq_fld (l : Nat) (x : Fld) : (State.irq l s).fld x = s.fld x := rfl
@[simp] theorem State.irq_byte (l : Nat) (x : Nat) : (State.irq l s).byte x = s.byte x := rfl
@[simp] theorem State.irq_mark (l : Nat) (x : Nat) : (State.irq l s).mark x = s.mark x := rfl

/-! ### arm -/

@[simp] theorem State.arm_regs (t : Timer) (d : Nat) : (s.arm t d).regs = s.regs := rfl
@[simp] theorem State.arm_mem (t : Timer) (d : Nat) : (s.arm t d).mem = s.mem := rfl
@[simp] theorem State.arm_marks (t : Timer) (d : Nat) : (s.arm t d).marks = s.marks := rfl
@[simp] theorem State.arm_latches (t : Timer) (d : Nat) : (s.arm t d).latches = s.latches := rfl
@[simp] theorem State.arm_clk (t : Timer) (d : Nat) : (s.arm t d).clk = s.clk := rfl
@[simp] theorem State.arm_ctr (t : Timer) (d : Nat) : (s.arm t d).ctr = s.ctr := rfl
@[simp] theorem State.arm_past (t : Timer) (d : Nat) : (s.arm t d).past = s.past := rfl
@[simp] theorem State.arm_out (t : Timer) (d : Nat) : (s.arm t d).out = s.out := rfl
@[simp] theorem State.arm_freeCtr (t : Timer) (d : Nat) : (s.arm t d).freeCtr = s.freeCtr := rfl
@[simp] theorem State.arm_mode (t : Timer) (d : Nat) : (s.arm t d).mode = s.mode := rfl
@[simp] theorem State.arm_anat (t : Timer) (d : Nat) : (s.arm t d).anat = s.anat := rfl
@[simp] theorem State.arm_ports (t : Timer) (d : Nat) : (s.arm t d).ports = s.ports := rfl
@[simp] theorem State.arm_ring (t : Timer) (d : Nat) : (s.arm t d).ring = s.ring := rfl
@[simp] theorem State.arm_sw (t : Timer) (d : Nat) : (s.arm t d).sw = s.sw := rfl
@[simp] theorem State.arm_txn (t : Timer) (d : Nat) : (s.arm t d).txn = s.txn := rfl
@[simp] theorem State.arm_fifos (t : Timer) (d : Nat) : (s.arm t d).fifos = s.fifos := rfl
@[simp] theorem State.arm_fifoLost (t : Timer) (d : Nat) : (s.arm t d).fifoLost = s.fifoLost := rfl
@[simp] theorem State.arm_cyc (t : Timer) (d : Nat) : (s.arm t d).cyc = s.cyc := rfl
@[simp] theorem State.arm_field (t : Timer) (d : Nat) : (s.arm t d).field = s.field := rfl
@[simp] theorem State.arm_bobs (t : Timer) (d : Nat) : (s.arm t d).bobs = s.bobs := rfl
@[simp] theorem State.arm_cans (t : Timer) (d : Nat) : (s.arm t d).cans = s.cans := rfl
@[simp] theorem State.arm_stb (t : Timer) (d : Nat) : (s.arm t d).stb = s.stb := rfl
@[simp] theorem State.arm_usb (t : Timer) (d : Nat) : (s.arm t d).usb = s.usb := rfl
@[simp] theorem State.arm_tim (t : Timer) (d : Nat) : (s.arm t d).tim = s.tim := rfl
@[simp] theorem State.arm_pow (t : Timer) (d : Nat) : (s.arm t d).pow = s.pow := rfl
@[simp] theorem State.arm_twin (t : Timer) (d : Nat) : (s.arm t d).twin = s.twin := rfl
@[simp] theorem State.arm_host (t : Timer) (d : Nat) : (s.arm t d).host = s.host := rfl
@[simp] theorem State.arm_hand (t : Timer) (d : Nat) : (s.arm t d).hand = s.hand := rfl
@[simp] theorem State.arm_boot (t : Timer) (d : Nat) : (s.arm t d).boot = s.boot := rfl
@[simp] theorem State.arm_upd (t : Timer) (d : Nat) : (s.arm t d).upd = s.upd := rfl
@[simp] theorem State.arm_pending (t : Timer) (d : Nat) : (s.arm t d).pending = s.pending := rfl
@[simp] theorem State.arm_rd (t : Timer) (d : Nat) (x : Nat) : (s.arm t d).rd x = s.rd x := rfl
@[simp] theorem State.arm_fld (t : Timer) (d : Nat) (x : Fld) : (s.arm t d).fld x = s.fld x := rfl
@[simp] theorem State.arm_byte (t : Timer) (d : Nat) (x : Nat) : (s.arm t d).byte x = s.byte x := rfl
@[simp] theorem State.arm_mark (t : Timer) (d : Nat) (x : Nat) : (s.arm t d).mark x = s.mark x := rfl

/-! ### cancel -/

@[simp] theorem State.cancel_regs (t : Timer) : (s.cancel t).regs = s.regs := rfl
@[simp] theorem State.cancel_mem (t : Timer) : (s.cancel t).mem = s.mem := rfl
@[simp] theorem State.cancel_marks (t : Timer) : (s.cancel t).marks = s.marks := rfl
@[simp] theorem State.cancel_latches (t : Timer) : (s.cancel t).latches = s.latches := rfl
@[simp] theorem State.cancel_clk (t : Timer) : (s.cancel t).clk = s.clk := rfl
@[simp] theorem State.cancel_ctr (t : Timer) : (s.cancel t).ctr = s.ctr := rfl
@[simp] theorem State.cancel_past (t : Timer) : (s.cancel t).past = s.past := rfl
@[simp] theorem State.cancel_out (t : Timer) : (s.cancel t).out = s.out := rfl
@[simp] theorem State.cancel_freeCtr (t : Timer) : (s.cancel t).freeCtr = s.freeCtr := rfl
@[simp] theorem State.cancel_mode (t : Timer) : (s.cancel t).mode = s.mode := rfl
@[simp] theorem State.cancel_anat (t : Timer) : (s.cancel t).anat = s.anat := rfl
@[simp] theorem State.cancel_ports (t : Timer) : (s.cancel t).ports = s.ports := rfl
@[simp] theorem State.cancel_ring (t : Timer) : (s.cancel t).ring = s.ring := rfl
@[simp] theorem State.cancel_sw (t : Timer) : (s.cancel t).sw = s.sw := rfl
@[simp] theorem State.cancel_txn (t : Timer) : (s.cancel t).txn = s.txn := rfl
@[simp] theorem State.cancel_fifos (t : Timer) : (s.cancel t).fifos = s.fifos := rfl
@[simp] theorem State.cancel_fifoLost (t : Timer) : (s.cancel t).fifoLost = s.fifoLost := rfl
@[simp] theorem State.cancel_cyc (t : Timer) : (s.cancel t).cyc = s.cyc := rfl
@[simp] theorem State.cancel_field (t : Timer) : (s.cancel t).field = s.field := rfl
@[simp] theorem State.cancel_bobs (t : Timer) : (s.cancel t).bobs = s.bobs := rfl
@[simp] theorem State.cancel_cans (t : Timer) : (s.cancel t).cans = s.cans := rfl
@[simp] theorem State.cancel_stb (t : Timer) : (s.cancel t).stb = s.stb := rfl
@[simp] theorem State.cancel_usb (t : Timer) : (s.cancel t).usb = s.usb := rfl
@[simp] theorem State.cancel_tim (t : Timer) : (s.cancel t).tim = s.tim := rfl
@[simp] theorem State.cancel_pow (t : Timer) : (s.cancel t).pow = s.pow := rfl
@[simp] theorem State.cancel_twin (t : Timer) : (s.cancel t).twin = s.twin := rfl
@[simp] theorem State.cancel_host (t : Timer) : (s.cancel t).host = s.host := rfl
@[simp] theorem State.cancel_hand (t : Timer) : (s.cancel t).hand = s.hand := rfl
@[simp] theorem State.cancel_boot (t : Timer) : (s.cancel t).boot = s.boot := rfl
@[simp] theorem State.cancel_upd (t : Timer) : (s.cancel t).upd = s.upd := rfl
@[simp] theorem State.cancel_pending (t : Timer) : (s.cancel t).pending = s.pending := rfl
@[simp] theorem State.cancel_rd (t : Timer) (x : Nat) : (s.cancel t).rd x = s.rd x := rfl
@[simp] theorem State.cancel_fld (t : Timer) (x : Fld) : (s.cancel t).fld x = s.fld x := rfl
@[simp] theorem State.cancel_byte (t : Timer) (x : Nat) : (s.cancel t).byte x = s.byte x := rfl
@[simp] theorem State.cancel_mark (t : Timer) (x : Nat) : (s.cancel t).mark x = s.mark x := rfl

/-! ### advance -/

@[simp] theorem State.advance_regs (d : Nat) : (s.advance d).regs = s.regs := rfl
@[simp] theorem State.advance_mem (d : Nat) : (s.advance d).mem = s.mem := rfl
@[simp] theorem State.advance_marks (d : Nat) : (s.advance d).marks = s.marks := rfl
@[simp] theorem State.advance_latches (d : Nat) : (s.advance d).latches = s.latches := rfl
@[simp] theorem State.advance_timers (d : Nat) : (s.advance d).timers = s.timers := rfl
@[simp] theorem State.advance_out (d : Nat) : (s.advance d).out = s.out := rfl
@[simp] theorem State.advance_freeCtr (d : Nat) : (s.advance d).freeCtr = s.freeCtr := rfl
@[simp] theorem State.advance_mode (d : Nat) : (s.advance d).mode = s.mode := rfl
@[simp] theorem State.advance_anat (d : Nat) : (s.advance d).anat = s.anat := rfl
@[simp] theorem State.advance_ports (d : Nat) : (s.advance d).ports = s.ports := rfl
@[simp] theorem State.advance_ring (d : Nat) : (s.advance d).ring = s.ring := rfl
@[simp] theorem State.advance_sw (d : Nat) : (s.advance d).sw = s.sw := rfl
@[simp] theorem State.advance_txn (d : Nat) : (s.advance d).txn = s.txn := rfl
@[simp] theorem State.advance_fifos (d : Nat) : (s.advance d).fifos = s.fifos := rfl
@[simp] theorem State.advance_fifoLost (d : Nat) : (s.advance d).fifoLost = s.fifoLost := rfl
@[simp] theorem State.advance_cyc (d : Nat) : (s.advance d).cyc = s.cyc := rfl
@[simp] theorem State.advance_field (d : Nat) : (s.advance d).field = s.field := rfl
@[simp] theorem State.advance_bobs (d : Nat) : (s.advance d).bobs = s.bobs := rfl
@[simp] theorem State.advance_cans (d : Nat) : (s.advance d).cans = s.cans := rfl
@[simp] theorem State.advance_stb (d : Nat) : (s.advance d).stb = s.stb := rfl
@[simp] theorem State.advance_usb (d : Nat) : (s.advance d).usb = s.usb := rfl
@[simp] theorem State.advance_tim (d : Nat) : (s.advance d).tim = s.tim := rfl
@[simp] theorem State.advance_pow (d : Nat) : (s.advance d).pow = s.pow := rfl
@[simp] theorem State.advance_twin (d : Nat) : (s.advance d).twin = s.twin := rfl
@[simp] theorem State.advance_host (d : Nat) : (s.advance d).host = s.host := rfl
@[simp] theorem State.advance_hand (d : Nat) : (s.advance d).hand = s.hand := rfl
@[simp] theorem State.advance_boot (d : Nat) : (s.advance d).boot = s.boot := rfl
@[simp] theorem State.advance_upd (d : Nat) : (s.advance d).upd = s.upd := rfl
@[simp] theorem State.advance_pending (d : Nat) : (s.advance d).pending = s.pending := rfl
@[simp] theorem State.advance_rd (d : Nat) (x : Nat) : (s.advance d).rd x = s.rd x := rfl
@[simp] theorem State.advance_fld (d : Nat) (x : Fld) : (s.advance d).fld x = s.fld x := rfl
@[simp] theorem State.advance_byte (d : Nat) (x : Nat) : (s.advance d).byte x = s.byte x := rfl
@[simp] theorem State.advance_mark (d : Nat) (x : Nat) : (s.advance d).mark x = s.mark x := rfl

/-! ### setPort -/

@[simp] theorem State.setPort_regs (p : Nat) (v : PortState) : (s.setPort p v).regs = s.regs := rfl
@[simp] theorem State.setPort_mem (p : Nat) (v : PortState) : (s.setPort p v).mem = s.mem := rfl
@[simp] theorem State.setPort_marks (p : Nat) (v : PortState) : (s.setPort p v).marks = s.marks := rfl
@[simp] theorem State.setPort_latches (p : Nat) (v : PortState) : (s.setPort p v).latches = s.latches := rfl
@[simp] theorem State.setPort_clk (p : Nat) (v : PortState) : (s.setPort p v).clk = s.clk := rfl
@[simp] theorem State.setPort_ctr (p : Nat) (v : PortState) : (s.setPort p v).ctr = s.ctr := rfl
@[simp] theorem State.setPort_past (p : Nat) (v : PortState) : (s.setPort p v).past = s.past := rfl
@[simp] theorem State.setPort_timers (p : Nat) (v : PortState) : (s.setPort p v).timers = s.timers := rfl
@[simp] theorem State.setPort_out (p : Nat) (v : PortState) : (s.setPort p v).out = s.out := rfl
@[simp] theorem State.setPort_freeCtr (p : Nat) (v : PortState) : (s.setPort p v).freeCtr = s.freeCtr := rfl
@[simp] theorem State.setPort_mode (p : Nat) (v : PortState) : (s.setPort p v).mode = s.mode := rfl
@[simp] theorem State.setPort_anat (p : Nat) (v : PortState) : (s.setPort p v).anat = s.anat := rfl
@[simp] theorem State.setPort_ring (p : Nat) (v : PortState) : (s.setPort p v).ring = s.ring := rfl
@[simp] theorem State.setPort_sw (p : Nat) (v : PortState) : (s.setPort p v).sw = s.sw := rfl
@[simp] theorem State.setPort_txn (p : Nat) (v : PortState) : (s.setPort p v).txn = s.txn := rfl
@[simp] theorem State.setPort_fifos (p : Nat) (v : PortState) : (s.setPort p v).fifos = s.fifos := rfl
@[simp] theorem State.setPort_fifoLost (p : Nat) (v : PortState) : (s.setPort p v).fifoLost = s.fifoLost := rfl
@[simp] theorem State.setPort_cyc (p : Nat) (v : PortState) : (s.setPort p v).cyc = s.cyc := rfl
@[simp] theorem State.setPort_field (p : Nat) (v : PortState) : (s.setPort p v).field = s.field := rfl
@[simp] theorem State.setPort_bobs (p : Nat) (v : PortState) : (s.setPort p v).bobs = s.bobs := rfl
@[simp] theorem State.setPort_cans (p : Nat) (v : PortState) : (s.setPort p v).cans = s.cans := rfl
@[simp] theorem State.setPort_stb (p : Nat) (v : PortState) : (s.setPort p v).stb = s.stb := rfl
@[simp] theorem State.setPort_usb (p : Nat) (v : PortState) : (s.setPort p v).usb = s.usb := rfl
@[simp] theorem State.setPort_tim (p : Nat) (v : PortState) : (s.setPort p v).tim = s.tim := rfl
@[simp] theorem State.setPort_pow (p : Nat) (v : PortState) : (s.setPort p v).pow = s.pow := rfl
@[simp] theorem State.setPort_twin (p : Nat) (v : PortState) : (s.setPort p v).twin = s.twin := rfl
@[simp] theorem State.setPort_host (p : Nat) (v : PortState) : (s.setPort p v).host = s.host := rfl
@[simp] theorem State.setPort_hand (p : Nat) (v : PortState) : (s.setPort p v).hand = s.hand := rfl
@[simp] theorem State.setPort_boot (p : Nat) (v : PortState) : (s.setPort p v).boot = s.boot := rfl
@[simp] theorem State.setPort_upd (p : Nat) (v : PortState) : (s.setPort p v).upd = s.upd := rfl
@[simp] theorem State.setPort_pending (p : Nat) (v : PortState) : (s.setPort p v).pending = s.pending := rfl
@[simp] theorem State.setPort_rd (p : Nat) (v : PortState) (x : Nat) : (s.setPort p v).rd x = s.rd x := rfl
@[simp] theorem State.setPort_fld (p : Nat) (v : PortState) (x : Fld) : (s.setPort p v).fld x = s.fld x := rfl
@[simp] theorem State.setPort_byte (p : Nat) (v : PortState) (x : Nat) : (s.setPort p v).byte x = s.byte x := rfl
@[simp] theorem State.setPort_mark (p : Nat) (v : PortState) (x : Nat) : (s.setPort p v).mark x = s.mark x := rfl

/-! ### setPin -/

@[simp] theorem State.setPin_regs (n : Nat) (p : PinState) : (s.setPin n p).regs = s.regs := rfl
@[simp] theorem State.setPin_mem (n : Nat) (p : PinState) : (s.setPin n p).mem = s.mem := rfl
@[simp] theorem State.setPin_marks (n : Nat) (p : PinState) : (s.setPin n p).marks = s.marks := rfl
@[simp] theorem State.setPin_latches (n : Nat) (p : PinState) : (s.setPin n p).latches = s.latches := rfl
@[simp] theorem State.setPin_clk (n : Nat) (p : PinState) : (s.setPin n p).clk = s.clk := rfl
@[simp] theorem State.setPin_ctr (n : Nat) (p : PinState) : (s.setPin n p).ctr = s.ctr := rfl
@[simp] theorem State.setPin_past (n : Nat) (p : PinState) : (s.setPin n p).past = s.past := rfl
@[simp] theorem State.setPin_timers (n : Nat) (p : PinState) : (s.setPin n p).timers = s.timers := rfl
@[simp] theorem State.setPin_out (n : Nat) (p : PinState) : (s.setPin n p).out = s.out := rfl
@[simp] theorem State.setPin_freeCtr (n : Nat) (p : PinState) : (s.setPin n p).freeCtr = s.freeCtr := rfl
@[simp] theorem State.setPin_mode (n : Nat) (p : PinState) : (s.setPin n p).mode = s.mode := rfl
@[simp] theorem State.setPin_anat (n : Nat) (p : PinState) : (s.setPin n p).anat = s.anat := rfl
@[simp] theorem State.setPin_ports (n : Nat) (p : PinState) : (s.setPin n p).ports = s.ports := rfl
@[simp] theorem State.setPin_ring (n : Nat) (p : PinState) : (s.setPin n p).ring = s.ring := rfl
@[simp] theorem State.setPin_sw (n : Nat) (p : PinState) : (s.setPin n p).sw = s.sw := rfl
@[simp] theorem State.setPin_txn (n : Nat) (p : PinState) : (s.setPin n p).txn = s.txn := rfl
@[simp] theorem State.setPin_fifos (n : Nat) (p : PinState) : (s.setPin n p).fifos = s.fifos := rfl
@[simp] theorem State.setPin_fifoLost (n : Nat) (p : PinState) : (s.setPin n p).fifoLost = s.fifoLost := rfl
@[simp] theorem State.setPin_cyc (n : Nat) (p : PinState) : (s.setPin n p).cyc = s.cyc := rfl
@[simp] theorem State.setPin_bobs (n : Nat) (p : PinState) : (s.setPin n p).bobs = s.bobs := rfl
@[simp] theorem State.setPin_cans (n : Nat) (p : PinState) : (s.setPin n p).cans = s.cans := rfl
@[simp] theorem State.setPin_stb (n : Nat) (p : PinState) : (s.setPin n p).stb = s.stb := rfl
@[simp] theorem State.setPin_usb (n : Nat) (p : PinState) : (s.setPin n p).usb = s.usb := rfl
@[simp] theorem State.setPin_tim (n : Nat) (p : PinState) : (s.setPin n p).tim = s.tim := rfl
@[simp] theorem State.setPin_pow (n : Nat) (p : PinState) : (s.setPin n p).pow = s.pow := rfl
@[simp] theorem State.setPin_twin (n : Nat) (p : PinState) : (s.setPin n p).twin = s.twin := rfl
@[simp] theorem State.setPin_host (n : Nat) (p : PinState) : (s.setPin n p).host = s.host := rfl
@[simp] theorem State.setPin_hand (n : Nat) (p : PinState) : (s.setPin n p).hand = s.hand := rfl
@[simp] theorem State.setPin_boot (n : Nat) (p : PinState) : (s.setPin n p).boot = s.boot := rfl
@[simp] theorem State.setPin_upd (n : Nat) (p : PinState) : (s.setPin n p).upd = s.upd := rfl
@[simp] theorem State.setPin_pending (n : Nat) (p : PinState) : (s.setPin n p).pending = s.pending := rfl
@[simp] theorem State.setPin_rd (n : Nat) (p : PinState) (x : Nat) : (s.setPin n p).rd x = s.rd x := rfl
@[simp] theorem State.setPin_fld (n : Nat) (p : PinState) (x : Fld) : (s.setPin n p).fld x = s.fld x := rfl
@[simp] theorem State.setPin_byte (n : Nat) (p : PinState) (x : Nat) : (s.setPin n p).byte x = s.byte x := rfl
@[simp] theorem State.setPin_mark (n : Nat) (p : PinState) (x : Nat) : (s.setPin n p).mark x = s.mark x := rfl

/-! ### setBob -/

@[simp] theorem State.setBob_regs (n : Nat) (b : BobState) : (s.setBob n b).regs = s.regs := rfl
@[simp] theorem State.setBob_mem (n : Nat) (b : BobState) : (s.setBob n b).mem = s.mem := rfl
@[simp] theorem State.setBob_marks (n : Nat) (b : BobState) : (s.setBob n b).marks = s.marks := rfl
@[simp] theorem State.setBob_latches (n : Nat) (b : BobState) : (s.setBob n b).latches = s.latches := rfl
@[simp] theorem State.setBob_clk (n : Nat) (b : BobState) : (s.setBob n b).clk = s.clk := rfl
@[simp] theorem State.setBob_ctr (n : Nat) (b : BobState) : (s.setBob n b).ctr = s.ctr := rfl
@[simp] theorem State.setBob_past (n : Nat) (b : BobState) : (s.setBob n b).past = s.past := rfl
@[simp] theorem State.setBob_timers (n : Nat) (b : BobState) : (s.setBob n b).timers = s.timers := rfl
@[simp] theorem State.setBob_out (n : Nat) (b : BobState) : (s.setBob n b).out = s.out := rfl
@[simp] theorem State.setBob_freeCtr (n : Nat) (b : BobState) : (s.setBob n b).freeCtr = s.freeCtr := rfl
@[simp] theorem State.setBob_mode (n : Nat) (b : BobState) : (s.setBob n b).mode = s.mode := rfl
@[simp] theorem State.setBob_anat (n : Nat) (b : BobState) : (s.setBob n b).anat = s.anat := rfl
@[simp] theorem State.setBob_ports (n : Nat) (b : BobState) : (s.setBob n b).ports = s.ports := rfl
@[simp] theorem State.setBob_ring (n : Nat) (b : BobState) : (s.setBob n b).ring = s.ring := rfl
@[simp] theorem State.setBob_sw (n : Nat) (b : BobState) : (s.setBob n b).sw = s.sw := rfl
@[simp] theorem State.setBob_txn (n : Nat) (b : BobState) : (s.setBob n b).txn = s.txn := rfl
@[simp] theorem State.setBob_fifos (n : Nat) (b : BobState) : (s.setBob n b).fifos = s.fifos := rfl
@[simp] theorem State.setBob_fifoLost (n : Nat) (b : BobState) : (s.setBob n b).fifoLost = s.fifoLost := rfl
@[simp] theorem State.setBob_cyc (n : Nat) (b : BobState) : (s.setBob n b).cyc = s.cyc := rfl
@[simp] theorem State.setBob_field (n : Nat) (b : BobState) : (s.setBob n b).field = s.field := rfl
@[simp] theorem State.setBob_cans (n : Nat) (b : BobState) : (s.setBob n b).cans = s.cans := rfl
@[simp] theorem State.setBob_stb (n : Nat) (b : BobState) : (s.setBob n b).stb = s.stb := rfl
@[simp] theorem State.setBob_usb (n : Nat) (b : BobState) : (s.setBob n b).usb = s.usb := rfl
@[simp] theorem State.setBob_tim (n : Nat) (b : BobState) : (s.setBob n b).tim = s.tim := rfl
@[simp] theorem State.setBob_pow (n : Nat) (b : BobState) : (s.setBob n b).pow = s.pow := rfl
@[simp] theorem State.setBob_twin (n : Nat) (b : BobState) : (s.setBob n b).twin = s.twin := rfl
@[simp] theorem State.setBob_host (n : Nat) (b : BobState) : (s.setBob n b).host = s.host := rfl
@[simp] theorem State.setBob_hand (n : Nat) (b : BobState) : (s.setBob n b).hand = s.hand := rfl
@[simp] theorem State.setBob_boot (n : Nat) (b : BobState) : (s.setBob n b).boot = s.boot := rfl
@[simp] theorem State.setBob_upd (n : Nat) (b : BobState) : (s.setBob n b).upd = s.upd := rfl
@[simp] theorem State.setBob_pending (n : Nat) (b : BobState) : (s.setBob n b).pending = s.pending := rfl
@[simp] theorem State.setBob_rd (n : Nat) (b : BobState) (x : Nat) : (s.setBob n b).rd x = s.rd x := rfl
@[simp] theorem State.setBob_fld (n : Nat) (b : BobState) (x : Fld) : (s.setBob n b).fld x = s.fld x := rfl
@[simp] theorem State.setBob_byte (n : Nat) (b : BobState) (x : Nat) : (s.setBob n b).byte x = s.byte x := rfl
@[simp] theorem State.setBob_mark (n : Nat) (b : BobState) (x : Nat) : (s.setBob n b).mark x = s.mark x := rfl

/-! ### setCan -/

@[simp] theorem State.setCan_regs (n : Nat) (c : CanState) : (s.setCan n c).regs = s.regs := rfl
@[simp] theorem State.setCan_mem (n : Nat) (c : CanState) : (s.setCan n c).mem = s.mem := rfl
@[simp] theorem State.setCan_marks (n : Nat) (c : CanState) : (s.setCan n c).marks = s.marks := rfl
@[simp] theorem State.setCan_latches (n : Nat) (c : CanState) : (s.setCan n c).latches = s.latches := rfl
@[simp] theorem State.setCan_clk (n : Nat) (c : CanState) : (s.setCan n c).clk = s.clk := rfl
@[simp] theorem State.setCan_ctr (n : Nat) (c : CanState) : (s.setCan n c).ctr = s.ctr := rfl
@[simp] theorem State.setCan_past (n : Nat) (c : CanState) : (s.setCan n c).past = s.past := rfl
@[simp] theorem State.setCan_timers (n : Nat) (c : CanState) : (s.setCan n c).timers = s.timers := rfl
@[simp] theorem State.setCan_out (n : Nat) (c : CanState) : (s.setCan n c).out = s.out := rfl
@[simp] theorem State.setCan_freeCtr (n : Nat) (c : CanState) : (s.setCan n c).freeCtr = s.freeCtr := rfl
@[simp] theorem State.setCan_mode (n : Nat) (c : CanState) : (s.setCan n c).mode = s.mode := rfl
@[simp] theorem State.setCan_anat (n : Nat) (c : CanState) : (s.setCan n c).anat = s.anat := rfl
@[simp] theorem State.setCan_ports (n : Nat) (c : CanState) : (s.setCan n c).ports = s.ports := rfl
@[simp] theorem State.setCan_ring (n : Nat) (c : CanState) : (s.setCan n c).ring = s.ring := rfl
@[simp] theorem State.setCan_sw (n : Nat) (c : CanState) : (s.setCan n c).sw = s.sw := rfl
@[simp] theorem State.setCan_txn (n : Nat) (c : CanState) : (s.setCan n c).txn = s.txn := rfl
@[simp] theorem State.setCan_fifos (n : Nat) (c : CanState) : (s.setCan n c).fifos = s.fifos := rfl
@[simp] theorem State.setCan_fifoLost (n : Nat) (c : CanState) : (s.setCan n c).fifoLost = s.fifoLost := rfl
@[simp] theorem State.setCan_cyc (n : Nat) (c : CanState) : (s.setCan n c).cyc = s.cyc := rfl
@[simp] theorem State.setCan_field (n : Nat) (c : CanState) : (s.setCan n c).field = s.field := rfl
@[simp] theorem State.setCan_bobs (n : Nat) (c : CanState) : (s.setCan n c).bobs = s.bobs := rfl
@[simp] theorem State.setCan_stb (n : Nat) (c : CanState) : (s.setCan n c).stb = s.stb := rfl
@[simp] theorem State.setCan_usb (n : Nat) (c : CanState) : (s.setCan n c).usb = s.usb := rfl
@[simp] theorem State.setCan_tim (n : Nat) (c : CanState) : (s.setCan n c).tim = s.tim := rfl
@[simp] theorem State.setCan_pow (n : Nat) (c : CanState) : (s.setCan n c).pow = s.pow := rfl
@[simp] theorem State.setCan_twin (n : Nat) (c : CanState) : (s.setCan n c).twin = s.twin := rfl
@[simp] theorem State.setCan_host (n : Nat) (c : CanState) : (s.setCan n c).host = s.host := rfl
@[simp] theorem State.setCan_hand (n : Nat) (c : CanState) : (s.setCan n c).hand = s.hand := rfl
@[simp] theorem State.setCan_boot (n : Nat) (c : CanState) : (s.setCan n c).boot = s.boot := rfl
@[simp] theorem State.setCan_upd (n : Nat) (c : CanState) : (s.setCan n c).upd = s.upd := rfl
@[simp] theorem State.setCan_pending (n : Nat) (c : CanState) : (s.setCan n c).pending = s.pending := rfl
@[simp] theorem State.setCan_rd (n : Nat) (c : CanState) (x : Nat) : (s.setCan n c).rd x = s.rd x := rfl
@[simp] theorem State.setCan_fld (n : Nat) (c : CanState) (x : Fld) : (s.setCan n c).fld x = s.fld x := rfl
@[simp] theorem State.setCan_byte (n : Nat) (c : CanState) (x : Nat) : (s.setCan n c).byte x = s.byte x := rfl
@[simp] theorem State.setCan_mark (n : Nat) (c : CanState) (x : Nat) : (s.setCan n c).mark x = s.mark x := rfl

/-! ### setCyc -/

@[simp] theorem State.setCyc_regs (c : Cycle) : (s.setCyc c).regs = s.regs := rfl
@[simp] theorem State.setCyc_mem (c : Cycle) : (s.setCyc c).mem = s.mem := rfl
@[simp] theorem State.setCyc_marks (c : Cycle) : (s.setCyc c).marks = s.marks := rfl
@[simp] theorem State.setCyc_latches (c : Cycle) : (s.setCyc c).latches = s.latches := rfl
@[simp] theorem State.setCyc_clk (c : Cycle) : (s.setCyc c).clk = s.clk := rfl
@[simp] theorem State.setCyc_ctr (c : Cycle) : (s.setCyc c).ctr = s.ctr := rfl
@[simp] theorem State.setCyc_past (c : Cycle) : (s.setCyc c).past = s.past := rfl
@[simp] theorem State.setCyc_timers (c : Cycle) : (s.setCyc c).timers = s.timers := rfl
@[simp] theorem State.setCyc_out (c : Cycle) : (s.setCyc c).out = s.out := rfl
@[simp] theorem State.setCyc_freeCtr (c : Cycle) : (s.setCyc c).freeCtr = s.freeCtr := rfl
@[simp] theorem State.setCyc_mode (c : Cycle) : (s.setCyc c).mode = s.mode := rfl
@[simp] theorem State.setCyc_anat (c : Cycle) : (s.setCyc c).anat = s.anat := rfl
@[simp] theorem State.setCyc_ports (c : Cycle) : (s.setCyc c).ports = s.ports := rfl
@[simp] theorem State.setCyc_ring (c : Cycle) : (s.setCyc c).ring = s.ring := rfl
@[simp] theorem State.setCyc_sw (c : Cycle) : (s.setCyc c).sw = s.sw := rfl
@[simp] theorem State.setCyc_txn (c : Cycle) : (s.setCyc c).txn = s.txn := rfl
@[simp] theorem State.setCyc_fifos (c : Cycle) : (s.setCyc c).fifos = s.fifos := rfl
@[simp] theorem State.setCyc_fifoLost (c : Cycle) : (s.setCyc c).fifoLost = s.fifoLost := rfl
@[simp] theorem State.setCyc_field (c : Cycle) : (s.setCyc c).field = s.field := rfl
@[simp] theorem State.setCyc_bobs (c : Cycle) : (s.setCyc c).bobs = s.bobs := rfl
@[simp] theorem State.setCyc_cans (c : Cycle) : (s.setCyc c).cans = s.cans := rfl
@[simp] theorem State.setCyc_stb (c : Cycle) : (s.setCyc c).stb = s.stb := rfl
@[simp] theorem State.setCyc_usb (c : Cycle) : (s.setCyc c).usb = s.usb := rfl
@[simp] theorem State.setCyc_tim (c : Cycle) : (s.setCyc c).tim = s.tim := rfl
@[simp] theorem State.setCyc_pow (c : Cycle) : (s.setCyc c).pow = s.pow := rfl
@[simp] theorem State.setCyc_twin (c : Cycle) : (s.setCyc c).twin = s.twin := rfl
@[simp] theorem State.setCyc_host (c : Cycle) : (s.setCyc c).host = s.host := rfl
@[simp] theorem State.setCyc_hand (c : Cycle) : (s.setCyc c).hand = s.hand := rfl
@[simp] theorem State.setCyc_boot (c : Cycle) : (s.setCyc c).boot = s.boot := rfl
@[simp] theorem State.setCyc_upd (c : Cycle) : (s.setCyc c).upd = s.upd := rfl
@[simp] theorem State.setCyc_pending (c : Cycle) : (s.setCyc c).pending = s.pending := rfl
@[simp] theorem State.setCyc_rd (c : Cycle) (x : Nat) : (s.setCyc c).rd x = s.rd x := rfl
@[simp] theorem State.setCyc_fld (c : Cycle) (x : Fld) : (s.setCyc c).fld x = s.fld x := rfl
@[simp] theorem State.setCyc_byte (c : Cycle) (x : Nat) : (s.setCyc c).byte x = s.byte x := rfl
@[simp] theorem State.setCyc_mark (c : Cycle) (x : Nat) : (s.setCyc c).mark x = s.mark x := rfl

/-! ### setStb -/

@[simp] theorem State.setStb_regs (b : Bridge) : (s.setStb b).regs = s.regs := rfl
@[simp] theorem State.setStb_mem (b : Bridge) : (s.setStb b).mem = s.mem := rfl
@[simp] theorem State.setStb_marks (b : Bridge) : (s.setStb b).marks = s.marks := rfl
@[simp] theorem State.setStb_latches (b : Bridge) : (s.setStb b).latches = s.latches := rfl
@[simp] theorem State.setStb_clk (b : Bridge) : (s.setStb b).clk = s.clk := rfl
@[simp] theorem State.setStb_ctr (b : Bridge) : (s.setStb b).ctr = s.ctr := rfl
@[simp] theorem State.setStb_past (b : Bridge) : (s.setStb b).past = s.past := rfl
@[simp] theorem State.setStb_timers (b : Bridge) : (s.setStb b).timers = s.timers := rfl
@[simp] theorem State.setStb_out (b : Bridge) : (s.setStb b).out = s.out := rfl
@[simp] theorem State.setStb_freeCtr (b : Bridge) : (s.setStb b).freeCtr = s.freeCtr := rfl
@[simp] theorem State.setStb_mode (b : Bridge) : (s.setStb b).mode = s.mode := rfl
@[simp] theorem State.setStb_anat (b : Bridge) : (s.setStb b).anat = s.anat := rfl
@[simp] theorem State.setStb_ports (b : Bridge) : (s.setStb b).ports = s.ports := rfl
@[simp] theorem State.setStb_ring (b : Bridge) : (s.setStb b).ring = s.ring := rfl
@[simp] theorem State.setStb_sw (b : Bridge) : (s.setStb b).sw = s.sw := rfl
@[simp] theorem State.setStb_txn (b : Bridge) : (s.setStb b).txn = s.txn := rfl
@[simp] theorem State.setStb_fifos (b : Bridge) : (s.setStb b).fifos = s.fifos := rfl
@[simp] theorem State.setStb_fifoLost (b : Bridge) : (s.setStb b).fifoLost = s.fifoLost := rfl
@[simp] theorem State.setStb_cyc (b : Bridge) : (s.setStb b).cyc = s.cyc := rfl
@[simp] theorem State.setStb_field (b : Bridge) : (s.setStb b).field = s.field := rfl
@[simp] theorem State.setStb_bobs (b : Bridge) : (s.setStb b).bobs = s.bobs := rfl
@[simp] theorem State.setStb_cans (b : Bridge) : (s.setStb b).cans = s.cans := rfl
@[simp] theorem State.setStb_usb (b : Bridge) : (s.setStb b).usb = s.usb := rfl
@[simp] theorem State.setStb_tim (b : Bridge) : (s.setStb b).tim = s.tim := rfl
@[simp] theorem State.setStb_pow (b : Bridge) : (s.setStb b).pow = s.pow := rfl
@[simp] theorem State.setStb_twin (b : Bridge) : (s.setStb b).twin = s.twin := rfl
@[simp] theorem State.setStb_host (b : Bridge) : (s.setStb b).host = s.host := rfl
@[simp] theorem State.setStb_hand (b : Bridge) : (s.setStb b).hand = s.hand := rfl
@[simp] theorem State.setStb_boot (b : Bridge) : (s.setStb b).boot = s.boot := rfl
@[simp] theorem State.setStb_upd (b : Bridge) : (s.setStb b).upd = s.upd := rfl
@[simp] theorem State.setStb_pending (b : Bridge) : (s.setStb b).pending = s.pending := rfl
@[simp] theorem State.setStb_rd (b : Bridge) (x : Nat) : (s.setStb b).rd x = s.rd x := rfl
@[simp] theorem State.setStb_fld (b : Bridge) (x : Fld) : (s.setStb b).fld x = s.fld x := rfl
@[simp] theorem State.setStb_byte (b : Bridge) (x : Nat) : (s.setStb b).byte x = s.byte x := rfl
@[simp] theorem State.setStb_mark (b : Bridge) (x : Nat) : (s.setStb b).mark x = s.mark x := rfl

/-! ### setUsb -/

@[simp] theorem State.setUsb_regs (u : Usb) : (s.setUsb u).regs = s.regs := rfl
@[simp] theorem State.setUsb_mem (u : Usb) : (s.setUsb u).mem = s.mem := rfl
@[simp] theorem State.setUsb_marks (u : Usb) : (s.setUsb u).marks = s.marks := rfl
@[simp] theorem State.setUsb_latches (u : Usb) : (s.setUsb u).latches = s.latches := rfl
@[simp] theorem State.setUsb_clk (u : Usb) : (s.setUsb u).clk = s.clk := rfl
@[simp] theorem State.setUsb_ctr (u : Usb) : (s.setUsb u).ctr = s.ctr := rfl
@[simp] theorem State.setUsb_past (u : Usb) : (s.setUsb u).past = s.past := rfl
@[simp] theorem State.setUsb_timers (u : Usb) : (s.setUsb u).timers = s.timers := rfl
@[simp] theorem State.setUsb_out (u : Usb) : (s.setUsb u).out = s.out := rfl
@[simp] theorem State.setUsb_freeCtr (u : Usb) : (s.setUsb u).freeCtr = s.freeCtr := rfl
@[simp] theorem State.setUsb_mode (u : Usb) : (s.setUsb u).mode = s.mode := rfl
@[simp] theorem State.setUsb_anat (u : Usb) : (s.setUsb u).anat = s.anat := rfl
@[simp] theorem State.setUsb_ports (u : Usb) : (s.setUsb u).ports = s.ports := rfl
@[simp] theorem State.setUsb_ring (u : Usb) : (s.setUsb u).ring = s.ring := rfl
@[simp] theorem State.setUsb_sw (u : Usb) : (s.setUsb u).sw = s.sw := rfl
@[simp] theorem State.setUsb_txn (u : Usb) : (s.setUsb u).txn = s.txn := rfl
@[simp] theorem State.setUsb_fifos (u : Usb) : (s.setUsb u).fifos = s.fifos := rfl
@[simp] theorem State.setUsb_fifoLost (u : Usb) : (s.setUsb u).fifoLost = s.fifoLost := rfl
@[simp] theorem State.setUsb_cyc (u : Usb) : (s.setUsb u).cyc = s.cyc := rfl
@[simp] theorem State.setUsb_field (u : Usb) : (s.setUsb u).field = s.field := rfl
@[simp] theorem State.setUsb_bobs (u : Usb) : (s.setUsb u).bobs = s.bobs := rfl
@[simp] theorem State.setUsb_cans (u : Usb) : (s.setUsb u).cans = s.cans := rfl
@[simp] theorem State.setUsb_stb (u : Usb) : (s.setUsb u).stb = s.stb := rfl
@[simp] theorem State.setUsb_tim (u : Usb) : (s.setUsb u).tim = s.tim := rfl
@[simp] theorem State.setUsb_pow (u : Usb) : (s.setUsb u).pow = s.pow := rfl
@[simp] theorem State.setUsb_twin (u : Usb) : (s.setUsb u).twin = s.twin := rfl
@[simp] theorem State.setUsb_host (u : Usb) : (s.setUsb u).host = s.host := rfl
@[simp] theorem State.setUsb_hand (u : Usb) : (s.setUsb u).hand = s.hand := rfl
@[simp] theorem State.setUsb_boot (u : Usb) : (s.setUsb u).boot = s.boot := rfl
@[simp] theorem State.setUsb_upd (u : Usb) : (s.setUsb u).upd = s.upd := rfl
@[simp] theorem State.setUsb_pending (u : Usb) : (s.setUsb u).pending = s.pending := rfl
@[simp] theorem State.setUsb_rd (u : Usb) (x : Nat) : (s.setUsb u).rd x = s.rd x := rfl
@[simp] theorem State.setUsb_fld (u : Usb) (x : Fld) : (s.setUsb u).fld x = s.fld x := rfl
@[simp] theorem State.setUsb_byte (u : Usb) (x : Nat) : (s.setUsb u).byte x = s.byte x := rfl
@[simp] theorem State.setUsb_mark (u : Usb) (x : Nat) : (s.setUsb u).mark x = s.mark x := rfl

/-! ### setTim -/

@[simp] theorem State.setTim_regs (t : TimeState) : (s.setTim t).regs = s.regs := rfl
@[simp] theorem State.setTim_mem (t : TimeState) : (s.setTim t).mem = s.mem := rfl
@[simp] theorem State.setTim_marks (t : TimeState) : (s.setTim t).marks = s.marks := rfl
@[simp] theorem State.setTim_latches (t : TimeState) : (s.setTim t).latches = s.latches := rfl
@[simp] theorem State.setTim_clk (t : TimeState) : (s.setTim t).clk = s.clk := rfl
@[simp] theorem State.setTim_ctr (t : TimeState) : (s.setTim t).ctr = s.ctr := rfl
@[simp] theorem State.setTim_past (t : TimeState) : (s.setTim t).past = s.past := rfl
@[simp] theorem State.setTim_timers (t : TimeState) : (s.setTim t).timers = s.timers := rfl
@[simp] theorem State.setTim_out (t : TimeState) : (s.setTim t).out = s.out := rfl
@[simp] theorem State.setTim_freeCtr (t : TimeState) : (s.setTim t).freeCtr = s.freeCtr := rfl
@[simp] theorem State.setTim_mode (t : TimeState) : (s.setTim t).mode = s.mode := rfl
@[simp] theorem State.setTim_anat (t : TimeState) : (s.setTim t).anat = s.anat := rfl
@[simp] theorem State.setTim_ports (t : TimeState) : (s.setTim t).ports = s.ports := rfl
@[simp] theorem State.setTim_ring (t : TimeState) : (s.setTim t).ring = s.ring := rfl
@[simp] theorem State.setTim_sw (t : TimeState) : (s.setTim t).sw = s.sw := rfl
@[simp] theorem State.setTim_txn (t : TimeState) : (s.setTim t).txn = s.txn := rfl
@[simp] theorem State.setTim_fifos (t : TimeState) : (s.setTim t).fifos = s.fifos := rfl
@[simp] theorem State.setTim_fifoLost (t : TimeState) : (s.setTim t).fifoLost = s.fifoLost := rfl
@[simp] theorem State.setTim_cyc (t : TimeState) : (s.setTim t).cyc = s.cyc := rfl
@[simp] theorem State.setTim_field (t : TimeState) : (s.setTim t).field = s.field := rfl
@[simp] theorem State.setTim_bobs (t : TimeState) : (s.setTim t).bobs = s.bobs := rfl
@[simp] theorem State.setTim_cans (t : TimeState) : (s.setTim t).cans = s.cans := rfl
@[simp] theorem State.setTim_stb (t : TimeState) : (s.setTim t).stb = s.stb := rfl
@[simp] theorem State.setTim_usb (t : TimeState) : (s.setTim t).usb = s.usb := rfl
@[simp] theorem State.setTim_pow (t : TimeState) : (s.setTim t).pow = s.pow := rfl
@[simp] theorem State.setTim_twin (t : TimeState) : (s.setTim t).twin = s.twin := rfl
@[simp] theorem State.setTim_host (t : TimeState) : (s.setTim t).host = s.host := rfl
@[simp] theorem State.setTim_hand (t : TimeState) : (s.setTim t).hand = s.hand := rfl
@[simp] theorem State.setTim_boot (t : TimeState) : (s.setTim t).boot = s.boot := rfl
@[simp] theorem State.setTim_upd (t : TimeState) : (s.setTim t).upd = s.upd := rfl
@[simp] theorem State.setTim_pending (t : TimeState) : (s.setTim t).pending = s.pending := rfl
@[simp] theorem State.setTim_rd (t : TimeState) (x : Nat) : (s.setTim t).rd x = s.rd x := rfl
@[simp] theorem State.setTim_fld (t : TimeState) (x : Fld) : (s.setTim t).fld x = s.fld x := rfl
@[simp] theorem State.setTim_byte (t : TimeState) (x : Nat) : (s.setTim t).byte x = s.byte x := rfl
@[simp] theorem State.setTim_mark (t : TimeState) (x : Nat) : (s.setTim t).mark x = s.mark x := rfl

/-! ### setPow -/

@[simp] theorem State.setPow_regs (p : Power) : (s.setPow p).regs = s.regs := rfl
@[simp] theorem State.setPow_mem (p : Power) : (s.setPow p).mem = s.mem := rfl
@[simp] theorem State.setPow_marks (p : Power) : (s.setPow p).marks = s.marks := rfl
@[simp] theorem State.setPow_latches (p : Power) : (s.setPow p).latches = s.latches := rfl
@[simp] theorem State.setPow_clk (p : Power) : (s.setPow p).clk = s.clk := rfl
@[simp] theorem State.setPow_ctr (p : Power) : (s.setPow p).ctr = s.ctr := rfl
@[simp] theorem State.setPow_past (p : Power) : (s.setPow p).past = s.past := rfl
@[simp] theorem State.setPow_timers (p : Power) : (s.setPow p).timers = s.timers := rfl
@[simp] theorem State.setPow_out (p : Power) : (s.setPow p).out = s.out := rfl
@[simp] theorem State.setPow_freeCtr (p : Power) : (s.setPow p).freeCtr = s.freeCtr := rfl
@[simp] theorem State.setPow_mode (p : Power) : (s.setPow p).mode = s.mode := rfl
@[simp] theorem State.setPow_anat (p : Power) : (s.setPow p).anat = s.anat := rfl
@[simp] theorem State.setPow_ports (p : Power) : (s.setPow p).ports = s.ports := rfl
@[simp] theorem State.setPow_ring (p : Power) : (s.setPow p).ring = s.ring := rfl
@[simp] theorem State.setPow_sw (p : Power) : (s.setPow p).sw = s.sw := rfl
@[simp] theorem State.setPow_txn (p : Power) : (s.setPow p).txn = s.txn := rfl
@[simp] theorem State.setPow_fifos (p : Power) : (s.setPow p).fifos = s.fifos := rfl
@[simp] theorem State.setPow_fifoLost (p : Power) : (s.setPow p).fifoLost = s.fifoLost := rfl
@[simp] theorem State.setPow_cyc (p : Power) : (s.setPow p).cyc = s.cyc := rfl
@[simp] theorem State.setPow_field (p : Power) : (s.setPow p).field = s.field := rfl
@[simp] theorem State.setPow_bobs (p : Power) : (s.setPow p).bobs = s.bobs := rfl
@[simp] theorem State.setPow_cans (p : Power) : (s.setPow p).cans = s.cans := rfl
@[simp] theorem State.setPow_stb (p : Power) : (s.setPow p).stb = s.stb := rfl
@[simp] theorem State.setPow_usb (p : Power) : (s.setPow p).usb = s.usb := rfl
@[simp] theorem State.setPow_tim (p : Power) : (s.setPow p).tim = s.tim := rfl
@[simp] theorem State.setPow_twin (p : Power) : (s.setPow p).twin = s.twin := rfl
@[simp] theorem State.setPow_host (p : Power) : (s.setPow p).host = s.host := rfl
@[simp] theorem State.setPow_hand (p : Power) : (s.setPow p).hand = s.hand := rfl
@[simp] theorem State.setPow_boot (p : Power) : (s.setPow p).boot = s.boot := rfl
@[simp] theorem State.setPow_upd (p : Power) : (s.setPow p).upd = s.upd := rfl
@[simp] theorem State.setPow_pending (p : Power) : (s.setPow p).pending = s.pending := rfl
@[simp] theorem State.setPow_rd (p : Power) (x : Nat) : (s.setPow p).rd x = s.rd x := rfl
@[simp] theorem State.setPow_fld (p : Power) (x : Fld) : (s.setPow p).fld x = s.fld x := rfl
@[simp] theorem State.setPow_byte (p : Power) (x : Nat) : (s.setPow p).byte x = s.byte x := rfl
@[simp] theorem State.setPow_mark (p : Power) (x : Nat) : (s.setPow p).mark x = s.mark x := rfl

/-! ### setTwin -/

@[simp] theorem State.setTwin_regs (t : Twin) : (s.setTwin t).regs = s.regs := rfl
@[simp] theorem State.setTwin_mem (t : Twin) : (s.setTwin t).mem = s.mem := rfl
@[simp] theorem State.setTwin_marks (t : Twin) : (s.setTwin t).marks = s.marks := rfl
@[simp] theorem State.setTwin_latches (t : Twin) : (s.setTwin t).latches = s.latches := rfl
@[simp] theorem State.setTwin_clk (t : Twin) : (s.setTwin t).clk = s.clk := rfl
@[simp] theorem State.setTwin_ctr (t : Twin) : (s.setTwin t).ctr = s.ctr := rfl
@[simp] theorem State.setTwin_past (t : Twin) : (s.setTwin t).past = s.past := rfl
@[simp] theorem State.setTwin_timers (t : Twin) : (s.setTwin t).timers = s.timers := rfl
@[simp] theorem State.setTwin_out (t : Twin) : (s.setTwin t).out = s.out := rfl
@[simp] theorem State.setTwin_freeCtr (t : Twin) : (s.setTwin t).freeCtr = s.freeCtr := rfl
@[simp] theorem State.setTwin_mode (t : Twin) : (s.setTwin t).mode = s.mode := rfl
@[simp] theorem State.setTwin_anat (t : Twin) : (s.setTwin t).anat = s.anat := rfl
@[simp] theorem State.setTwin_ports (t : Twin) : (s.setTwin t).ports = s.ports := rfl
@[simp] theorem State.setTwin_ring (t : Twin) : (s.setTwin t).ring = s.ring := rfl
@[simp] theorem State.setTwin_sw (t : Twin) : (s.setTwin t).sw = s.sw := rfl
@[simp] theorem State.setTwin_txn (t : Twin) : (s.setTwin t).txn = s.txn := rfl
@[simp] theorem State.setTwin_fifos (t : Twin) : (s.setTwin t).fifos = s.fifos := rfl
@[simp] theorem State.setTwin_fifoLost (t : Twin) : (s.setTwin t).fifoLost = s.fifoLost := rfl
@[simp] theorem State.setTwin_cyc (t : Twin) : (s.setTwin t).cyc = s.cyc := rfl
@[simp] theorem State.setTwin_field (t : Twin) : (s.setTwin t).field = s.field := rfl
@[simp] theorem State.setTwin_bobs (t : Twin) : (s.setTwin t).bobs = s.bobs := rfl
@[simp] theorem State.setTwin_cans (t : Twin) : (s.setTwin t).cans = s.cans := rfl
@[simp] theorem State.setTwin_stb (t : Twin) : (s.setTwin t).stb = s.stb := rfl
@[simp] theorem State.setTwin_usb (t : Twin) : (s.setTwin t).usb = s.usb := rfl
@[simp] theorem State.setTwin_tim (t : Twin) : (s.setTwin t).tim = s.tim := rfl
@[simp] theorem State.setTwin_pow (t : Twin) : (s.setTwin t).pow = s.pow := rfl
@[simp] theorem State.setTwin_host (t : Twin) : (s.setTwin t).host = s.host := rfl
@[simp] theorem State.setTwin_hand (t : Twin) : (s.setTwin t).hand = s.hand := rfl
@[simp] theorem State.setTwin_boot (t : Twin) : (s.setTwin t).boot = s.boot := rfl
@[simp] theorem State.setTwin_upd (t : Twin) : (s.setTwin t).upd = s.upd := rfl
@[simp] theorem State.setTwin_pending (t : Twin) : (s.setTwin t).pending = s.pending := rfl
@[simp] theorem State.setTwin_rd (t : Twin) (x : Nat) : (s.setTwin t).rd x = s.rd x := rfl
@[simp] theorem State.setTwin_fld (t : Twin) (x : Fld) : (s.setTwin t).fld x = s.fld x := rfl
@[simp] theorem State.setTwin_byte (t : Twin) (x : Nat) : (s.setTwin t).byte x = s.byte x := rfl
@[simp] theorem State.setTwin_mark (t : Twin) (x : Nat) : (s.setTwin t).mark x = s.mark x := rfl

end Sys2Proof.Machine
end

