-- ==== Sys2Proof/Laws/Ops.lean ====
section
/-!
SUPPORT. The shared operations: what each can do, said once. Registers and fields, counters, memory bytes and the canonical form of
memory, deadlines, and the wrappers of commands.
-/

namespace Sys2Proof.Machine

/-! ### Registers -/

@[simp] theorem State.rd_wr_same (s : State) (a : Nat) (v : Word) : (s.wr a v).rd a = v := by
  simp [State.rd, State.wr]

theorem State.rd_wr_ne (s : State) {a b : Nat} (v : Word) (h : b ≠ a) : (s.wr a v).rd b = s.rd b := by
  simp only [State.rd, State.wr]
  exact Tab.get_set_ne _ _ _ _ h

@[simp] theorem State.rd_wr (s : State) (a b : Nat) (v : Word) : (s.wr a v).rd b = if b = a then v else s.rd b := by
  split
  · subst b; simp
  · rename_i h; exact s.rd_wr_ne v h

/-- The bits of a word with a field replaced, bit by bit. -/
theorem getLsbD_putBits (w : Word) (lo n v i : Nat) (hi : i < 32) :
    (putBits w lo n v).getLsbD i = if lo ≤ i ∧ i < lo + n then v.testBit (i - lo) else w.getLsbD i := by
  simp only [putBits, BitVec.getLsbD_or, BitVec.getLsbD_and, BitVec.getLsbD_not, BitVec.getLsbD_ofNat, hi, decide_true,
    Bool.true_and, Nat.testBit_mul_two_pow, Nat.testBit_two_pow_sub_one, Nat.testBit_mod_two_pow]
  by_cases h : lo ≤ i
  · by_cases h' : i - lo < n
    · have : i < lo + n := by omega
      simp [h, h', this]
    · have : ¬ i < lo + n := by omega
      simp [h, h', this]
  · simp [h]

/-- A field reads as it was put, cut to its width. -/
theorem bits_putBits_same (w : Word) (lo n v : Nat) (h : lo + n ≤ 32) : bits (putBits w lo n v) lo n = v % 2 ^ n := by
  apply Nat.eq_of_testBit_eq
  intro i
  simp only [bits, BitVec.testBit_toNat, BitVec.getLsbD_extractLsb', Nat.testBit_mod_two_pow]
  by_cases hi : i < n
  · rw [getLsbD_putBits _ _ _ _ _ (by omega)]
    have : lo + i - lo = i := by omega
    simp [hi, this]
  · simp [hi]

/-- A field that does not meet the one put reads as before. -/
theorem bits_putBits_ne (w : Word) (lo n v lo' n' : Nat) (h : lo' + n' ≤ lo ∨ lo + n ≤ lo') (h' : lo' + n' ≤ 32) :
    bits (putBits w lo n v) lo' n' = bits w lo' n' := by
  apply Nat.eq_of_testBit_eq
  intro i
  simp only [bits, BitVec.testBit_toNat, BitVec.getLsbD_extractLsb']
  by_cases hi : i < n'
  · rw [getLsbD_putBits _ _ _ _ _ (by omega)]
    have : ¬ (lo ≤ lo' + i ∧ lo' + i < lo + n) := by omega
    simp [this]
  · simp [hi]

/-- A field after a write of the same field. -/
theorem State.fld_setFld_same (s : State) (f : Fld) (v : Nat) (h : f.lo + f.width ≤ 32) :
    (s.setFld f v).fld f = v % 2 ^ f.width := by
  simp [State.fld, State.setFld, bits_putBits_same _ _ _ _ h]

/-- A field of another register, or one that does not meet the written one. -/
theorem State.fld_setFld_ne (s : State) (f g : Fld) (v : Nat)
    (h : g.reg ≠ f.reg ∨ ((g.lo + g.width ≤ f.lo ∨ f.lo + f.width ≤ g.lo) ∧ g.lo + g.width ≤ 32)) :
    (s.setFld f v).fld g = s.fld g := by
  simp only [State.fld, State.setFld, State.rd_wr]
  split
  · rename_i hr
    rcases h with h | ⟨h, h'⟩
    · exact absurd hr h
    · rw [bits_putBits_ne _ _ _ _ _ _ h h', hr]
  · rfl

/-- A register other than the field's keeps its value. -/
theorem State.rd_setFld_ne (s : State) (f : Fld) (v : Nat) {a : Nat} (h : a ≠ f.reg) : (s.setFld f v).rd a = s.rd a :=
  s.rd_wr_ne _ h

/-- A counter saturates at all-ones (00 R9). -/
@[simp] theorem State.rd_bumpBy (s : State) (a n b : Nat) :
    (s.bumpBy a n).rd b = if b = a then BitVec.ofNat 32 (min ((s.rd a).toNat + n) 0xFFFFFFFF) else s.rd b := by
  simp [State.bumpBy]

@[simp] theorem State.rd_bump (s : State) (a b : Nat) :
    (s.bump a).rd b = if b = a then BitVec.ofNat 32 (min ((s.rd a).toNat + 1) 0xFFFFFFFF) else s.rd b := by
  simp [State.bump]

@[simp] theorem State.onlyIf_true (f : State → State) (s : State) : s.onlyIf true f = f s := rfl
@[simp] theorem State.onlyIf_false (f : State → State) (s : State) : s.onlyIf false f = s := rfl

/-- What holds of the state and survives each step survives the iteration. -/
theorem State.forEach_induct {β : Type} (P : State → Prop) (l : List β) (f : β → State → State) (s : State) (h0 : P s)
    (h : ∀ b ∈ l, ∀ t, P t → P (f b t)) : P (s.forEach l f) := by
  unfold State.forEach
  induction l generalizing s with
  | nil => exact h0
  | cons b t ih => exact ih (f b s) (h b (by simp) s h0) fun b' hb u hu => h b' (List.mem_cons_of_mem _ hb) u hu

/-- Every register of the domains named takes its reset value but those that a reset leaves; the others keep theirs. -/
theorem State.rd_resetRegs (p : Dom → Bool) (s : State) (a : Nat) :
    (s.resetRegs p).rd a = if p (regDom a) && !unreset a then regReset a else s.rd a := by
  have h := Tab.get_filter regReset s.regs (fun a => !p (regDom a) || unreset a) a
  simp only [State.rd, State.resetRegs]
  rw [h]
  cases p (regDom a) <;> cases unreset a <;> simp

/-- Where a watched bit has risen the control processor is interrupted once (08 R218, 10 R266). -/
theorem State.irqRise_rises (line : Nat) (active : State → Word) (s before : State) (h : active s &&& ~~~active before ≠ 0#32) :
    s.irqRise line active before = s.irq line := by
  simp [State.irqRise, h]

/-- Where none has risen nothing happens. -/
theorem State.irqRise_idle (line : Nat) (active : State → Word) (s before : State) (h : active s &&& ~~~active before = 0#32) :
    s.irqRise line active before = s := by
  simp [State.irqRise, h]

/-! ### Memory -/

@[simp] theorem State.byte_setByte (s : State) (a x : Nat) (b : Byte) : (s.setByte a b).byte x = if x = a then b else s.byte x := by
  simp only [State.byte, State.setByte]
  split
  · subst x; simp
  · rename_i h; exact Tab.get_set_ne _ _ _ _ h

/-- Bytes after a store: those stored, and every other as before. -/
theorem State.byte_writeBytes (a : Nat) (l : List Byte) (s : State) (x : Nat) :
    (s.writeBytes a l).byte x = if a ≤ x ∧ x < a + l.length then l.getD (x - a) 0#8 else s.byte x := by
  induction l generalizing a s with
  | nil =>
    have : ¬ (a ≤ x ∧ x < a + ([] : List Byte).length) := by simp
    simp only [this, ↓reduceIte]; rfl
  | cons b t ih =>
    rw [State.writeBytes, ih, State.byte_setByte]
    by_cases h : x = a
    · subst h
      have h1 : ¬ (x + 1 ≤ x ∧ x < x + 1 + t.length) := by omega
      simp [h1]
    · by_cases h2 : a + 1 ≤ x ∧ x < a + 1 + t.length
      · have h3 : a ≤ x ∧ x < a + (b :: t).length := by simp; omega
        have h4 : x - a = (x - (a + 1)) + 1 := by omega
        rw [if_pos h2, if_pos h3, h4, List.getD_cons_succ]
      · have h3 : ¬ (a ≤ x ∧ x < a + (b :: t).length) := by simp; omega
        rw [if_neg h2, if_neg h3, if_neg h]

/-- A store keeps the canonical form of memory. -/
theorem Memory.wf_setByte (a : Nat) (b : Byte) (s : State) (h : Memory.wf s.mem = true) : Memory.wf (s.setByte a b).mem = true :=
  Tab.wf_set (fun _ => 0#8) a b h

/-- A store of several bytes keeps it. -/
theorem Memory.wf_writeBytes (a : Nat) (l : List Byte) (s : State) (h : Memory.wf s.mem = true) :
    Memory.wf (s.writeBytes a l).mem = true := by
  induction l generalizing a s with
  | nil => exact h
  | cons b t ih => exact ih (a + 1) (s.setByte a b) (Memory.wf_setByte a b s h)

/-- Dropping bytes, as a reset does, keeps it. -/
theorem Memory.wf_filter (p : Host.Cell → Bool) (m : List Host.Cell) (h : Memory.wf m = true) : Memory.wf (m.filter p) = true :=
  Tab.wf_filter _ p h

/-- Reset memory has the form. -/
theorem Memory.wf_reset : Memory.wf State.reset.mem = true := rfl

/-- Checking words changes no byte. -/
theorem State.checkWord_mem (w : Nat) (s : State) : (s.checkWord w).2.mem = s.mem := by
  unfold State.checkWord
  simp only
  split
  · rfl
  · split
    · split <;> simp
    · split
      · simp [State.dramCorrected]
      · simp only [State.dramBad]; split <;> simp

theorem State.checkWords_mem (l : List Nat) (s : State) : (s.checkWords l).2.mem = s.mem := by
  induction l generalizing s with
  | nil => rfl
  | cons w t ih =>
    simp only [State.checkWords]
    rw [ih, State.checkWord_mem]

theorem State.addUpsets_mem (l : List Upset) (s : State) : (s.addUpsets l).mem = s.mem := by
  refine State.forEach_induct (fun t => t.mem = s.mem) l _ s rfl ?_
  intro u _ t ht
  by_cases h : u.grade = 0
  · simpa [h] using ht
  · simp only [h, ↓reduceIte]
    split <;> (try split) <;> simp [ht]

/-- Marks change no byte. -/
theorem State.forEach_setMark_mem {β : Type} (l : List β) (f : β → Nat) (g : Nat) (s : State) :
    (s.forEach l fun i u => u.setMark (f i) g).mem = s.mem :=
  State.forEach_induct (fun t => t.mem = s.mem) l _ s rfl fun _ _ _ ht => ht

/-- A read changes no byte (05 R121). -/
theorem State.memRead_mem (a n : Nat) (ups : List Upset) (s : State) : (s.memRead a n ups).2.2.mem = s.mem := by
  unfold State.memRead
  simp only
  split
  · split
    · simp [State.addUpsets_mem]
    · split <;> simp [State.addUpsets_mem]
  · split <;> simp [State.checkWords_mem, State.addUpsets_mem]

/-- Storing bytes leaves the memory that the bytes give: the marks change no byte. -/
@[simp] theorem State.memPut_mem (a : Nat) (data : List Byte) (s : State) : (s.memPut a data).mem = (s.writeBytes a data).mem := by
  unfold State.memPut
  simp only
  split <;> exact State.forEach_setMark_mem _ _ _ _

/-- A write either refuses and changes no byte, or stores its data. -/
theorem State.memWrite_mem (a : Nat) (data : List Byte) (ups : List Upset) (s : State) :
    ((s.memWrite a data ups).1 = .poisoned ∧ (s.memWrite a data ups).2.mem = s.mem) ∨
    ((s.memWrite a data ups).1 = .ok ∧ ∃ t : State, t.mem = s.mem ∧ (s.memWrite a data ups).2.mem = (t.writeBytes a data).mem) := by
  unfold State.memWrite
  simp only
  split
  · exact .inr ⟨rfl, _, State.addUpsets_mem ups s, State.memPut_mem _ _ _⟩
  · split
    · exact .inl ⟨rfl, by simp [State.checkWords_mem, State.addUpsets_mem]⟩
    · exact .inr ⟨rfl, _, by rw [State.checkWords_mem, State.addUpsets_mem], State.memPut_mem _ _ _⟩

/-- Every write to memory keeps the canonical form. -/
theorem Memory.wf_memWrite (a : Nat) (data : List Byte) (ups : List Upset) (s : State) (h : Memory.wf s.mem = true) :
    Memory.wf (s.memWrite a data ups).2.mem = true := by
  rcases s.memWrite_mem a data ups with ⟨-, h1⟩ | ⟨-, t, ht, h1⟩
  · rw [h1]; exact h
  · rw [h1]; exact Memory.wf_writeBytes a data t (ht ▸ h)

/-! ### Deadlines -/

/-- An event of a deadline that is not armed does nothing. -/
theorem State.expiry_idle (t : Timer) (f : State → State) (s : State) (h : s.armed t = false) : s.expiry t f = s := by
  simp [State.expiry, h]

/-- An event of an armed deadline acts at the deadline. -/
theorem State.expiry_armed (t : Timer) (f : State → State) (s : State) (h : s.armed t = true) : s.expiry t f = f (s.expire t) := by
  simp [State.expiry, h]

/-! ### Wrappers of commands -/

/-- A register command of a running block acts and is answered. -/
theorem State.command_run (u : Option ResetUnit) (f : State → Res) (s : State) (h1 : s.anat.kaHeld = false)
    (h2 : s.anat.mainHeld = false) (h3 : (u.map s.unitBusy).getD false = false) (h4 : s.mode ≠ .load ∨ s.boot.applying = true) :
    s.command u f = answer (f s) := by
  unfold State.command
  have : ¬ (s.mode = .load ∧ s.boot.applying = false) := by rcases h4 with h | h <;> simp [h]
  simp [h1, h2, h3]
  intro hm
  exact fun ha => absurd ⟨hm, ha⟩ this

/-- In reset a register command is answered TARGET_RESET (01 R23, R25). -/
theorem State.command_reset (u : Option ResetUnit) (f : State → Res) (s : State) (h1 : s.anat.kaHeld = false)
    (h2 : s.anat.mainHeld = true ∨ (u.map s.unitBusy).getD false = true) : s.command u f = answer (refuse .targetReset s) := by
  unfold State.command
  rcases h2 with h | h <;> simp [h1, h]

/-- Everything that a register command can do. -/
theorem State.command_cases (u : Option ResetUnit) (f : State → Res) (s : State) :
    s.command u f = s ∨ s.command u f = answer (refuse .targetReset s) ∨ s.command u f = answer (refuse .wrongMode s) ∨
    s.command u f = answer (f s) := by
  unfold State.command
  split
  · exact .inl rfl
  · split
    · exact .inr (.inl rfl)
    · split
      · exact .inr (.inr (.inl rfl))
      · exact .inr (.inr (.inr rfl))

/-- A refusal changes registers only. -/
theorem refuse_same (st : Status) (s : State) : (refuse st s).1 = st ∧ { (refuse st s).2 with regs := s.regs } = s := by
  cases st <;> exact ⟨rfl, rfl⟩

end Sys2Proof.Machine
end

