-- ==== Sys2Proof/Tests/Slice0.lean ====
section
/-!
SUPPORT. Small tests: ill-formed commands refused, worked examples of the spec, and one witness per statement that its
hypotheses can be met together.
-/

open Sys2Proof Sys2Proof.Machine

set_option maxRecDepth 20000

namespace Sys2Proof.Tests

/-! ### Small states -/

/-- In field service outside the ring. -/
def inService : State := { mode := .isolated, boot := { rom := false } }

/-- A firmware manifest of version `v`. -/
def manifestBytes (v : Byte) : List Byte :=
  [0x4F, 0x56, 0x4D, 0x46, 1, 1, 0, 0, v, 0, 0, 0, 0, 0x10, 0, 0, 1, 0, 1, 0, 0x60, 0x41, 0, 0]

/-- Two bootable firmware slots, slot 1 the newer. -/
def twoSlots : State := ({} : State).nvPut 0x100000 (manifestBytes 1) |>.nvPut 0xD00000 (manifestBytes 2)

/-- A module is ready at port `p`. -/
def readyPort (p : Nat) : State :=
  (((inService.on (Fd.PORT_STAT_MOD_PRESENT p)).on (Fd.PORT_STAT_MOD_READY p)).off (Fd.PORT_STAT_TXDIS p)).setFld (Fd.PORT_STAT_SPEED_ACT p) 2

/-- Node 7 of ring 4 in Seamless, both ring links up. -/
def linked : State :=
  let s := (((inService.setIdentity 4 7).on (Fd.PORT_STAT_LINK_UP 0)).on (Fd.PORT_STAT_LINK_UP 1)).setFld Fd.SWC_SWC_STAT_PATH 0
  { s with mode := .seamless }

/-- A frame of node 9 of ring 4 for node 118 of it. -/
def aFrame (kind : BitVec 5) (cls : BitVec 3) : Frame :=
  ({ da := macNode 4 118, sa := macNode 4 9, kind, cls, seam := true, hops := 100#10, srcRing := 4#6, srcNode := 9#9,
     dstRing := 4#6, dstNode := 118#9, seq := 33067#16, payload := List.replicate 8 0#8, len := 8#12 } : Frame).sealed

/-- A request of this node in DRAM. -/
def aReq (n size : Nat) (data : List Byte) : Request :=
  { srcRing := 0#6, srcNode := 0#9, init := 0#4, cls := 6#3, flow := 0#6, tag := 0#9, addr := 0x20000000#40,
    bytes := BitVec.ofNat 9 n, size := BitVec.ofNat 2 size, len := BitVec.ofNat 12 (8 + data.length), data }

/-- The request holds a serve entry. -/
def served (k : ReqKind) (q : Request) : State := inService.arrive k q

/-- The hypotheses on a memory request, as a test. -/
def ReadyB (s : State) (k : ReqKind) (q : Request) : Bool :=
  !s.anat.kaHeld && s.serving && !s.boot.applying && s.txn.serve.contains (k, q) && !s.waits k q &&
  s.checks k q == (.ok, s) && s.region q.addr.toNat == .dram && (wordsOf q.addr.toNat q.bytes.toNat).all fun w => s.mark w == 0

/-- A state that passes the test meets `Ready`. -/
theorem ready_of_test {s : State} {k : ReqKind} {q : Request} (h : ReadyB s k q = true) : Ready s k q := by
  simpa [ReadyB, Ready, and_assoc] using h

/-- The hypotheses on a fetched row, as a test. -/
def FetchesB (s : State) (n : Fin 64) (addr a : Nat) : Bool :=
  s.bobRun n != 0 && s.bobsExecute n && s.nextRow n == addr && s.rowWord n addr / 2 ^ 17 % 16 == a && s.mark (rowAddr n addr) == 0

/-- A state that passes the test meets `Fetches`. -/
theorem fetches_of_test {s : State} {n : Fin 64} {addr a : Nat} (h : FetchesB s n addr a = true) :
    Fetches s n addr (s.rowWord n addr) a := by
  simpa [FetchesB, Fetches, and_assoc] using h

/-- Bobbin 0 runs, its row 0 has action `a`. -/
def rowed (a : Nat) : State := (inService.startBob 0).writeBytes (rowAddr 0 0) (leBytes 4 (a * 2 ^ 17))

/-- Stream 0 runs with this node as its master, and the node publishes in slot 0. -/
def cycling : State :=
  let s := ((linked.wr (Reg.CYC_PERIOD 0) 1000000#32).wr (Reg.CYC_LAUNCH_OFS 0) 10000#32).wr (Reg.CYC_APPLY_OFS 0) 500000#32
  ((s.wr (Reg.CYC_STR_CFG 0) 0x90020040#32).on Fd.CYC_CYC_CTL_EN).on Fd.CYC_PUB_CFG_EN

/-- The journal writer runs and one record waits. -/
def journalling : State :=
  { ((inService.wr Reg.JRN_CAP 64#32).on Fd.JRN_JRN_CTL_EN) with field := { inService.field with writerRuns := true } }

/-- A PTP message of type `t` for domain 0 in a TIME frame. -/
def ptpFrame (t : Byte) : Frame :=
  { aFrame Kd.time 7#3 with payload := [1, 0, 0, 0, t, 2] ++ List.replicate 62 0#8, len := 68#12 }

/-- The first package of a twin in state `n`, its partner ready. -/
def twinState (n : Nat) : State :=
  let s := ((inService.on Fd.TWIN_TWIN_CFG_EN).on Fd.TWIN_TWIN_STAT_TETHER_OK).on Fd.TWIN_TWIN_STAT_PARTNER_READY
  { s.setTwinState n with mode := if n ≤ 2 then .standby else .isolated }

/-- Software drives pin `n` high. -/
def drivenPin (n : Nat) : State :=
  let s := (inService.setFld (Fd.PIN_STAT_OWNER n) 1).on ⟨Reg.PB_OUT (n / 16), n % 16, 1⟩
  { s with anat := { s.anat with outputsReleased := false } }

/-- A TWIN message of the first package. -/
def twinFrame (type : Byte) (gseq : Nat) : Frame :=
  { aFrame Kd.twin 7#3 with payload := [type, 0] ++ beBytes 2 gseq ++ List.replicate 20 0#8, len := 24#12 }

/-- A CHUNK message for this node. -/
def chunkFrame (ctype op : Byte) : Frame :=
  { aFrame Kd.chunk 2#3 with payload := [ctype, op] ++ List.replicate 1454 0#8, len := 1456#12 }

/-- The state after a command. -/
def after (o : Host.Outcome State Fault Refusal) : State :=
  match o with
  | .next s => s
  | _ => State.reset

/-! ### Ill-formed commands are refused by the check -/

theorem test_wf_frame_too_long : Instr.wf (.spurFrameRx { aFrame Kd.read 6#3 with payload := List.replicate 1489 0#8 } none) = false ∧
    Instr.wf (.ringFrameRx 0 (aFrame Kd.read 6#3)) = true := by decide

theorem test_wf_request_too_long : Instr.wf (.read (aReq 8 0 (List.replicate 1481 0#8)) []) = false ∧
    Instr.wf (.read (aReq 8 0 []) []) = true := by decide

theorem test_wf_lengths : Instr.wf (.moduleIdentityRead 0 true []) = false ∧ Instr.wf (.ddmPoll 0 [] []) = false ∧
    Instr.wf (.txPush 0 [1] [0]) = false ∧ Instr.wf (.bridgeRequestEnd (List.replicate 1537 (0#32, false))) = false ∧
    Instr.wf (.stErr 1 []) = false ∧ Instr.wf (.readAhead (List.replicate 17 (0#32, false)) false) = false ∧
    Instr.wf (.tetherHeartbeat {}) = false ∧ Instr.wf (.patrolScrub [⟨0, 0⟩] true) = false ∧
    Instr.wf (.hostWrite 0#24 [] (some 1#12)) = false ∧ Instr.wf (.mbPop 0#8 [0]) = false ∧
    Instr.wf (.registerWrite 0 0#40 [1]) = false ∧ Instr.wf (.updControl 1#8 [] 0#64 true) = false ∧
    Instr.wf (.stateDelta [(0#40, List.replicate 257 0#8)]) = false := by decide

/-! ### Worked examples of the spec -/

/-- 03 R56: header of a beacon from 4.1, eastward copy. -/
theorem test_header_beacon :
    let f : Frame := { da := 0#48, sa := 0#48, cls := 7#3, seam := true, kind := Kd.beacon, hops := 212#10, srcRing := 4#6, srcNode := 1#9,
                       dstRing := 4#6, dstNode := 511#9, seq := 0x0C31#16, len := 176#12 }
    f.headBytes 0#10 = [0x2F, 0x50, 0, 0, 0x10, 2, 0x13, 0xFE, 0x0C, 0x31, 0, 0, 0, 0xB0] ∧
    f.headBytes 212#10 = [0x2F, 0x50, 0x35, 0, 0x10, 2, 0x13, 0xFE, 0x0C, 0x31, 0, 0, 0, 0xB0] ∧ f.check = 0x530B#16 := by decide

/-- 05: the READ of the worked example and its CPL. -/
theorem test_header_read :
    let f : Frame := { da := 0#48, sa := 0#48, cls := 6#3, seam := true, kind := Kd.read, flow := 2#6, srcRing := 4#6, srcNode := 20#9,
                       dstRing := 4#6, dstNode := 100#9, seq := 0x0100#16, tag := 0x023#9, len := 8#12 }
    f.check = 0xA29B#16 ∧ { f with kind := Kd.cpl, srcNode := 100#9, dstNode := 20#9, seq := 0x07A2#16, len := 16#12 }.check = 0xDC5A#16 := by
  decide

/-- 03 R73: the two flows from 4.20 to 4.100. -/
theorem test_split_hash :
    let s := (inService.setIdentity 4 20).wr Reg.WARDEN_SEED 0x4C1D#32
    crc16 0x4C1D#16 [0x00, 0x14, 0x00, 0x64, 0x02] = 0x8E98#16 ∧ crc16 0x4C1D#16 [0x00, 0x14, 0x00, 0x64, 0x03] = 0x9EB9#16 ∧
    s.hashDir 100 2 = false ∧ s.hashDir 100 3 = true := by decide

/-- 08: the start row of the UART pricking, written at its address. -/
theorem test_uart_start_row : let s := after (execPrickingWrite 0 0x208#12 [0x41, 0x18, 0x08, 0x00] inService)
    rowAddr 0 0x082 = 0x3100000208 ∧ s.rowWord 0 0x082 = 0x00081841 ∧ s.byte 0x3100000208 = 0x41#8 := by decide

/-- 08: the start row takes the word and goes to state 1. -/
theorem test_uart_start : let s := ((inService.startBob 0).writeBytes (rowAddr 0 0) [0x41, 0x18, 0x08, 0x00]).setBob 0 { tx := [{ data := 0x55#32 }] }
    (after (execPull 0 s)).fld (Fd.BOB_STAT_STATE 0) = 1 ∧ (after (execPull 0 s)).rd (Reg.BOB_SR 0) = 0x55#32 ∧
    ((after (execPull 0 s)).bob 0).tx = [] := by decide

/-- 10 R253: the byte order table, request (a). -/
theorem test_byte_order_word :
    let m : Nat → StWin := fun b => ⟨0, 0, 4096, 0x400000, BitVec.ofNat 32 (2 ^ 31 + b * 4096 + 512), 10⟩
    let v : Nat → Byte := fun o => if o = 0x100 then 0x44#8 else if o = 0x101 then 0x33#8 else if o = 0x102 then 0x22#8 else 0x11#8
    [0, 1, 2, 3].map (fun b => (m b).onBus true v ((m b).beats 0x100 4)) =
      [.stitch 0 true [(0x400100, [(0, 0x11223344)])], .stitch 0 true [(0x400100, [(0, 0x44332211)])],
       .stitch 0 true [(0x400100, [(0, 0x33441122)])], .stitch 0 true [(0x400100, [(0, 0x11223344)])]] := by decide

/-- 10 R253: the byte order table, request (b). -/
theorem test_byte_order_byte :
    let m : Nat → StWin := fun b => ⟨0, 0, 4096, 0x400000, BitVec.ofNat 32 (2 ^ 31 + b * 4096 + 512), 10⟩
    let v : Nat → Byte := fun _ => 0x33#8
    [0, 1, 2, 3].map (fun b => (m b).onBus true v ((m b).beats 0x101 1)) =
      [.stitch 0 true [(0x400101, [(13, 0x3300)])], .stitch 0 true [(0x400101, [(11, 0x330000)])],
       .stitch 0 true [(0x400100, [(7, 0x33000000)])], .stitch 0 true [(0x400102, [(13, 0x3300)])]] := by decide

/-- 09: filter 12 of CAN[2] and the object that the frame leaves. -/
theorem test_can_object :
    let on := (inService.canCtl 2 1#32).2
    let up := ((on.setCan 2 {}).setErr 2 0 0).setByte (objAddr 2 12 + 6) 0x40#8
    let s := up.writeBytes (filterAddr 2 12) [0x00, 0x50, 0xFF, 0xF8, 0x00, 0xFF, 0xFF, 0x3F]
    let f : CanFrame := ⟨true, false, true, false, 9#4, List.replicate 12 0xAA#8⟩
    let u : State := { after (execCanIdComplete 2 true 0x18FF5023#29 s) with ctr := 0x17974F2B9C410000 * 2 ^ 32, past := [] }
    let t := after (execCanFrameStored 2 f 0#40 u)
    filterAddr 2 12 = 0x3100202060 ∧ objAddr 2 12 = 0x31001203C0 ∧
    t.readBytes 0x31001203C0 16 = [0x23, 0x50, 0xFF, 0xB8, 0x19, 0x0C, 0x41, 0, 0, 0, 0x41, 0x9C, 0x2B, 0x4F, 0x97, 0x17] := by decide

/-- 11: the tunnel message and the frame that it issues. -/
theorem test_tunnel_message :
    let c := ((linked.on Fd.USB_USB_CTL_EN).on Fd.USB_USB_STAT_VBUS).tryConnect.on Fd.USB_USB_STAT_CONFIGURED
    let s := (c.on Fd.WARDEN_RING_STAT_JOINED).on (Fd.TXN_INIT_CFG_UNRESTRICTED 2)
    let t := after (execTunnelMessage ⟨true, [1, 1, 7, 0, 0xC8, 0x10, 6, 0, 8, 0, 0, 0, 0x3F, 0xF0, 0, 0, 0, 0x20, 0, 8]⟩ s)
    t.txn.toInject.map (fun f => (f.kind, f.cls, f.dstRing, f.dstNode, f.payload)) =
      [(Kd.read, 6#3, 4#6, 100#9, [0x3F, 0xF0, 0, 0, 0, 0x20, 0, 8])] := by decide

/-- 11: its completion message. -/
theorem test_tunnel_completion : (MsgCpl.encode ⟨2, 7, 4#6, 100#9, .ok, List.replicate 8 0#8⟩).take 12 =
    [2, 0, 7, 0, 0xC8, 0x10, 0, 0, 8, 0, 0, 0] := by decide

/-- 12 R295, R296: the correction that 4.58 adds to a Sync. -/
theorem test_sync_correction : 0x003D8000 + tickCorr 145 = 0x01B0B333 ∧
    (addCorrection (List.replicate 16 0#8 ++ [0x1A, 0x2B, 0, 0]) 0x01B0B333).drop 12 = [0, 0, 0, 0, 0x1B, 0xDB, 0xB3, 0x33] := by decide

/-- 12 R309: the two refused Syncs. -/
theorem test_time_record :
    let d := fun (s : State) => (Tab.get [] s.fifos 363).map fun r => (r.source, r.detail)
    (d (({ inService with fifos := [] } : State).jumpRec false false 0 (-5400000 * 65536)), d (({ inService with fifos := [] } : State).jumpRec false false 1
      (1304000 * 65536))) = ([(9, 0x1FFF)], [(9, 0x2518)]) := by decide

/-- 07 R181: the record of FP[37]. -/
theorem test_pin_record : JRec.encode ⟨0x17974F2B9C401A00, false, 0, false, false, true, 37, 3⟩ 0x41A2C =
    [0x00, 0x1A, 0x40, 0x9C, 0x2B, 0x4F, 0x97, 0x17, 0x25, 0x02, 0x03, 0x00, 0x2C, 0x1A, 0x04, 0x00] ∧
    ((JRec.encode ⟨0, true, 0, false, false, false, 200, 0⟩ 0).drop 8).take 2 = [0xC8, 0x80] := by decide

/-- 08: the record of a missing pulse. -/
theorem test_bobbin_record :
    let s := { (inService.setFld (Fd.BOB_CFG_JEVT 3) 1).on Fd.JRN_JRN_CTL_EN with field := { writerRuns := true } }
    (Tab.get [] (s.rowEvent 3 (3 * 32 + 6)).fifos 259).map (fun r => (r.kind, r.source, r.level, r.detail)) = [(1, 3, false, 0x1980)] := by decide

/-- 13 R347: the trip of BRANCH[7] in the journal. -/
theorem test_power_record : ((JRec.encode (({ inService with tim := inService.tim } : State).record 2 10 (5 * 2 ^ 12) false) 0).drop 8).take 4 =
    [0x0A, 0x28, 0x00, 0x50] ∧ ((JRec.encode ⟨0, false, 2, false, false, false, 10, 5 * 2 ^ 12⟩ 0).drop 8).take 4 = [0x0A, 0x20, 0x00, 0x50] := by decide

/-- 13 R339, R340: the worked transactions. -/
theorem test_plk_bytes : [plkCmd 0 true 0 0, crc8 0#8 [plkCmd 0 true 0 0]] = [0x20, 0xE0] ∧ crc8 (crc8 0#8 [0x20]) [0x05, 0x01, 0xF4] = 0xD9#8 ∧
    [plkCmd 2 true 0 0xB80, crc8 0#8 [0xAB, 0x80, 0x00, 0x01], crc8 0x79#8 [0x00]] = [0xAB, 0x79, 0x68] ∧
    [crc8 0#8 [0xAB, 0x81, 0x00, 0x00], crc8 0x15#8 [0x00]] = [0x15, 0x6B] := by decide

/-- 13 R334: a sample of 240 W adds 4,560 µJ. -/
theorem test_energy : ((inService.wr (pathReg 5 0x50) 0x000107D0#32).meter 5 24000#16 500#16).rd (pathReg 5 0x48) = 4560#32 := by decide

/-- 13 R336: the start of the measurement record. -/
theorem test_measurement_record :
    let s := ((inService.setBrState 0 2).setBrState 7 2).on (Fd.BR_BR_STAT_PG 0) |>.on (Fd.BR_BR_STAT_PG 7)
    (s.wr (pathReg 0 0x40) (BitVec.ofNat 32 (1230 * 65536 + 24000))).measRecord.take 8 = [0x81, 0, 0x81, 0, 0xC0, 0x5D, 0xCE, 4] := by decide

/-- 14 R362: the heartbeat of twin 4.118. -/
theorem test_twin_heartbeat :
    let s := (({ inService with ctr := 0x17974F2B9C400000 * 2 ^ 32 } : State).wr Reg.TWIN_DIGEST_LO 0x07C4913A#32).wr Reg.TWIN_DIGEST_HI 0x6DB8225E#32
    (s.wr Reg.TWIN_TAKEOVER_CNT 2#32).twinPayload 1 false 0 14 3 =
      [1, 0x0E, 0, 3, 0x17, 0x97, 0x4F, 0x2B, 0x9C, 0x40, 0, 0, 0x3A, 0x91, 0xC4, 7, 0x5E, 0x22, 0xB8, 0x6D, 0, 0, 0, 2] := by decide

/-- 05 R139: the window of the site server. -/
theorem test_access_window :
    let e : List Byte := [0, 0, 1, 0x80, 0xFF, 0xFF, 0xFF, 0x0F, 1, 2, 0xC0, 3, 1, 0, 0, 0]
    let q := { aReq 8 0 [] with srcRing := 60#6, srcNode := 1#9 }
    inService.windowTakes .read q e = true ∧ inService.windowTakes .write q e = false ∧
    inService.windowTakes .read { q with addr := 0x0FFFFFF8#40 } e = false ∧ inService.windowTakes .read { q with srcNode := 2#9 } e = false := by
  decide

/-- 05 R145: the NOTICE payload of the worked example. -/
theorem test_notice :
    let q : Request := { srcRing := 4#6, srcNode := 20#9, init := 1#4, cls := 6#3, flow := 5#6, tag := 0#9, addr := 0x2000001000#40, bytes := 64#9, len := 72#12 }
    noticePayload q .farError 0x17974F2B9C400A15 0 =
      [1, 0x31, 5, 6, 0x20, 0, 0, 0x10, 0, 0, 0, 0x40, 0x17, 0x97, 0x4F, 0x2B, 0x9C, 0x40, 0x0A, 0x15, 0, 0, 0, 0] := by decide

/-- 17 R418: the manifest of the worked example. -/
theorem test_manifest :
    let s := ({} : State).nvPut 0x100000 [0x4F, 0x56, 0x4D, 0x46, 1, 1, 2, 0, 4, 1, 3, 0, 0, 0, 0x40, 0, 0, 4, 9, 0, 0x60, 0x41, 0, 0]
    s.manifestAt 0x100000 = { magic := 0x464D564F, ver := 1, imgType := 1, advance := false, epoch := 2, sigKind := 0, version := 0x30104,
                              imgLen := 0x400000, chunks := 1024, manChunks := 9, target := 0x4160 } ∧ (s.manifestAt 0x100000).wellFormed 1 = true ∧
    (s.manifestAt 0x100000).sizeOk = true := by decide

/-- 16 R414: the broadcast wake at a later time. -/
theorem test_wake_frame :
    let s : State := { inService with mode := .drowse, ctr := 0x17974F2B9C3F0000 * 2 ^ 32 }
    let f := { aFrame Kd.wake 7#3 with dstNode := 511#9, payload := [1, 0, 0, 0, 0x17, 0x97, 0x4F, 0x2B, 0x9C, 0x40, 0, 0, 0, 0, 0, 0] }
    (after (execWakeFrameRx f (s.on Fd.SYS_DRW_CFG_WAKE_BCAST))).boot.wakeAt = some 0x17974F2B9C400000 ∧
    (after (execWakeFrameRx f (s.off Fd.SYS_DRW_CFG_WAKE_BCAST))).boot.wakeAt = none := by decide

/-- 18: the worked addresses. -/
theorem test_addresses : Reg.BOB_CFG 12 = 0x80C08 ∧ Reg.BR_BR_STAT 7 = 0xF1718 ∧ Reg.PIN_CFG 37 = 0x58250 ∧
    filterAddr 3 40 = 0x3100203140 := by decide

/-- 05: the worked CAS claims a word that holds 0, and only then. -/
theorem test_cas_claim :
    let q := { aReq 8 3 [0, 0, 0, 0, 0, 0, 0, 0, 20, 0, 0, 0, 0, 0, 0, 0] with addr := 0x20000100#40 }
    let s := inService.arrive .cas q
    let t := (inService.setByte 0x20000100 7#8).arrive .cas q
    (after (execCas q [] s)).byte 0x20000100 = 20#8 ∧ (after (execCas q [] t)).byte 0x20000100 = 7#8 := by decide

/-- 15 R379: a write across two words. -/
theorem test_churn_write : let s := (inService.memWrite 0x1000001006 [0x11, 0x22, 0x33, 0x44] []).2
    s.readBytes 0x1000001000 16 = List.replicate 6 0#8 ++ [0x11, 0x22, 0x33, 0x44] ++ List.replicate 6 0#8 := by decide

/-- 05 R128: an FADD wraps within its operand. -/
theorem test_fadd_wraps :
    let q := aReq 4 2 [1, 0, 0, 0]
    let s := (inService.writeBytes 0x20000000 [0xFF, 0xFF, 0xFF, 0xFF, 5]).arrive .fadd q
    (after (execFadd q [] s)).readBytes 0x20000000 5 = [0, 0, 0, 0, 5] := by decide

/-- 10 R266: a falling edge sets the pending bit and interrupts the control processor once. -/
theorem test_stitch_irq :
    let s := (inService.wr Reg.STB_IRQ_EN_CP 1#32).on ⟨Reg.STB_IRQ_CFG, 0, 1⟩
    (s.stitchIrq 0 true).rd Reg.STB_IRQ_PEND = 1#32 ∧ (s.stitchIrq 0 true).out = [.irq 0xC0000] ∧
    (((s.stitchIrq 0 true).stitchIrq 0 false).stitchIrq 0 true).out = [.irq 0xC0000] := by decide

/-- 07 R190: a write of RD_POS by which WR_TOTAL less RD_POS reaches RD_LEVEL sets EVT.RD_LEVEL. -/
theorem test_rd_level :
    let s := (((inService.wr64 Reg.JRN_WR_TOTAL_LO Reg.JRN_WR_TOTAL_HI 9).wr64 (Reg.RD_RD_POS_LO 0) (Reg.RD_RD_POS_HI 0) 8).wr
      (Reg.RD_RD_LEVEL 0) 4#32)
    (s.writeRdPos 0 5).2.rdPos 0 = 5 ∧ (s.writeRdPos 0 5).2.flag ⟨Reg.JRN_EVT, 0, 1⟩ = true ∧
    (s.writeRdPos 0 6).2.flag ⟨Reg.JRN_EVT, 0, 1⟩ = false := by decide

/-! ### Witnesses: the hypotheses of each statement are met together -/

theorem wit_IdleStepIsOneTick : State.reset.pending = [] ∧ State.reset.anat.kaHeld = false := by decide

theorem wit_BothDomainsHeld : State.reset.anat.kaHeld = false ∧ State.reset.fieldHolder = false := by decide

theorem wit_StartAfterBothDomainsWereHeld :
    (State.reset.holdBoth 0 1#8 false).anat.kaHeld = true ∧ (State.reset.holdBoth 0 1#8 false).anat.heldBy = 0 ∧
    (State.reset.holdBoth 1 4#8 true).anat.heldBy = 1 ∧ (State.reset.holdBoth 2 1#8 true).anat.heldBy = 2 := by decide

theorem wit_RomChoosesASlot : State.reset.flag Fd.SYS_STRAP_SVC = true ∧ State.reset.fld Fd.SYS_BOOT_STAT_FAIL_RUN = 0 ∧
    twoSlots.bootable 0 true = true ∧ twoSlots.bootable 1 true = true ∧ twoSlots.chooseSlot ⟨true, true⟩ = some (1, false) ∧
    (twoSlots.setFld Fd.SYS_BOOT_STAT_FAIL_RUN 2).chooseSlot ⟨true, true⟩ = some (0, true) ∧
    (twoSlots.setFld Fd.SYS_BOOT_STAT_FAIL_RUN 4).chooseSlot ⟨true, true⟩ = none := by decide

theorem wit_MainRestartHoldsTheMainDomain : inService.takes none = true ∧ inService.asleepOrLoading = false ∧
    bits 0x0A5C0001#32 16 16 = 0x0A5C ∧ (0x0A5C0001#32).getLsbD 0 = true ∧ inService.restartWdog.armed .wdog = true ∧
    inService.restartWdog.fieldHolder = false ∧ inService.runs = true := by decide

theorem wit_MainDomainLeavesReset : (inService.mainRestart Fd.SYS_RST_CAUSE_SOFT).anat.mainHeld = true ∧
    (inService.mainRestart Fd.SYS_RST_CAUSE_SOFT).anat.kaHeld = false := by decide

theorem wit_UnitResets : inService.takes none = true ∧ inService.asleepOrLoading = false ∧
    (inService.startUnitReset .cycle).unitBusy .cycle = true ∧ inService.unitBusy .cycle = false ∧
    (inService.startUnitReset .cycle).armed (.unit .cycle) = true := by decide

theorem wit_ClockSettings : inService.takes none = true ∧ inService.asleepOrLoading = false ∧ inService.applying = false ∧
    bits 0x12#32 0 2 = inService.fld Fd.SYS_CLK_CTL_SPREAD ∧ (∀ n, n < 64 → inService.bobRun n = 0) ∧
    bits 0x1#32 0 2 ≠ inService.fld Fd.SYS_CLK_CTL_SPREAD ∧ inService.anat.kaHeld = false := by decide

theorem wit_LinkDownAndUp : inService.anat.kaHeld = false ∧ inService.flag (Fd.PORT_CTL_LOOP_PCS 0) = false ∧
    (inService.on (Fd.PORT_CTL_LOOP_PCS 0)).flag (Fd.PORT_CTL_LOOP_PCS 0) = true ∧ inService.linkIsUp 0 = false ∧
    (readyPort 0).linkIsUp 0 = false ∧ (readyPort 0).flag (Fd.PORT_STAT_MOD_PRESENT 0) = true ∧
    (readyPort 0).flag (Fd.PORT_CTL_LOOP_PCS 0) = false ∧ (readyPort 0).flag (Fd.PORT_STAT_MOD_READY 0) = true ∧
    (readyPort 0).flag (Fd.PORT_STAT_TXDIS 0) = false ∧ ((readyPort 0).on (Fd.PORT_STAT_TXDIS 0)).flag (Fd.PORT_STAT_TXDIS 0) = true ∧
    (readyPort 0).unitBusy (.pcs 0) = false ∧ (readyPort 0).speedAct 0 = 2 ∧
    ((readyPort 1).setFld (Fd.PORT_STAT_SPEED_ACT 1) 1 |>.on (Fd.PORT_CTL_AN37_EN 1)).speedAct 1 = 1 ∧
    (inService.damp 0).armed (.damp 0) = true ∧ inService.takes none = true := by decide

theorem wit_PreemptionVerification :
    let s := inService.on (Fd.PORT_PREEMPT_CTL_PREEMPT_EN 0)
    s.flag (Fd.PORT_PREEMPT_CTL_PREEMPT_EN 0) = true ∧ s.flag (Fd.PORT_CTL_LOOP_PCS 0) = false ∧
    s.flag (Fd.PORT_PREEMPT_CTL_VERIFY_DIS 0) = false ∧
    (s.on (Fd.PORT_PREEMPT_CTL_VERIFY_DIS 0)).flag (Fd.PORT_PREEMPT_CTL_VERIFY_DIS 0) = true ∧
    (s.preemptStart 0).armed (.verify 0) = true ∧ ((s.preemptStart 0).port 0).verifyTries = 1 ∧
    1 < s.fld (Fd.PORT_PREEMPT_CTL_VERIFY_LIMIT 0) ∧ (s.preemptStart 0).fld (Fd.PORT_PREEMPT_STAT_VERIFY_STATE 0) = 2 ∧
    ((s.preemptStart 0).setFld (Fd.PORT_PREEMPT_CTL_VERIFY_LIMIT 0) 1).fld (Fd.PORT_PREEMPT_CTL_VERIFY_LIMIT 0) = 1 := by decide

theorem wit_ModuleManagement :
    (inService.arm (.modPresent 0) 1).armed (.modPresent 0) = true ∧ (inService.arm (.modWait 2) 1).armed (.modWait 2) = true ∧
    identityOk (List.replicate 96 0#8) = true ∧ identityOk [] = true ∧ identityOk [1#8] = false ∧
    (inService.setFld (Fd.PORT_CTL_SPEED 0) 2).fld (Fd.PORT_CTL_SPEED 0) ≠ 3 ∧ (inService.setFld (Fd.PORT_CTL_SPEED 1) 3).fld (Fd.PORT_CTL_SPEED 1) = 3 ∧
    inService.linkIsUp 0 = false ∧ inService.flag (Fd.PORT_MOD_ACC_BUSY 0) = false ∧
    State.reset.anat.kaHeld = false ∧ (State.reset.holdBoth 0 1#8 false).anat.kaHeld = true ∧
    inService.flag (Fd.PORT_STAT_MOD_PRESENT 0) = false ∧ ((readyPort 0).on (Fd.PORT_MOD_CTL_DDM_EN 0)).flag (Fd.PORT_MOD_CTL_DDM_EN 0) = true ∧
    ddmSupported (List.replicate 92 0#8 ++ [0x40#8, 0#8, 0#8, 0#8]) = true := by decide

theorem wit_ModuleAccessAndPortControl : inService.takes none = true ∧
    (inService.on (Fd.PORT_MOD_ACC_BUSY 1)).flag (Fd.PORT_MOD_ACC_BUSY 1) = true ∧ inService.flag (Fd.PORT_MOD_ACC_BUSY 1) = false ∧
    (0x200#32).getLsbD 9 = true ∧ (0x200#32).getLsbD 8 = false ∧ (0x120#32).getLsbD 8 = true ∧
    ({ inService with mode := .drowse } : State).takes none = true ∧ ({ inService with mode := .seamless } : State).takes none = true ∧
    (0x20#32).getLsbD 5 = true ∧ inService.flag (Fd.PORT_CTL_LOOP_PCS 0) = false ∧ bits 0x1#32 0 2 ≠ 3 := by decide

theorem wit_WindowTest : let w : Window := { valid := true, top := 300#16, map := 5#128 }
    (1 ≤ (33067#16 - w.top).toNat ∧ (33067#16 - w.top).toNat ≤ 32767) ∧ (w.top - 173#16).toNat = 127 ∧
    w.map.getLsbD (w.top - 298#16).toNat = true ∧ w.map.getLsbD (w.top - 173#16).toNat = false ∧
    (32767 < (172#16 - w.top).toNat ∧ 127 < (w.top - 172#16).toNat) ∧ inService.present 7 = true := by decide

theorem wit_FramesOfTheRing : let f := (aFrame Kd.read 6#3).sealed
    let s := linked
    s.portUsable 0 = true ∧ s.portUsable 1 = true ∧ f.etype = 0x88B5#16 ∧ f.hchk = f.check ∧ { f with hchk := f.hchk + 1 }.check ≠ f.hchk + 1 ∧
    s.hasIdentity = true ∧ s.rxOf 0 = none ∧ f.sa ≠ s.ownMac ∧ ({ f with sa := s.ownMac } : Frame).sa = s.ownMac ∧
    kindKnown f.kind = true ∧ kindKnown 0x1F#5 = false ∧ classMismatch f = false ∧ classMismatch { f with cls := 7#3 } = true ∧
    badHeader f = false ∧ badHeader { f with srcNode := 0#9 } = true ∧ kindWindowed f.kind = true ∧ f.da ≠ s.ownMac ∧
    f.da ≠ macGateway s.ownRing ∧ f.da ≠ macBroadcast s.ownRing ∧ f.hops ≠ 0#10 ∧ s.path = 0 ∧
    ({ f with da := s.ownMac } : Frame).dstRing.toNat = s.ownRing := by decide

theorem wit_FramesOfTheRing2 : let s := linked.ringFrame 0 (aFrame Kd.read 6#3).sealed
    (s.rxOf 0).isSome = true ∧ (s.sw.rx.all fun r => r.stored == some 0 && r.use == .done && !r.paused && r.tag == 0 &&
      !s.overruns r 100 && s.overruns r 1000) = true ∧
    (let t := s.received 0 .fragmentEnd 64
     (t.rxOf 0).any (·.paused) = true) := by decide

theorem wit_FramesOfTheRing3 : let f := { aFrame Kd.read 6#3 with da := linked.ownMac, dstNode := 7#9 }.sealed
    let s := (linked.on Fd.WARDEN_RING_STAT_JOINED).ringFrame 0 f
    (s.sw.rx.all fun r => r.use == .queued && decide (r.port < 2) && kindWindowed r.frame.kind && !(s.rxCopies r 3).isEmpty &&
      (s.windowAccepts r.frame).1 && !(((s.windowAccepts r.frame).2).windowAccepts r.frame).1 && !r.frame.lenBad) = true ∧
    s.sw.rx.length = 1 ∧ s.flag Fd.WARDEN_RING_STAT_JOINED = true := by decide

theorem wit_FramesOfThisNode : let f := aFrame Kd.read 6#3
    let k := flowKey 118 0
    let t := (linked.on Fd.WARDEN_RING_STAT_PATH_MODE).on Fd.WARDEN_RING_STAT_JOINED
    kindWindowed f.kind = true ∧ linked.flag Fd.WARDEN_RING_STAT_JOINED = false ∧ t.flag Fd.WARDEN_RING_STAT_JOINED = true ∧
    t.daFor f.dstRing.toNat f.dstNode.toNat = some (macNode 4 118) ∧ macNode 4 118 ≠ t.ownMac ∧
    macNode 4 118 ≠ macGateway t.ownRing ∧ t.daNode (macNode 4 118) = 118 ∧ isGroup (macNode 4 118) = false ∧ f.cls ≠ 7#3 ∧
    k = 64 * 118 ∧ linked.splitPath = false ∧ t.splitPath = true ∧ (t.arm .fenceAll 1).fenced 118 0 = true ∧ t.fenced 118 0 = false ∧
    t.ring.held = [] ∧ ({ t with ring := { t.ring with firstBeacon := true } } : State).chosen 118 0 = none ∧
    (t.chosen 118 0).isSome = true ∧ inService.ringOuts = [] ∧ (t.arm .fenceAll 1).armed .fenceAll = true ∧
    t.live .fenceAll = false ∧ (linked.arm (.absent 7) 1).armed (.absent 7) = true ∧ (linked.queueFrame f).txn.toInject = [f] ∧
    (let u := (linked.on (Fd.PORT_STAT_LINK_UP 2)).setFld Fd.PORT_SPUR_CTL_ROLE 1
     u.portUsable 2 = true ∧ u.fld Fd.PORT_SPUR_CTL_ROLE = 1 ∧ u.fld Fd.PORT_SPUR_CTL_VID = 0 ∧ u.path = 0 ∧ u.rxOf 2 = none ∧
     (let g := { f with da := u.ownMac, dstNode := 118#9 }.sealed
      g.hchk = g.check ∧ g.etype = 0x88B5#16 ∧ g.da = u.ownMac ∧ g.known = true ∧ classMismatch g = false ∧
      badHeader g = false ∧ g.dstRing.toNat = u.ownRing ∧ g.dstNode.toNat ≠ u.ownNode)) := by decide

theorem wit_FramesOfThisNode2 : let f := aFrame Kd.read 6#3
    let s := (linked.setPool 0).localIn f 0#16 [0]
    s.armed (.localWait 6) = true ∧ (s.oldestWaiting 6).isSome = true ∧ ((s.expire (.localWait 6)).oldestWaiting 6).isSome = true ∧
    (s.expire (.localWait 6)).path = 0 ∧ s.path = 0 ∧ ((s.expire (.localWait 6)).roomAt 0 6 f.cells) = false ∧
    ((s.setPool 24576).roomAt 0 6 f.cells) = true := by decide

theorem wit_Warden : let w := linked.setFld Fd.WARDEN_RING_CTL_ROLE 1
    let b := { aFrame Kd.beacon 7#3 with payload := List.replicate 176 0#8, len := 176#12 }.sealed
    let a := { b with payload := 0x80#8 :: List.replicate 31 0#8 ++ [0x80#8, 5#8] ++ List.replicate 142 0#8 }
    w.fld Fd.WARDEN_RING_CTL_ROLE = 1 ∧ w.flag Fd.WARDEN_RING_STAT_WARDEN_ACTIVE = false ∧ w.linkIsUp 0 = true ∧
    w.becomeWarden.flag Fd.WARDEN_RING_STAT_WARDEN_ACTIVE = true ∧ (w.arm .beaconOk 1).armed .beaconOk = true ∧
    w.becomeWarden.armed .topo = true ∧ linked.portUsable 1 = true ∧ b.hchk = b.check ∧ b.etype = 0x88B5#16 ∧ b.ver = 2#4 ∧
    badHeader b = false ∧ b.sa ≠ linked.ownMac ∧ b.cls = 7#3 ∧ b.kind = Kd.beacon ∧ linked.rxOf 0 = none ∧ linked.portUsable 0 = true ∧
    linked.heldRx 0 b = false ∧ (linked.ringFrame 0 b).heldRx 0 b = true ∧ linked.hasIdentity = true ∧ b.hops ≠ 0#10 ∧
    bTurned b.payload = false ∧ inService.heldRx 0 b = false ∧ (inService.ringFrame 0 b).heldRx 0 b = false ∧
    ((linked.ringFrame 0 b).sw.rx.all fun r => r.use == .beacon) = true ∧
    bRole b.payload < 2 ∧ bRole a.payload = 2 ∧ fieldBE a.payload 32 2 / 2 ^ 15 = 1 ∧
    (linked.linkEvent 5 true).armed (.heldDown 5) = true ∧ (linked.linkEvent 5 false).armed (.heldUp 5) = true := by decide

theorem wit_ScheduledPathModes : let s := inService.becomeWarden
    let t := s.wr Reg.WARDEN_MODE_AT_LO 2000000#32
    s.takes none = true ∧ (0x80010000#32).getLsbD 31 = true ∧ inService.flag Fd.WARDEN_RING_STAT_WARDEN_ACTIVE = false ∧
    s.flag Fd.WARDEN_RING_STAT_WARDEN_ACTIVE = true ∧ s.rd64 Reg.WARDEN_MODE_AT_LO Reg.WARDEN_MODE_AT_HI < s.now + 2000000 ∧
    t.now + 2000000 ≤ t.rd64 Reg.WARDEN_MODE_AT_LO Reg.WARDEN_MODE_AT_HI ∧ t.ring.change = none ∧
    (inService.setChange (some (1, true, 7#16))).onRing = false := by decide

theorem wit_PathsOutputsAndPurge :
    (inService.setFld Fd.SWC_SWC_STAT_PATH 1).path = 1 ∧ inService.pathFor = 0 ∧
    ({ linked with mode := .passThrough } : State).pathFor = 1 ∧ ({ linked with mode := .passThrough } : State).path = 0 ∧
    (inService.arm .drain 1).armed .drain = true ∧ (inService.arm .drain 1).fullRingCopies = [] ∧
    (inService.arm .purge 1).armed .purge = true ∧ linked.anat.kaHeld = false ∧ linked.hasIdentity = true ∧
    (inService.mainRestart Fd.SYS_RST_CAUSE_SOFT).anat.mainHeld = true ∧ inService.purge.anat.purging = true ∧
    ({ linked with mode := .passThrough } : State).inService = false := by decide

theorem wit_PathsOutputsAndPurge2 : let s := linked.localIn (aFrame Kd.read 6#3) 0#16 [0]
    s.atBoundary 0 = true ∧ (s.wireEnd 0).outputOpen 0 = true ∧ ((s.wireEnd 0).choose 0).1.isSome = true ∧
    (s.headOf (s.queueOf 0 7)).isNone = true ∧ (s.headOf (s.queueOf 0 6)).isSome = true ∧
    (let t := linked.localIn (aFrame Kd.wake 7#3) 0#16 [0]
     t.fullRingCopies ≠ [] ∧ t.answerLocal.fullRingCopies ≠ [] ∧ (t.arm .drain 1).fullRingCopies ≠ []) := by decide

theorem wit_PathsOutputsAndPurge3 :
    let f := { aFrame Kd.read 6#3 with payload := List.replicate 200 0#8, len := 200#12 }
    let s := ((linked.on (Fd.PORT_PREEMPT_STAT_ACTIVE 0)).localIn f 0#16 [0]).outputSelect 0 .clean none
    let t := s.localIn (aFrame Kd.wake 7#3) 0#16 [0]
    (t.onWire 0).isSome = true ∧ t.mayPreempt 0 100 = true ∧
    (t.sw.copies.any fun k => k.started && (t.storedOf k).isSome) = true ∧
    (let u := linked.ringFrame 0 { aFrame Kd.read 6#3 with da := linked.ownMac, dstNode := 7#9 }.sealed
     u.sw.copies.any (fun k => (u.storedOf k).any fun f => !f.whole && !f.errored && (reqKindOf f.frame.kind).isSome) = true ∧
     ((u.complete 0 30).sw.copies.any fun k => ((u.complete 0 30).storedOf k).any (·.whole)) = true) := by decide

theorem wit_MemoryRequests : ReadyB (served .read (aReq 8 0 [])) .read (aReq 8 0 []) = true ∧
    ReadyB (served .write (aReq 4 0 [1, 2, 3, 4])) .write (aReq 4 0 [1, 2, 3, 4]) = true ∧
    ReadyB (served .pwrite (aReq 1 0 [7])) .pwrite (aReq 1 0 [7]) = true ∧
    ReadyB (served .lread (aReq 8 0 [])) .lread (aReq 8 0 []) = true ∧ (served .lread (aReq 8 0 [])).freeLock = some 0 := by decide

theorem wit_MemoryRequests2 : ReadyB (served .cas (aReq 4 2 [0, 0, 0, 0, 1, 2, 3, 4])) .cas (aReq 4 2 [0, 0, 0, 0, 1, 2, 3, 4]) = true ∧
    ReadyB (served .fadd (aReq 8 3 [1, 0, 0, 0, 0, 0, 0, 0])) .fadd (aReq 8 3 [1, 0, 0, 0, 0, 0, 0, 0]) = true ∧
    (let q := aReq 4 0 [1, 2, 3, 4]
     let s := (inService.takeLock q).arrive .lwrite q
     ReadyB s .lwrite q = true ∧ (s.txn.locks.find? fun l => l.2.holds q && l.2.covers q.addr.toNat q.bytes.toNat).isSome = true) := by
  decide

theorem wit_ChecksAtTheTarget : let q := aReq 8 0 []
    let r := { q with srcNode := 9#9 }
    formatOk .read q = true ∧ formatOk .read { q with cls := 7#3, len := 0#12 } = false ∧ inService.ownReq q = true ∧
    inService.ownReq r = false ∧ inService.windowGrants .read r = false ∧
    inService.stateCheck 0x2000000000 = .wrongMode ∧ inService.stateCheck 0x20000000 = .ok ∧
    inService.mapCheck 0x3FFFFFFFFF 1 = .unmapped ∧ inService.mapCheck 0x20000000 8 = .ok ∧
    inService.regionCheck .read { r with addr := 0x100#40 } = .denied ∧
    (inService.takeLock q).txn.locks.length = 1 ∧ ((inService.takeLock q).txn.locks.all fun l => !l.2.holds r && l.2.touches 0x20000000 8) = true ∧
    bits 5#32 0 28 < bits 6#32 0 28 ∧ inService.permits = true ∧ inService.serving = true ∧
    inService.startQuiesce.flag Fd.TXN_TXN_STAT_QUIESCING = true := by decide

theorem wit_InitiatorsAndTags : let s := linked.on Fd.WARDEN_RING_STAT_JOINED
    let u : TagUse := { quarantined := false, init := 0, dstRing := 4#6, dstNode := 118#9, kind := .read, bytes := 8, ttag := 0 }
    s.anat.kaHeld = false ∧ s.ownDst 4 118 = false ∧ s.issueCheck 0 .read 0 4 118 6 = (.ok, s) ∧ s.freeTagNo = some 0 ∧
    s.onRing = true ∧ s.quiescing = false ∧ (s.daFor 4 118).isSome = true ∧ s.egress 0 .read 4 118 = true ∧
    (s.setFld (Fd.TXN_INIT_CFG_QUOTA 0) 0).fld (Fd.TXN_INIT_CFG_QUOTA 0) = 0 ∧ s.serving = true ∧ s.txn.tags.lookup 3 = none ∧
    (s.takeTag 0 u).txn.tags.lookup 0 = some u ∧ (s.takeTag 0 u).armed (.tagTimeout 0) = true ∧
    (s.quarantineTag 5 1000).armed (.tagQuarantine 5) = true ∧ fieldBE [1#8, 0x30#8] 0 1 = 1 ∧ fieldBE [1#8, 0x30#8] 1 1 % 16 = 0 ∧
    (s.takeLock (aReq 8 0 [])).armed (.lock 0) = true ∧ s.startQuiesce.armed .quiesce = true ∧
    s.startQuiesce.endQuiesce.flag Fd.SYS_MODE_STAT_ENTERING = false := by decide

theorem wit_RegisterCommands : (State.reset.holdBoth 0 1#8 false).anat.kaHeld = true ∧ State.reset.takes none = true ∧
    (inService.mainRestart Fd.SYS_RST_CAUSE_SOFT).anat.mainHeld = true ∧ (inService.on (busyBit .stitch)).unitBusy .stitch = true ∧
    ({ inService with mode := .load } : State).runs = true ∧ inService.runs = true ∧ inService.asleepOrLoading = false ∧
    inService.boot.applying = false ∧ inService.unitBusy (.pcs 1) = false ∧
    (({ inService with latches := [(Reg.PORT_TX_BYTES_HI 2, 9#32)] } : State).latches.lookup (Reg.PORT_TX_BYTES_HI 2)) = some 9#32 ∧
    (inService.wr Reg.TXN_WIN_DENIED 0xFFFFFFFF#32).rd Reg.TXN_WIN_DENIED = 0xFFFFFFFF#32 := by decide

theorem wit_CycleCopies : let s := cycling
    let f := { aFrame Kd.cycle 7#3 with payload := List.replicate 180 0#8, len := 180#12 }.sealed
    let g := { f with sa := s.ownMac }
    s.cycRuns (s.fld Fd.CYC_PUB_CFG_STREAM) = true ∧ s.flag Fd.CYC_PUB_CFG_EN = true ∧ s.onRing = true ∧ s.launches 0 = true ∧
    s.portUsable 0 = true ∧ s.portUsable 1 = true ∧ f.etype = 0x88B5#16 ∧ f.hchk = f.check ∧ f.ver = 2#4 ∧ f.cls = 7#3 ∧
    badHeader f = false ∧ f.sa ≠ s.ownMac ∧ f.kind = Kd.cycle ∧ s.rxOf 0 = none ∧ linked.cycReads 0 = false ∧ s.cycReads 0 = true ∧
    s.copyCycle 0 (fieldBE f.payload 4 4) = some 0 ∧ s.cycTaken 0 0 = true ∧ reflected f.payload = false ∧
    s.heldRx 0 f = false ∧ (s.ringFrame 0 f).heldRx 0 f = true ∧ (s.ringFrame 0 g).heldRx 0 g = true ∧
    ({ s with mode := .load } : State).heldRx 0 f = false ∧ inService.heldRx 0 f = false ∧ (inService.ringFrame 0 f).heldRx 0 f = false := by
  decide

theorem wit_CycleCopies3 : let s := cycling
    let f := { aFrame Kd.cycle 7#3 with payload := List.replicate 180 0#8, len := 180#12 }.sealed
    s.cycNow 0 = some 0 ∧ ((s.ringFrame 0 f).sw.rx.all fun r => r.use == .cycle (some 0) false) = true ∧
    (s.ringFrame 0 f).sw.rx.length = 1 ∧ ((s.ringFrame 0 { f with sa := s.ownMac }).sw.rx.all fun r => r.use == .stripped) = true ∧
    (linked.str 0).applyNext ≤ 0 ∧ ((linked.setStr 0 { applyNext := 9 }).str 0).applyNext = 9 ∧
    ((s.setStr 0 { s.str 0 with launchNext := 1 }).str 0).launchNext = 1 ∧ fieldBE f.payload 4 4 = 0 ∧
    fieldBE f.payload 0 1 % 32 = 0 := by decide

theorem wit_CycleCopies2 : let s := (cycling.setFld (Fd.CYC_STR_CFG_ROLE 0) 2).setStr 0 { cycling.str 0 with missed := 3 }
    s.cycRuns 0 = true ∧ s.onRing = true ∧ s.fld (Fd.CYC_STR_CFG_ROLE 0) = 2 ∧ 3 ≤ (s.str 0).missed ∧ (s.str 0).takeover = false := by
  decide

theorem wit_CycleImage : let s := cycling
    let off := s.off (Fd.CYC_STR_CFG_EN 0)
    Tab.get 0 s.cyc.got 3 ≠ 1 ∧ s.cycRuns 0 = true ∧ s.cycFills = true ∧ s.takes (some .cycle) = true ∧
    off.flag (Fd.CYC_STR_CFG_EN 0) = false ∧ off.streamFits 0 0x90020040#32 = true ∧ off.streamFits 0 0x90000040#32 = false ∧
    bits 0x90020040#32 28 2 ≠ 3 ∧ s.flag (Fd.CYC_STR_CFG_EN 0) = true ∧ bits 0x90020041#32 0 9 ≠ s.slotLen 0 ∧
    linked.takes (some .cycle) = true ∧ linked.flag Fd.CYC_PUB_CFG_EN = false ∧ linked.pubFits 0 0 = false ∧
    ((s.setCyc { s.cyc with staged := [⟨1, 0, 0, []⟩] }).cyc.staged.find? fun c => c.port == 1).isSome = true := by decide

theorem wit_FieldPinCommands : inService.takes none = true ∧ inService.asleepOrLoading = false ∧ inService.applying = false ∧
    ({ inService with mode := .load, boot := { inService.boot with applying := true } } : State).takes none = true ∧
    ({ inService with mode := .load, boot := { inService.boot with applying := true } } : State).applying = true ∧
    ({ inService with mode := .drowse } : State).takes none = true ∧ ({ inService with mode := .drowse } : State).asleepOrLoading = true ∧
    bits 3#32 0 2 = 3 ∧ bits 2#32 0 2 = 2 ∧ inService.fld (Fd.PIN_STAT_OWNER 255) = 0 ∧
    (inService.setFld (Fd.PIN_STAT_OWNER 0) 3).fld (Fd.PIN_STAT_OWNER 0) = 3 ∧
    (inService.setFld (Fd.PIN_STAT_OWNER 0) 1).fld (Fd.PIN_STAT_OWNER 0) = 1 ∧ inService.fld (Fd.PIN_STAT_OWNER_IDX 0) = 0 ∧
    inService.bankFailed 15 = false ∧ inService.mode ≠ .drowse ∧ (inService.setFld (Fd.PIN_FILT_COUNT 7) 3).fld (Fd.PIN_FILT_COUNT 7) ≠ 0 ∧
    ({ inService with field := { failed := [15] } } : State).bankFailed 15 = true := by decide

theorem wit_WhatAPinDrives : let s := ({ inService with anat := { inService.anat with outputsReleased := false } } : State)
    let o := s.setFld (Fd.PIN_STAT_OWNER 17) 1
    s.runs = true ∧ s.anat.outputsReleased = false ∧ s.bankFailed 1 = false ∧ s.boot.drowsy = false ∧ s.inField = true ∧
    o.fld (Fd.PIN_STAT_OWNER 17) = 1 ∧ (s.setFld (Fd.PIN_STAT_OWNER 17) 2).fld (Fd.PIN_STAT_OWNER 17) = 2 ∧
    s.flag (Fd.PIN_CFG_OD 17) = false ∧ (o.on (Fd.PIN_CFG_OD 17)).flag (Fd.PIN_CFG_OD 17) = true ∧ o.takes none = true ∧
    o.asleepOrLoading = false ∧ ({ o with mode := .drowse } : State).runs = true ∧
    State.reset.anat.outputsReleased = true ∧ s.fld (Fd.PIN_CFG_DROWSE 3) = 0 ∧ s.fld (Fd.PIN_CFG_SAFE 17) = 0 ∧ s.fld (Fd.PIN_CFG_FUNC 3) ≠ 1 ∧
    (s.setFld (Fd.PIN_CFG_FUNC 3) 1).fld (Fd.PIN_CFG_FUNC 3) = 1 ∧ ({ s with mode := .recovery } : State).runs = true ∧ s.fld (Fd.PIN_STAT_OWNER 255) = 0 := by decide

theorem wit_EdgeJournal : let s := journalling
    s.field.restarted = false ∧ (s.wr64 Reg.JRN_WR_TOTAL_LO Reg.JRN_WR_TOTAL_HI (s.jrnCap + 1)).overrun 1 = true ∧ s.overrun 1 = false ∧
    ((s.wr64 Reg.JRN_WR_TOTAL_LO Reg.JRN_WR_TOTAL_HI 5).wr (Reg.RD_RD_LEVEL 1) 5#32).levelReached 1 = true ∧
    s.levelReached 1 = false ∧ s.journals = true ∧ s.mode ≠ .drowse ∧ s.jrnCap ≠ 0 ∧ s.runs = true ∧ s.unitBusy .journal = false ∧ s.nextFifo = some 363 ∧
    (Tab.get [] s.fifos 363).length = 1 ∧ ({ s with fifos := [] } : State).nextFifo = none ∧ (s.arm .flush 1).armed .flush = true ∧
    s.takes (some .journal) = true ∧ s.streaming = false ∧ (s.on Fd.USB_JSTREAM_EN).streaming = true ∧ s.wrTotal < (1#64).toNat ∧
    (0#64).toNat ≤ s.wrTotal ∧ (Tab.get [] ({ s with fifos := [(3, List.replicate 4 ⟨0, false, 0, true, false, true, 3, 0⟩)] } : State).fifos 3).length = fifoCap 3 := by
  decide

theorem wit_BobbinRows : FetchesB (rowed 0) 0 0 0 = true ∧ FetchesB (rowed 1) 0 0 1 = true ∧ FetchesB (rowed 2) 0 0 2 = true ∧
    FetchesB (rowed 3) 0 0 3 = true ∧ FetchesB (rowed 4) 0 0 4 = true ∧ FetchesB (rowed 5) 0 0 5 = true ∧
    FetchesB (rowed 6) 0 0 6 = true ∧ FetchesB (rowed 7) 0 0 7 = true := by decide

theorem wit_BobbinRows2 : FetchesB (rowed 8) 0 0 8 = true ∧ FetchesB (rowed 9) 0 0 9 = true ∧ FetchesB (rowed 10) 0 0 10 = true ∧
    FetchesB (rowed 11) 0 0 11 = true ∧ FetchesB (rowed 12) 0 0 12 = true ∧ FetchesB (rowed 13) 0 0 13 = true ∧
    FetchesB (rowed 14) 0 0 14 = true ∧ FetchesB (rowed 15) 0 0 15 = true := by decide

theorem wit_BobbinRows3 : let s := ((rowed 4).pushTx 0 7#32 false).2
    FetchesB s 0 0 4 = true ∧ (s.bob 0).tx.length = 1 ∧ ((rowed 5).bob 0).rx.length < (rowed 5).bobDepth 0 ∧
    (let t := (rowed 5).setBob 0 { (rowed 5).bob 0 with rx := List.replicate 4 { data := 0#32 } }
     FetchesB t 0 0 5 = true ∧ t.bobDepth 0 ≤ (t.bob 0).rx.length) ∧
    ((rowed 7).setFld (Fd.BOB_CNT_VAL_C0 0) 3).fld (Fd.BOB_CNT_VAL_C0 0) ≠ 0 ∧
    ((rowed 0).setMark (rowAddr 0 0) 1).mark (rowAddr 0 0) ≠ 0 := by decide

theorem wit_BobbinCommands : inService.takes (some (.bobbin 5)) = true ∧ inService.asleepOrLoading = false ∧
    inService.inField = true ∧ inService.boot.drowsy = false ∧ inService.bobLent 5 = false ∧ inService.bobRun 5 = 0 ∧ (inService.off (Fd.BOB_STAT_PRICK_DIRTY 5)).flag (Fd.BOB_STAT_PRICK_DIRTY 5) = false ∧
    (inService.dirty 5).flag (Fd.BOB_STAT_PRICK_DIRTY 5) = true ∧ (inService.on (Fd.BOB_STAT_LENT 5)).bobLent 5 = true ∧
    (inService.startBob 5).bobRun 5 ≠ 0 ∧ inService.bobGate true false (named true 5#32) = .ok ∧
    ((inService.off (Fd.BOB_STAT_PRICK_DIRTY 32)).off (Fd.BOB_STAT_PRICK_DIRTY 34)).bobGate true true (named true 5#32) = .ok ∧ inService.bobGate false false (named false 1#32) = .ok ∧
    (inService.startBob 32).bobGate true false (named true 5#32) = .wrongMode ∧ ((rowed 4).stall 0).bobRun 0 = 2 := by decide

theorem wit_BobbinCommands2 : let s := (rowed 4).runRow 0 0
    s.bobRun 0 = 2 ∧ s.bobsExecute 0 = true ∧ s.mark (rowAddr 0 (s.fld (Fd.BOB_EXEC_ROW 0))) = 0 ∧
    s.rowWord 0 (s.fld (Fd.BOB_EXEC_ROW 0)) / 2 ^ 17 % 16 = 4 ∧ (s.bob 0).tx = [] ∧
    ((inService.pushTx 3 9#32 true).2.bob 3).tx.length < inService.bobDepth 3 ∧
    (inService.setBob 3 { tx := List.replicate 4 { data := 0#32 } }).bobDepth 3 ≤ 4 ∧
    (inService.setBob 3 { rx := [{ data := 1#32 }] }).takes (some (.bobbin 3)) = true := by decide

theorem wit_BobbinTables : inService.takes (some (.bobbin 4)) = true ∧ inService.asleepOrLoading = false ∧ inService.applying = false ∧ bits 3#32 0 2 = 3 ∧
    (4 : Fin 64).val % 2 ^ bits 2#32 0 2 = 0 ∧ (5 : Fin 64).val % 2 ^ bits 2#32 0 2 ≠ 0 ∧ inService.bobLent 4 = false ∧
    inService.fld (Fd.BOB_QCFG_JOIN 4) = 0 ∧ (∀ m ∈ joinMembers 4 2, inService.bobRun m = 0 ∧ inService.otherJoin 4 m = false) ∧
    (inService.startBob 4).bobRun 4 ≠ 0 ∧ (0x200#32).getLsbD 9 = true ∧ bits 0x605#32 9 2 = 3 ∧
    (∀ i, i < 6 → inService.slotDrives 4 i = false) ∧ inService.fld (Fd.PIN_STAT_OWNER 5) = 0 ∧
    (0xFFC#12).toNat % 4 = 0 ∧ (0xFFC#12).toNat + 4 ≤ 0x1000 := by decide

theorem wit_CanTransmit : let on := (inService.canCtl 2 1#32).2
    let up := (on.setCan 2 { on.can 2 with integrating := false }).setErr 2 0 0
    let q := (up.canPush 2 (leBytes 4 0x123 ++ leBytes 4 0x100)).2
    inService.takes (some (.can 2)) = true ∧ inService.asleepOrLoading = false ∧ bits 1#32 1 2 < 2 ∧
    inService.flag (Fd.CAN_CTL_EN 2) = false ∧ inService.flag (Fd.CAN_STAT_ABORT_PEND 2) = false ∧ (on.can 2).integrating = true ∧
    on.canService = true ∧ on.rd (Reg.CAN_ERR_CNT 2) = 0#32 ∧ on.canState 2 = 0 ∧ entryOk [] = false ∧
    entryOk (leBytes 4 0x123 ++ leBytes 4 0x100) = true ∧ (up.can 2).queue.length < 32 ∧ q.canSends 2 = true ∧
    (q.can 2).queue.length = 1 ∧ q.flag (Fd.CAN_CTL_TDC_EN 2) = false ∧ q.canLoops 2 = false ∧
    (up.setErr 2 256 0).canState 2 = 3 ∧ (q.on (Fd.CAN_STAT_TX_ACTIVE 2)).canOnWire 2 = true ∧ q.canOnWire 2 = false := by decide

theorem wit_CanReceive : let on := (inService.canCtl 2 1#32).2
    let up := (on.setCan 2 { on.can 2 with integrating := false }).setErr 2 0 0
    let f := up.writeBytes (filterAddr 2 511) (leBytes 8 0x80000123)
    let c := (f.on (Fd.CAN_CTL_CATCH_EN 2)).setFld (Fd.CAN_CTL_CATCH_OBJ 2) 9
    up.canHears 2 = true ∧ (0x123#29).toNat < 2048 ∧ f.filterMatches 2 false 0x123 511 = true ∧ f.filterMatches 2 false 0x123 0 = false ∧
    c.flag (Fd.CAN_CTL_CATCH_EN 2) = true ∧ up.canState 2 ≠ 0 ∧ up.canListens 2 = false ∧ up.recCnt 2 ≤ 500 ∧
    ((up.setFld (Fd.CAN_CTL_OPMODE 2) 1).canListens 2) = true ∧ up.takes (some (.can 2)) = true ∧
    ((up.setCan 2 { up.can 2 with rx := some ⟨false, 0x123#29, some 511, false, false⟩ }).can 2).rx.isSome = true ∧
    filterOk 0x80000123#32 0#32 = true ∧ filterOk 0x80000800#32 0#32 = false := by decide

theorem wit_StitchBridge : let s := inService.on Fd.STB_STB_CTL_EN
    let m : StWin := ⟨0, 0x2000000000, 4096, 0, 0x80000000#32, 10⟩
    let e : StReq := ⟨.read, { aReq 4 0 [] with addr := 0x2000000000#40 }, m⟩
    let t := s.setStb { s.stb with queue := [e] }
    s.bridgeRuns = true ∧ t.bridgeRuns = true ∧ e.buffered = false ∧ e.kind ≠ .lread ∧ (t.startBridge e).stb.running = true ∧
    (e.map.beats e.offset e.req.bytes.toNat).length = 4 ∧ t.freeLock = some 0 ∧ t.ownReq { e.req with srcNode := 9#9 } = false ∧ inService.takes (some .stitch) = true ∧ inService.asleepOrLoading = false ∧
    (inService.stWin 0).enabled = false ∧ inService.stitchLocked = false ∧ inService.runs = true ∧
    inService.flag ⟨Reg.STB_IRQ_EN_CP, 3, 1⟩ = false ∧ bits 0x80000300#32 8 2 = 3 ∧ bits 0#32 8 2 ≠ 3 := by decide

theorem wit_StitchBridge2 : let m : StWin := ⟨0, 0x2000000000, 4096, 0, 0x80000000#32, 10⟩
    let w := (((inService.wr (Reg.WIN_BASE 0) 0x2000000#32).wr (Reg.WIN_SIZE 0) 12#32).wr (Reg.WIN_TMO 0) 10#32)
    let s := inService.setStb { ahead := [(m, 0)], bufs := [⟨m, 64, [], 0#16, 0#16, 0⟩] }
    let q := { aReq 4 0 [] with addr := 0x2000000000#40 }
    let k := ({ inService with txn := { inService.txn with locks := [(0, ⟨1#6, 1#9, 0#4, 6#3, 0#6, 0, 9, true⟩)] } } : State)
    let d := (w.wr (Reg.WIN_WIN_CFG 0) 0x80000000#32).on Fd.STB_STB_CTL_EN |>.setStb s.stb
    (d.stb.ahead = [(m, 0)] ∧ d.stb.queue = [] ∧ d.bridgeRuns = true ∧ d.stb.bufs.length ≤ 7 ∧ d.stWin m.win = m ∧
      (∀ b ∈ d.stb.bufs, d.now < b.filled + 50000) ∧ d.bufOf m.win 0 = none ∧ (m.beats 0 64).length = 64) ∧
    s.stb.bufs ≠ [] ∧ (k.arm .stitchLock 1).armed .stitchLock = true ∧ (k.arm .stitchLock 1).stitchLocked = true ∧
    (k.txn.locks.any fun l => l.2.stitch && !l.2.holds q) = true ∧
    ({ w.stWin 0 with cfg := 0x80000000#32 }).mayEnable (bits (w.rd (Reg.WIN_SIZE 0)) 0 6) [] = true ∧
    ({ inService.stWin 0 with cfg := 0x80000000#32 }).mayEnable (bits (inService.rd (Reg.WIN_SIZE 0)) 0 6) [] = false := by decide

theorem wit_UsbBusAndPorts : let e := inService.on Fd.USB_USB_CTL_EN
    let c := (e.on Fd.USB_USB_STAT_VBUS).tryConnect
    let p := c.on (Fd.USB_DS_STAT_POWER 2)
    let z := c.on Fd.USB_USB_STAT_SUSPENDED
    e.connected = false ∧ e.usbMode = true ∧ c.connected = true ∧ (c.setUsb { c.usb with chirping := true }).usb.chirping = true ∧
    c.suspended = false ∧ z.suspended = true ∧ z.mode ≠ .drowse ∧ z.flag Fd.SYS_MODE_STAT_ENTERING = false ∧ z.usb.hostK = false ∧
    (z.on Fd.USB_USB_STAT_RWAKE_ARMED).flag Fd.USB_USB_STAT_RWAKE_ARMED = true ∧ (z.on Fd.USB_USB_STAT_IN_RESUME).flag Fd.USB_USB_STAT_IN_RESUME = true ∧
    c.flag (Fd.USB_DS_STAT_POWER 2) = false ∧ p.flag (Fd.USB_DS_STAT_POWER 2) = true ∧ p.live (.ocBlank 2) = false ∧
    (p.on (Fd.USB_DS_STAT_CONNECT 2)).flag (Fd.USB_DS_STAT_CONNECT 2) = true ∧ (p.on (Fd.USB_DS_STAT_ENABLE 2)).flag (Fd.USB_DS_STAT_ENABLE 2) = true ∧
    (p.arm (.portReset 2) 1).armed (.portReset 2) = true := by decide

theorem wit_StationFunction : let c := ((inService.on Fd.USB_USB_CTL_EN).on Fd.USB_USB_STAT_VBUS).tryConnect
    let h := ((c.setFld Fd.USB_USB_STAT_SPEED 2).on Fd.USB_USB_STAT_CONFIGURED).setFld Fd.USB_USB_STAT_ALT 1
    c.fnUp = true ∧ c.highSpeed = false ∧ h.fnUp = true ∧ h.highSpeed = true ∧ h.mode ≠ .recovery ∧ h.usb.ep3 = [] ∧ h.usb.ep4 = [] ∧
    h.usb.sent < 1 ∧ h.bulkMax = 512 ∧ h.flag Fd.USB_USB_STAT_CONFIGURED = true ∧
    h.isoReady = true ∧ (h.on Fd.USB_JSTREAM_EN).streaming = true ∧ h.rdPos 2 ≤ h.wrTotal ∧ h.mode ≠ .passThrough ∧ h.usb.snap = none ∧
    (h.setUsb { h.usb with snap := some [[1#8]] }).usb.snap.isSome = true ∧ h.fnReady = true ∧ h.usb.events = [] ∧
    (h.stationEvent 1 0).usb.events ≠ [] ∧ (h.txn.cpls.find? fun c => c.init == 2) = none ∧ h.usb.ctrlOpen = false ∧
    (0#64).toNat ≤ h.wrTotal ∧ h.wrTotal < (1#64).toNat := by decide

theorem wit_StationFunction2 : let b : List Byte := [1, 1, 7, 0, 0xC8, 0x10, 6, 0, 8, 0, 0, 0, 0x3F, 0xF0, 0, 0, 0, 0x20, 0, 8]
    12 ≤ b.length ∧ b.length = 12 + leVal ((b.drop 8).take 2) ∧ b.length % 4 = 0 ∧ b.headD 0#8 = 1#8 := by decide

theorem wit_TimeMessages : let s := inService.on (Fd.DOM_DOM_CFG_EN 0)
    (s.ptpFor (ptpFrame 0x0) 0x0).map (·.1) = some 0 ∧ (s.dom 0).seqs.contains (ptpSeq ((ptpFrame 0x0).payload.drop 4)) = false ∧
    fieldBE ((ptpFrame 0x0).payload.drop 4) 6 1 / 2 % 2 = 0 ∧ (s.ptpFor (ptpFrame 0x8) 0x8).map (·.1) = some 0 ∧
    (s.ptpFor (ptpFrame 0xB) 0xB).map (·.1) = some 0 ∧ (s.ptpFor (ptpFrame 0xC) 0xC).map (·.1) = some 0 ∧
    (let u := (linked.setFld (Fd.PORT_STAT_LINK_UP 2) 1).on (Fd.DOM_DOM_CFG_EN 0)
     let v := u.setFld Fd.PORT_SPUR_CTL_ROLE 1
     let f : PtpFrame := { da := 0x0180C200000E#48, size := 64#11, msg := (ptpFrame 0x0).payload.drop 4 }
     u.portUsable 2 = true ∧ u.path = 0 ∧ u.fld Fd.PORT_SPUR_CTL_ROLE = 0 ∧ isPdelay f.msg = false ∧ (v.ptpIn 2 false f).1 = true ∧
     v.vidOk (some 5#12) = false ∧ v.pdelayPort 2 = true ∧ (v.ptpIn 0 true { f with msg := [0x02#8] }).1 = true ∧
     (v.ptpIn 0 true { f with msg := [0x03#8] }).1 = true ∧ (v.ptpIn 2 false { f with da := 0#48 }).1 = false)  := by decide

theorem wit_TimeMessages2 : let s := ((inService.on (Fd.DOM_GM_CFG_GM_EN 0)).arm (.gmAnnounce 0) 5).arm (.pdReq 1) 7
    s.flag (Fd.DOM_GM_CFG_GM_EN 0) = true ∧ s.deadline (.gmAnnounce 0) = some 5 ∧ s.deadline (.pdReq 1) = some 7 ∧
    (s.on (Fd.PD_PD_CFG_EN 1)).flag (Fd.PD_PD_CFG_EN 1) = true ∧ (s.on (Fd.PORT_STAT_LINK_UP 1)).pdelayPort 1 = true ∧
    ptpType [0x02#8] = 2 ∧ (s.setPd 1 { req := some (0, 0), fails := 2 }).pd 1 = { req := some (0, 0), fails := 2 } ∧
    pdMeasure 100 [0x03#8] none = 8388608 ∧ pdMeasure 100000 [0x03#8] none = 8388608000 := by decide

theorem wit_TimeCorrections : let s := inService.on Fd.TIME_TIME_CTL_SERVO_EN
    let u := s.off Fd.TIME_TIME_STAT_INITIAL
    s.flag (Fd.DOM_GM_CFG_GM_EN 0) = false ∧ s.sel = 0 ∧ s.flag Fd.TIME_TIME_CTL_SERVO_EN = true ∧
    s.flag Fd.TIME_TIME_STAT_INITIAL = true ∧ u.flag Fd.TIME_TIME_STAT_INITIAL = false ∧ u.jumpLimit < 5400000 * 65536 ∧ 5 ≤ u.jumpLimit ∧
    u.flag Fd.TIME_TIME_STAT_STEP_ARMED = false ∧ (u.arm (.syncLoss 0) 3).armed (.syncLoss 0) = true ∧
    (inService.on (lockFld 1)).domLocked 1 = true ∧ (inService.ofs 1).natAbs ≤ inService.jumpLimit := by decide

theorem wit_TimeCorrections2 : let s := inService.off Fd.TIME_TIME_CTL_SERVO_EN
    let u := (inService.on Fd.TIME_TIME_CTL_REVERT).setFld Fd.TIME_TIME_CTL_PREFER 1
    s.takes none = true ∧ s.mode ≠ .drowse ∧ ({ s with mode := .drowse } : State).takes none = true ∧
    s.flag Fd.TIME_TIME_CTL_SERVO_EN = false ∧ incrLo ≤ 11000000000 ∧ 11000000000 ≤ incrHi ∧
    s.flag Fd.TIME_TIME_STAT_INITIAL = true ∧ ((((5#64).toNat : Int) - s.now) * 65536).natAbs ≤ s.jumpLimit ∧
    s.jumpLimit < ((((10000000#64).toNat : Int) - s.now) * 65536).natAbs ∧
    (s.off Fd.TIME_TIME_STAT_INITIAL).flag Fd.TIME_TIME_STAT_INITIAL = false ∧
    u.sel ≠ 1 ∧ u.flag Fd.TIME_TIME_CTL_REVERT = true ∧ u.fld Fd.TIME_TIME_CTL_PREFER = 1 := by decide

theorem wit_PicotStart : let s := (inService.wr (Reg.PIC_WIDTH 3) 2000#32).wr (Reg.PIC_PERIOD_NS 3) 250000#32
    s.takes none = true ∧ s.mode ≠ .load ∧ s.asleepOrLoading = false ∧ s.flag (Fd.PIC_PIC_CTL_EN 3) = false ∧
    (s.rd (Reg.PIC_WIDTH 3)).toNat = 2000 ∧ s.picP 3 = 250000 * 65536 ∧ (inService.rd (Reg.PIC_WIDTH 3)).toNat < 16 ∧
    s.rd64 (Reg.PIC_START_LO 3) (Reg.PIC_START_HI 3) < s.now + 1000 ∧ (s.wr (Reg.PIC_PERIOD_NS 3) 2015#32).picP 3 < 2016 * 65536 ∧
    s.fld (Fd.PIN_STAT_OWNER 5) = 0 := by decide

theorem wit_Picots : let s := (inService.wr (Reg.PIC_WIDTH 3) 2000#32).wr (Reg.PIC_PERIOD_NS 3) 250000#32
    s.takes none = true ∧ s.mode ≠ .load ∧ s.asleepOrLoading = false ∧ s.flag (Fd.PIC_PIC_CTL_EN 3) = false ∧
    s.picOk 3 0xC0000005#32 = true ∧ inService.picOk 3 0xC0000005#32 = false ∧ s.picOk 3 0xD0000005#32 = true ∧
    s.fld (Fd.PIN_STAT_OWNER 5) = 0 := by decide

theorem wit_Picots2 : let s := (inService.wr (Reg.PIC_PIC_CTL 3) 0xC0000005#32).on (Fd.PIC_PIC_STAT_RUNNING 3)
    s.flag (Fd.PIC_PIC_CTL_EN 3) = true ∧ (0xC0000005#32 ||| 0x80000000#32) &&& 0xFC0000FF#32 = s.rd (Reg.PIC_PIC_CTL 3) ∧
    s.picRuns 3 = true ∧ (s.pic 3).inPulse = false ∧ s.runs = true ∧ s.picSilent = false ∧
    ({ s with mode := .passThrough } : State).picSilent = true ∧ ((s.setPic 3 { inPulse := true }).pic 3).inPulse = true := by decide

theorem wit_Feeds : let s := inService.on (Fd.FEED_F_STAT_IN_RANGE 1)
    s.pow.up = true ∧ (s.on (Fd.FEED_F_STAT_CONDUCTING 1)).flag (Fd.FEED_F_STAT_CONDUCTING 1) = true ∧
    s.flag (Fd.FEED_F_STAT_CONDUCTING 1) = false ∧ s.flag (Fd.FEED_F_STAT_IN_RANGE 1) = true ∧ s.flag (Fd.FEED_F_CFG2_EN 1) = true ∧
    inService.flag (Fd.FEED_F_STAT_IN_RANGE 1) = false ∧ s.pow.events.length < 64 := by decide

theorem wit_Metering : inService.pow.up = true ∧ inService.takes none = true ∧ inService.asleepOrLoading = false ∧
    inService.flag Fd.PWR_PWR_STAT_PLK_LOST = false ∧ inService.actClash inService.ownSrc inService.ownAct = false := by decide

theorem wit_Branches : let s := inService.setBrState 7 2
    (s.setBrState 7 1).brState 7 = 1 ∧ s.brOn 7 = true ∧ (s.br 7).limitAt = none ∧
    s.fld (Fd.BR_BR_STAT_RETRY_COUNT 7) ≠ s.fld (Fd.BR_BR_RETRY_RETRY_MAX 7) ∧
    (let u := s.setFld (Fd.BR_BR_STAT_RETRY_COUNT 7) 3
     u.fld (Fd.BR_BR_STAT_RETRY_COUNT 7) = u.fld (Fd.BR_BR_RETRY_RETRY_MAX 7) ∧ u.fld (Fd.BR_BR_RETRY_RETRY_MAX 7) ≠ 255) ∧
    ((s.setBr 7 { startAt := some 1, limitAt := some 2, idleAt := some 3, offEnd := some 4, onAt := some 5, pgAt := some 6 }).br 7).pgAt =
      some 6 ∧ (s.on (Fd.BR_BR_STAT_PG 7)).flag (Fd.BR_BR_STAT_PG 7) = true ∧
    (s.setPow { s.pow with meas := Tab.set {} s.pow.meas 2 { v := 24000#16 } }).pgBelow 7 = true := by decide

theorem wit_Branches2 : inService.takes none = true ∧ inService.asleepOrLoading = false ∧ inService.pow.up = true ∧
    inService.flag Fd.PWR_PWR_STAT_PLK_LOST = false ∧ inService.actClash inService.ownSrc inService.ownAct = false ∧
    inService.brState 7 = 0 ∧ inService.mode ≠ .load ∧ (inService.setBrState 7 5).brState 7 = 5 := by decide

theorem wit_PowerLink : inService.pow.up = true ∧ inService.runs = true ∧ inService.takes none = true ∧ inService.mode ≠ .load ∧
    inService.actClash 0 true = false ∧ inService.actClash 1 false = true ∧ inService.pow.hold = false ∧
    inService.fld Fd.PWR_HOLD_CFG_HOLD_TIME ≠ 0 ∧ inService.flag Fd.PWR_HOLD_CFG_HOLD_UNLIM = false ∧
    inService.pwrInRange 0x1704 0x00322710#32 = true ∧ dieReg 0x404 = true ∧ dieReg 0x400 = false ∧
    (inService.on Fd.PWR_PWR_STAT_PLK_LOST).flag Fd.PWR_PWR_STAT_PLK_LOST = true ∧ ({ inService with pow := { holdEnd := some 5 } } : State).pow.holdEnd = some 5 := by
  decide

theorem wit_PowerLink2 : let s : State := { inService with anat := { inService.anat with plkFailRun := 3 } }
    3 ≤ s.anat.plkFailRun ∧ s.flag Fd.PWR_PWR_STAT_PLK_LOST = false ∧ ((s.setPlkSrc 0 { low := some (4, 1#16) }).plkSrc 0).low = some (4, 1#16) ∧
    (s.plkSrc 0).latch.lookup 4 = none ∧ (inService.plkSrc inService.ownSrc).latch = [] := by decide

theorem wit_Tether : let s := twinState 2
    s.tethered = true ∧ s.fieldHolder = false ∧ s.twinState = 2 ∧ s.twin.take = none ∧ s.mode = .standby ∧
    (s.arm .tether 5).deadline .tether = some 5 ∧ s.tetherOk = true ∧ (s.off Fd.TWIN_TWIN_STAT_TETHER_OK).tetherOk = false ∧
    (s.setTwin { s.twin with upSince := some 1, diffs := [(7, 2)] }).twin.upSince = some 1 ∧
    Tab.get 0 (s.setTwin { s.twin with diffs := [(7, 2)] }).twin.diffs 7 = 2 ∧ s.level 7 = false := by decide

theorem wit_Tether2 : let s := drivenPin 5
    s.pinDrive 5 = some true ∧ s.flag (Fd.PIN_CFG_OD 5) = false ∧ s.level 5 = false ∧ s.takes none = true ∧ s.mode ≠ .standby := by decide

theorem wit_TwinTaking : let s := twinState 2
    ((s.setTwin { s.twin with take := some (1, 0) }).until 204800).partnerAct = false ∧ s.mode = .standby ∧ s.tethered = true ∧
    (({ s with twin := { s.twin with actAt := some 204800 } } : State).until 204800).partnerAct = true ∧
    s.twin.take = none ∧ s.toOwnSlot.partnerAct = false ∧ s.twinPos = false ∧ s.boot.cold = true := by decide

theorem wit_TwinTaking2 : let s := twinState 3
    s.tethered = true ∧ s.twinState = 3 ∧ (s.arm .claim 4).deadline .claim = some 4 ∧ (twinFrame 3 4).isTwin 3 = true ∧
    fieldBE (twinFrame 3 4).payload 2 2 = 4 ∧ s.gseq = 0 ∧ (s.setTwin { s.twin with granted := true }).twin.granted = true := by decide

theorem wit_TwinTaking3 : let s := inService.on Fd.WARDEN_RING_STAT_WARDEN_ACTIVE
    let u := ({ twinState 4 with mode := .seamless } : State)
    s.flag Fd.WARDEN_RING_STAT_WARDEN_ACTIVE = true ∧ (twinFrame 2 0).isTwin 2 = true ∧ (twinFrame 1 0).isTwin 1 = true ∧
    s.flag (Fd.TWIN_GRANT_TAB_VALID (twinFrame 2 0).srcNode.toNat) = false ∧ u.twinEn = true ∧ u.twinState = 4 ∧ u.onRing = true ∧
    (({ u with ring := { u.ring with last1 := some (9, 0) } } : State).toTime 100000).activeWarden = some 9 := by decide

theorem wit_RevertAndDrill : let s := twinState 2
    s.tethered = true ∧ s.drillPending = false ∧ s.twin.handAt = none ∧ s.twinPos = false ∧ s.twinState = 2 ∧
    s.flag Fd.TWIN_TWIN_CFG_REVERT_EN = true ∧ s.flag Fd.TWIN_TWIN_STAT_REVERT_LIMIT = false ∧
    (let u := ((twinState 4).on Fd.SYS_STRAP_TWIN_POS)
     u.twinPos = true ∧ u.fieldHolder = true ∧ u.takes none = true) ∧
    (s.setTwin { s.twin with drillRun := true }).twin.drillRun = true ∧ s.mode = .standby := by decide

theorem wit_RevertAndDrill2 : let s := (twinState 4).wr Reg.TWIN_DRILL_AT_LO 3000000#32
    s.takes none = true ∧ s.twinState = 4 ∧ s.partnerReady = true ∧ s.drillPending = false ∧ s.twin.handAt.isSome = false ∧
    s.now + 2000000 ≤ s.rd64 Reg.TWIN_DRILL_AT_LO Reg.TWIN_DRILL_AT_HI ∧ (s.on Fd.TWIN_DRILL_STAT_PENDING).drillPending = true ∧
    (twinState 4).rd64 Reg.TWIN_DRILL_AT_LO Reg.TWIN_DRILL_AT_HI < 2000000 ∧ (twinState 2).twinState ≠ 4 := by decide

theorem wit_TwinConfiguration : let s : State := { inService with mode := .load }
    s.runs = true ∧ s.boot.applying = false ∧ s.mode = .load ∧ inService.mode ≠ .load ∧ bits 0xC00A0A01#32 16 8 = 10 ∧
    bits 0xC00A0A01#32 0 8 = 1 ∧ bits 0xC00A0A3D#32 0 8 = 61 := by decide

theorem wit_ChurnsAndScrub : let s := inService
    s.runs = true ∧ s.asleepOrLoading = false ∧ bits 3#32 0 3 = 3 ∧ s.fld (Fd.MEM_CHURN_OWN_OWNER 5) = 0 ∧ s.hand.lookup 5 = none ∧
    s.mode ≠ .load ∧ ({ s with hand := [(5, { owner := 3, direct := true })] } : State).hand.lookup 5 = some { owner := 3, direct := true } ∧
    (let u := (s.setFld (Fd.MEM_CHURN_OWN_OWNER 5) 4).on Fd.CYC_CYC_CTL_EN
     (u.setFld Fd.CYC_CYC_CTL_CHURN 5).fld Fd.CYC_CYC_CTL_CHURN = 5 ∧ u.fld (Fd.MEM_CHURN_OWN_OWNER 5) = 4) ∧
    ({ s with mode := .drowse } : State).asleepOrLoading = true := by decide

theorem wit_ChurnsAndScrub2 : let s := (inService.on Fd.MEM_MEM_STAT_TRAINED).off Fd.MEM_MEM_STAT_SELF_REFRESH
    s.scrubbing = true ∧ inService.scrubbing = false ∧ s.scrubPos + 64 < s.dramTop ∧
    (s.setMark 8 3).mark 8 = 3 ∧ (s.wr64 Reg.MEM_SCRUB_POS_LO Reg.MEM_SCRUB_POS_HI (s.dramTop - 64)).scrubPos + 64 = s.dramTop := by decide

theorem wit_HostPort : let s := inService.on Fd.HOST_HOST_CFG_EN
    s.hostServes = true ∧ s.flag Fd.SYS_MODE_STAT_ENTERING = false ∧ s.mark 0x1001000004 = 0 ∧
    (s.setMark 0x1001000004 3).mark 0x1001000004 ≠ 0 ∧ s.flag Fd.HOST_HOST_CFG_QPI = false ∧
    (s.on Fd.HOST_HOST_CFG_QPI).flag Fd.HOST_HOST_CFG_QPI = true ∧
    ({ s with mode := .recovery } : State).hostServes = false ∧ s.takes none = true ∧ s.asleepOrLoading = false ∧
    ({ s with mode := .drowse } : State).asleepOrLoading = true ∧ ({ s with mode := .drowse } : State).takes none = true := by decide

theorem wit_Mailbox : let s := inService.on Fd.HOST_HOST_CFG_EN
    let u : State := { s with host := { s.host with req := List.replicate 128 { data := 0#32 }, cpl := [{ data := 1#32 }] } }
    s.hostServes = true ∧ s.flag Fd.SYS_MODE_STAT_ENTERING = false ∧ s.host.req.length < 128 ∧ u.hostServes = true ∧
    128 ≤ u.host.req.length ∧ (1#8).toNat ≤ u.host.cpl.length ∧ (∀ w ∈ u.host.cpl, w.upset = 0) ∧ s.mbRuns = true ∧
    s.txn.cpls.find? (fun c => c.init == 1) = none := by decide

theorem wit_StartToService : let s : State := { inService with mode := .load }
    let u := s.on Fd.MEM_MEM_STAT_TRAINED
    let c : ConfigChoice := { slot0 := { authentic := false, settings := [] }, slot1 := { authentic := false, settings := [] }, formatMax := 1#8, dramSize := 1#2, writeBackOk := true, migrated := [] }
    s.mode = .load ∧ s.runs = true ∧ u.flag Fd.MEM_MEM_STAT_TRAINED = true ∧
    (u.setFld Fd.SYS_CFG_STAT_FORMAT_MAX c.formatMax.toNat).chooseCfg c = none := by decide

theorem wit_StartToService2 : let s : State := { twoSlots with boot := { rom := true } }
    (s.on Fd.SYS_BOOT_STAT_SLOT0_OK).slotChosen = true := by decide

theorem wit_ModeCommands : let s := inService
    let p : State := { s with mode := .passThrough }
    let d := (linked.setFld Fd.WARDEN_RING_CTL_ROLE 0).off Fd.USB_USB_STAT_VBUS
    s.runs = true ∧ s.flag Fd.SYS_MODE_STAT_SAFE_HOLD = false ∧ (s.on Fd.SYS_MODE_STAT_WAKING).flag Fd.SYS_MODE_STAT_WAKING = true ∧
    s.flag Fd.SYS_MODE_STAT_ENTERING = false ∧ s.flag Fd.SYS_MODE_STAT_WAKING = false ∧ s.flag Fd.SYS_MODE_STAT_ACTIVATING = false ∧
    (s.on Fd.SYS_MODE_STAT_SAFE_HOLD).flag Fd.SYS_MODE_STAT_SAFE_HOLD = true ∧ p.mode = .passThrough ∧ p.twinEn = false ∧
    linked.onRing = true ∧ linked.runs = true ∧ (s.setIdentity 4 7).ringAllowed = true ∧ (s.setIdentity 0 0).ringAllowed = false ∧
    s.inField = true ∧ d.drowseAllowed = true := by decide

theorem wit_ModeCommands2 : let s := inService
    s.asleepOrLoading = false ∧ bits 0x5A17#32 0 16 = 0x5A17 ∧ (s.arm .wdog 9).armed .wdog = true ∧ bits 0x5A18#32 0 16 ≠ 0x5A17 ∧
    ({ s with mode := .recovery } : State).runs = true := by decide

theorem wit_DrowseRefusals : let s := inService
    s.runs = true ∧ s.flag Fd.SYS_MODE_STAT_ENTERING = false ∧ s.flag Fd.SYS_MODE_STAT_WAKING = false ∧
    s.flag Fd.SYS_MODE_STAT_ACTIVATING = false ∧ (s.setFld Fd.WARDEN_RING_CTL_ROLE 1).fld Fd.WARDEN_RING_CTL_ROLE ≠ 0 ∧
    (s.on (Fd.CYC_STR_CFG_EN 3)).flag (Fd.CYC_STR_CFG_EN 3) = true ∧
    (s.setFld (Fd.CYC_STR_CFG_ROLE 3) 2).fld (Fd.CYC_STR_CFG_ROLE 3) ≠ 0 ∧
    (s.setFld Fd.UPD_UPD_STAT_STATE 5).fld Fd.UPD_UPD_STAT_STATE = 5 ∧ (s.on Fd.TWIN_TWIN_CFG_EN).flag Fd.TWIN_TWIN_CFG_EN = true ∧
    (let u := (s.on Fd.USB_USB_STAT_VBUS).off Fd.USB_USB_STAT_SUSPENDED
     u.flag Fd.USB_USB_STAT_VBUS = true ∧ u.flag Fd.USB_USB_STAT_SUSPENDED = false) := by decide

theorem wit_DrowseAndWake : let s : State := { inService with mode := .drowse, field := { inService.field with wakeEdge := true } }
    s.mode = .drowse ∧ s.flag Fd.SYS_MODE_STAT_ENTERING = false ∧ s.flag Fd.SYS_MODE_STAT_WAKING = false ∧ s.runs = true ∧
    (s.on Fd.SYS_DRW_CFG_WAKE_TIMER).flag Fd.SYS_DRW_CFG_WAKE_TIMER = true ∧ s.boot.wakeAt = none ∧
    s.flag Fd.SYS_DRW_CFG_WAKE_FRAME = true ∧ s.field.wakeEdge = true ∧ (s.on (Fd.PIN_CFG_WAKE_EN 9)).flag (Fd.PIN_CFG_WAKE_EN 9) = true ∧
    (s.arm .wake 5).armed .wake = true ∧ inService.mode ≠ .drowse ∧
    (let f : Frame := { aFrame Kd.wake 7#3 with payload := [1#8] ++ List.replicate 15 0#8 }
     f.kind = Kd.wake ∧ fieldBE f.payload 0 1 = 1 ∧ fieldBE f.payload 4 8 ≤ s.now ∧ f.dstNode ≠ 511#9) := by decide

theorem wit_DrowseAndWake2 : let s := inService.on Fd.SYS_MODE_STAT_ENTERING
    ({ s with boot := { s.boot with drowsy := true } } : State).flag Fd.SYS_MODE_STAT_ENTERING = true := by decide

theorem wit_UpdateMessages : let s := inService
    let f := chunkFrame 1 0
    f.kind = Kd.chunk ∧ (s.takeMail f).chunkService = true ∧ fieldBE f.payload 0 1 = 1 ∧ (s.takeMail f).srcAllowed f = true ∧
    f.len.toNat = 1456 ∧ f.payload.length = f.len.toNat ∧ f.dstNode ≠ 511#9 ∧ fieldBE (chunkFrame 3 1).payload 0 1 = 3 ∧
    fieldBE (chunkFrame 3 1).payload 1 1 = 1 ∧ 3 < fieldBE (chunkFrame 9 0).payload 0 1 ∧
    ({ s with mode := .load } : State).chunkService = false ∧ ({ s with mode := .load } : State).dropsChunk = true ∧ s.fld Fd.SYS_BOOT_STAT_SLOT = 0 ∧ s.updState = 0 := by decide

theorem wit_UpdateMessages2 : let s := inService.setFld Fd.UPD_UPD_STAT_STATE 4
    s.foreign .usb (List.replicate 8 0#8) = true ∧ s.abortResult .usb [] true = .busy ∧
    inService.abortResult .usb [] true = .wrongMode ∧ (inService.on (Fd.UPD_SRC_ALLOW_EN 0)).srcAllowed (chunkFrame 1 0) = false ∧
    ((((inService.on Fd.USB_USB_CTL_EN).on Fd.USB_USB_STAT_VBUS).tryConnect).on Fd.USB_USB_STAT_CONFIGURED).fnReady = true := by decide

theorem wit_UpdateSessions : let s := inService
    let st := fun (n : Nat) => s.setFld Fd.UPD_UPD_STAT_STATE n
    (st 1).held 0 = false ∧ (st 1).updState = 1 ∧ (st 2).held 0 = false ∧ (st 2).updState = 2 ∧ (st 3).updState = 3 ∧ (st 5).updState = 5 ∧
    (st 3).chunkService = true ∧ (st 4).openedAt = none ∧
    (((st 4).wr Reg.UPD_OPENED_LO 7#32).off Fd.TIME_TIME_STAT_INITIAL).openedAt = some 7 := by decide

theorem wit_UpdateSessions2 : let s : State := { inService with mode := .recovery }
    let p : State := { inService with mode := .passThrough }
    s.inRom = true ∧ (s.setFld Fd.UPD_UPD_STAT_STATE 2).updState = 2 ∧ (s.setFld Fd.UPD_UPD_STAT_STATE 2).allHeld = true ∧ s.updState = 0 ∧
    ((p.setFld Fd.UPD_UPD_STAT_STATE 6).on Fd.TXN_TXN_STAT_QUIESCE_DONE).flag Fd.TXN_TXN_STAT_QUIESCE_DONE = true ∧
    (p.setFld Fd.UPD_UPD_STAT_STATE 6).updState = 6 := by decide

theorem wit_CanonicalStays : ({ State.reset with pending := [.bobclkCleanWrite 0#32] } : State).canonical = true ∧
    (∃ t, step { State.reset with pending := [.bobclkCleanWrite 0#32] } = .next t) := ⟨by decide, _, rfl⟩

end Sys2Proof.Tests
end

section
/-!
SUPPORT. The canonical form of registers, memory and check states, kept by every operation of the model: one lemma per operation, in the
order of the model, whose proof follows the operations that the definition composes.
-/

namespace Sys2Proof.Machine

/-- The three stored tables are in canonical form. -/
structure Canon (s : State) : Prop where
  regs : Tab.wf regReset s.regs = true
  mem : Memory.wf s.mem = true
  marks : Tab.wf (fun _ => 0) s.marks = true

theorem State.canonical_iff (s : State) : s.canonical = true ↔ Canon s := by
  simp only [State.canonical, Bool.and_eq_true, and_assoc]
  exact ⟨fun ⟨hr, hm, hk⟩ => ⟨hr, hm, hk⟩, fun ⟨hr, hm, hk⟩ => ⟨hr, hm, hk⟩⟩

/-- An optional result holds a state in canonical form, if any. -/
def CanonOpt {α : Type} (o : Option (α × State)) : Prop := ∀ r, o = some r → Canon r.2

variable {s : State}

/-- An update of the other fields keeps the form. -/
theorem Canon.same {latches clk ctr past timers out freeCtr mode anat ports ring sw txn fifos fifoLost cyc field bobs cans stb usb tim
    pow twin host hand boot upd pending} (h : Canon s) :
    Canon ⟨s.regs, s.mem, s.marks, latches, clk, ctr, past, timers, out, freeCtr, mode, anat, ports, ring, sw, txn, fifos, fifoLost,
      cyc, field, bobs, cans, stb, usb, tim, pow, twin, host, hand, boot, upd, pending⟩ :=
  ⟨h.regs, h.mem, h.marks⟩

theorem Canon.dropRegs (h : Canon s) (p : Nat × Word → Bool) : Canon { s with regs := s.regs.filter p } :=
  ⟨Tab.wf_filter regReset p h.regs, h.mem, h.marks⟩

theorem Canon.ite {c : Prop} [Decidable c] {s t : State} (hs : Canon s) (ht : Canon t) : Canon (if c then s else t) := by
  split <;> assumption

theorem Canon.ite₂ {α : Type} {c : Prop} [Decidable c] {r q : α × State} (hr : Canon r.2) (hq : Canon q.2) :
    Canon (if c then r else q).2 := by
  split <;> assumption

theorem Canon.ite₃ {α β : Type} {c : Prop} [Decidable c] {r q : α × β × State} (hr : Canon r.2.2) (hq : Canon q.2.2) :
    Canon (if c then r else q).2.2 := by
  split <;> assumption

theorem Canon.snd {α : Type} {a : α} {t : State} (h : Canon t) : Canon (a, t).2 := h

theorem Canon.of_eq₂ {α : Type} {r : α × State} {a : α} {t : State} (h : Canon r.2) (e : r = (a, t)) : Canon t := by
  subst e; exact h

theorem Canon.of_eq₃ {α β : Type} {r : α × β × State} {a : α} {b : β} {t : State} (h : Canon r.2.2) (e : r = (a, b, t)) : Canon t := by
  subst e; exact h

theorem Canon.of_some {t u : State} (h : Canon t) (e : some t = some u) : Canon u := Option.some.inj e ▸ h

theorem Canon.of_ite_some {c : Prop} [Decidable c] {o q : Option State} {u : State} (e : (if c then o else q) = some u)
    (ho : o = some u → Canon u) (hq : q = some u → Canon u) : Canon u := by
  split at e
  · exact ho e
  · exact hq e

theorem CanonOpt.some {α : Type} {r : α × State} (h : Canon r.2) : CanonOpt (some r) := fun _ e => Option.some.inj e ▸ h

theorem CanonOpt.none {α : Type} : CanonOpt (none : Option (α × State)) := fun _ e => nomatch e

theorem CanonOpt.ite {α : Type} {c : Prop} [Decidable c] {o q : Option (α × State)} (ho : CanonOpt o) (hq : CanonOpt q) :
    CanonOpt (if c then o else q) := by
  split <;> assumption

theorem CanonOpt.getD {α : Type} {o : Option (α × State)} {r : α × State} (ho : CanonOpt o) (hr : Canon r.2) : Canon (o.getD r).2 := by
  cases o with
  | none => exact hr
  | some q => exact ho q rfl

theorem CanonOpt.map {α β : Type} {o : Option α} {f : α → β × State} (h : ∀ a, Canon (f a).2) : CanonOpt (o.map f) := by
  cases o with
  | none => exact .none
  | some a => exact .some (h a)

/-! ### Machine/Ops.lean -/

theorem Canon.wr {a : Nat} {v : Word} (h : Canon s) : Canon (s.wr a v) := ⟨Tab.wf_set regReset a v h.regs, h.mem, h.marks⟩

theorem Canon.setFld {f : Fld} {v : Nat} (h : Canon s) : Canon (s.setFld f v) := h.wr

theorem Canon.on {f : Fld} (h : Canon s) : Canon (s.on f) := h.setFld

theorem Canon.off {f : Fld} (h : Canon s) : Canon (s.off f) := h.setFld

theorem Canon.setFlag {f : Fld} {b : Bool} (h : Canon s) : Canon (s.setFlag f b) := h.setFld

theorem Canon.bumpBy {a n : Nat} (h : Canon s) : Canon (s.bumpBy a n) := h.wr

theorem Canon.bump {a : Nat} (h : Canon s) : Canon (s.bump a) := h.bumpBy

theorem Canon.bumpFld {f : Fld} {n : Nat} (h : Canon s) : Canon (s.bumpFld f n) := h.setFld

theorem Canon.peak {f : Fld} {v : Nat} (h : Canon s) : Canon (s.peak f v) := .ite h.setFld h

theorem Canon.add64 {lo hi n : Nat} (h : Canon s) : Canon (s.add64 lo hi n) := h.wr.wr

theorem Canon.wr64 {lo hi v : Nat} (h : Canon s) : Canon (s.wr64 lo hi v) := h.wr.wr

theorem Canon.onlyIf {c : Bool} {f : State → State} (h : Canon s) (hf : ∀ t, Canon t → Canon (f t)) : Canon (s.onlyIf c f) :=
  .ite (hf s h) h

theorem Canon.forEach {β : Type} {l : List β} {f : β → State → State} (h : Canon s) (hf : ∀ b t, Canon t → Canon (f b t)) :
    Canon (s.forEach l f) :=
  State.forEach_induct Canon l f s h fun b _ t ht => hf b t ht

theorem Canon.advance {d : Nat} (h : Canon s) : Canon (s.advance d) := h.same

theorem Canon.toTime {ns : Nat} (h : Canon s) : Canon (s.toTime ns) := .ite h h.same

theorem Canon.cancel {t : Timer} (h : Canon s) : Canon (s.cancel t) := h.same

theorem Canon.arm {t : Timer} {d : Nat} (h : Canon s) : Canon (s.arm t d) := h.same

theorem Canon.expire {t : Timer} (h : Canon s) : Canon (s.expire t) :=
  Canon.cancel (by
    split
    · exact h.advance
    · exact h)

theorem Canon.expiry {t : Timer} {f : State → State} (hf : ∀ t, Canon t → Canon (f t)) (h : Canon s) : Canon (s.expiry t f) :=
  .ite (hf _ h.expire) h

theorem Canon.setByte {a : Nat} {b : Byte} (h : Canon s) : Canon (s.setByte a b) := ⟨h.regs, Memory.wf_setByte a b s h.mem, h.marks⟩

theorem Canon.writeBytes : ∀ {l : List Byte} {a : Nat} {s : State}, Canon s → Canon (s.writeBytes a l)
  | [], _, _, h => h
  | _ :: _, _, _, h => h.setByte.writeBytes

theorem Canon.setMark {w g : Nat} (h : Canon s) : Canon (s.setMark w g) := ⟨h.regs, h.mem, Tab.wf_set (fun _ => 0) w g h.marks⟩

theorem Canon.emit {o : Out} (h : Canon s) : Canon (s.emit o) := h.same

theorem Canon.irq {line : Nat} (h : Canon s) : Canon (s.irq line) := h.emit

theorem Canon.irqRise {line : Nat} {active : State → Word} {s before : State} (h : Canon s) :
    Canon (s.irqRise line active before) :=
  .ite h.irq h

theorem Canon.useFree (h : Canon s) : Canon s.useFree.2 := h.same

theorem Canon.pushRec {i : Nat} {r : JRec} (h : Canon s) : Canon (s.pushRec i r) :=
  .ite h.same (by
    split
    · exact h.same.bump.bumpFld
    · exact h.same.bump)

theorem Canon.sysRec {c detail : Nat} (h : Canon s) : Canon (s.sysRec c detail) := h.pushRec

/-! ### Machine/Flags.lean -/

theorem Canon.setPort {p : Nat} {v : PortState} (h : Canon s) : Canon (s.setPort p v) := h.same

theorem Canon.setPd {p : Nat} {v : PdState} (h : Canon s) : Canon (s.setPd p v) := h.same

theorem Canon.requestWake {ds : Option Nat} (h : Canon s) : Canon (s.requestWake ds) := by
  cases ds with
  | none => exact .ite h (.ite h.on.on h.on.same)
  | some n => exact .ite h (.ite h.on h.on.same)

theorem Canon.stationEvent {code arg : Nat} (h : Canon s) : Canon (s.stationEvent code arg) :=
  .ite h.same.bump (.ite h.same.requestWake h.same)

theorem Canon.hostPend {bit : Nat} (h : Canon s) : Canon (s.hostPend bit) := h.on

theorem Canon.answer {r : Res} (h : Canon r.2) : Canon (answer r) := h.emit

theorem Canon.wrongMode (h : Canon s) : Canon (wrongMode s).2 := h.bump

theorem Canon.refuse {st : Status} (h : Canon s) : Canon (refuse st s).2 := by
  dsimp only [Machine.refuse]
  split
  · exact h.wrongMode
  · exact h.bump
  · exact h.bump
  · exact h.bump
  · exact h.bump
  · exact h

theorem Canon.command {u : Option ResetUnit} {f : State → Res} (hf : ∀ t, Canon t → Canon (f t).2) (h : Canon s) :
    Canon (s.command u f) :=
  .ite h (.ite h.refuse.answer (.ite h.refuse.answer (hf _ h).answer))

theorem Canon.query {u : Option ResetUnit} {f : State → Status × List Byte × State} (hf : ∀ t, Canon t → Canon (f t).2.2)
    (h : Canon s) : Canon (s.query u f) :=
  .ite h (.ite h.refuse.emit (hf _ h).emit)

theorem Canon.sysCommand {f : State → Res} (hf : ∀ t, Canon t → Canon (f t).2) (h : Canon s) : Canon (s.sysCommand f) :=
  .ite h (.ite h.refuse.answer (hf _ h).answer)

theorem Canon.entryWrite {base size off : Nat} {b : List Byte} {fix : List Byte → List Byte} {ok : List Byte → Bool} (h : Canon s) :
    Canon (s.entryWrite base size off b fix ok).2.2 := by
  refine List.foldlRecOn (motive := fun r : Bool × Res => Canon r.2.2) _ _ h fun r hr _ _ => ?_
  split
  · exact .ite₃ (Canon.writeBytes hr) (Canon.refuse hr)
  · exact hr

/-! ### Machine/Power.lean -/

theorem Canon.setPow {p : Power} (h : Canon s) : Canon (s.setPow p) := h.same

theorem Canon.setBr {n : Nat} {b : BrState} (h : Canon s) : Canon (s.setBr n b) := h.setPow

theorem Canon.setBrState {n v : Nat} (h : Canon s) : Canon (s.setBrState n v) := h.setFld

theorem Canon.setPlkSrc {src : Nat} {p : PlkSrc} (h : Canon s) : Canon (s.setPlkSrc src p) := h.setPow

theorem Canon.toClk {t : Nat} (h : Canon s) : Canon (s.toClk t) := h.advance

theorem Canon.powEvent {code path : Nat} {level : Bool} {arg : Nat} (h : Canon s) : Canon (s.powEvent code path level arg) :=
  .ite h.setPow h.bump.setPow

theorem Canon.feedOff {f : Nat} (h : Canon s) : Canon (s.feedOff f) := h.off.off

theorem Canon.feedReverse {f : Nat} (h : Canon s) : Canon (s.feedReverse f) := .ite h.feedOff.on.on.bump.powEvent h

theorem Canon.feedConduct {f : Nat} (h : Canon s) : Canon (s.feedConduct f) := .ite h.off.on.powEvent h

theorem Canon.feedInRange {f drop : Nat} (h : Canon s) : Canon (s.feedInRange f drop) :=
  .ite (have hs := (h.on.onlyIf fun _ ht => ht.off.powEvent).onlyIf fun _ ht => ht.off.powEvent
  .ite hs.on.setFlag hs) h

theorem Canon.feedOut {f : Nat} {now seen : Fld} {cnt code : Nat} (h : Canon s) : Canon (s.feedOut f now seen cnt code) :=
  .ite h.feedOff.off.off.on.on.bump.powEvent h

theorem Canon.brStart {n : Nat} (h : Canon s) : Canon (s.brStart n) := h.setBrState.setBr.powEvent

theorem Canon.endLimit {n : Nat} (h : Canon s) : Canon (s.endLimit n) := by
  dsimp only [State.endLimit]
  split
  · exact h
  · exact h.setBr.powEvent

theorem Canon.pgFall {n : Nat} (h : Canon s) : Canon (s.pgFall n) := .ite h.off.bump.powEvent h

theorem Canon.gateOff {n : Nat} (h : Canon s) : Canon (s.gateOff n) := h.endLimit.pgFall.setBr

theorem Canon.brOff {n arg : Nat} (h : Canon s) : Canon (s.brOff n arg) :=
  have hs := h.gateOff.setBrState.powEvent
  .ite hs.setFld hs

theorem Canon.trip {n cause : Nat} (h : Canon s) : Canon (s.trip n cause) :=
  have hs := ((h.gateOff.bump.onlyIf fun _ hx => hx.bump).onlyIf fun _ hx => hx.bump).on.setFld.powEvent
  .ite hs.setBrState.bump.powEvent hs.setBrState.setBr

theorem Canon.brCommand {n : Nat} {on restart : Bool} (h : Canon s) : Canon (s.brCommand n on restart) :=
  .ite h.brOff (.ite (h.onlyIf fun _ hs => hs.setFld).brStart (.ite h.setFld.brStart h))

theorem Canon.softStartEnd {n : Nat} (h : Canon s) : Canon (s.softStartEnd n) := .ite h.setBrState.setBr h

theorem Canon.softStartTimeout {n : Nat} (h : Canon s) : Canon (s.softStartTimeout n) := by
  dsimp only [State.softStartTimeout]
  split
  · exact .ite h.toClk.trip h
  · exact h

theorem Canon.limitBegin {n : Nat} (h : Canon s) : Canon (s.limitBegin n) :=
  .ite (h.setBr.onlyIf fun _ hx => hx.setBrState).powEvent h

theorem Canon.limitEnd {n : Nat} (h : Canon s) : Canon (s.limitEnd n) := .ite (.ite h.endLimit.setBrState.setBr h.endLimit) h

theorem Canon.faultClear {n : Nat} (h : Canon s) : Canon (s.faultClear n) := by
  dsimp only [State.faultClear]
  split
  · exact h.toClk.setBr
  · exact h

theorem Canon.faultExpiry {n : Nat} (h : Canon s) : Canon (s.faultExpiry n) := by
  dsimp only [State.faultExpiry]
  split
  · exact h.toClk.trip
  · exact h

theorem Canon.offTimeEnd {n : Nat} (h : Canon s) : Canon (s.offTimeEnd n) := by
  dsimp only [State.offTimeEnd]
  split
  · exact h.toClk.bumpFld.brStart
  · exact h

theorem Canon.clearTimeEnd {n : Nat} (h : Canon s) : Canon (s.clearTimeEnd n) := by
  dsimp only [State.clearTimeEnd]
  split
  · exact h.toClk.setFld
  · exact h

theorem Canon.pgRise {n : Nat} (h : Canon s) : Canon (s.pgRise n) := by
  dsimp only [State.pgRise]
  split
  · exact .ite h.toClk.on.setBr.powEvent h
  · exact h

theorem Canon.meter {k : Nat} {v i : BitVec 16} (h : Canon s) : Canon (s.meter k v i) :=
  .ite h (have hs := h.setPow.wr.wr64
  .ite (.ite hs.wr hs) (.ite (.ite (.ite hs.wr hs) (Canon.ite hs.wr hs).setBr) (Canon.ite hs.wr hs).setBr))

theorem Canon.clearEnergy {k : Nat} (h : Canon s) : Canon (s.clearEnergy k) := h.wr64.setPow

theorem Canon.dieApply {a : Nat} {w : Word} (h : Canon s) : Canon (s.dieApply a w).2 :=
  .ite₂ h (.ite₂ (.ite₂ h h.wr) (.ite₂ (.ite h.clearEnergy h) (.ite₂ (.ite₂ h.wr (.ite₂ (.ite h.wr h.wr.feedOff.off) (.ite₂ h.wr
    h))) (.ite₂ h.wr (.ite₂ (.ite₂ h.wr.brCommand (.ite₂ h.wr (.ite₂ h.wr (.ite₂ h.wr (.ite₂ h.wr (.ite₂ h.wr (.ite₂ h.wr h)))))))
    h)))))

theorem Canon.plkOut {src : Nat} {master target : List Byte} (h : Canon s) : Canon (s.plkOut src master target) := h.emit

theorem Canon.toOwnSlot (h : Canon s) : Canon s.toOwnSlot := h.toTime

theorem Canon.plkValid {src : Nat} {act : Bool} (h : Canon s) : Canon (s.plkValid src act) :=
  have hs := (Canon.ite h.setPow.powEvent h).setPlkSrc
  have hs' := Canon.ite hs.setPow hs.setPow.same
  .ite hs'.setPow.setFld.setFlag hs'

theorem Canon.plkAnswered (h : Canon s) : Canon s.plkAnswered := .ite h.same.off.on.sysRec h.same

theorem Canon.plkFailed {cnt : Nat} (h : Canon s) : Canon (s.plkFailed cnt) := h.same.bump

theorem Canon.plk {src : Nat} {act : Bool} {fate : PlkFate} {target answer : State → State} (htarget : ∀ t, Canon t → Canon
    (target t)) (hanswer : ∀ t, Canon t → Canon (answer t)) (h : Canon s) : Canon (s.plk src act fate target answer) :=
  .ite h (have hs := Canon.ite (htarget _ h.plkValid) h
  .ite hs (.ite (hanswer _ hs).plkAnswered (.ite hs.plkFailed hs.plkFailed)))

theorem Canon.plkPoll {src : Nat} {act : Bool} {fate : PlkFate} (h : Canon s) : Canon (s.plkPoll src act fate) := by
  dsimp only [State.plkPoll]
  exact h.plk (fun _ ht => ht.plkOut.setPlkSrc) fun _ ht => (ht.setFld.onlyIf fun _ hx => hx.on).setPow

theorem Canon.dieRead {src a : Nat} (h : Canon s) : Canon (s.dieRead src a).2 := by
  dsimp only [State.dieRead]
  split
  · exact h.setPlkSrc
  · exact .ite₂ h (.ite₂ h (.ite h.setPlkSrc.wr h.setPlkSrc))

theorem Canon.drainEvent (h : Canon s) : Canon s.drainEvent := by
  dsimp only [State.drainEvent]
  split
  · exact h
  · exact h.setPow.pushRec.onlyIf fun _ hx => hx.bump

theorem Canon.plkRead {src : Nat} {act : Bool} {a : Nat} {fate : PlkFate} (h : Canon s) : Canon (s.plkRead src act a fate) := by
  dsimp only [State.plkRead]
  exact h.plk (fun _ ht => (ht.dieRead.onlyIf fun _ hu => hu.setPow).plkOut) fun _ ht => .ite ht.drainEvent ht

theorem Canon.dieWrite {src a : Nat} {clash : Bool} {d : BitVec 16} (h : Canon s) : Canon (s.dieWrite src a clash d).2 :=
  .ite₂ h.bump (.ite₂ h.setPlkSrc h.setPlkSrc.dieApply)

theorem Canon.plkWrite {src : Nat} {act : Bool} {a : Nat} {d : BitVec 16} {fate : PlkFate} (h : Canon s) :
    Canon (s.plkWrite src act a d fate) := by
  dsimp only [State.plkWrite]
  exact h.plk (fun _ ht => ht.dieWrite.plkOut) fun _ ht => ht

theorem Canon.linkTry {a : Nat} {w : Word} (h : Canon s) : Canon (s.linkTry a w).2 :=
  have hone : ∀ {t : State}, Canon t → ∀ {src b : Nat} {act clash : Bool} {d : BitVec 16} {m r : List Byte},
      Canon (((t.plkValid src act).dieWrite src b clash d).2.plkOut src m r).plkAnswered :=
    fun ht => ht.plkValid.dieWrite.plkOut.plkAnswered
  .ite₂ (hone h) (hone (hone h))

theorem Canon.linkRepeat : ∀ {k a : Nat} {w : Word} {s : State}, Canon s → Canon (s.linkRepeat k a w).2
  | 0, _, _, _, h => h.linkTry
  | _ + 1, _, _, _, h => .ite₂ h.linkTry.toOwnSlot.linkRepeat h.linkTry

theorem Canon.linkWrite {a : Nat} {w : Word} (h : Canon s) : Canon (s.linkWrite a w).2 := h.linkRepeat

theorem Canon.pwrWrite {a : Nat} {w : Word} (h : Canon s) : CanonOpt (s.pwrWrite a w) := by
  dsimp only [State.pwrWrite]
  exact .ite .none (.some (.ite₂ h.refuse (.ite₂ h.refuse (.ite₂ h.linkWrite h.linkWrite.refuse))))

theorem Canon.brCtl {n : Nat} {w : Word} (h : Canon s) : Canon (s.brCtl n w).2 := h.pwrWrite.getD h

theorem Canon.holdDefaults (h : Canon s) : Canon s.holdDefaults := (h.forEach fun _ _ ht => .ite ht ht.brOff).powEvent

theorem Canon.holdOverStart (h : Canon s) : Canon s.holdOverStart :=
  .ite h (have hs := h.toClk.powEvent.forEach fun _ _ ht => ht.setPlkSrc
  .ite hs.setPow (.ite hs.setPow.holdDefaults hs.setPow))

theorem Canon.holdTimeEnd (h : Canon s) : Canon s.holdTimeEnd := by
  dsimp only [State.holdTimeEnd]
  split
  · exact h.toClk.setPow.holdDefaults
  · exact h

theorem Canon.keepWrite {n : Nat} {keep : Bool} (h : Canon s) : Canon (s.keepWrite n keep) :=
  .ite h (.ite h.plkValid.bump h.plkValid.setFlag)

theorem Canon.branchesOn : ∀ {l : List (Nat × Bool)} {s : State}, Canon s → Canon (s.branchesOn l)
  | [], _, h => h
  | _ :: _, _, h => .ite h.linkWrite h.linkWrite.advance.branchesOn

theorem Canon.endCold {on : List (Nat × Bool)} (h : Canon s) : Canon (s.endCold on) := .ite h (.ite h.off.branchesOn h.off)

theorem Canon.dieRegsReset (h : Canon s) : Canon s.dieRegsReset := (h.dropRegs _).on

theorem Canon.powerDieReset (h : Canon s) : Canon s.powerDieReset := h.dieRegsReset.setPow

theorem Canon.powerDieColdStart (h : Canon s) : Canon s.powerDieColdStart := h.dieRegsReset.setPow

theorem Canon.powerLinkLost (h : Canon s) : Canon s.powerLinkLost := .ite h.on.sysRec h

/-! ### Machine/Switch.lean -/

theorem Canon.setPool {v : Nat} (h : Canon s) : Canon (s.setPool v) := .ite h.wr.wr h.wr

theorem Canon.setDepth {q v : Nat} (h : Canon s) : Canon (s.setDepth q v) := .ite h.wr.wr h.wr

theorem Canon.countDrop {o c : Nat} {several : Bool} (h : Canon s) : Canon (s.countDrop o c several) :=
  h.bump.onlyIf fun _ hx => hx.bump

theorem Canon.place {a : Arrival} {qcls : Nat} {pt : Bool} {outs : List Nat} (h : Canon s) : Canon (s.place a qcls pt outs) :=
  have hs := (h.forEach fun _ _ hs => hs.bump).onlyIf fun _ hx => hx.bump
  .ite hs.same (hs.same.forEach fun _ _ ht => ht.setDepth).setPool

theorem Canon.admitFull {a : Arrival} {qcls : Nat} {outs : List Nat} (h : Canon s) : Canon (s.admitFull a qcls outs).2 :=
  have hd := h.forEach fun _ _ ht => ht.countDrop
  .ite₂ hd (.snd hd.place)

theorem Canon.admitPt {a : Arrival} {outs : List Nat} (h : Canon s) : Canon (s.admitPt a outs).2 :=
  have hd := h.forEach fun _ _ ht => ht.bump
  .ite₂ hd (.snd hd.place)

theorem Canon.switchIn {a : Arrival} {outs : List Nat} (h : Canon s) : Canon (s.switchIn a outs).2 :=
  .ite₂ h (.ite₂ h.admitFull h.admitPt)

theorem Canon.dropCopy {c : Copy} (h : Canon s) : Canon (s.dropCopy c) := by
  dsimp only [State.dropCopy]
  split
  · exact h.same
  · exact .ite h.same (have hs := h.same.setDepth
  .ite hs.setPool hs)

theorem Canon.spoil {id : Nat} (h : Canon s) : Canon (s.spoil id) := h.same.forEach fun _ _ ht => ht.dropCopy.bump

theorem Canon.complete {id got : Nat} (h : Canon s) : Canon (s.complete id got) := by
  dsimp only [State.complete]
  split
  · exact h
  · exact .ite h.same (h.same.forEach fun _ _ ht => ht.setDepth).setPool

theorem Canon.noteWaiting (h : Canon s) : Canon s.noteWaiting := h.setFlag

theorem Canon.localIn {f : Frame} {epoch : BitVec 16} {outs : List Nat} (h : Canon s) : Canon (s.localIn f epoch outs) :=
  .ite h.switchIn (h.same.noteWaiting.onlyIf fun _ hx => hx.arm)

theorem Canon.popWaiting {c : Nat} (h : Canon s) : Canon (s.popWaiting c) :=
  have hs := h.same.noteWaiting
  .ite hs.arm hs.cancel

theorem Canon.localAdmit {c : Nat} (h : Canon s) : Canon (s.localAdmit c) := by
  dsimp only [State.localAdmit]
  split
  · exact h
  · exact .ite h.popWaiting.switchIn h

theorem Canon.localTimeout {c : Nat} (h : Canon s) : Canon (s.localTimeout c) := by
  dsimp only [State.localTimeout]
  split
  · exact h
  · exact have ht := h.popWaiting.bump
  .ite ht.switchIn (have ht' := ht.forEach fun _ _ ht => ht.countDrop
  .ite ht' ht'.place)

theorem Canon.drr {o : Nat} : ∀ {fuel c : Nat} {fresh : Bool} {s : State}, Canon s → Canon (s.drr o fuel c fresh).2
  | 0, _, _, _, h => h
  | fuel + 1, c, fresh, s, h => by
    dsimp only [State.drr]
    split
    · exact h.drr
    · exact .ite₂ h.same h.same.drr

theorem Canon.chooseFull {o : Nat} (h : Canon s) : Canon (s.chooseFull o).2 := by
  dsimp only [State.chooseFull]
  split
  · exact h
  · split
    · exact h
    · exact .ite₂ h.drr h

theorem Canon.choosePt {o : Nat} (h : Canon s) : Canon (s.choosePt o).2 := by
  dsimp only [State.choosePt]
  split <;> exact h

theorem Canon.loseDeficits {o : Nat} (h : Canon s) : Canon (s.loseDeficits o) := h.same

theorem Canon.choose {o : Nat} (h : Canon s) : Canon (s.choose o).2 := by
  dsimp only [State.choose]
  split
  · split <;> exact h.loseDeficits
  · exact .ite₂ h.loseDeficits.chooseFull h.loseDeficits.choosePt

theorem Canon.sent {o : Nat} {f : Stored} {k : Copy} (h : Canon s) : Canon (s.sent o f k) :=
  (h.bump.add64.onlyIf fun _ hx => hx.bump).emit

theorem Canon.sendEnd {o : Nat} (h : Canon s) : Canon (s.sendEnd o) := by
  dsimp only [State.sendEnd]
  split
  · exact h
  · split
    · exact h.dropCopy
    · exact h.dropCopy.onlyIf fun _ hs => hs.sent

theorem Canon.setCopy {k : Copy} (h : Canon s) : Canon (s.setCopy k) := h.same

theorem Canon.breakCopy {k : Copy} {n : Nat} (h : Canon s) : Canon (s.breakCopy k n) := by
  dsimp only [State.breakCopy]
  split
  · exact h.setCopy.emit
  · exact h.setCopy

theorem Canon.wireEnd {o : Nat} (h : Canon s) : Canon (s.wireEnd o) := by
  dsimp only [State.wireEnd]
  split
  · exact h
  · split
    · exact h.breakCopy
    · exact h.sendEnd

theorem Canon.pdelayLeaves {p : Nat} {f : Frame} (h : Canon s) : Canon (s.pdelayLeaves p f) := .ite h.setPd h

theorem Canon.startCopy {k : Copy} (h : Canon s) : Canon (s.startCopy k) := by
  dsimp only [State.startCopy]
  split
  · exact h
  · exact .ite h.setCopy.bump h.setCopy.pdelayLeaves

theorem Canon.cutCopy {k : Copy} (h : Canon s) : Canon (s.cutCopy k) := by
  dsimp only [State.cutCopy]
  split
  · exact .ite h.dropCopy.emit h.dropCopy
  · exact h.dropCopy

theorem Canon.clearFull (h : Canon s) : Canon s.clearFull := h.same.forEach fun _ _ ht => ht.wr

theorem Canon.purge (h : Canon s) : Canon s.purge := h.clearFull.bump.setFld.same.sysRec.arm

theorem Canon.purgeDone (h : Canon s) : Canon s.purgeDone := h.same.setPool.setFld

theorem Canon.toFull (h : Canon s) : Canon s.toFull := h.setFld.cancel

theorem Canon.dropFullRing (h : Canon s) : Canon s.dropFullRing := (h.bumpBy.forEach fun _ _ hs => hs.cutCopy).cancel

theorem Canon.commit (h : Canon s) : Canon s.commit := h.wr

/-! ### Machine/RingPath.lean -/

theorem Canon.recompute {s old : State} (h : Canon s) : Canon (s.recompute old) := .ite h h.same.bump

theorem Canon.setBreaks {l : List Nat} (h : Canon s) : Canon (s.setBreaks l) := .ite h h.same.setFld.setFlag.recompute

theorem Canon.setWindow {node cls : Nat} {w : Window} (h : Canon s) : Canon (s.setWindow node cls w) := h.same

theorem Canon.windowAccepts {f : Frame} (h : Canon s) : Canon (s.windowAccepts f).2 :=
  .ite₂ h.bump (by
    split
    · exact h.setWindow
    · exact h.bump
    · exact h.bump)

theorem Canon.clearWindows {n : Nat} (h : Canon s) : Canon (s.clearWindows n) := h.forEach fun _ _ ht => ht.setWindow

theorem Canon.queueFrame {f : Frame} (h : Canon s) : Canon (s.queueFrame f) := h.same

theorem Canon.takeSeq {c : Nat} (h : Canon s) : Canon (s.takeSeq c).2 := h.same

theorem Canon.dress {f : Frame} {west : Option Bool} (h : Canon s) : Canon (s.dress f west).2 := h.takeSeq

theorem Canon.launch {f : Frame} {west : Option Bool} {epoch : BitVec 16} (h : Canon s) : Canon (s.launch f west epoch) :=
  have ht := h.dress (f := f) (west := west)
  .ite ht.bump ht.localIn

theorem Canon.forward {f : Frame} {p : Nat} {extra : List Nat} (h : Canon s) : Canon (s.forward f p extra).2 :=
  .ite₂ h.bump.switchIn (.ite₂ h.bump.switchIn h.switchIn)

/-! ### Machine/Passing.lean -/

theorem Canon.fillBeacon {f : Frame} (h : Canon s) : Canon (s.fillBeacon f).2 := h.onlyIf fun _ hx => hx.bump

theorem Canon.passBeacon {p : Nat} {f : Frame} (h : Canon s) : Canon (s.passBeacon p f).2 :=
  .ite₂ (.ite₂ h.fillBeacon.forward h.forward) h.switchIn

theorem Canon.setCyc {c : Cycle} (h : Canon s) : Canon (s.setCyc c) := h.same

theorem Canon.setStr {t : Nat} {v : StreamState} (h : Canon s) : Canon (s.setStr t v) := h.setCyc

theorem Canon.passCycle {p : Nat} {f : Frame} (h : Canon s) : Canon (s.passCycle p f).2.2.2 :=
  (h.onlyIf fun _ hx => hx.bump).forward

/-! ### Machine/Fabric.lean -/

theorem Canon.setOutst {i v : Nat} (h : Canon s) : Canon (s.setOutst i v) := .ite h.wr.wr h.wr

theorem Canon.freeTag {t : Nat} (h : Canon s) : Canon (s.freeTag t) := by
  dsimp only [State.freeTag]
  split
  · exact h
  · exact .ite h.same h.same.cancel.setOutst

theorem Canon.initCpl {init : Nat} {tag : Option Nat} {u : Option TagUse} {st : Status} {data : List Byte} (h : Canon s) :
    Canon (s.initCpl init tag u st data) :=
  by
  dsimp only [State.initCpl]
  split
  · exact h.emit
  · exact .ite h.emit (.ite h.emit.bump h.emit.same)

theorem Canon.ownCpl {q : Request} {st : Status} {data : List Byte} (h : Canon s) : Canon (s.ownCpl q st data) := by
  dsimp only [State.ownCpl]
  split
  · exact .ite h.bump h.freeTag.initCpl
  · exact h.bump

theorem Canon.reply {k : ReqKind} {q : Request} {st : Status} {data : List Byte} (h : Canon s) : Canon (s.reply k q st data) :=
  .ite h (.ite h.ownCpl h.queueFrame)

theorem Canon.complete1 {k : ReqKind} {q : Request} {st : Status} {data : List Byte} (h : Canon s) :
    Canon (s.complete1 k q st data) :=
  .ite h.reply h.same.reply

theorem Canon.unnotified {rec : Bool} (h : Canon s) : Canon (s.unnotified rec) := .ite h.same h

theorem Canon.notice {rec : Bool} {q : Request} {st : Status} (h : Canon s) : Canon (s.notice rec q st).2 :=
  .ite₂ (h.unnotified.onlyIf fun _ hx => hx.bump) (.ite₂ h.unnotified h.same.queueFrame.bump.arm)

theorem Canon.lateError {q : Request} {st : Status} (h : Canon s) : Canon (s.lateError q st) :=
  have hs := h.notice.wr.wr.wr.wr
  (Canon.ite hs.wr.bump.on.bump.on hs.wr.bump.on).same.wr

theorem Canon.fail {k : ReqKind} {q : Request} {r : Res} (h : Canon r.2) : Canon (State.fail k q r) := .ite h.lateError h.complete1

theorem Canon.answerKept {st : Status} {k : ReqKind} {q : Request} (h : Canon s) : Canon (s.answerKept st k q) :=
  .ite h (.ite (Canon.notice (by
    split
    · exact h.bump
    · exact h.bump
    · exact h)) (Canon.reply (by
    split
    · exact h.bump
    · exact h.bump
    · exact h)))

theorem Canon.respond {k : ReqKind} {q : Request} (h : Canon s) : Canon (s.respond k q) := by
  dsimp only [State.respond]
  split
  · exact h
  · exact h.answerKept

theorem Canon.noteServe (h : Canon s) : Canon s.noteServe := .ite h.wr h

theorem Canon.pullBacklog (h : Canon s) : Canon s.pullBacklog := h.same

theorem Canon.arrive {k : ReqKind} {q : Request} (h : Canon s) : Canon (s.arrive k q) :=
  .ite (.ite h.bump.lateError h.bump.reply) (.ite h.pullBacklog.same.noteServe (.ite h.pullBacklog.same h.pullBacklog.bump.reply))

theorem Canon.leaveServe {k : ReqKind} {q : Request} (h : Canon s) : Canon (s.leaveServe k q) := h.same.pullBacklog

theorem Canon.deliver {f : Frame} {e : BitVec 16} (h : Canon s) : Canon (s.deliver f e) := by
  dsimp only [State.deliver]
  split
  · exact h.arrive
  · exact .ite h.bump (have hs := h.onlyIf fun _ hx => hx.bump
  .ite hs.same hs)

theorem Canon.exitOwn {f : Frame} {epoch : BitVec 16} (h : Canon s) : Canon (s.exitOwn f epoch) := by
  dsimp only [State.exitOwn]
  split
  · exact h.localIn
  · exact h.bump

theorem Canon.inject {f : Frame} {epoch : BitVec 16} (h : Canon s) : Canon (s.inject f epoch) := by
  dsimp only [State.inject]
  split
  · exact h
  · split
    · exact h
    · exact h.deliver
    · exact h.exitOwn
    · exact h.same.bump
    · exact h.bump
    · exact h.launch
    · exact h.launch

theorem Canon.launchHeld {h : Nat × Frame × BitVec 16} (hc : Canon s) : Canon (s.launchHeld h) :=
  .ite (by
    split
    · exact hc.bump
    · exact hc.launch) hc.launch

theorem Canon.releaseHeld {p : Nat → Bool} (h : Canon s) : Canon (s.releaseHeld p) := h.same.forEach fun _ _ hs => hs.launchHeld

theorem Canon.endRx {p : Nat} (h : Canon s) : Canon (s.endRx p) := h.same

theorem Canon.receiveBad {r : Reception} {cause : Nat} (h : Canon s) : Canon (s.receiveBad r cause) := by
  dsimp only [State.receiveBad]
  split
  · exact h.bump.spoil
  · exact h.bump

theorem Canon.startRx {p : Nat} {express : Bool} (h : Canon s) : Canon (s.startRx p express) := by
  dsimp only [State.startRx]
  split
  · exact h
  · exact .ite h h.endRx.receiveBad

theorem Canon.setRx {r : Reception} (h : Canon s) : Canon (s.setRx r) := h.same

theorem Canon.portCheck {p : Nat} {f : Frame} (h : Canon s) : Canon (s.portCheck p f).2 :=
  .ite₂ h (.ite₂ h.bump (.ite₂ h.bump (.ite₂ h.bump h)))

theorem Canon.takeFrame {p : Nat} {f : Frame} (h : Canon s) : Canon (s.takeFrame p f).2.2 :=
  .ite₃ (.ite₃ h.bump (by
    split
    · exact h
    · exact h.switchIn)) (.ite₃ h h.switchIn)

theorem Canon.decide65 {p : Nat} {f : Frame} (h : Canon s) : Canon (s.decide65 p f).2.2 :=
  .ite₃ (h.bump.onlyIf fun _ hx => hx.bump) (.ite₃ h.bump.forward (.ite₃ h.bump (.ite₃ h.bump (.ite₃ h.passBeacon (.ite₃
    h.passCycle (.ite₃ h.forward (.ite₃ (h.onlyIf fun _ hx => hx.bump).forward (.ite₃ h.takeFrame (.ite₃ h.forward
    h.forward)))))))))

theorem Canon.ringFrame {p : Nat} {f : Frame} (h : Canon s) : Canon (s.ringFrame p f) := by
  dsimp only [State.ringFrame]
  split
  · next s e => exact (h.portCheck.of_eq₂ e)
  · next s e => exact (h.portCheck.of_eq₂ e).startRx.decide65.setRx

theorem Canon.spurCheck {f : Frame} {vid : Option (BitVec 12)} (h : Canon s) : Canon (s.spurCheck f vid).2 :=
  .ite₂ h (have hs := h.onlyIf fun _ hx => hx.bump
  .ite₂ hs.bump (.ite₂ hs.bump (.ite₂ hs.bump (.ite₂ hs.bump (.ite₂ hs.bump hs)))))

theorem Canon.enterRing {f : Frame} {extra : List Nat} (h : Canon s) : Canon (s.enterRing f extra).2.2 := by
  dsimp only [State.enterRing]
  split
  · exact h.switchIn
  · split
    · exact (h.dress.onlyIf fun _ hx => hx.bump).switchIn
    · exact (h.dress.onlyIf fun _ hx => hx.bump).switchIn
    · exact h
    · exact h.bump
    · exact h.switchIn

theorem Canon.decide63 {f : Frame} (h : Canon s) : Canon (s.decide63 f).2.2 :=
  .ite₃ h (.ite₃ h.bump (.ite₃ h.bump (.ite₃ h.bump (have hs := h.onlyIf fun _ hx => hx.bump
  .ite₃ (.ite₃ hs.switchIn hs) hs.enterRing))))

theorem Canon.spurFrame {f : Frame} {vid : Option (BitVec 12)} (h : Canon s) : Canon (s.spurFrame f vid) := by
  dsimp only [State.spurFrame]
  split
  · next s e => exact (h.spurCheck.of_eq₂ e)
  · next s e => exact (h.spurCheck.of_eq₂ e).startRx.decide63.setRx

theorem Canon.countRx {p size : Nat} (h : Canon s) : Canon (s.countRx p size) := h.bump.add64

theorem Canon.rxEnd {r : Reception} {e : RxEnd} {size : Nat} (h : Canon s) : Canon (s.rxEnd r e size).2 := by
  dsimp only [State.rxEnd]
  split
  · exact (h.onlyIf fun _ ht => ht.bump).receiveBad
  · split
    · exact (h.onlyIf fun _ ht => ht.bump).countRx
    · exact .ite₂ (h.onlyIf fun _ ht => ht.bump).countRx.spoil (h.onlyIf fun _ ht => ht.bump).countRx.complete

theorem Canon.fragmentIn {r : Reception} {size : Nat} (h : Canon s) : Canon (s.fragmentIn r size) :=
  .ite h.endRx.receiveBad h.endRx.same

theorem Canon.fragmentOn {r : Reception} (h : Canon s) : Canon (s.fragmentOn r) := .ite h.endRx.receiveBad h.endRx.same.bump

theorem Canon.timeIn {f : Frame} (h : Canon s) : Canon (s.timeIn f) := .ite h.bump (.ite h.bump h.same)

theorem Canon.consume {r : Reception} (h : Canon s) : Canon (s.consume r) :=
  .ite h (.ite (by
    split
    · exact (Canon.ite₂ h.windowAccepts h).forEach fun _ _ hs => hs.dropCopy
    · exact .ite₂ h.windowAccepts h) (.ite (by
    split
    · exact (Canon.ite₂ h.windowAccepts h).bump.forEach fun _ _ hs => hs.dropCopy
    · exact (Canon.ite₂ h.windowAccepts h).bump) (.ite (by
    split
    · exact (Canon.ite₂ h.windowAccepts h).bump.forEach fun _ _ hs => hs.dropCopy
    · exact (Canon.ite₂ h.windowAccepts h).bump) (by
    split
    · exact (Canon.ite₂ h.windowAccepts h).deliver
    · exact (Canon.ite₂ h.windowAccepts h).bump
    · exact .ite₂ h.windowAccepts h))))

theorem Canon.headed {p : Nat} {f : Frame} (h : Canon s) : Canon (s.headed p f) := .ite h h.ringFrame

theorem Canon.answerHeld {k : Copy} (h : Canon s) : Canon (s.answerHeld k) := by
  dsimp only [State.answerHeld]
  split
  · exact h
  · exact .ite h.dropCopy (by
    split
    · exact h.dropCopy.answerKept
    · exact h)

theorem Canon.answerLocal (h : Canon s) : Canon s.answerLocal := h.same.forEach fun _ _ hs => hs.answerHeld

theorem Canon.toPassThrough (h : Canon s) : Canon s.toPassThrough :=
  have hs := h.answerLocal.setFld
  .ite hs hs.arm

theorem Canon.startOutput {o : Nat} {k : Copy} {read : BufferRead} (h : Canon s) : Canon (s.startOutput o k read) :=
  .ite (Canon.purge (by
    split
    · exact h.bump
    · exact h.bump
    · exact h.bump
    · exact h.bump
    · exact h)) (.ite (by
    split
    · split
      · exact h.bump
      · exact h.bump
      · exact h.bump
      · exact h.bump
      · exact h
    · exact .ite (Canon.spoil (by
      split
      · exact h.bump
      · exact h.bump
      · exact h.bump
      · exact h.bump
      · exact h)) (Canon.dropCopy (by
      split
      · exact h.bump
      · exact h.bump
      · exact h.bump
      · exact h.bump
      · exact h)).deliver) (.ite (Canon.startCopy (by
    split
    · exact h.bump
    · exact h.bump
    · exact h.bump
    · exact h.bump
    · exact h)).spoil (Canon.startCopy (by
    split
    · exact h.bump
    · exact h.bump
    · exact h.bump
    · exact h.bump
    · exact h))))

theorem Canon.outputNext {o : Nat} {read : BufferRead} (h : Canon s) : Canon (s.outputNext o read) :=
  .ite h (by
    split
    · next t e => exact (h.choose.of_eq₂ e)
    · next k t e => exact (h.choose.of_eq₂ e).startOutput)

theorem Canon.outputSelect {o : Nat} {read : BufferRead} {preempt : Option Nat} (h : Canon s) :
    Canon (s.outputSelect o read preempt) :=
  by
  dsimp only [State.outputSelect]
  split
  · exact .ite h.wireEnd.outputNext h
  · split
    · exact .ite h.breakCopy.outputNext h
    · exact h

/-! ### Machine/Warden.lean -/

theorem Canon.enterMode {m : Mode} (h : Canon s) : Canon (s.enterMode m) := h.setFld.setFld.same.sysRec.stationEvent.hostPend

theorem Canon.applyPath {split : Bool} {seed : BitVec 16} (h : Canon s) : Canon (s.applyPath split seed) :=
  have hs := h.setFlag.wr.onlyIf fun _ hs => hs.commit
  have hs' := Canon.ite hs.same.arm hs
  .ite hs'.enterMode hs'

theorem Canon.setChange {c : Option (Nat × Bool × BitVec 16)} (h : Canon s) : Canon (s.setChange c) := h.same.setFlag

theorem Canon.modeReq {w : Word} (h : Canon s) : Canon (s.modeReq w).2 :=
  .ite₂ h.wr (.ite₂ h.refuse (.ite₂ h.refuse (.ite₂ h.refuse (.ite₂ h.wr.setChange h.wr.setChange))))

theorem Canon.refreshBreaks (h : Canon s) : Canon s.refreshBreaks := h.setBreaks

theorem Canon.setBase {l : List Nat} (h : Canon s) : Canon (s.setBase l) := h.same.refreshBreaks

theorem Canon.linkEvent {pos : Nat} {down : Bool} (h : Canon s) : Canon (s.linkEvent pos down) :=
  (Canon.ite h.same.cancel.arm h.same.cancel.arm).refreshBreaks

theorem Canon.ownLink {p : Nat} {up : Bool} {cause : Nat} (h : Canon s) : Canon (s.ownLink p up cause) := by
  dsimp only [State.ownLink]
  split
  · exact h
  · exact .ite h.linkEvent.bumpBy.launch h.linkEvent

theorem Canon.setPresent {m : BitVec 512} {heard : Bool} (h : Canon s) : Canon (s.setPresent m heard) :=
  have ht := h.forEach fun _ _ ht => ht.wr
  .ite ht (have ht' := ht.same.forEach fun _ _ hu => .ite hu.cancel (.ite hu.arm hu)
  .ite ht' ht'.recompute)

theorem Canon.tryJoin {m : BitVec 512} (h : Canon s) : Canon (s.tryJoin m) := .ite h.on h

theorem Canon.topoReport (h : Canon s) : Canon s.topoReport := .ite h.same.queueFrame h

theorem Canon.closeRound (h : Canon s) : Canon s.closeRound := .ite h (.ite h.bumpBy.same h.bumpBy.same.topoReport)

theorem Canon.beaconLaunch (h : Canon s) : Canon s.beaconLaunch :=
  .ite h (have hs := h.toTime.closeRound.same.setPresent.setBase
  .ite hs.setFlag.on hs.setFlag.on.launch)

theorem Canon.becomeWarden (h : Canon s) : Canon s.becomeWarden := h.on.on.on.same.arm

theorem Canon.returned {p : Nat} {f : Frame} (h : Canon s) : Canon (s.returned p f) :=
  .ite h (have hs := Canon.ite h.same.wr h.same
  .ite hs.closeRound hs)

theorem Canon.takeMode {split : Bool} {seed : BitVec 16} {counts : Bool} (h : Canon s) : Canon (s.takeMode split seed counts) :=
  .ite h (h.applyPath.onlyIf fun _ hx => hx.bump)

theorem Canon.takeBeacon {b : List Byte} (h : Canon s) : Canon (s.takeBeacon b) :=
  have hs := h.setFlag.wr.setPresent.setBase
  .ite (.ite hs.takeMode.setChange hs.setChange.takeMode) hs.setChange.takeMode

theorem Canon.hearBeacon {f : Frame} (h : Canon s) : Canon (s.hearBeacon f) :=
  have hs := h.on.arm.tryJoin
  have hs' := Canon.ite (Canon.ite hs.arm hs).off.cancel (.ite hs.arm hs)
  .ite hs'.same.takeBeacon hs'

theorem Canon.hearAlarm {f : Frame} (h : Canon s) : Canon (s.hearAlarm f) := .ite h.bump.linkEvent h.bump

theorem Canon.readBeacon {p : Nat} {f : Frame} {own : Bool} (h : Canon s) : Canon (s.readBeacon p f own) :=
  .ite (.ite h.returned h) (.ite h.hearBeacon (.ite h.hearAlarm h))

/-! ### Machine/Ports.lean -/

theorem Canon.restartUp {p : Nat} (h : Canon s) : Canon (s.restartUp p) := .ite h (.ite h.cancel (h.arm.onlyIf fun _ hs => hs.emit))

theorem Canon.driveTxdis {p : Nat} (h : Canon s) : Canon (s.driveTxdis p) :=
  .ite h.setFlag.cancel (.ite h.setFlag.restartUp h.setFlag)

theorem Canon.flushPort {p : Nat} (h : Canon s) : Canon (s.flushPort p) :=
  have hs := h.forEach fun _ _ ht => ht.cutCopy.bump
  hs.same.forEach fun _ _ hs => hs.spoil

theorem Canon.damp {p : Nat} (h : Canon s) : Canon (s.damp p) := h.on.on.bump.setPort.sysRec.driveTxdis.arm

theorem Canon.preemptIdle {p : Nat} (h : Canon s) : Canon (s.preemptIdle p) := h.off.setFld.cancel

theorem Canon.declareDown {p cause : Nat} (h : Canon s) : Canon (s.declareDown p cause) :=
  .ite h (have hs := h.off.flushPort.bump.on.sysRec.preemptIdle.cancel.off.off
  have hs' := Canon.ite hs.same.ownLink hs.same
  .ite hs'.setPort.damp hs'.setPort)

theorem Canon.linkLost {p cause : Nat} (h : Canon s) : Canon (s.linkLost p cause) :=
  .ite h (.ite (by
    split
    · exact h.on.onlyIf fun _ hs => hs.off
    · exact h.off
    · exact h.on) (Canon.declareDown (by
    split
    · exact h.on.onlyIf fun _ hs => hs.off
    · exact h.off
    · exact h.on)).restartUp)

theorem Canon.armBackup (h : Canon s) : Canon s.armBackup := .ite h.arm h

theorem Canon.preemptStart {p : Nat} (h : Canon s) : Canon (s.preemptStart p) :=
  .ite h.preemptIdle (.ite h.setFld.on h.setFld.setPort.emit.arm)

theorem Canon.armPdelay {p : Nat} (h : Canon s) : Canon (s.armPdelay p) := .ite h.arm h

theorem Canon.raiseLink {p : Nat} (h : Canon s) : Canon (s.raiseLink p) :=
  have hs := h.off.on.on.sysRec.preemptStart.armPdelay
  .ite hs.same.ownLink.armBackup hs

theorem Canon.linkGood {p : Nat} {fullDuplex : Bool} (h : Canon s) : Canon (s.linkGood p fullDuplex) :=
  .ite h (have ht := h.on.onlyIf fun _ ht => ht.off.off
  .ite ht (.ite ht.on ht.expire.raiseLink))

theorem Canon.undamp {p : Nat} (h : Canon s) : Canon (s.undamp p) := h.cancel.off.driveTxdis

theorem Canon.modGoesLow {p : Nat} (h : Canon s) : Canon (s.modGoesLow p) := .ite h.setPort h.setPort.arm

theorem Canon.moduleReady {p : Nat} (h : Canon s) : Canon (s.moduleReady p) := h.on.driveTxdis

theorem Canon.moduleBad {p : Nat} {evt : Bool} (h : Canon s) : Canon (s.moduleBad p evt) :=
  (h.on.onlyIf fun _ hx => hx.on).driveTxdis

theorem Canon.accNak {p : Nat} (h : Canon s) : Canon (s.accNak p) := .ite h.off.on h

theorem Canon.modRemoved {p : Nat} (h : Canon s) : Canon (s.modRemoved p) :=
  .ite h.setPort (have hs := h.setPort.on.cancel.declareDown.off.off.off.on.driveTxdis
  (Canon.ite hs.off hs).cancel.cancel.cancel.accNak)

theorem Canon.modAcc {p : Nat} {w : Word} (h : Canon s) : Canon (s.modAcc p w).2 :=
  .ite₂ (.ite h h.wr) (.ite₂ h.refuse (.ite₂ h.refuse (.ite₂ h.wr.off.off.on h.wr.off.off.on)))

theorem Canon.portCtl {p : Nat} {w : Word} (h : Canon s) : Canon (s.portCtl p w).2 :=
  .ite₂ h.refuse (.ite₂ h.refuse (have hs := h.onlyIf fun _ hs => hs.declareDown
  (Canon.ite hs.wr.setFld.moduleBad hs.wr.setFld.driveTxdis).onlyIf fun _ hs => hs.restartUp))

theorem Canon.clearLoops (h : Canon s) : Canon s.clearLoops := h.forEach fun _ _ ht => .ite ht.declareDown.off.restartUp ht

theorem Canon.portWrite {p off : Nat} {w : Word} (h : Canon s) : CanonOpt (s.portWrite p off w) := by
  dsimp only [State.portWrite]
  split
  · exact .some h.portCtl
  · exact .some (.ite₂ h.refuse (.ite h.wr.undamp h.wr))
  · exact .some (.ite₂ h.refuse (.ite₂ h.refuse (.ite h.wr.preemptIdle (.ite h.wr.setFld.cancel h.wr))))
  · exact .some (.ite₂ h.refuse (.ite h.wr.cancel.moduleReady h.wr))
  · exact .some h.modAcc
  · exact .ite (.some (.ite₂ h.refuse (.ite h.wr.cancel (.ite h.wr h.wr.armPdelay)))) (.some h)
  · exact .none

theorem Canon.wardenWrite {off : Nat} {w : Word} (h : Canon s) : CanonOpt (s.wardenWrite off w) :=
  .ite (.some (.ite₂ h.refuse (.ite₂ h.refuse (have hs := Canon.ite (h.wr.off.onlyIf fun _ hx => hx.arm) h.wr
  (Canon.ite hs hs.setFlag).armBackup)))) (.ite (.some (.ite₂ h.refuse h.wr)) (.ite (.some (.ite₂ h.refuse h.wr)) (.ite (.some
    (.ite₂ h.refuse h.wr)) (.ite (.some h.modeReq) .none))))

/-! ### Machine/Pins.lean -/

theorem Canon.setPin {n : Nat} {p : PinState} (h : Canon s) : Canon (s.setPin n p) := h.same

theorem Canon.claim {o : Owner} {pins : List Nat} (h : Canon s) : Canon (s.claim o pins).2 :=
  .ite₂ h (.ite₂ (h.forEach fun _ _ ht => ht.setFld.setFld) h.bump.refuse)

theorem Canon.release {o : Owner} {pins : List Nat} (h : Canon s) : Canon (s.release o pins) :=
  h.forEach fun _ _ ht => .ite ht.off.off.setPin ht

theorem Canon.drive {n : Nat} {value enable : Bool} (h : Canon s) : Canon (s.drive n value enable) := h.setPin

theorem Canon.releaseOutputs (h : Canon s) : Canon s.releaseOutputs := .ite h (h.forEach fun _ _ ht => ht.setPin).same

theorem Canon.pinsOff (h : Canon s) : Canon s.pinsOff := h.same

theorem Canon.driveOutputs (h : Canon s) : Canon s.driveOutputs := .ite (h.forEach fun _ _ ht => ht.setPin).same h

theorem Canon.edgeRecord {n : Nat} {i : Instant} {level lost : Bool} (h : Canon s) : Canon (s.edgeRecord n i level lost) :=
  .ite h.pushRec.setPin h

theorem Canon.filterAccept {n stretch : Nat} (h : Canon s) : Canon (s.filterAccept n stretch) :=
  .ite h (.ite (.ite h.setFlag h.setFlag.same.edgeRecord) h.setFlag.edgeRecord)

theorem Canon.reconcile {n : Nat} {v : Bool} (h : Canon s) : Canon (s.reconcile n v) := .ite h.setFlag h.setFlag.edgeRecord

theorem Canon.loadLevels {lines : BitVec 256} (h : Canon s) : Canon (s.loadLevels lines) := h.forEach fun _ _ ht => ht.setFlag

theorem Canon.pinCfg {n : Nat} {w : Word} (h : Canon s) : Canon (s.pinCfg n w).2 :=
  .ite₂ h.refuse (.ite₂ h.refuse (.ite₂ (by
    split
    · next t e => exact (h.claim.of_eq₂ e).wr
    · exact h.claim) h.release.wr))

theorem Canon.pinFilt {n : Nat} {w : Word} (h : Canon s) : Canon (s.pinFilt n w).2 := .ite₂ h.refuse h.wr

theorem Canon.outReg {b : Nat} {f : Word → Word} (h : Canon s) : Canon (s.outReg b f).2 := .ite₂ h.refuse h.wr

theorem Canon.fpinWrite {off : Nat} {w : Word} (h : Canon s) : CanonOpt (s.fpinWrite off w) :=
  .ite (.some h.refuse) (.ite (by
    split
    · exact .some (.ite₂ h.refuse h.wr)
    · exact .some h.outReg
    · exact .some h.outReg
    · exact .some h.outReg
    · exact .some h.outReg
    · exact .none) (.ite (.ite (.some h.pinCfg) (.ite (.some h.pinFilt) .none)) .none))

/-! ### Machine/Queue.lean -/

theorem Canon.popCheck {w : QWord} (h : Canon s) : Canon (s.popCheck w).2 := .ite₂ h (.ite₂ (.ite₂ h.bump h.bump) h.bump)

/-! ### Machine/Can.lean -/

theorem Canon.setCan {n : Nat} {c : CanState} (h : Canon s) : Canon (s.setCan n c) := h.same

theorem Canon.canRec {n event arg : Nat} {i : Instant} (h : Canon s) : Canon (s.canRec n event arg i) := .ite h.pushRec h

theorem Canon.canStateRec {n event arg : Nat} {i : Instant} (h : Canon s) : Canon (s.canStateRec n event arg i) := .ite h.canRec h

theorem Canon.settleHead {n : Nat} : ∀ {q : List (List QWord)} {s : State}, Canon s → Canon (s.settleHead n q)
  | [], _, h => h.setCan
  | e :: _, s, h =>
    have hr := List.foldlRecOn (motive := fun r : Bool × State => Canon r.2) e
      (fun a w => let p := State.popCheck w a.2; (a.1 || p.1.poison, p.2)) (b := (false, s)) h fun _ hr _ _ => hr.popCheck
    .ite hr.bump.canStateRec.settleHead hr.setCan

theorem Canon.dropHead {n : Nat} (h : Canon s) : Canon (s.dropHead n) := h.off.off.off.settleHead

theorem Canon.abortNow {n : Nat} (h : Canon s) : Canon (s.abortNow n) := by
  dsimp only [State.abortNow]
  split
  · exact h
  · exact h.bump.canStateRec.dropHead

theorem Canon.endAttempt {n : Nat} (h : Canon s) : Canon (s.endAttempt n) := .ite h.off.abortNow h.off

theorem Canon.canPush {n : Nat} {b : List Byte} (h : Canon s) : Canon (s.canPush n b).2 :=
  .ite₂ h.refuse (.ite₂ h.refuse (.ite₂ h.on.bump.refuse h.setCan.peak))

theorem Canon.spoilEntry {n : Nat} {ups : List (Fin 3)} (h : Canon s) : Canon (s.spoilEntry n ups) := .ite h.settleHead h.setCan

theorem Canon.canAbort {n : Nat} (h : Canon s) : Canon (s.canAbort n).2 := .ite₂ h.refuse (.ite₂ h (.ite₂ h.on h.abortNow))

theorem Canon.canOffer (h : Canon s) : Canon s.canOffer := h.forEach fun _ _ ht => .ite ht.on ht

theorem Canon.setErr {n tec rec_ : Nat} (h : Canon s) : Canon (s.setErr n tec rec_) :=
  have hs := h.setFld.setFld
  .ite hs.setFld (.ite hs.setFld.off.bump.canStateRec (.ite hs.setFld.canStateRec (.ite hs.setFld.canStateRec hs.setFld)))

theorem Canon.recOk {n : Nat} (h : Canon s) : Canon (s.recOk n) := .ite h (.ite h.setErr h.useFree.setErr)

theorem Canon.measureDelay {n : Nat} {d : CanDelay} (h : Canon s) : Canon (s.measureDelay n d) := by
  dsimp only [State.measureDelay]
  split
  · exact h
  · exact .ite (by
    split
    · exact h
    · exact h.setFld
    · exact h.on) h

theorem Canon.idComplete {n : Nat} {ide : Bool} {id : BitVec 29} (h : Canon s) : Canon (s.idComplete n ide id) := by
  dsimp only [State.idComplete]
  exact .ite h.setCan.bump h.setCan

theorem Canon.storeObject {n k : Nat} {r : CanRx} {f : CanFrame} {sof : Instant} (h : Canon s) :
    Canon (s.storeObject n k r f sof) :=
  have hs := h.writeBytes.on.bump
  have hs' := Canon.ite hs.bump hs
  have hs'' := Canon.ite hs'.bump hs'
  .ite hs''.canRec hs''

theorem Canon.frameValid {n : Nat} {f : CanFrame} {sof : Instant} (h : Canon s) : Canon (s.frameValid n f sof) := by
  dsimp only [State.frameValid]
  split
  · exact h
  · split
    · exact h.setCan.storeObject
    · exact h.setCan

theorem Canon.pile {n : Nat} {tx : Bool} : ∀ {k : Nat} {s : State}, Canon s → Canon (s.pile n tx k)
  | 0, _, h => h
  | _ + 1, _, h => .ite h h.setErr.pile

theorem Canon.frameSent {n : Nat} {sof : Instant} {tdc : Option (BitVec 8)} (h : Canon s) : Canon (s.frameSent n sof tdc) := by
  dsimp only [State.frameSent]
  split
  · exact h
  · refine Canon.dropHead (Canon.setErr (.ite (Canon.canRec ?_) ?_)) <;>
      exact Canon.bump (.ite h.measureDelay.idComplete.frameValid.recOk h.measureDelay.emit)

theorem Canon.clash {n : Nat} {sof : Instant} (h : Canon s) : Canon (s.clash n sof) :=
  have hs := h.on.bump.setFld
  .ite hs.canStateRec.bump.canStateRec.dropHead hs.canStateRec

theorem Canon.txError {n : Nat} {sof : Instant} {e : CanTxErr} {d : CanDelay} {more : Nat} (h : Canon s) :
    Canon (s.txError n sof e d more) :=
  have hs := h.measureDelay.bump
  (Canon.ite hs.clash hs.off).endAttempt.setErr.pile

theorem Canon.integrate {n : Nat} (h : Canon s) : Canon (s.integrate n) := h.setCan

theorem Canon.canGoOff {n : Nat} {clear : Bool} (h : Canon s) : Canon (s.canGoOff n clear) :=
  have hs := (Canon.ite h.off h).setFld.off.setCan
  have hs' := Canon.ite hs.abortNow hs
  .ite hs'.wr hs'

theorem Canon.canEnter (h : Canon s) : Canon s.canEnter := h.forEach fun _ _ ht => .ite ht.integrate ht

theorem Canon.canCtl {n : Nat} {w : Word} (h : Canon s) : Canon (s.canCtl n w).2 :=
  .ite₂ h.refuse (.ite₂ h.refuse (.ite₂ h.refuse (.ite₂ h.wr.canGoOff.integrate h.wr)))

theorem Canon.filterWrite {n off : Nat} {b : List Byte} (h : Canon s) : Canon (s.filterWrite n off b).2 :=
  .ite₂ h.refuse (.ite₂ h.refuse h.entryWrite)

theorem Canon.clearNew {n k : Nat} (h : Canon s) : Canon (s.clearNew n k) := h.off

theorem Canon.canTiming {n reg : Nat} {v : Word} {ok : Bool} (h : Canon s) : Canon (s.canTiming n reg v ok).2 :=
  .ite₂ h.refuse (.ite₂ h.refuse h.wr)

theorem Canon.canWrite {off : Nat} {w : Word} (h : Canon s) : CanonOpt (s.canWrite off w) :=
  .ite (.some h.refuse) (by
    split
    · exact .some h.canCtl
    · exact .some (.ite₂ h.canAbort h)
    · exact .some h.canTiming
    · exact .some h.canTiming
    · exact .some h.canTiming
    · exact .ite (.some h.refuse) .none)

theorem Canon.emptyCan {n : Nat} (h : Canon s) : Canon (s.emptyCan n) := h.setCan.off

theorem Canon.emptyCanQueues (h : Canon s) : Canon s.emptyCanQueues := h.forEach fun _ _ hs => hs.emptyCan

/-! ### Machine/Bobbin.lean -/

theorem Canon.setBob {n : Nat} {b : BobState} (h : Canon s) : Canon (s.setBob n b) := h.same

theorem Canon.bobIrq {n : Nat} (h : Canon s) : Canon (s.bobIrq n) := h.on.irqRise

theorem Canon.bobIrqEnable {hi : Bool} {w : Word} (h : Canon s) : Canon (s.bobIrqEnable hi w).2 := h.wr.irqRise

theorem Canon.bobRec {n detail : Nat} {level : Bool} (h : Canon s) : Canon (s.bobRec n detail level) := .ite h.pushRec h

theorem Canon.stopBob {n cause : Nat} {held : Bool} (h : Canon s) : Canon (s.stopBob n cause held) :=
  have hs := h.setFld.setFld.setBob
  .ite hs.bobRec.bobIrq hs.bobRec

theorem Canon.loadBits {n : Nat} (h : Canon s) : Canon (s.loadBits n) := h.setFld

theorem Canon.cload {n k : Nat} (h : Canon s) : Canon (s.cload n k) := .ite h.setFld.setBob h.setFld.setBob

theorem Canon.cdec {n k : Nat} (h : Canon s) : Canon (s.cdec n k) :=
  .ite (.ite h (.ite h.setBob h.setFld.setBob)) (.ite h (.ite h.setBob h.setFld.setBob))

theorem Canon.shift {n : Nat} {input : Bool} (h : Canon s) : Canon (s.shift n input) := h.wr.setFld

theorem Canon.act {n a : Nat} {evt : Bool} (h : Canon s) : Canon (s.act n a evt) := by
  dsimp only [State.act]
  split
  · exact h.shift
  · exact h.shift
  · exact h.shift
  · exact h.setBob.peak.wr.wr.loadBits
  · exact h.cload
  · exact h.cdec
  · exact h.cload
  · exact h.cdec
  · exact h.wr.loadBits
  · exact h.bobIrq
  · exact h.cload.cload
  · exact h.cdec.cdec
  · exact h.wr
  · exact h

theorem Canon.driveSlot {n k : Nat} {value enable : Bool} (h : Canon s) : Canon (s.driveSlot n k value enable) := h.setBob.drive

theorem Canon.applyRow {n row : Nat} {shifted : Option Bool} (h : Canon s) : Canon (s.applyRow n row shifted) :=
  h.forEach fun _ _ ht => .ite ht (.ite (by
    split
    · exact ht.driveSlot
    · exact ht) ht.driveSlot)

theorem Canon.rowEvent {n a : Nat} (h : Canon s) : Canon (s.rowEvent n a) := h.bump.on.bobRec

theorem Canon.completeRow {n addr row : Nat} (h : Canon s) : Canon (s.completeRow n addr row) :=
  have hs := (Canon.ite h.act.applyRow.rowEvent h.act.applyRow).setFld.setFld
  .ite hs.setFld.stopBob hs.setFld

theorem Canon.pullRow {n addr row : Nat} {h : QWord} {t : List QWord} (hc : Canon s) : Canon (s.pullRow n addr row h t) :=
  have hs := Canon.ite hc.setBob.popCheck.on hc.setBob.popCheck
  .ite hs.stopBob hs.wr.loadBits.completeRow

theorem Canon.stall {n : Nat} (h : Canon s) : Canon (s.stall n) := h.setFld.bump

theorem Canon.runRow {n addr : Nat} (h : Canon s) : Canon (s.runRow n addr) :=
  have hs := h.setFld.setBob
  .ite hs.bump.stopBob (.ite (by
    split
    · exact hs.setBob.stall
    · exact hs.setBob.pullRow) (.ite hs.setBob.stall hs.setBob.completeRow))

theorem Canon.cycleOf {a : Nat} {n : Fin 64} (h : Canon s) : Canon (s.cycleOf a n) := .ite h (.ite h.runRow h)

theorem Canon.startBob {n : Nat} (h : Canon s) : Canon (s.startBob n) := h.wr.wr.loadBits.setBob.off.off.setFld.setFld

theorem Canon.resumeBob {n : Nat} (h : Canon s) : Canon (s.resumeBob n) := h.setFld

theorem Canon.haltBob {n : Nat} (h : Canon s) : Canon (s.haltBob n) := .ite h h.stopBob

theorem Canon.bobAll {needStopped needClean : Bool} {f : Nat → State → State} {ns : List Nat} (hf : ∀ x t, Canon t → Canon
    (f x t)) (h : Canon s) : Canon (s.bobAll needStopped needClean f ns).2 :=
  by
  dsimp only [State.bobAll]
  split
  · exact h.forEach fun _ _ ha => hf _ _ ha
  · exact h.refuse

theorem Canon.bobStop {n : Nat} (h : Canon s) : Canon (s.bobStop n).2 := .ite₂ h.refuse h.haltBob

theorem Canon.pulse {w : Word} (h : Canon s) : Canon (s.pulse w).2 := .ite₂ h.refuse (h.forEach fun _ _ ht => .ite ht.setBob ht)

theorem Canon.pushTx {n : Nat} {v : Word} {last : Bool} (h : Canon s) : Canon (s.pushTx n v last).2 :=
  .ite₂ h.on.refuse h.setBob.peak

theorem Canon.txqPush {n : Nat} {v : Word} {last : Bool} (h : Canon s) : Canon (s.txqPush n v last).2 :=
  .ite₂ h.refuse (.ite₂ h.refuse h.pushTx)

theorem Canon.rxqPop {n : Nat} (h : Canon s) : Canon (s.rxqPop n).2.2 :=
  .ite₃ h.refuse (.ite₃ h (by
    split
    · exact h
    · exact h.setBob.popCheck))

theorem Canon.join {n : Nat} {w : Word} (h : Canon s) : Canon (s.join n w).2 :=
  .ite₂ h.refuse (.ite₂ h.refuse (.ite₂ h.refuse (.ite₂ h.refuse (.ite₂ h.refuse ((h.forEach fun _ _ ht => ht.setBob.off).forEach
    fun _ _ ht => ht.setFlag).wr))))

theorem Canon.dirty {n : Nat} (h : Canon s) : Canon (s.dirty n) := h.on

theorem Canon.idleSlot {n k : Nat} (h : Canon s) : Canon (s.idleSlot n k) := h.setBob

theorem Canon.slotWrite {n k : Nat} {w : Word} (h : Canon s) : Canon (s.slotWrite n k w).2 :=
  .ite₂ h.refuse (.ite₂ h.refuse (.ite₂ h.refuse (.ite₂ (by
    split
    · next t e => exact (h.claim.of_eq₂ e).release.wr.dirty.onlyIf fun _ hs => hs.idleSlot
    · exact h.claim) (h.release.wr.dirty.onlyIf fun _ hs => hs.idleSlot))))

theorem Canon.prickWrite {n off : Nat} {bytes : List Byte} (h : Canon s) : Canon (s.prickWrite n off bytes).2 :=
  .ite₂ h.refuse (.ite₂ h.refuse (.ite₂ h.on.refuse (h.writeBytes.forEach fun _ _ ht => ht.setMark).dirty))

theorem Canon.bobConfig {n reg : Nat} {mask w : Word} (h : Canon s) : Canon (s.bobConfig n reg mask w).2 :=
  .ite₂ h.refuse h.wr.dirty

theorem Canon.bobWrite {off : Nat} {w : Word} (h : Canon s) : CanonOpt (s.bobWrite off w) :=
  .ite (.some h.refuse) (.ite (by
    split
    · exact .some (by
      split
      · exact h
      · exact h.bobAll fun _ _ hs => hs.startBob
      · exact h.bobStop
      · exact h.bobAll fun _ _ hs => hs.resumeBob
      · exact h.refuse)
    · exact .some h.bobConfig
    · exact .some (.ite₂ h.refuse h.bobConfig)
    · exact .some h.bobConfig
    · exact .some h.bobConfig
    · exact .some h.bobConfig
    · exact .some h.bobConfig
    · exact .some h.join
    · exact .some h.refuse
    · exact .some h.refuse
    · exact .some h.refuse
    · exact .some h.refuse
    · exact .ite (.some h.slotWrite) .none) (by
    split
    · exact .some (h.bobAll fun _ _ hs => hs.startBob)
    · exact .some (h.bobAll fun _ _ hs => hs.startBob)
    · exact .some (h.bobAll fun _ _ hs => hs.haltBob)
    · exact .some (h.bobAll fun _ _ hs => hs.haltBob)
    · exact .some (h.bobAll fun _ _ hs => hs.resumeBob)
    · exact .some (h.bobAll fun _ _ hs => hs.resumeBob)
    · exact .some h.bobIrqEnable
    · exact .some h.bobIrqEnable
    · exact .some h.pulse
    · exact .none))

theorem Canon.stopAllBobs (h : Canon s) : Canon s.stopAllBobs := h.forEach fun _ _ ht => .ite ht ht.stopBob

theorem Canon.loadDrowseRun (h : Canon s) : Canon s.loadDrowseRun := h.wr.wr

theorem Canon.wakeBobs (h : Canon s) : Canon s.wakeBobs := (h.forEach fun _ _ hs => hs.resumeBob).forEach fun _ _ hs => hs.resumeBob

theorem Canon.autostart (h : Canon s) : Canon s.autostart := h.forEach fun _ _ hs => hs.startBob

theorem Canon.emptyBobQueues (h : Canon s) : Canon s.emptyBobQueues := h.forEach fun _ _ ht => ht.setBob

/-! ### Machine/Journal.lean -/

theorem Canon.noteReader {r : Nat} {s before : State} (h : Canon s) : Canon (s.noteReader r before) :=
  have hs := h.onlyIf fun _ hs => hs.on
  .ite (have ht := hs.bump.on.on.onlyIf fun _ hs => hs.stationEvent
  .ite ht.wr64 ht) hs

theorem Canon.startWriter (h : Canon s) : Canon s.startWriter := .ite h h.same

theorem Canon.writeRecord {r : JRec} (h : Canon s) : Canon (s.writeRecord r) :=
  have hs := h.writeBytes.setMark.setMark.add64.forEach fun _ _ ht => ht.noteReader
  .ite hs.cancel (.ite hs hs.arm)

theorem Canon.recordWrite (h : Canon s) : Canon s.recordWrite :=
  .ite h (by
    split
    · exact h
    · split
      · exact h
      · exact h.same.writeRecord)

theorem Canon.restartJournal (h : Canon s) : Canon s.restartJournal := .ite h (h.wr64.forEach fun _ _ ht => ht.wr64).on.bump.same

theorem Canon.dropFifos {keepSystem : Bool} (h : Canon s) : Canon (s.dropFifos keepSystem) := h.same

theorem Canon.writeRdPos {r v : Nat} (h : Canon s) : Canon (s.writeRdPos r v).2 := .ite₂ h.refuse (.ite₂ h.refuse h.wr64.noteReader)

theorem Canon.writeRdLevel {r : Nat} {w : Word} (h : Canon s) : Canon (s.writeRdLevel r w).2 := h.wr.noteReader

theorem Canon.jrnWrite {off : Nat} {w : Word} (h : Canon s) : CanonOpt (s.jrnWrite off w) := by
  dsimp only [State.jrnWrite]
  split
  · exact .some (.ite₂ h.refuse (.ite₂ h.refuse h.wr))
  · exact .some (.ite₂ h.refuse (.ite₂ h.refuse (h.onlyIf fun _ hs => hs.restartJournal).wr))
  · exact .some (.ite₂ h.refuse (.ite₂ h.refuse (h.onlyIf fun _ hs => hs.restartJournal).wr.wr))
  · exact .ite (.ite (.some h.refuse) (.ite (.some h.writeRdLevel) .none)) .none

/-! ### Machine/Usb.lean -/

theorem Canon.setUsb {u : Usb} (h : Canon s) : Canon (s.setUsb u) := h.same

theorem Canon.ctrlAbort (h : Canon s) : Canon s.ctrlAbort := .ite h.setUsb.bump.on h

theorem Canon.tunnelDrop (h : Canon s) : Canon s.tunnelDrop := h.bumpBy.same

theorem Canon.portOff {n : Nat} (h : Canon s) : Canon (s.portOff n) := h.wr.cancel.cancel

theorem Canon.portChange {n : Nat} {c : PortChange} (h : Canon s) : Canon (s.portChange n c) := h.setUsb

theorem Canon.fnEndpoints (h : Canon s) : Canon s.fnEndpoints := h.setUsb.tunnelDrop

theorem Canon.fnDefault (h : Canon s) : Canon s.fnDefault := h.off.off.off.fnEndpoints

theorem Canon.hubDefault (h : Canon s) : Canon s.hubDefault := h.setUsb.off

theorem Canon.tryConnect (h : Canon s) : Canon s.tryConnect := .ite h.on.setFld h

theorem Canon.disconnect (h : Canon s) : Canon s.disconnect :=
  have hs := h.ctrlAbort.fnDefault.hubDefault
  hs.wr.setUsb.forEach fun _ _ hs => hs.portOff

theorem Canon.hostResume (h : Canon s) : Canon s.hostResume := .ite h (h.on.on.onlyIf fun _ hx => hx.on).setUsb

theorem Canon.signalWake (h : Canon s) : Canon s.signalWake := .ite h.advance.setUsb.on.bump h

theorem Canon.usbSwap {recs : List (List Byte)} (h : Canon s) : Canon (s.usbSwap recs) :=
  .ite h (.ite h.setUsb (h.setUsb.onlyIf fun _ hx => hx.bump).setUsb)

theorem Canon.sendEp4 {msg : List Byte} (h : Canon s) : Canon (s.sendEp4 msg) := h.setUsb.emit

theorem Canon.vendor {done : Bool} {f : State → State} (hf : ∀ t, Canon t → Canon (f t)) (h : Canon s) : Canon (s.vendor done f) :=
  .ite h (.ite (hf _ h.ctrlAbort) h.ctrlAbort.setUsb)

theorem Canon.usbWrite {off : Nat} {w : Word} (h : Canon s) : CanonOpt (s.usbWrite off w) :=
  .ite (.some h.refuse) (by
    split
    · exact .some (.ite₂ h.refuse (.ite₂ h.refuse h.wr.tryConnect))
    · exact .some (.ite₂ h.refuse h.wr)
    · exact .none)

theorem Canon.usbModeChange (h : Canon s) : Canon s.usbModeChange := .ite h (.ite h.disconnect h.tryConnect)

/-! ### Machine/Cycle.lean -/

theorem Canon.snapshot (h : Canon s) : Canon s.snapshot := .ite h h.toTime.bumpBy.setCyc

theorem Canon.cycLaunch {t : Nat} (h : Canon s) : Canon (s.cycLaunch t) := .ite h h.toTime.bumpBy.bumpBy.setStr.launch

theorem Canon.commitSlots {k : Nat} {l : List (Nat × List Byte)} (h : Canon s) : Canon (s.commitSlots k l) :=
  h.forEach fun _ _ ht => .ite ht ht.writeBytes.setCyc

theorem Canon.copyCommit {p : Nat} (h : Canon s) : Canon (s.copyCommit p) := by
  dsimp only [State.copyCommit]
  split
  · exact h
  · exact .ite h.setCyc (.ite h.setCyc.bump h.setCyc.commitSlots)

theorem Canon.noteCopy {t k : Nat} {f : Frame} (h : Canon s) : Canon (s.noteCopy t k f) := h.setStr

theorem Canon.readCopy {p t k : Nat} {f : Frame} {good : Bool} (h : Canon s) : Canon (s.readCopy p t k f good) :=
  .ite h.noteCopy.bump (.ite h.noteCopy.bump h.noteCopy.setCyc)

theorem Canon.echoCopy {t k : Nat} {b : List Byte} (h : Canon s) : Canon (s.echoCopy t k b) := .ite h.setStr h

theorem Canon.reflect {p : Nat} {f : Frame} {payload : List Byte} (h : Canon s) : Canon (s.reflect p f payload) :=
  h.takeSeq.bump.localIn

theorem Canon.copyIn {p : Nat} {f : Frame} {k : Option Nat} {stuck good : Bool} (h : Canon s) : Canon (s.copyIn p f k stuck good) :=
  .ite (Canon.reflect (by
    split
    · exact h
    · exact (h.onlyIf fun _ hs => hs.echoCopy).readCopy)) (by
    split
    · exact h
    · exact (h.onlyIf fun _ hs => hs.echoCopy).readCopy)

theorem Canon.absorb {f : Frame} (h : Canon s) : Canon (s.absorb f) :=
  .ite h (.ite h.bump.bump (have hs := h.bump.setStr.setFlag.setFlag
  .ite hs.bump hs.commitSlots))

theorem Canon.safePins {j : Nat} (h : Canon s) : Canon (s.safePins j) := h.forEach fun _ _ ht => .ite ht.setPin ht

theorem Canon.drivePins {j : Nat} {d : List Byte} (h : Canon s) : Canon (s.drivePins j d) :=
  h.forEach fun _ _ ht => .ite ht.drive ht

theorem Canon.pushWords {n : Nat} {d : List Byte} (h : Canon s) : Canon (s.pushWords n d) :=
  h.forEach fun _ _ ht => .ite ht.on.bump (by
    split
    · next u e => exact (ht.pushTx.of_eq₂ e)
    · next fst u e => exact (ht.pushTx.of_eq₂ e).bump)

theorem Canon.driveEntry {j : Nat} (h : Canon s) : Canon (s.driveEntry j) := by
  dsimp only [State.driveEntry]
  split
  · exact .ite h.safePins h.drivePins
  · exact .ite h.pushWords h
  · exact h

theorem Canon.settle {k j : Nat} (h : Canon s) : Canon (s.settle k j) := .ite h.on.setFld.setFld h.writeBytes.off.bumpFld.bump

theorem Canon.exchange {j : Nat} (h : Canon s) : Canon (s.exchange j) := h.writeBytes.writeBytes

theorem Canon.cycApply {t : Nat} (h : Canon s) : Canon (s.cycApply t) :=
  .ite h (have hs := h.toTime.forEach fun _ _ hs => hs.settle
  ((hs.forEach fun _ _ hs => hs.exchange).setFld.forEach fun _ _ hs => hs.driveEntry).setStr.usbSwap)

theorem Canon.cycTakeover {t : Nat} (h : Canon s) : Canon (s.cycTakeover t) := .ite h.setStr.bump h

theorem Canon.cycEnter (h : Canon s) : Canon s.cycEnter := h.forEach fun _ _ hu => .ite hu.setStr hu

theorem Canon.startStream {t : Nat} (h : Canon s) : Canon (s.startStream t) :=
  (h.setStr.onlyIf fun _ hu => hu.setCyc).forEach fun _ _ hu => hu.setCyc

theorem Canon.writeStream {t : Nat} {w : Word} (h : Canon s) : Canon (s.writeStream t w).2 :=
  .ite₂ h.refuse (.ite₂ h.refuse (.ite₂ (.ite₂ h.refuse h.wr.startStream) h.wr))

theorem Canon.writePub {w : Word} (h : Canon s) : Canon (s.writePub w).2 := .ite₂ h.refuse (.ite₂ (.ite₂ h.refuse h.wr.setCyc) h.wr)

theorem Canon.writeSub {j : Nat} {w : Word} (h : Canon s) : Canon (s.writeSub j w).2 :=
  .ite₂ h.refuse (.ite₂ (.ite₂ h.refuse (by
    split
    · next u e => exact ((Canon.ite₂ h.claim h).of_eq₂ e).wr.setCyc
    · exact .ite₂ h.claim h)) (.ite₂ h.wr.release h.wr))

theorem Canon.writeCycCtl {w : Word} (h : Canon s) : Canon (s.writeCycCtl w).2 :=
  .ite₂ h.refuse (h.wr.onlyIf fun _ hs => hs.cycEnter)

theorem Canon.whenOff {busy ok : Bool} {a : Nat} {v : Word} (h : Canon s) : Canon (s.whenOff busy ok a v).2 :=
  .ite₂ h.refuse (.ite₂ h.refuse h.wr)

theorem Canon.cycWrite {off : Nat} {w : Word} (h : Canon s) : CanonOpt (s.cycWrite off w) :=
  .ite (.some h.writeCycCtl) (.ite (.some h.writePub) (.ite (.some h.whenOff) (.ite (.some h.whenOff) (.ite (by
    split
    · exact .some h.writeStream
    · exact .some h.whenOff
    · exact .some h.whenOff
    · exact .some h.whenOff
    · exact .some h.whenOff
    · exact .some h.whenOff
    · exact .none) (.ite (by
    split
    · exact .some h.writeSub
    · exact .some h.whenOff
    · exact .none) (.ite (.some h.refuse) .none))))))

/-! ### Machine/Stitch.lean -/

theorem Canon.setStb {b : Bridge} (h : Canon s) : Canon (s.setStb b) := h.same

theorem Canon.sensReport {b : PfBuf} {cause : Nat} (h : Canon s) : Canon (s.sensReport b cause) := by
  dsimp only [State.sensReport]
  split
  · exact h
  · exact (Canon.ite h.bump h.bump.wr.wr.on).sysRec

theorem Canon.discardBuf {cause : Nat} {b : PfBuf} (h : Canon s) : Canon (s.discardBuf cause b) :=
  (Canon.ite h.bump (.ite h.bump h)).sensReport

theorem Canon.discardIf {cause : Nat} {p : PfBuf → Bool} (h : Canon s) : Canon (s.discardIf cause p) :=
  h.setStb.forEach fun _ _ hs => hs.discardBuf

theorem Canon.ageBufs (h : Canon s) : Canon s.ageBufs := h.discardIf

theorem Canon.placeBuf {b : PfBuf} (h : Canon s) : Canon (s.placeBuf b) :=
  .ite h.discardBuf (.ite h.discardBuf (h.setStb.forEach fun _ _ hs => hs.discardBuf))

theorem Canon.markUsed {m : StWin} {o n : Nat} (h : Canon s) : Canon (s.markUsed m o n) := h.setStb

theorem Canon.hitBuf {b : PfBuf} (h : Canon s) : Canon (s.hitBuf b) := h.bump.setStb

theorem Canon.serveBufs {m : StWin} : ∀ {l : List Nat} {s : State}, Canon s → Canon (s.serveBufs m l)
  | [], _, h => h.setStb
  | _ :: _, _, h => by
    dsimp only [State.serveBufs]
    split
    · exact h.hitBuf.serveBufs
    · exact h.setStb

theorem Canon.enterBridge {e : StReq} (h : Canon s) : Canon (s.enterBridge e) :=
  have hs := Canon.ite h.setStb.peak.cancel h.setStb.peak
  .ite hs hs.discardIf.setStb

theorem Canon.toBridge {k : ReqKind} {q : Request} {m : StWin} (h : Canon s) : Canon (s.toBridge k q m) :=
  .ite h.same.setStb h.same.enterBridge

theorem Canon.idleLock (h : Canon s) : Canon s.idleLock := h.setStb

theorem Canon.popBridge (h : Canon s) : Canon s.popBridge :=
  have hs := h.setStb.idleLock
  Canon.pullBacklog (by
    split
    · exact hs
    · exact hs.setStb.enterBridge)

theorem Canon.dropStitchLock (h : Canon s) : Canon s.dropStitchLock := .ite h.same.cancel h.same.cancel.idleLock

theorem Canon.noteBrk (h : Canon s) : Canon s.noteBrk := h.bump.on

theorem Canon.breakStitchLock (h : Canon s) : Canon s.breakStitchLock := .ite h.dropStitchLock.bump.noteBrk h

theorem Canon.planAhead {e : StReq} (h : Canon s) : Canon (s.planAhead e) := .ite h h.setStb

theorem Canon.bridgeOk {e : StReq} {data : List Byte} (h : Canon s) : Canon (s.bridgeOk e data) :=
  (Canon.ite h.popBridge.arm (.ite h.popBridge.dropStitchLock h.popBridge)).planAhead.complete1

theorem Canon.startBridge {e : StReq} (h : Canon s) : Canon (s.startBridge e) :=
  .ite h.popBridge.refuse.fail (have hs := Canon.ite h.bump.setStb.ageBufs.serveBufs h.bump.setStb
  .ite (Canon.ite (by
    split
    · exact hs.same
    · exact hs) hs).markUsed.bridgeOk (.ite (by
    split
    · exact hs.same
    · exact hs) hs))

theorem Canon.runBlocks {e : StReq} {ok : Bool} : ∀ {l : List Nat} {ad : List (Word × Bool)} {taken : Nat} {s : State}, Canon s →
    Canon (s.runBlocks e ok ad taken l).2
  | [], _, _, _, h => h
  | _ :: _, _, _, _, h => by
    dsimp only [State.runBlocks]
    split
    · exact h.hitBuf.runBlocks
    · exact .ite₂ h h.setStb.placeBuf.runBlocks

theorem Canon.endBridge {e : StReq} {ad : List (Word × Bool)} (h : Canon s) : Canon (s.endBridge e ad) :=
  .ite (.ite h h.runBlocks.emit.markUsed.bridgeOk) (.ite h h.emit.bridgeOk)

theorem Canon.busError {m : StWin} {a cause : Nat} (h : Canon s) : Canon (s.busError m a cause) := h.bump.on.wr.wr

theorem Canon.cutBeats {e : StReq} {taken : Nat} {ad : List (Word × Bool)} (h : Canon s) : CanonOpt (s.cutBeats e taken ad) :=
  .ite (.ite .none (.some h.runBlocks)) (.ite (.some h) .none)

theorem Canon.failBridge {e : StReq} {taken : Nat} {ad : List (Word × Bool)} {cause : Nat} (h : Canon s) :
    Canon (s.failBridge e taken ad cause) :=
  by
  dsimp only [State.failBridge]
  split
  · exact h
  · next beats s e => exact have hs := (h.cutBeats _ e).emit.busError.popBridge
  have hs' := Canon.ite hs.dropStitchLock hs
  (Canon.ite hs'.bump.on hs').refuse.fail

theorem Canon.readAhead {ad : List (Word × Bool)} {failed : Bool} (h : Canon s) : Canon (s.readAhead ad failed) := by
  dsimp only [State.readAhead]
  refine .ite h ?_
  split
  · exact h.ageBufs.setStb
  · exact .ite h.ageBufs.setStb.emit.busError (.ite h.ageBufs.setStb.setStb h.ageBufs.setStb.emit.bump.placeBuf)

theorem Canon.discardAll (h : Canon s) : Canon s.discardAll := h.discardIf.setStb

theorem Canon.flushBridge {st : Status} (h : Canon s) : Canon (s.flushBridge st) :=
  (h.setStb.idleLock.forEach fun _ _ ht => ht.refuse.fail).pullBacklog

theorem Canon.bridgeReset (h : Canon s) : Canon s.bridgeReset :=
  (h.onlyIf fun _ hx => hx.bump).flushBridge.breakStitchLock.discardAll

theorem Canon.bridgeIdle (h : Canon s) : Canon s.bridgeIdle := h.flushBridge.discardAll.breakStitchLock

theorem Canon.stitchIrq {k : Nat} {low : Bool} (h : Canon s) : Canon (s.stitchIrq k low) :=
  (Canon.ite (h.setFlag.onlyIf fun _ hx => hx.on) h.setFlag.setFlag).irqRise

theorem Canon.winCfg {i : Nat} {w : Word} (h : Canon s) : Canon (s.winCfg i w).2 :=
  .ite₂ h.refuse (.ite₂ (.ite₂ h (.ite₂ h.wr.discardIf.setStb h.refuse)) (.ite₂ h.refuse (.ite₂ h.refuse h.wr)))

theorem Canon.stbCtl {w : Word} (h : Canon s) : Canon (s.stbCtl w).2 := .ite₂ h.refuse (.ite₂ h.refuse h.discardAll.wr)

theorem Canon.winReg {i reg : Nat} {v : Word} (h : Canon s) : Canon (s.winReg i reg v).2 := .ite₂ h.refuse h.wr

theorem Canon.stbWrite {off : Nat} {w : Word} (h : Canon s) : CanonOpt (s.stbWrite off w) :=
  .ite (.some h.refuse) (.ite (by
    split
    · exact .some h.winCfg
    · exact .some h.winReg
    · exact .some h.winReg
    · exact .some h.winReg
    · exact .some h.winReg
    · exact .none) (by
    split
    · exact .some h.stbCtl
    · exact .some h.wr.wr.irqRise
    · exact .some h.wr
    · exact .some h.wr.irqRise
    · exact .none))

/-! ### Machine/Time.lean -/

theorem Canon.setDom {d : Nat} {v : DomainState} (h : Canon s) : Canon (s.setDom d v) := h.same

theorem Canon.setTim {t : TimeState} (h : Canon s) : Canon (s.setTim t) := h.same

theorem Canon.setIncr {v : Nat} (h : Canon s) : Canon (s.setIncr v) := h.wr.wr

theorem Canon.applyIncr {phase : Int} (h : Canon s) : Canon (s.applyIncr phase) := h.setIncr

theorem Canon.steer (h : Canon s) : Canon s.steer := h.useFree.useFree.setTim.applyIncr

theorem Canon.setPic {i : Nat} {v : PicState} (h : Canon s) : Canon (s.setPic i v) := h.same

theorem Canon.picLevel {i : Nat} {active : Bool} (h : Canon s) : Canon (s.picLevel i active) := .ite h.setFlag.drive h.setFlag

theorem Canon.picDone {i : Nat} (h : Canon s) : Canon (s.picDone i) := .ite h.off.on h

theorem Canon.picSkip {i n : Nat} (h : Canon s) : Canon (s.picSkip i n) := .ite h h.setPic.bumpBy.picDone

theorem Canon.picStep {i : Nat} (h : Canon s) : Canon (s.picStep i) :=
  .ite h (have hs := Canon.ite h.picLevel.setPic.picDone h
  .ite hs (.ite hs hs.picSkip))

theorem Canon.loadCtr {v : Nat} (h : Canon s) : Canon (s.loadCtr v) := h.same.forEach fun _ _ hs => hs.picStep

theorem Canon.jumpRec {step persist : Bool} {d : Nat} {corr : Int} (h : Canon s) : Canon (s.jumpRec step persist d corr) :=
  h.sysRec.setTim

theorem Canon.step9 {d : Nat} {corr : Int} (h : Canon s) : Canon (s.step9 d corr) :=
  (h.forEach fun _ _ ht => .ite ht ht.wr).loadCtr.off.off.off.on.bump.off.setTim.jumpRec

theorem Canon.refuseJump (h : Canon s) : Canon s.refuseJump := h.on.bump

theorem Canon.switchTo {d : Nat} (h : Canon s) : Canon (s.switchTo d) :=
  have hs := h.setFld.bump.off
  .ite hs.setTim.off hs.setTim.off.setTim.on.steer

theorem Canon.noteHoldover (h : Canon s) : Canon s.noteHoldover := h.setFlag

theorem Canon.unlock {d : Nat} (h : Canon s) : Canon (s.unlock d) := .ite h h.off.setDom

theorem Canon.trySwitch {d : Nat} (h : Canon s) : Canon (s.trySwitch d) :=
  .ite h.switchTo.noteHoldover h.refuseJump.jumpRec.unlock.noteHoldover

theorem Canon.reselect (h : Canon s) : Canon s.reselect := .ite h.trySwitch h.noteHoldover

theorem Canon.reconsider (h : Canon s) : Canon s.reconsider := .ite h.reselect h.noteHoldover

theorem Canon.setLock {d : Nat} {b : Bool} (h : Canon s) : Canon (s.setLock d b) :=
  .ite h (have hs := Canon.ite h.setFlag.setDom h.setFlag.setDom
  .ite hs.reselect hs)

theorem Canon.acceptSync {d : Nat} {θ res : Int} (h : Canon s) : Canon (s.acceptSync d θ res) :=
  have hs := h.bump.on.arm.setDom.wr
  have hs' := Canon.ite hs.useFree.wr.setTim.steer hs.useFree.wr
  (Canon.ite hs'.setLock (.ite hs'.setLock hs')).onlyIf fun _ hs => hs.reconsider

theorem Canon.offset {d : Nat} {θ : Int} (h : Canon s) : Canon (s.offset d θ) :=
  .ite h (.ite (.ite h.step9.acceptSync (.ite (have hs := h.refuseJump.setTim
  (hs.onlyIf fun _ hs => hs.jumpRec).setDom.setLock) h.acceptSync)) (.ite h.setLock.setDom.acceptSync h.acceptSync))

theorem Canon.takeMail {f : Frame} (h : Canon s) : Canon (s.takeMail f) := h.same

theorem Canon.ptpCheck {p : Nat} {pdelay : Bool} {f : PtpFrame} (h : Canon s) : Canon (s.ptpCheck p pdelay f).2 :=
  .ite₂ h (.ite₂ h (have hs := h.onlyIf fun _ hx => hx.bump
  .ite₂ hs.bump (.ite₂ hs.bump (.ite₂ hs.bump hs))))

theorem Canon.ptpIn {p : Nat} {pdelay : Bool} {f : PtpFrame} (h : Canon s) : Canon (s.ptpIn p pdelay f).2 := by
  dsimp only [State.ptpIn]
  split
  · next s e => exact (h.ptpCheck.of_eq₂ e)
  · next s e => exact have hs := (h.ptpCheck.of_eq₂ e).startRx
  (Canon.ite₂ hs.switchIn hs).rxEnd.forEach fun _ _ hs => hs.dropCopy

theorem Canon.spurPtp {f : PtpFrame} (h : Canon s) : Canon (s.spurPtp f) :=
  .ite h (by
    split
    · next s e => exact (h.ptpIn.of_eq₂ e)
    · next s e => exact .ite (h.ptpIn.of_eq₂ e).bump (.ite (h.ptpIn.of_eq₂ e).bump (h.ptpIn.of_eq₂ e).inject.bump))

theorem Canon.pdMiss {p : Nat} (h : Canon s) : Canon (s.pdMiss p) := by
  dsimp only [State.pdMiss]
  split
  · exact h
  · exact .ite h.bump.setPd.off h.bump.setPd

theorem Canon.pdelaySend {p : Nat} {msg : List Byte} (h : Canon s) : Canon (s.pdelaySend p msg) := .ite h.place h.localIn

theorem Canon.pdelayReq {p : Nat} (h : Canon s) : Canon (s.pdelayReq p) := .ite h h.pdMiss.setPd.pdelaySend.arm

theorem Canon.pdelayAnswer {p : Nat} {f : PtpFrame} (h : Canon s) : Canon (s.pdelayAnswer p f) :=
  .ite h (by
    split
    · next s e => exact (h.ptpIn.of_eq₂ e)
    · next s e => exact (h.ptpIn.of_eq₂ e).pdelaySend)

theorem Canon.pdelayTake {p : Nat} {msg : List Byte} {followUp : Option (List Byte)} (h : Canon s) :
    Canon (s.pdelayTake p msg followUp) :=
  by
  dsimp only [State.pdelayTake]
  split
  · exact h
  · exact .ite h (.ite h.bump (have hs := h.setPd.wr.setFld
  .ite hs.on hs))

theorem Canon.pdelayResp {p : Nat} {f : PtpFrame} {followUp : Option PtpFrame} (h : Canon s) :
    Canon (s.pdelayResp p f followUp) := by
  dsimp only [State.pdelayResp]
  refine .ite h ?_
  split
  · exact .ite h.ptpIn.pdelayTake h.ptpIn
  · exact .ite h.ptpIn.ptpIn.pdelayTake h.ptpIn.ptpIn

theorem Canon.timeCmd {w : Word} (h : Canon s) : Canon (s.timeCmd w).2 :=
  .ite₂ h.refuse (by
    split
    · exact h
    · exact h.on
    · exact h.off
    · exact h.refuse)

theorem Canon.step9Note {d : Nat} {corr : Int} (h : Canon s) : Canon (s.step9Note d corr) := h.setTim.off.off.off.on.bump.jumpRec

theorem Canon.initialSet (h : Canon s) : Canon s.initialSet := h.setTim.off

theorem Canon.setTime {v : Nat} (h : Canon s) : Canon (s.setTime v).2 :=
  .ite₂ h.refuse (.ite₂ (h.loadCtr.onlyIf fun _ hs => hs.initialSet) (.ite₂ h.loadCtr.step9Note h.refuseJump.jumpRec.refuse))

theorem Canon.latchNow (h : Canon s) : Canon s.latchNow := h.same

theorem Canon.writeIncr {v : Nat} (h : Canon s) : Canon (s.writeIncr v).2 := .ite₂ h.refuse (.ite₂ h.refuse h.setIncr)

theorem Canon.picStart {i : Nat} (h : Canon s) : Canon (s.picStart i) := h.wr.setPic.on.picLevel

theorem Canon.picEnd {i : Nat} (h : Canon s) : Canon (s.picEnd i) :=
  have hs := Canon.ite h.picLevel h
  .ite hs.setPic.off.release hs.setPic.off

theorem Canon.picCtl {i : Nat} {w : Word} (h : Canon s) : Canon (s.picCtl i w).2 :=
  .ite₂ h.refuse (.ite₂ (.ite₂ h (.ite₂ h.picEnd.wr h.refuse)) (.ite₂ h.wr (.ite₂ h.refuse (.ite₂ (by
    split
    · next t e => exact (h.claim.of_eq₂ e).wr.onlyIf fun _ hs => hs.picStart
    · exact h.claim) (h.wr.onlyIf fun _ hs => hs.picStart)))))

theorem Canon.picRec {i time k : Nat} (h : Canon s) : Canon (s.picRec i time k) := .ite h.pushRec h

theorem Canon.picEnter (h : Canon s) : Canon s.picEnter := h.forEach fun _ _ ht => .ite ht (.ite ht.picStart ht.picEnd.off)

theorem Canon.gmCfg {d : Nat} {w : Word} (h : Canon s) : Canon (s.gmCfg d w) :=
  .ite (Canon.ite h.wr.wr.on h.wr.wr.on.arm).setLock (.ite h.wr.cancel.off.setLock h.wr)

theorem Canon.picReg {i reg : Nat} {v : Word} (h : Canon s) : Canon (s.picReg i reg v).2 := .ite₂ h.refuse h.wr

theorem Canon.timeWrite {off : Nat} {w : Word} (h : Canon s) : CanonOpt (s.timeWrite off w) :=
  .ite (.ite (.some h.refuse) (by
    split
    · exact .some h.picCtl
    · exact .some h.picReg
    · exact .some h.picReg
    · exact .some h.picReg
    · exact .some h.picReg
    · exact .some h.picReg
    · exact .some h.picReg
    · exact .ite (.some h.refuse) .none
    · exact .none)) (by
    split
    · exact .some (.ite₂ h.refuse (.ite₂ h.refuse h.wr))
    · exact .some h.timeCmd
    · exact .some (h.wr.onlyIf fun _ hs => hs.reconsider)
    · exact .some h.refuse
    · exact .some h.refuse
    · exact .some h.writeIncr
    · exact .some h.writeIncr
    · exact .some (.ite₂ h.refuse (.ite₂ h.refuse h.wr.reconsider))
    · exact .some (.ite₂ h.refuse (.ite₂ h.refuse h.wr))
    · exact .some (.ite₂ h.refuse (.ite₂ h.refuse h.wr))
    · exact .ite (by
      split
      · exact .some (.ite₂ h.refuse (.ite₂ h.refuse (.ite h.wr h.wr.cancel.off.setLock)))
      · exact .some (.ite₂ h.refuse (.ite₂ h.refuse h.gmCfg))
      · exact .none) (.ite (by
      split
      · exact .some (.ite₂ h.refuse (.ite₂ h.refuse (.ite h.wr.cancel (.ite h.wr h.wr.armPdelay))))
      · exact .some (.ite₂ h.refuse (.ite₂ h.refuse h.wr))
      · exact .some (.ite₂ h.refuse (.ite₂ h.refuse h.wr))
      · exact .none) .none))

/-! ### Machine/Service.lean -/

theorem Canon.emptyQueues (h : Canon s) : Canon s.emptyQueues := h.emptyBobQueues.emptyCanQueues.same

theorem Canon.unclaim {o : Owner} {pins : List Nat} (h : Canon s) : Canon (s.unclaim o pins) := by
  dsimp only [State.unclaim]
  split
  · exact h.forEach fun _ _ ht => ht.off
  · exact h.off
  · exact h.off
  · exact h.forEach fun _ _ ht => ht.off

theorem Canon.takeClaims (h : Canon s) : Canon s.takeClaims :=
  h.forEach fun _ _ ht => by
    split
    · next u e => exact (ht.claim.of_eq₂ e)
    · next fst u e => exact (ht.claim.of_eq₂ e).unclaim

theorem Canon.unitsServe {fromLoad wasRing : Bool} (h : Canon s) : Canon (s.unitsServe fromLoad wasRing) :=
  have hs := h.startWriter.driveOutputs
  (hs.canEnter.picEnter.onlyIf fun _ hs => hs.autostart).usbModeChange.onlyIf fun _ hs => hs.cycEnter

theorem Canon.unitsStandby (h : Canon s) : Canon s.unitsStandby :=
  h.startWriter.driveOutputs.stopAllBobs.bridgeIdle.canEnter.picEnter.usbModeChange.cycEnter

theorem Canon.unitsPass (h : Canon s) : Canon s.unitsPass := h.startWriter.driveOutputs.stopAllBobs.bridgeIdle.usbModeChange

theorem Canon.changeMode {m : Mode} (h : Canon s) : Canon (s.changeMode m) := by
  have hs {c d e b : Bool} {f : Fld} {m : Mode} : Canon (((((s.onlyIf c State.emptyQueues).onlyIf d State.clearLoops).setFlag f b)
      |>.enterMode m).onlyIf e State.takeClaims) :=
    ((h.onlyIf fun _ ht => ht.emptyQueues).onlyIf fun _ ht => ht.clearLoops).setFlag.enterMode.onlyIf fun _ ht => ht.takeClaims
  dsimp only [State.changeMode]
  split
  · exact hs.unitsServe
  · exact hs.unitsServe
  · exact hs.unitsServe
  · exact hs.unitsStandby
  · exact hs.unitsPass
  · exact hs.usbModeChange

theorem Canon.restartWdog (h : Canon s) : Canon s.restartWdog := h.arm

theorem Canon.pauseWdog (h : Canon s) : Canon s.pauseWdog := by
  dsimp only [State.pauseWdog]
  split
  · exact h
  · exact h.same.cancel

theorem Canon.resumeWdog (h : Canon s) : Canon s.resumeWdog := by
  dsimp only [State.resumeWdog]
  split
  · exact h
  · exact h.same.arm

theorem Canon.kick {w : Word} (h : Canon s) : Canon (s.kick w).2 := .ite₂ h.refuse (h.onlyIf fun _ hs => hs.restartWdog)

theorem Canon.wakeSource {bit : Fld} {usb : Bool} (h : Canon s) : Canon (s.wakeSource bit usb) :=
  .ite h (.ite (.ite h.on h.on.same) (.ite h.on h.on.same.on.bump.arm))

/-! ### Machine/Twin.lean -/

theorem Canon.setTwin {t : Twin} (h : Canon s) : Canon (s.setTwin t) := h.same

theorem Canon.setTwinState {n : Nat} (h : Canon s) : Canon (s.setTwinState n) := h.setFld.setTwin

theorem Canon.noteReady (h : Canon s) : Canon s.noteReady := .ite h.setTwinState.setTwin h.setTwin

theorem Canon.until {t : Nat} (h : Canon s) : Canon (s.until t) := h.advance

theorem Canon.heartbeat {h : Heartbeat} (hc : Canon s) : Canon (s.heartbeat h) :=
  have hs := hc.setTwin.setFlag.arm
  .ite (hs.forEach fun _ _ ht => ht.same) hs

theorem Canon.giveUp {cause : Nat} (h : Canon s) : Canon (s.giveUp cause) :=
  h.releaseOutputs.emit.setFld.setTwinState.cancel.setTwin

theorem Canon.selfRelease {cause : Nat} (h : Canon s) : Canon (s.selfRelease cause).2 := .ite₂ h.giveUp h

theorem Canon.handBack {cause : Nat} (h : Canon s) : Canon (s.handBack cause) := h.giveUp.changeMode.setTwinState.noteReady

theorem Canon.partnerReleased {ev : Nat} (h : Canon s) : Canon (s.partnerReleased ev) := .ite h (.ite h.setTwin.setTwin h.setTwin)

theorem Canon.sendTwin {node : Nat} {p : List Byte} (h : Canon s) : Canon (s.sendTwin node p) := h.queueFrame

theorem Canon.sendClaim (h : Canon s) : Canon s.sendClaim := by
  dsimp only [State.sendClaim]
  split
  · exact h.arm
  · exact h.arm.bump.sendTwin

theorem Canon.sendGrant {n ev : Nat} (h : Canon s) : Canon (s.sendGrant n ev) := h.sendTwin

theorem Canon.claimed {f : Frame} (h : Canon s) : Canon (s.claimed f) := .ite h.on.setFld.setFlag.sendGrant.bump h.sendGrant

theorem Canon.grant {f : Frame} (h : Canon s) : Canon (s.grant f) :=
  .ite (have hs := h.emit.setFld.cancel
  .ite hs.setTwin hs) h.emit

theorem Canon.takePins (h : Canon s) : Canon s.takePins := h.forEach fun _ _ ht => .ite ht.drive ht

theorem Canon.takeField {ev : Nat} (h : Canon s) : Canon (s.takeField ev) := by
  dsimp only [State.takeField]
  refine .ite (Canon.sendClaim (Canon.forEach ?_ fun _ _ ht => ht.same)) (Canon.setTwinState ?_) <;>
    exact ((h.setTwin.setFld.bump.setTwinState.changeMode.takePins.onlyIf fun _ ht => ht.autostart).forEach fun _ _ ht =>
      .ite ht.startBob ht).forEach fun _ _ ht => .ite ht.integrate ht

theorem Canon.quarantineTag {t ps : Nat} (h : Canon s) : Canon (s.quarantineTag t ps) := h.same.arm

theorem Canon.takeIdentity (h : Canon s) : Canon s.takeIdentity := by
  dsimp only [State.takeIdentity]
  exact Canon.setTwinState (Canon.forEach ⟨Tab.wf_filter _ _ h.regs, h.mem, h.marks⟩ fun _ _ hu => hu.quarantineTag)

theorem Canon.drillCmd (h : Canon s) : Canon s.drillCmd.2 := .ite₂ h.refuse (.ite₂ h.refuse (.ite₂ h.refuse h.on))

theorem Canon.recordDrill {p : DrillParts} (h : Canon s) : Canon (s.recordDrill p) := h.setFld.setFld.setFlag.off

theorem Canon.twinCfg {w : Word} (h : Canon s) : Canon (s.twinCfg w).2 := .ite₂ h.refuse (.ite₂ h.refuse h.wr)

theorem Canon.twinWrite {off : Nat} {w : Word} (h : Canon s) : CanonOpt (s.twinWrite off w) := by
  dsimp only [State.twinWrite]
  split
  · exact .some h.twinCfg
  · exact have hr := Canon.ite₂ h.drillCmd h
  .some (.ite₂ hr.off hr)
  · exact .none

/-! ### Machine/Modes.lean -/

theorem Canon.refuseMode (h : Canon s) : Canon (refuseMode s).2 := h.bump

theorem Canon.startQuiesce (h : Canon s) : Canon s.startQuiesce := h.on.off.arm

theorem Canon.giveUpTag {t : Nat} {st : Status} (h : Canon s) : Canon (s.giveUpTag t st) := by
  dsimp only [State.giveUpTag]
  split
  · exact h
  · exact .ite h h.freeTag.quarantineTag.initCpl

theorem Canon.flushServe (h : Canon s) : Canon s.flushServe := (h.same.forEach fun _ _ ht => ht.refuse.fail).bridgeReset

theorem Canon.dropLocks (h : Canon s) : Canon s.dropLocks := (h.forEach fun _ _ ht => ht.cancel).same.dropStitchLock

theorem Canon.endQuiesce (h : Canon s) : Canon s.endQuiesce :=
  (h.flushServe.forEach fun _ _ hu => hu.giveUpTag).dropLocks.cancel.off.on

theorem Canon.passThrough (h : Canon s) : Canon s.passThrough :=
  .ite h.changeMode.giveUp (.ite h.changeMode.releaseOutputs.setTwinState h.changeMode)

theorem Canon.backFrom {m : Mode} (h : Canon s) : Canon (s.backFrom m) := .ite h.changeMode.setTwinState.noteReady h.changeMode

theorem Canon.enterDrowse (h : Canon s) : Canon s.enterDrowse := h.same.on.startQuiesce

theorem Canon.target {t : Nat} {u : State} (h : Canon s) (e : s.target t = some u) : Canon u := by
  simp only [State.target] at e
  split at e
  · exact .of_ite_some e (.of_some h.changeMode) fun e => .of_ite_some e (.of_some h.backFrom) nofun
  · exact .of_ite_some e nofun fun e =>
      .of_ite_some e (.of_some h.changeMode) fun e => .of_ite_some e (.of_some h.backFrom) nofun
  · exact .of_ite_some e (.of_some h.passThrough) nofun
  · exact .of_ite_some e (.of_some h.enterDrowse) nofun

theorem Canon.modeCtl {t : Nat} {clr : Bool} (h : Canon s) : Canon (s.modeCtl t clr).2 :=
  .ite₂ h.refuse (.ite₂ h.refuse (.ite₂ h.refuseMode (by
    split
    · exact h.refuseMode
    · next e => exact (h.target e).onlyIf fun _ hu => hu.off)))

theorem Canon.drowseLevels (h : Canon s) : Canon s.drowseLevels := h.loadDrowseRun.stopAllBobs.same

theorem Canon.writeFifo {i : Nat} (h : Canon s) : Canon (s.writeFifo i) :=
  .ite h (List.foldlRecOn _ _ (h.onlyIf fun _ ht => ht.same).same fun _ ht _ _ => ht.writeRecord)

theorem Canon.drainFifos (h : Canon s) : Canon s.drainFifos := h.forEach fun _ _ ht => ht.recordWrite

theorem Canon.drowseEntered (h : Canon s) : Canon s.drowseEntered :=
  have hs := h.forEach fun _ _ ht => .ite ht ht.canGoOff
  have hs' := ((hs.drainFifos.onlyIf fun _ ht => ht.sysRec.writeFifo).cancel.clearLoops.enterMode.off.onlyIf fun _ hs =>
    hs.toPassThrough).same.on.bump.pauseWdog
  .ite hs'.on.bump.arm hs'

theorem Canon.wakeFrame {f : Frame} (h : Canon s) : Canon (s.wakeFrame f) := .ite h.bump (.ite h (.ite h.wakeSource h.same))

theorem Canon.wakeDone (h : Canon s) : Canon s.wakeDone :=
  have hs := h.off.same.onlyIf fun _ ht => ht.sysRec.writeFifo.forEach fun _ _ hs => hs.writeFifo
  ((hs.onlyIf fun _ hs => hs.toFull).changeMode.wakeBobs.onlyIf fun _ hs => hs.requestWake).off.resumeWdog

/-! ### Machine/Nvm.lean -/

theorem Canon.nvPut {a : Nat} {l : List Byte} (h : Canon s) : Canon (s.nvPut a l) := h.same

theorem Canon.nvErase {a n : Nat} (h : Canon s) : Canon (s.nvErase a n) := h.same

theorem Canon.setSession {state end_ reject : Nat} (h : Canon s) : Canon (s.setSession state end_ reject) :=
  have hs := h.setFld.setFld.setFld
  hs.onlyIf fun _ hs => hs.stationEvent

theorem Canon.setUpdState {n : Nat} (h : Canon s) : Canon (s.setUpdState n) := h.setSession

theorem Canon.setDigest {d : List Byte} (h : Canon s) : Canon (s.setDigest d) := h.forEach fun _ _ ht => ht.wr

theorem Canon.resumeSession (h : Canon s) : Canon s.resumeSession :=
  .ite h (.ite h.setSession (have hs := h.setFld.setFld
  (hs.setFld.setFld.setFld.wr64.onlyIf fun _ hs => hs.setDigest).same.setUpdState))

/-! ### Machine/Anatomy.lean -/

theorem Canon.resetRegs {p : Dom → Bool} (h : Canon s) : Canon (s.resetRegs p) := (h.dropRegs _).same

theorem Canon.romStart {v : Slots} (h : Canon s) : Canon (s.romStart v) := by
  dsimp only [State.romStart]
  split
  · exact h.setFlag.setFlag.setFlag.same.off.same.changeMode.pinsOff.resumeSession
  · exact h.setFlag.setFlag.setFlag.same.setFld.setFlag.same

theorem Canon.stopFullPath (h : Canon s) : Canon s.stopFullPath :=
  have hs := (h.onlyIf fun _ hs => hs.answerLocal).dropFullRing
  (hs.forEach fun _ _ hs => hs.cutCopy).clearFull.same

theorem Canon.replaceReplies (h : Canon s) : Canon s.replaceReplies := h.bumpBy.same

theorem Canon.mainReset (h : Canon s) : Canon s.mainReset :=
  have ht := (h.resetRegs.forEach fun _ _ hu => hu.setFld).off
  ⟨ht.regs, Memory.wf_filter _ _ ht.mem, Tab.wf_filter _ _ ht.marks⟩

theorem Canon.noteUnsafe (h : Canon s) : Canon s.noteUnsafe := h.same

theorem Canon.mainRestart {cause : Fld} (h : Canon s) : Canon (s.mainRestart cause) :=
  .ite h (h.on.onlyIf fun _ hx => hx.bumpFld).releaseOutputs.clearLoops.same.flushServe.stopFullPath.replaceReplies.mainReset.setFld

theorem Canon.releaseFirst {cause : Nat} (h : Canon s) : Canon (s.releaseFirst cause) := h.selfRelease.onlyIf fun _ hs => hs.on

theorem Canon.rstCtl {w : Word} (h : Canon s) : Canon (s.rstCtl w).2 := .ite₂ h.refuse (.ite h.mainRestart h)

theorem Canon.mainRelease {v : Slots} {lines : BitVec 256} (h : Canon s) : Canon (s.mainRelease v lines) :=
  h.same.loadLevels.pushRec.romStart

theorem Canon.holdBoth {heldBy : Nat} {cause : BitVec 8} {keep : Bool} (h : Canon s) : Canon (s.holdBoth heldBy cause keep) :=
  ⟨h.resetRegs.setFld.regs, rfl, rfl⟩

theorem Canon.startBoth {v : Slots} {lines : BitVec 256} (h : Canon s) : Canon (s.startBoth v lines) :=
  have hs := h.wr.on.on.on.setFlag
  ((hs.same.pinsOff.forEach fun _ _ hs => hs.modGoesLow).loadLevels.onlyIf fun _ hs => hs.sysRec).romStart

theorem Canon.flushUnit {u : ResetUnit} (h : Canon s) : Canon (s.flushUnit u) :=
  (h.same.forEach fun _ _ ht => ht.refuse.fail).pullBacklog

theorem Canon.bobReset {n : Nat} (h : Canon s) : Canon (s.bobReset n) :=
  ((Canon.ite h h.stopBob).wr.wr.loadBits.setBob.forEach fun _ _ ht => ht.setBob).dirty

theorem Canon.unitEffect {u : ResetUnit} (h : Canon s) : Canon (s.unitEffect u) := by
  dsimp only [State.unitEffect]
  split
  · exact h.declareDown
  · exact h.bobReset
  · exact h.canGoOff.setCan.emptyCan
  · exact h.bridgeReset
  · exact h.disconnect
  · exact h.setCyc
  · exact h.cancel.dropFifos.same

theorem Canon.startUnitReset {u : ResetUnit} (h : Canon s) : Canon (s.startUnitReset u) := .ite h h.on.flushUnit.unitEffect.arm

theorem Canon.unitRst {w : Word} (h : Canon s) : Canon (s.unitRst w).2 :=
  .ite₂ h.refuse (h.forEach fun _ _ ht => by
    split
    · exact ht.startUnitReset
    · exact ht)

theorem Canon.bobRst {high : Bool} {w : Word} (h : Canon s) : Canon (s.bobRst high w).2 :=
  .ite₂ h.refuse (h.forEach fun _ _ ht => ht.startUnitReset)

theorem Canon.unitReleased {u : ResetUnit} (h : Canon s) : Canon (s.unitReleased u) := by
  dsimp only [State.unitReleased]
  split
  · exact h.restartUp
  · exact .ite h.integrate h
  · exact h.tryConnect
  · exact h

theorem Canon.clkCtl {w : Word} (h : Canon s) : Canon (s.clkCtl w).2 := .ite₂ h.refuse (.ite₂ h.refuse h.wr.setFlag)

/-! ### Machine/Memory.lean -/

theorem Canon.addUpsets {ups : List Upset} (h : Canon s) : Canon (s.addUpsets ups) :=
  h.forEach fun _ _ ht => .ite ht (by
    split
    · exact ht.setMark
    · exact ht.setMark
    · exact ht.setMark
    · exact ht.setMark
    · exact .ite ht.setMark ht
    · exact ht)

theorem Canon.dramCorrected {w g : Nat} (h : Canon s) : Canon (s.dramCorrected w g) := h.bump.wr.wr

theorem Canon.dramBad {w : Nat} (h : Canon s) : Canon (s.dramBad w) := .ite h.bump h.bump.wr.wr

theorem Canon.checkWord {w : Nat} (h : Canon s) : Canon (s.checkWord w).2 :=
  .ite₂ h (by
    split
    · exact .ite₂ h.bump.setMark h.bump
    · exact .ite₂ h.dramCorrected h.dramBad)

theorem Canon.checkWords : ∀ {l : List Nat} {s : State}, Canon s → Canon (s.checkWords l).2
  | [], _, h => h
  | _ :: _, _, h => h.checkWord.checkWords

theorem Canon.memRead {a n : Nat} {ups : List Upset} (h : Canon s) : Canon (s.memRead a n ups).2.2 := by
  dsimp only [State.memRead]
  split
  · exact .ite₃ h.addUpsets.bump (.ite₃ h.addUpsets.bump h.addUpsets)
  · exact .ite₃ h.addUpsets.checkWords h.addUpsets.checkWords

theorem Canon.memPut {a : Nat} {data : List Byte} (h : Canon s) : Canon (s.memPut a data) := by
  dsimp only [State.memPut]
  split <;> exact h.writeBytes.forEach fun _ _ hu => hu.setMark

theorem Canon.memWrite {a : Nat} {data : List Byte} {ups : List Upset} (h : Canon s) : Canon (s.memWrite a data ups).2 := by
  dsimp only [State.memWrite]
  split
  · exact h.addUpsets.memPut
  · exact .ite₂ h.addUpsets.checkWords h.addUpsets.checkWords.memPut

theorem Canon.scrubWord {written : Bool} {w : Nat} (h : Canon s) : Canon (s.scrubWord written w) :=
  .ite h (.ite (h.dramCorrected.onlyIf fun _ hs => hs.setMark) h.dramBad)

theorem Canon.scrub {ups : List Upset} {written : Bool} (h : Canon s) : Canon (s.scrub ups written) := by
  dsimp only [State.scrub]
  refine .ite (Canon.on (Canon.wr64 ?_)) (Canon.wr64 ?_) <;> exact h.addUpsets.forEach fun _ _ ht => ht.scrubWord

theorem Canon.churnOwn {n : Nat} {w : Word} {req : Option (ReqKind × Request)} (h : Canon s) : Canon (s.churnOwn n w req).2.2 :=
  .ite₃ h.refuse (.ite₃ h.refuse (.ite₃ h.refuse (.ite₃ h (.ite₃ h.refuse (.ite₃ h.setFld h.same.on)))))

theorem Canon.handoverDone {n : Nat} (h : Canon s) : Canon (s.handoverDone n) := by
  dsimp only [State.handoverDone]
  split
  · exact h
  · split
    · exact .ite h.same.setFld.off h.same.setFld.off.complete1
    · exact h.same.setFld.off.onlyIf fun _ ht => ht.emit

theorem Canon.memBlockWrite {off : Nat} {w : Word} (h : Canon s) : CanonOpt (s.memBlockWrite off w) :=
  .ite (.some h.refuse) (.ite (.some (.ite₂ h.refuse h.setFld)) .none)

/-! ### Machine/Update.lean -/

theorem Canon.sendChunk {ring : BitVec 6} {node : BitVec 9} {p : List Byte} (h : Canon s) : Canon (s.sendChunk ring node p) :=
  h.queueFrame

theorem Canon.sendStatus {to_ : UpdSrc} {r : UpdResult} (h : Canon s) : Canon (s.sendStatus to_ r) := by
  dsimp only [State.sendStatus]
  split
  · exact h.bump.sendChunk
  · exact h.bump.emit

theorem Canon.endSession {end_ reject : Nat} (h : Canon s) : Canon (s.endSession end_ reject) :=
  ((h.nvPut.onlyIf fun _ hx => hx.bump).onlyIf fun _ hx => hx.bump).setSession.off.off.off.wr.wr.setDigest.wr64.wr64.same

theorem Canon.openSession {src : UpdSrc} {digest : List Byte} {total imgType : Nat} (h : Canon s) :
    Canon (s.openSession src digest total imgType) :=
  h.nvErase.nvPut.setFld.setFld.setFld.setFld.off.wr64.same.bump.setUpdState

theorem Canon.clearMark {i : Nat} (h : Canon s) : Canon (s.clearMark i) := .ite h.nvPut h

theorem Canon.checkManifest {sig : SigCheck} (h : Canon s) : Canon (s.checkManifest sig) :=
  .ite h.nvPut.clearMark.setDigest.setUpdState h.endSession

theorem Canon.eraseFirst {c : Nat} (h : Canon s) : Canon (s.eraseFirst c) := .ite h h.nvErase

theorem Canon.storeChunk {c : Nat} {data : List Byte} {ok : Bool} (h : Canon s) : Canon (s.storeChunk c data ok) :=
  .ite h.endSession h.eraseFirst.nvPut.nvPut.bumpFld

theorem Canon.filled1 (h : Canon s) : Canon s.filled1 := .ite h (.ite h.clearMark.setUpdState h.clearMark.clearMark.setUpdState)

theorem Canon.takeChunk {c man : Nat} {data : List Byte} {sig : SigCheck} {ok : Bool} (h : Canon s) :
    Canon (s.takeChunk c man data sig ok) :=
  .ite h.bump (.ite (.ite (.ite h.storeChunk.checkManifest h.storeChunk) h.bump) (.ite (.ite (.ite h.endSession
    h.storeChunk.filled1) h.bump) h))

theorem Canon.countResult {r : UpdResult} (h : Canon s) : Canon (s.countResult r) := by
  dsimp only [State.countResult]
  split
  · exact h.bump
  · exact h.bump
  · exact h

theorem Canon.wholeChunk {src : UpdSrc} {digest : List Byte} {c total imgType man : Nat} {data : List Byte} {sig : SigCheck}
    {ok : Bool} (h : Canon s) : Canon (s.wholeChunk src digest c total imgType man data sig ok) :=
  (Canon.ite h.bump.openSession h.bump).takeChunk

theorem Canon.takePart {src : UpdSrc} {part c total imgType man : Nat} {digest data : List Byte} {sig : SigCheck} {ok : Bool}
    (h : Canon s) : Canon (s.takePart src part c total imgType man digest data sig ok) :=
  .ite h.same.wholeChunk (.ite h.same h.same)

theorem Canon.chunkData {f : Frame} {sig : SigCheck} {ok : Bool} (h : Canon s) : Canon (s.chunkData f sig ok) :=
  .ite h.takePart (.ite h.countResult h.countResult.sendStatus)

theorem Canon.chunkGate {f : Frame} {go : State → State} (hgo : ∀ t, Canon t → Canon (go t)) (h : Canon s) :
    Canon (s.chunkGate f go) :=
  .ite h (.ite (h.takeMail.onlyIf fun _ hx => hx.bump) (.ite h.takeMail.bump (.ite h.takeMail.bump (hgo _ h.takeMail))))

theorem Canon.control {src : UpdSrc} {op : Nat} {digest : List Byte} {at_ : Nat} {svcLow : Bool} (h : Canon s) :
    Canon (s.control src op digest at_ svcLow).2 :=
  .ite₂ h.countResult (by
    split
    · exact h.wr64.setUpdState
    · exact h.endSession
    · exact h)

theorem Canon.controlFrame {f : Frame} (h : Canon s) : Canon (s.controlFrame f) := .ite h.same h.control.sendStatus

theorem Canon.controlOp {f : Frame} {mine : Nat → Bool} (h : Canon s) : Canon (s.controlOp f mine) :=
  h.chunkGate fun _ ht => .ite ht.controlFrame ht

theorem Canon.copyStaged (h : Canon s) : Canon s.copyStaged := .ite h (h.nvErase.forEach fun _ _ ht => ht.nvPut)

theorem Canon.writeChunk0 (h : Canon s) : Canon s.writeChunk0 := h.nvPut

theorem Canon.activateNow {ok : Bool} (h : Canon s) : Canon (s.activateNow ok) :=
  (Canon.ite h.writeChunk0.bump.endSession h.endSession).mainRestart

theorem Canon.chunkStatus {f : Frame} (h : Canon s) : Canon (s.chunkStatus f) := .ite h (.ite h.same (.ite h.same h))

theorem Canon.updWrite {off : Nat} {w : Word} (h : Canon s) : CanonOpt (s.updWrite off w) :=
  .ite (.ite (.some h.refuse) .none) (.ite (.some h.refuse) (.ite (.some (.ite₂ h.refuse h.wr)) (.some h.wr)))

/-! ### Machine/Access.lean -/

theorem Canon.clearRc {a : Nat} (h : Canon s) : Canon (s.clearRc a) := by
  dsimp only [State.clearRc]
  split
  · exact h
  · exact .ite h h.wr

theorem Canon.latchHi {a : Nat} (h : Canon s) : Canon (s.latchHi a) := h.same.clearRc

theorem Canon.linkRead {a : Nat} (h : Canon s) : Canon (s.linkRead a).2 :=
  h.plkValid.dieRead.plkOut.plkAnswered.plkValid.dieRead.plkOut.plkAnswered

theorem Canon.readReg {all : List Nat} {a : Nat} (h : Canon s) : Canon (s.readReg all a).2 :=
  .ite₂ h.linkRead (.ite₂ h.latchNow (.ite₂ h (by
    split
    · exact h.same
    · exact h.clearRc.onlyIf fun _ hs => hs.latchHi)))

theorem Canon.readRegs {all : List Nat} : ∀ {l : List Nat} {s : State}, Canon s → Canon (s.readRegs all l).2
  | [], _, h => h
  | _ :: _, _, h => h.readReg.readRegs

theorem Canon.readRow {a n : Nat} (h : Canon s) : Canon (s.readRow a n).2.2 := by
  dsimp only [State.readRow]
  split
  · split
    · exact h.refuse
    · split
      · exact h.rxqPop
      · exact h.readRegs
  · exact h.refuse

theorem Canon.plainWrite {a : Nat} {w : Word} (h : Canon s) : Canon (s.plainWrite a w) := by
  dsimp only [State.plainWrite]
  split
  · exact h
  · exact .ite h h.wr

theorem Canon.swcWrite {off : Nat} {w : Word} (h : Canon s) : CanonOpt (s.swcWrite off w) :=
  .ite (.some h.refuse) (.ite (.some h.refuse) .none)

theorem Canon.txnWrite {off : Nat} {w : Word} (h : Canon s) : CanonOpt (s.txnWrite off w) :=
  .ite (by
    split
    · exact .some (.ite₂ h.refuse (.ite₂ h.refuse h.plainWrite))
    · exact .ite (.some h.refuse) .none
    · exact .none) (.ite (.ite (.some h.refuse) .none) (.ite (.some h.refuse) .none))

theorem Canon.sysWrite {off : Nat} {w : Word} (h : Canon s) : CanonOpt (s.sysWrite off w) := by
  dsimp only [State.sysWrite]
  split
  · exact .some h.modeCtl
  · exact .some h.kick
  · exact .some h.clkCtl
  · exact .some h.rstCtl
  · exact .some h.unitRst
  · exact .some h.bobRst
  · exact .some h.bobRst
  · exact .some (.ite₂ h.refuse (.ite₂ h.refuse (h.plainWrite.onlyIf fun _ hs => hs.restartWdog)))
  · exact .ite (.some h.refuse) .none

theorem Canon.doorbell {w : Word} (h : Canon s) : Canon (s.doorbell w).2 := .ite₂ h.refuse h.wr.hostPend

theorem Canon.hostWrite {off : Nat} {w : Word} (h : Canon s) : CanonOpt (s.hostWrite off w) := by
  dsimp only [State.hostWrite]
  refine .ite (.some h.refuse) ?_
  split
  · exact .some (.snd h.plainWrite)
  · exact .some h.doorbell
  · exact .ite (.some h.refuse) .none
  · exact .none

theorem Canon.ruledWrite {a : Nat} {w : Word} {req : Option (ReqKind × Request)} (h : Canon s) : CanonOpt (s.ruledWrite a w req) :=
  .ite h.sysWrite (.ite (.ite h.portWrite .none) (.ite h.swcWrite (.ite h.txnWrite (.ite h.cycWrite (.ite h.fpinWrite (.ite
    h.jrnWrite (.ite (.ite (.some h.refuse) h.bobWrite) (.ite h.canWrite (.ite h.stbWrite (.ite h.usbWrite (.ite h.timeWrite (.ite
    h.pwrWrite (.ite h.twinWrite (.ite (.ite (.some h.churnOwn) h.memBlockWrite) (.ite h.updWrite (.ite h.hostWrite
    h.wardenWrite))))))))))))))))

theorem Canon.sendDelta {a : Nat} {b : List Byte} {r : Res} (h : Canon r.2) : Canon (State.sendDelta a b r).2 := .ite₂ h.emit h

theorem Canon.writeReg {a : Nat} {w : Word} {req : Option (ReqKind × Request)} (h : Canon s) : Canon (s.writeReg a w req).2 :=
  .ite₂ h.refuse (.ite₂ h.refuse (Canon.sendDelta (by
    split
    · next r e => exact (h.ruledWrite _ e)
    · exact h.plainWrite)))

theorem Canon.writeRegs {req : Option (ReqKind × Request)} : ∀ {l : List Word} {a : Nat} {s : State}, Canon s →
    Canon (s.writeRegs req a l).2.2
  | [], _, _, h => h
  | _ :: _, _, _, h => by
    dsimp only [State.writeRegs]
    split
    · next e => exact (h.writeReg.of_eq₂ e).writeRegs
    · exact h.writeReg

theorem Canon.wideWrite {a : Nat} {data : List Byte} (h : Canon s) : CanonOpt (s.wideWrite a data) :=
  .ite .none (.ite (.some h.txqPush) (.ite (.some h.writeRdPos) (.ite (.some h.setTime) (.ite (.some h.canPush) .none))))

theorem Canon.writeRow {a : Nat} {data : List Byte} {req : Option (ReqKind × Request)} (h : Canon s) :
    Canon (s.writeRow a data req).2 :=
  by
  dsimp only [State.writeRow]
  split
  · split
    · next r e => exact (h.wideWrite _ e)
    · exact h.writeRegs.onlyIf fun _ hs => hs.commit
  · exact h.refuse

theorem Canon.windowWrite {off : Nat} {b : List Byte} (h : Canon s) : Canon (s.windowWrite off b).2 :=
  .ite₂ h.refuse (h.entryWrite.onlyIf fun _ ht => ht.same.commit)

theorem Canon.tablePart {a : Nat} {b : List Byte} (h : Canon s) : Canon (s.tablePart a b).2 :=
  .ite₂ h (.ite₂ h.refuse (.ite₂ h.refuse (.ite₂ h.prickWrite (.ite₂ h.refuse (.ite₂ h.filterWrite h.windowWrite)))))

theorem Canon.writeTable {a : Nat} {b : List Byte} (h : Canon s) : Canon (s.writeTable a b).2 := by
  dsimp only [State.writeTable]
  split
  · split
    · split
      · next t e => exact (h.tablePart.sendDelta.of_eq₂ e).tablePart.sendDelta
      · exact h.tablePart.sendDelta
    · exact (h.forEach fun _ _ ht => ht.on).refuse
  · exact h.refuse

theorem Canon.readTable {a n : Nat} (h : Canon s) : Canon (s.readTable a n).2.2 := by
  dsimp only [State.readTable]
  split
  · exact .ite₃ h.refuse (.ite₃ h.refuse (.ite₃ (h.forEach fun _ _ ht => ht.clearNew) h))
  · exact h.refuse

theorem Canon.localWrite {a : Nat} {data : List Byte} (h : Canon s) : Canon (s.localWrite a data).2 :=
  .ite₂ h.writeRow (.ite₂ h.writeTable h.refuse)

theorem Canon.asFirmware {on : Bool} (h : Canon s) : Canon (s.asFirmware on) := h.same

theorem Canon.registerWrite {init a : Nat} {data : List Byte} (h : Canon s) : Canon (s.registerWrite init a data) :=
  .ite h (.ite h.refuse.answer (have hr := h.asFirmware.localWrite
  .ite hr.asFirmware hr.asFirmware.emit))

theorem Canon.readOne {off : Nat} (h : Canon s) : Canon (s.readOne off) := h.query fun _ hs => hs.readRow

/-! ### Machine/Boot.lean -/

theorem Canon.startFirmware (h : Canon s) : Canon s.startFirmware := h.writeBytes.wr.same.changeMode.restartWdog.resumeSession

theorem Canon.writeBack {h : CfgHead} {c : ConfigChoice} (hc : Canon s) : Canon (s.writeBack h c) := .ite hc.nvErase.nvPut hc.on

theorem Canon.loadWrite {a : Nat} {b : List Byte} (h : Canon s) : Canon (s.loadWrite a b).2 := by
  dsimp only [State.loadWrite]
  split
  · exact h.localWrite
  · exact .ite₂ h.keepWrite h.keepWrite.localWrite

theorem Canon.applySettings : ∀ {l : List (BitVec 40 × List Byte)} {s : State}, Canon s → Canon (s.applySettings l).2
  | [], _, h => h
  | (_, _) :: _, _, h => by
    dsimp only [State.applySettings]
    split
    · next e => exact (h.loadWrite.of_eq₂ e).applySettings
    · next e => exact .ite₂ (h.loadWrite.of_eq₂ e).applySettings h

theorem Canon.setIdentity {ring node : Nat} (h : Canon s) : Canon (s.setIdentity ring node) := h.setFld.setFld

theorem Canon.applyImage {h : CfgHead} {c : ConfigChoice} (hc : Canon s) : Canon (s.applyImage h c).2 := by
  dsimp only [State.applyImage]
  refine .ite₂ hc (.ite₂ hc ?_)
  have ht := ((hc.setIdentity (ring := h.ring) (node := h.node)).asFirmware (on := true)).onlyIf (c := !h.td80)
    (f := State.setFld Fd.MEM_MEM_CFG_SIZE c.dramSize.toNat) fun _ hs => hs.setFld
  split
  · next e =>
    have hu := ht.applySettings.of_eq₂ e
    split
    · exact hu
    · exact .ite₂ hu hu.endCold.asFirmware
  · exact ht.applySettings

theorem Canon.bootSuccess (h : Canon s) : Canon s.bootSuccess := h.off

theorem Canon.advanceEpoch (h : Canon s) : Canon s.advanceEpoch := h.onlyIf fun _ hs => hs.setFld

theorem Canon.enterStandby (h : Canon s) : Canon s.enterStandby := h.setTwinState.changeMode.setTwin.noteReady

theorem Canon.enterBare (h : Canon s) : Canon s.enterBare := h.pinsOff.changeMode.bootSuccess

theorem Canon.enterConfigured {startRing : Bool} (h : Canon s) : Canon (s.enterConfigured startRing) :=
  .ite h.same.enterStandby h.same.changeMode

theorem Canon.enterSafeHold {startRing : Bool} (h : Canon s) : Canon (s.enterSafeHold startRing) := by
  dsimp only [State.enterSafeHold]
  exact h.same.changeMode.on.bump.onlyIf fun _ ht => ht.releaseOutputs.setTwinState

theorem Canon.noteCfg {h : CfgHead} {migrated : Bool} (hc : Canon s) : Canon (s.noteCfg h migrated) :=
  hc.setFld.setFld.setFlag.setFlag

theorem Canon.noteDigest {h : CfgHead} (hc : Canon s) : Canon (s.noteDigest h) := .ite hc hc.wr64

theorem Canon.configApply {c : ConfigChoice} (h : Canon s) : Canon (s.configApply c) := by
  dsimp only [State.configApply]
  split
  · exact h.setFld.on.setIdentity.enterBare.advanceEpoch
  · split
    · exact h.setFld.noteCfg.on.wr.enterBare.advanceEpoch
    · next e =>
      have ht := h.setFld.noteCfg.applyImage.of_eq₂ e
      exact .ite (ht.noteDigest.wr.onlyIf fun _ hs => hs.writeBack).enterSafeHold.bootSuccess
        (ht.noteDigest.wr.onlyIf fun _ hs => hs.writeBack).enterConfigured.bootSuccess.advanceEpoch

/-! ### Machine/Txn.lean -/

theorem Canon.releaseLock {k : Nat} (h : Canon s) : Canon (s.releaseLock k) := (h.onlyIf fun _ hs => hs.dropStitchLock).same.cancel

theorem Canon.lockCheck {k : ReqKind} {q : Request} (h : Canon s) : Canon (s.lockCheck k q).2 := by
  dsimp only [State.lockCheck]
  split
  · exact h
  · exact .ite₂ h (.ite₂ h.refuse h)
  · split
    · exact h.bump
    · exact .ite₂ h (h.onlyIf fun _ hs => hs.noteBrk).releaseLock.refuse
  · exact .ite₂ h h

theorem Canon.checks {k : ReqKind} {q : Request} (h : Canon s) : Canon (s.checks k q).2 :=
  .ite₂ h.refuse (.ite₂ h.bump (by
    split
    · split
      · split
        · exact h.lockCheck
        · exact h.refuse
      · exact h.refuse
    · exact h.refuse))

theorem Canon.takeLock {q : Request} (h : Canon s) : Canon (s.takeLock q) := by
  dsimp only [State.takeLock]
  split
  · exact h
  · exact h.same.arm

theorem Canon.endLock {q : Request} (h : Canon s) : Canon (s.endLock q) := by
  dsimp only [State.endLock]
  split
  · exact h.releaseLock
  · exact h

theorem Canon.memExec {k : ReqKind} {q : Request} {ups : List Upset} (h : Canon s) : Canon (s.memExec k q ups).2.2 := by
  dsimp only [State.memExec]
  split
  · exact h.memRead
  · split
    · next l t e => exact (h.memRead.of_eq₃ e).takeLock
    · exact h.memRead
  · split
    · next t e => exact (h.memWrite.of_eq₂ e).endLock
    · next st t e => exact (h.memWrite.of_eq₂ e)
  · split
    · next l t e => exact (h.memRead.of_eq₃ e).onlyIf fun _ hs => hs.memPut
    · exact h.memRead
  · split
    · next l t e => exact (h.memRead.of_eq₃ e).memPut
    · exact h.memRead
  · exact h.memWrite

theorem Canon.finish {k : ReqKind} {q : Request} {r : Status × List Byte × State} (h : Canon r.2.2) :
    Canon (State.finish k q r) := by
  dsimp only [State.finish]
  split
  · exact Canon.complete1 h
  · exact Canon.fail h

theorem Canon.finishWrite {k : ReqKind} {q : Request} {r : Res} (h : Canon r.2) : Canon (State.finishWrite k q r) := by
  dsimp only [State.finishWrite]
  split
  · exact .ite h (Canon.complete1 h)
  · exact Canon.fail (Canon.same h)

theorem Canon.execute {k : ReqKind} {q : Request} {ups : List Upset} (h : Canon s) : Canon (s.execute k q ups) := by
  dsimp only [State.execute]
  split
  · exact h.toBridge
  · exact .ite h.leaveServe.readRow.finish h.leaveServe.writeRow.finishWrite
  · exact .ite h.leaveServe.addUpsets.readTable.finish h.leaveServe.writeTable.finishWrite
  · exact h.leaveServe.finish
  · split
    · next l t e => exact (h.leaveServe.memExec.of_eq₃ e).complete1
    · next st fst t e => exact (h.leaveServe.memExec.of_eq₃ e).refuse.fail

theorem Canon.judge {k : ReqKind} {q : Request} {ups : List Upset} (h : Canon s) : Canon (s.judge k q ups) := by
  dsimp only [State.judge]
  split
  · next t e => exact (h.checks.of_eq₂ e).execute
  · next st t e => exact (h.checks.of_eq₂ e).leaveServe.fail

theorem Canon.serveReq {k : ReqKind} {q : Request} {ups : List Upset} (h : Canon s) : Canon (s.serveReq k q ups) :=
  .ite h (.ite h.leaveServe.respond (have hs := Canon.ite h.pullBacklog h.pullBacklog.arrive
  .ite hs hs.asFirmware.judge.asFirmware))

theorem Canon.issueCheck {init : Nat} {k : ReqKind} {hi ring node cls : Nat} (h : Canon s) :
    Canon (s.issueCheck init k hi ring node cls).2 :=
  .ite₂ h.refuse (.ite₂ h (.ite₂ h.refuse (.ite₂ h.refuse (.ite₂ h.bump (.ite₂ h.refuse (.ite₂ h.bump (.ite₂ h.bump h)))))))

theorem Canon.takeTag {t : Nat} {u : TagUse} (h : Canon s) : Canon (s.takeTag t u) := h.same.setOutst.arm

theorem Canon.refuseIssue {init : Nat} {k : ReqKind} {bytes ttag : Nat} {r : Res} (h : Canon r.2) :
    Canon (State.refuseIssue init k bytes ttag r) :=
  h.initCpl

theorem Canon.issue {init : Nat} {k : ReqKind} {hi ring node : Nat} {cls : BitVec 3} {flow : BitVec 6} {payload : List Byte}
    {ttag : Nat} (h : Canon s) : Canon (s.issue init k hi ring node cls flow payload ttag) :=
  by
  dsimp only [State.issue]
  split
  · next s e => exact .ite (Canon.arrive (by
    split
    · exact (h.issueCheck.of_eq₂ e).takeTag
    · exact (h.issueCheck.of_eq₂ e))) (Canon.queueFrame (by
    split
    · exact (h.issueCheck.of_eq₂ e).takeTag
    · exact (h.issueCheck.of_eq₂ e)))
  · exact h.issueCheck.refuseIssue

theorem Canon.takeInbox {f : Frame} (h : Canon s) : Canon (s.takeInbox f) := h.same

theorem Canon.cplRx {f : Frame} (h : Canon s) : Canon (s.cplRx f) :=
  .ite h.takeInbox (by
    split
    · exact .ite h.takeInbox.bump h.takeInbox.freeTag.initCpl
    · exact h.takeInbox.bump)

theorem Canon.noticeRx {f : Frame} (h : Canon s) : Canon (s.noticeRx f) :=
  .ite h.takeInbox (.ite h.takeInbox.bump (have hs := h.takeInbox.on.bump.forEach fun _ _ ht => ht.wr
  .ite hs.hostPend (.ite hs.stationEvent hs.irq)))

theorem Canon.issueMsg {init : Nat} {b : List Byte} (h : Canon s) : Canon (s.issueMsg init b) := by
  dsimp only [State.issueMsg]
  split
  · exact h.refuse.refuseIssue
  · exact .ite h.refuse.refuseIssue h.issue

theorem Canon.tunnelParse : ∀ {n : Nat} {b : List Byte} {s : State}, Canon s → Canon (s.tunnelParse n b).2
  | 0, _, _, h => h
  | _ + 1, _, _, h => .ite₂ h (Canon.ite h.issueMsg (.ite h h.bump)).tunnelParse

theorem Canon.tunnelPacket {bytes : List Byte} (h : Canon s) : Canon (s.tunnelPacket bytes) :=
  .ite (h.tunnelParse.setUsb.onlyIf fun _ hx => hx.bump) h.tunnelParse.setUsb

/-! ### Machine/Host.lean -/

theorem Canon.hostVoid {n : Nat} (h : Canon s) : Canon (s.hostVoid n) := (h.same.onlyIf fun _ hs => hs.bump).emit

theorem Canon.hostGood {l : List Byte} (h : Canon s) : Canon (s.hostGood l) := h.same.emit

theorem Canon.hostCommand {n : Nat} {whole : Bool} {f : State → State} (hf : ∀ t, Canon t → Canon (f t)) (h : Canon s) :
    Canon (s.hostCommand n whole f) :=
  .ite h (.ite (hf _ h.wakeSource) h.wakeSource.hostVoid)

theorem Canon.mbTake (h : Canon s) : Canon s.mbTake := .ite h.same.bump.refuseIssue (.ite h.same.bump h.same.issueMsg)

theorem Canon.mbWord {w : Word} {last : Bool} (h : Canon s) : Canon (s.mbWord w last) :=
  have hs := Canon.ite h.same.on h.same
  .ite hs.mbTake hs

theorem Canon.mbWords : ∀ {n : Nat} {b : List Byte} {s : State}, Canon s → Canon (s.mbWords n b)
  | 0, _, _, h => h
  | _ + 1, _, _, h => .ite h h.mbWord.mbWords

theorem Canon.mbPops : ∀ {k : Nat} {ups : List (Fin 3)} {s : State}, Canon s → Canon (s.mbPops k ups).2
  | 0, _, _, h => h
  | _ + 1, _, _, h => by
    dsimp only [State.mbPops]
    split
    · exact h.mbPops
    · exact h.same.popCheck.mbPops

theorem Canon.mbComplete (h : Canon s) : Canon s.mbComplete := by
  dsimp only [State.mbComplete]
  split
  · exact h
  · exact .ite h h.same.peak.hostPend

theorem Canon.hostPut {h : Nat} {b : Byte} (hc : Canon s) : Canon (s.hostPut h b) := .ite hc.wr (.ite hc.wr (.ite hc.wr hc))

theorem Canon.hostReadWindow {a n : Nat} {hit : Bool} (h : Canon s) : Canon (s.hostReadWindow a n hit) :=
  .ite h.on.bump.hostVoid (.ite h.on.bump.hostVoid h.hostGood)

theorem Canon.hostReadRegs {a n : Nat} (h : Canon s) : Canon (s.hostReadRegs a n) := (h.onlyIf fun _ hs => hs.clearRc).hostGood

theorem Canon.hostReadAt {a n : Nat} {hit : Bool} {ups : List (Fin 3)} (h : Canon s) : Canon (s.hostReadAt a n hit ups) :=
  h.hostCommand fun _ hs => .ite hs.hostReadWindow (.ite hs.mbPops.hostGood hs.hostReadRegs)

theorem Canon.hostWriteAt {a : Nat} {data : List Byte} {cut : Option Nat} (h : Canon s) : Canon (s.hostWriteAt a data cut) :=
  h.hostCommand fun _ hs => have hs' := Canon.ite (hs.forEach fun _ _ ht => ht.setByte.setMark) (.ite hs.mbWords ((hs.forEach fun _
    _ ht => ht.hostPut).onlyIf fun _ hs => hs.irq))
  .ite hs'.hostVoid hs'.hostGood

/-! ### Machine/Receive.lean -/

theorem Canon.frameUse {r : Reception} {good : Bool} (h : Canon s) : Canon (s.frameUse r good) := by
  dsimp only [State.frameUse]
  split
  · exact h.copyIn
  · exact .ite h (by
    split
    · exact h
    · exact .ite h.readBeacon (.ite h.absorb h)
    · exact h.readBeacon
    · exact h.timeIn
    · exact h.inject
    · exact h.consume)

theorem Canon.received {p : Nat} {e : RxEnd} {size : Nat} (h : Canon s) : Canon (s.received p e size) := by
  dsimp only [State.received]
  split
  · exact h
  · split
    · exact h.fragmentIn
    · exact h.fragmentOn
    · exact h.endRx.rxEnd.frameUse

theorem Canon.wholeFrame {p : Nat} {f : Frame} {e : RxEnd} (h : Canon s) : Canon (s.wholeFrame p f e) :=
  .ite h.headed.received h.headed

/-! ### Machine/UsbEp0.lean -/

theorem Canon.hubRequest {r : Ep0Request} (h : Canon s) : CanonOpt (s.hubRequest r) := by
  dsimp only [State.hubRequest]
  split
  · exact .some h.setUsb
  · exact .ite .none (.some (h.setUsb.onlyIf fun _ ht => ht.forEach fun _ _ hs => hs.portOff))
  · exact .ite (.some h) .none
  · exact .some h
  · exact .some h
  · exact .some h
  · exact .map fun _ => h
  · exact .some h
  · exact .some h
  · exact .some h
  · exact .some (h.onlyIf fun _ hx => hx.on)
  · exact .some (h.onlyIf fun _ ht => ht.off.portChange)
  · exact .some h.off.off
  · exact .some h.setUsb
  · exact .none

theorem Canon.fnRequest {r : Ep0Request} (h : Canon s) : CanonOpt (s.fnRequest r) := by
  cases r with
  | setAddress => exact .some h.setFld
  | setConfiguration => exact .ite .none (.some (.snd h.fnEndpoints.setFlag.setFld.on))
  | setInterface => exact .ite .none (.some (.snd h.fnEndpoints.setFlag.setFld.on))
  | getConfiguration => exact .some h
  | getInterface => exact .ite (.some h) .none
  | getStatus => exact .some h
  | getDescriptor => exact .map fun _ => h
  | _ => exact .none

/-! ### Machine/Step.lean -/

theorem Canon.tick (h : Canon s) : Canon s.tick := h.advance.canOffer

end Sys2Proof.Machine
end

section
/-!
SUPPORT. Every command ends in a next state and keeps the canonical form: the commands that do more than call one operation, then the
dispatch.
-/

namespace Sys2Proof.Machine

/-- The outcome is a next state, in canonical form if `s` is. -/
def Completes (s : State) (o : Host.Outcome State Fault Refusal) : Prop := ∃ t, o = .next t ∧ (Canon s → Canon t)

theorem Completes.next {s t : State} (h : Canon s → Canon t) : Completes s (.next t) := ⟨t, rfl, h⟩

variable {s : State}

/-- Stated for every address: in the command itself the kernel would have to compare the addresses. -/
theorem Canon.clearEnergyCommand {a : Nat} {w : Word} (h : Canon s) :
    Canon (s.command none fun t => (t.pwrWrite a w).getD (.ok, t)) :=
  h.command fun _ ht => ht.pwrWrite.getD ht

theorem Completes.modPresent {p : Fin 3} : Completes s (execModPresent p s) :=
  .next fun h => h.expiry fun _ ht => .ite ht.on.on.arm ht.on.on.moduleReady

theorem Completes.moduleIdentityRead {p : Fin 3} {ack : Bool} {a0 : List Byte} : Completes s (execModuleIdentityRead p ack a0 s) :=
  .next fun h => h.expiry fun _ ht => .ite ht.moduleBad (have ht' := Canon.ite ht.setPort.arm.setFld ht.setPort.arm
    .ite ht'.moduleBad ht'.moduleReady)

theorem Completes.ddmPoll {p : Fin 3} {ddm flags : List Byte} : Completes s (execDdmPoll p ddm flags s) :=
  .next fun h => .ite (h.expire.wr.wr.wr.wr.onlyIf fun _ hx => hx.on).arm h

theorem Completes.modAccDone {p : Fin 3} {ack : Bool} {rdata : Byte} : Completes s (execModAccDone p ack rdata s) :=
  .next fun h => .ite h (.ite h.accNak (.ite h.off.on h.off.on.setFld))

theorem Completes.frameInject : Completes s (execFrameInject s) := .next fun h => by
    split
    · exact h
    · exact h.same.inject

theorem Completes.fenceRelease {flow : Option (BitVec 9 × BitVec 6)} : Completes s (execFenceRelease flow s) := .next fun h => by
    split
    · exact .ite h.advance h.advance.releaseHeld
    · exact h.expiry fun _ ht => ht.releaseHeld

theorem Completes.topoReportPeriodic : Completes s (execTopoReportPeriodic s) :=
  .next fun h => h.expiry fun _ ht => .ite ht.arm.topoReport ht

theorem Completes.beaconOkLoss : Completes s (execBeaconOkLoss s) :=
  .next fun h => h.expiry fun _ ht => .ite ht (.ite ht.becomeWarden.bump ht.off)

theorem Completes.pathModeChange : Completes s (execPathModeChange s) := .next fun h => by
    split
    · exact h
    · exact h.toTime.setChange.applyPath

theorem Completes.pathChange {toFull : Bool} : Completes s (execPathChange toFull s) :=
  .next fun h => .ite h.toFull (.ite h.toPassThrough h)

theorem Completes.fullPathDrainEnd : Completes s (execFullPathDrainEnd s) :=
  .next fun h => .ite (.ite h.cancel h.expire.dropFullRing) h

theorem Completes.quiesceEnd : Completes s (execQuiesceEnd s) :=
  .next fun h => .ite h (have hs := (Canon.ite h h.expire).endQuiesce
    .ite hs.drowseLevels (.ite hs.passThrough hs))

theorem Completes.streamEnWrite {u : CycUnit} {w : Word} : Completes s (execStreamEnWrite u w s) :=
  .next fun h => h.command fun _ hv => by
      split
      · exact hv.writeStream
      · exact hv.writePub
      · exact hv.writeSub

theorem Completes.bankSupplyReturn {b : Fin 16} {levels : BitVec 16} : Completes s (execBankSupplyReturn b levels s) :=
  .next fun h => .ite (h.on.same.sysRec.forEach fun _ _ hu => hu.reconcile) h.on

theorem Completes.txqPush {n : Fin 64} {wide : Bool} {v : BitVec 64} {up : Fin 3} : Completes s (execTxqPush n wide v up s) :=
  .next fun h => h.command fun _ ht => by
      split
      · next u e => exact (ht.txqPush.of_eq₂ e).onlyIf fun _ hx => hx.setBob
      · exact ht.txqPush

theorem Completes.rxqPop {n : Fin 64} {up : Fin 3} : Completes s (execRxqPop n up s) :=
  .next fun h => h.query fun _ ht => (ht.onlyIf fun _ hx => hx.setBob).rxqPop

theorem Completes.canOff {n : Fin 8} : Completes s (execCanOff n s) := .next fun h => .ite h.canGoOff (.ite h h.canGoOff)

theorem Completes.txPush {n : Fin 8} {bytes : List Byte} {ups : List (Fin 3)} : Completes s (execTxPush n bytes ups s) :=
  .next fun h => h.command fun _ ht => by
      split
      · next u e => exact (ht.canPush.of_eq₂ e).onlyIf fun _ hs => hs.spoilEntry
      · exact ht.canPush

theorem Completes.canRxError {n : Fin 8} {e : CanRxErrFrame} : Completes s (execCanRxError n e s) :=
  .next fun h => .ite (.ite h.setCan h.setCan.bump.setErr.pile) h

theorem Completes.bridgeRequest : Completes s (execBridgeRequest s) := .next fun h => by
    split
    · exact h
    · exact .ite h h.startBridge

theorem Completes.bridgeRequestEnd {beats : List (Word × Bool)} : Completes s (execBridgeRequestEnd beats s) := .next fun h => by
    split
    · exact h
    · exact .ite h.endBridge h

theorem Completes.stErr {taken : Nat} {beats : List (Word × Bool)} : Completes s (execStErr taken beats s) := .next fun h => by
    split
    · exact h
    · exact .ite h.failBridge h

theorem Completes.windowTimeout {taken : Nat} {beats : List (Word × Bool)} : Completes s (execWindowTimeout taken beats s) :=
  .next fun h => by
    split
    · exact h
    · exact .ite h.toTime.failBridge h

theorem Completes.prefetchAged : Completes s (execPrefetchAged s) := .next fun h => by
    split
    · exact h
    · exact h.toTime.ageBufs

theorem Completes.vbusLoss : Completes s (execVbusLoss s) := .next fun h => (h.onlyIf fun _ hx => hx.on).off.disconnect

theorem Completes.busReset : Completes s (execBusReset s) :=
  .next fun h => .ite h (have hs := h.onlyIf fun _ hx => hx.on
    (hs.ctrlAbort.fnDefault.hubDefault.off.off.setFld.setUsb.forEach fun _ _ hs => hs.portOff).on.bump)

theorem Completes.suspend : Completes s (execSuspend s) :=
  .next fun h => .ite h (h.on.on.setUsb.forEach fun _ _ ht => .ite ht.on ht)

theorem Completes.resumeEnd : Completes s (execResumeEnd s) :=
  .next fun h => .ite h (h.off.off.on.setUsb.forEach fun _ _ ht => ht.off)

theorem Completes.setPortPower {n : Fin 5} : Completes s (execSetPortPower n s) :=
  .next fun h => .ite h (.ite h.setUsb (.ite h h.on.off.arm))

theorem Completes.clearPortPower {n : Fin 5} : Completes s (execClearPortPower n s) :=
  .next fun h => .ite h (.ite h.setUsb.fnDefault h.portOff)

theorem Completes.configChange {hub : Bool} {r : Ep0Request} {done : Bool} : Completes s (execConfigChange hub r done s) :=
  .next fun h => .ite (.ite h (by
      split
      · exact h.emit
      · next b t e => exact (h.hubRequest _ e).emit)) (h.vendor fun _ ht => by
      split
      · exact ht.emit
      · next b u e => exact (ht.fnRequest _ e).emit)

theorem Completes.journalStreamPacket {token : StreamToken} : Completes s (execJournalStreamPacket token s) :=
  .next fun h => .ite h (have hs := Canon.ite h.setUsb h
    .ite hs.bump.emit (.ite hs hs.setUsb.wr64.emit))

theorem Completes.snapshotPacket {ready : Bool} : Completes s (execSnapshotPacket ready s) :=
  .next fun h => .ite h (.ite h.emit (by
      split
      · exact h.emit.setUsb
      · exact h.bump.emit))

theorem Completes.eventPacket : Completes s (execEventPacket s) :=
  .next fun h => .ite h (by
      split
      · exact h.emit
      · exact h.emit.setUsb)

theorem Completes.tunnelMessage {p : TunnelPacket} : Completes s (execTunnelMessage p s) :=
  .next fun h => .ite h (.ite h.emit (h.onlyIf fun _ hx => hx.emit).tunnelPacket)

theorem Completes.tunnelCompletion : Completes s (execTunnelCompletion s) :=
  .next fun h => .ite h (.ite h.sendEp4 (by
      split
      · exact h.emit
      · exact h.same.sendEp4))

theorem Completes.jstreamStart {pos : BitVec 64} {done : Bool} : Completes s (execJstreamStart pos done s) :=
  .next fun h => h.vendor fun _ ht => .ite ht.emit ht.on.wr64.noteReader

theorem Completes.syncRx {p : Fin 3} {f : Frame} {t2 : BitVec 96} : Completes s (execSyncRx p f t2 s) := .next fun h => by
    split
    · exact h
    · exact .ite h.takeMail.bump (have hs := h.takeMail.setDom
    .ite hs.setDom hs.offset)

theorem Completes.followUpRx (p : Fin 3) {f : Frame} : Completes s (execFollowUpRx p f s) := .next fun h => by
    dsimp only
    split
    · exact h
    · split
      · exact .ite h.takeMail.setDom.offset h.takeMail
      · exact h.takeMail

theorem Completes.announceRx (p : Fin 3) {f : Frame} : Completes s (execAnnounceRx p f s) := .next fun h => by
    split
    · exact h
    · exact h.takeMail.wr.wr64

theorem Completes.signalingRx (p : Fin 3) {f : Frame} : Completes s (execSignalingRx p f s) := .next fun h => by
    split
    · exact h
    · exact h.takeMail

theorem Completes.syncLoss {d : Fin 2} : Completes s (execSyncLoss d s) :=
  .next fun h => .ite h (h.expiry fun _ ht => ht.off.setLock)

theorem Completes.slewComplete : Completes s (execSlewComplete s) := .next fun h => by
    split
    · exact h
    · exact h.advance.setTim.off.steer

theorem Completes.jumpPersist : Completes s (execJumpPersist s) := .next fun h => by
    split
    · exact h
    · exact .ite h h.advance.on.jumpRec.reselect

theorem Completes.picotStartEdge {i : Fin 16} : Completes s (execPicotStartEdge i s) :=
  .next fun h => .ite h (.ite h.toTime.picSkip (have hs := h.toTime.setPic.picLevel.bump
    .ite hs.picRec hs))

theorem Completes.picotEndEdge {i : Fin 16} : Completes s (execPicotEndEdge i s) :=
  .next fun h => .ite h (have hs := h.toTime.picLevel
    (Canon.ite hs.picRec hs).setPic.picDone)

theorem Completes.eclr {k : Fin 19} : Completes s (execEclr k s) := .next Canon.clearEnergyCommand

theorem Completes.pwrLinkAccess {off : BitVec 16} {write : Option Word} : Completes s (execPwrLinkAccess off write s) :=
  .next fun h => by
    split
    · exact h.readOne
    · exact h.registerWrite

theorem Completes.tetherHeartbeat {h : Heartbeat} : Completes s (execTetherHeartbeat h s) := .next fun hc => .ite hc.heartbeat hc

theorem Completes.tetherLoss : Completes s (execTetherLoss s) :=
  .next fun h => h.expiry fun _ ht => (Canon.ite ht.setTwin.off.bump ht.setTwin).noteReady

theorem Completes.tetherBack : Completes s (execTetherBack s) := .next fun h => by
    split
    · exact h
    · exact .ite h h.until.on.arm.noteReady

theorem Completes.stateDelta {writes : List (BitVec 40 × List Byte)} : Completes s (execStateDelta writes s) :=
  .next fun h => .ite (h.forEach fun _ _ ht => ht.localWrite) h

theorem Completes.inputMirror {levels : BitVec 256} : Completes s (execInputMirror levels s) :=
  .next fun h => .ite (h.forEach fun _ _ ht => .ite ht.setTwin.on ht.setTwin) h

theorem Completes.outputGapEnd {n : Fin 25} : Completes s (execOutputGapEnd n s) := .next fun h => by
    split
    · exact h
    · exact .ite h.until.setTwin h.until.takeField

theorem Completes.silent : Completes s (execSilent s) := .next fun h => .ite h (.ite h.toOwnSlot h.toOwnSlot.setTwin.takeField)

theorem Completes.startEvidence : Completes s (execStartEvidence s) :=
  .next fun h => .ite h (.ite (.ite (.ite h.toOwnSlot h.toOwnSlot.setTwin.takeField) h) (.ite (have ht := h.until.toOwnSlot
    .ite ht ht.setTwin.takeField) h))

theorem Completes.claimRepeat : Completes s (execClaimRepeat s) := .next fun h => h.expiry fun _ ht => .ite ht.sendClaim ht

theorem Completes.twinHeartbeatTx : Completes s (execTwinHeartbeatTx s) := .next fun h => by
    refine .ite ?_ h
    extract_lets t b
    have ht : Canon t := h.toTime
    split
    · exact ht
    · exact ht.sendTwin

theorem Completes.driveFault {n : Fin 256} : Completes s (execDriveFault n s) := .next fun h => by
    split
    · exact .ite h h.on.bump
    · exact h

theorem Completes.revertRequest : Completes s (execRevertRequest s) :=
  .next fun h => .ite h (.ite (.ite h.setTwin h) (by
      split
      · exact h
      · exact .ite h (.ite h.until.on h.until.emit.setTwin)))

theorem Completes.revertHandover : Completes s (execRevertHandover s) := .next fun h => by
    split
    · exact h
    · exact have hs := h.toTime.setTwin
    .ite (.ite hs.handBack hs) (.ite hs.bump.setTwin hs)

theorem Completes.drillTakeback {parts : DrillParts} : Completes s (execDrillTakeback parts s) :=
  .next fun h => .ite (have hs := h.toTime.recordDrill.setTwin
    .ite hs.setTwin hs) (.ite h.until.handBack h)

theorem Completes.churnHandover {n : Fin 16} {w : Word} : Completes s (execChurnHandover n w s) :=
  .next fun h => .ite (h.command fun _ ht => ht) (.ite h.churnOwn.answer h.churnOwn)

theorem Completes.romImageLoad : Completes s (execRomImageLoad s) := .next fun h => .ite h (.ite h.startFirmware h.bumpFld.romStart)

theorem Completes.wakeTimer : Completes s (execWakeTimer s) :=
  .next fun h => .ite h (by
      split
      · exact h.toTime.same.wakeSource
      · exact .ite h.toTime.wakeSource h)

theorem Completes.hostCsWake : Completes s (execHostCsWake s) := .next fun h => .ite (h.hostCommand fun _ ht => ht) h

theorem Completes.pinWake {n : Fin 256} : Completes s (execPinWake n s) := .next fun h => .ite (Canon.ite h h.setFld).wakeSource h

theorem Completes.chunkData {f : Frame} {sig : SigCheck} {ok : Bool} : Completes s (execChunkData f sig ok s) :=
  .next fun h => h.chunkGate fun _ ht => .ite ht.chunkData ht

theorem Completes.assemblyExpiry : Completes s (execAssemblyExpiry s) := .next fun h => by
    split
    · exact h
    · exact h.advance.same

theorem Completes.statusReply : Completes s (execStatusReply s) := .next fun h => by
    split
    · exact h
    · exact h.advance.same.sendStatus

theorem Completes.updData {chunk total : BitVec 16} {imgType manChunks : Byte} {digest data : List Byte} {sig : SigCheck}
    {ok : Bool} : Completes s (execUpdData chunk total imgType manChunks digest data sig ok s) :=
  .next fun h => .ite h (.ite h.wholeChunk h.countResult.sendStatus)

theorem Completes.sessionExpiry : Completes s (execSessionExpiry s) :=
  .next fun h => .ite h (by
      split
      · exact h
      · exact h.toTime.endSession)

theorem Completes.stagingCopy {ok : Bool} : Completes s (execStagingCopy ok s) :=
  .next fun h => .ite h (.ite h.copyStaged.clearMark.setUpdState h.copyStaged.endSession)

theorem Completes.activation {ok : Bool} : Completes s (execActivation ok s) :=
  .next fun h => .ite h.toTime.setUpdState.on.startQuiesce (.ite h.activateNow h)

theorem Completes.romRecoveryComplete : Completes s (execRomRecoveryComplete s) :=
  .next fun h => .ite (h.writeChunk0.onlyIf fun _ hs => hs.nvErase).off.endSession.mainRestart h

theorem Completes.helperChunkTx : Completes s (execHelperChunkTx s) := .next fun h => by
    split
    · exact h
    · exact .ite h.same (h.advance.forEach fun _ _ hu => hu.sendChunk).same

theorem Completes.portConnectionChange {n : Fin 4} {attached : Bool} : Completes s (execPortConnectionChange n attached s) :=
  .next fun h => .ite (have hs := h.setFlag.off.cancel.portChange
    .ite hs hs.off.off.setFld) h

theorem Completes.chunkStatusRx {f : Frame} : Completes s (execChunkStatusRx f s) :=
  .next fun h => h.chunkGate fun _ ht => .ite ht.chunkStatus ht

/-- Every command ends in a next state and keeps the canonical form. -/
theorem exec_completes (i : Instr) (s : State) : Completes s (exec i s) :=
  match i with
  | .porNAssert .. => .next fun h => h.holdBoth.same
  | .sysRstNAssert => .next fun h => .ite h h.holdBoth
  | .porNRelease .. => .next fun h => .ite h.setFlag.setFlag.startBoth h
  | .holdOverStart => .next fun h => h.holdOverStart
  | .powerLinkLost => .next fun h => h.powerLinkLost
  | .clkFail .. => .next fun h => .ite h h.selfRelease.holdBoth
  | .clkFailRestart .. => .next fun h => .ite h.advance.startBoth h
  | .coreVoltageFault => .next fun h => .ite h h.selfRelease.holdBoth
  | .coreVoltageRestart .. => .next fun h => .ite h.advance.startBoth h
  | .mainRst .. => .next fun h => h.command fun _ ht => ht.rstCtl
  | .watchdogExpiry => .next fun h => h.expiry fun _ ht => ht.releaseFirst.noteUnsafe.mainRestart
  | .cpUe => .next fun h => .ite h h.releaseFirst.noteUnsafe.mainRestart
  | .firmwareRestart => .next fun h => h.onlyIf fun _ hs => hs.mainRestart
  | .mainDomainResetRelease .. => .next fun h => .ite h.mainRelease h
  | .unitRst .. => .next fun h => h.command fun _ ht => ht.unitRst
  | .bobRst .. => .next fun h => h.command fun _ ht => ht.bobRst
  | .unitResetRelease .. => .next fun h => h.expiry fun _ ht => ht.off.unitReleased
  | .responderRequest .. => .next fun h => .ite h h.leaveServe.respond
  | .bobclkCleanWrite .. => .next fun h => h.command fun _ ht => ht.clkCtl
  | .spreadApply => .next fun h => .ite h h.advance.same
  | .portSpeedWrite .. => .next fun h => h.command fun _ ht => ht.portCtl
  | .loopPcsWrite .. => .next fun h => h.command fun _ ht => ht.portCtl
  | .moduleInsert .. => .next fun h => h.modGoesLow
  | .modPresent .. => .modPresent
  | .moduleIdentityRead .. => .moduleIdentityRead
  | .moduleRemoved .. => .next fun h => h.modRemoved
  | .ddmPoll .. => .ddmPoll
  | .modAccGo .. => .next fun h => h.command fun _ ht => ht.modAcc
  | .modAccDone .. => .modAccDone
  | .linkDown .. => .next fun h => h.linkLost
  | .linkUp .. => .next fun h => h.linkGood
  | .dampTimeEnd .. => .next fun h => h.expiry fun _ hs => hs.undamp
  | .dampClr .. => .next fun h => h.command fun _ ht => ht.undamp
  | .verifyRetry .. => .next fun h => .ite h.expire.setPort.emit.arm h
  | .preemptVerifySuccess .. => .next fun h => .ite h.cancel.setFld.on h
  | .preemptVerifyFail .. => .next fun h => .ite h.expire.setFld.on.bump.sysRec h
  | .spurFrameRx .. => .next fun h => h.spurFrame
  | .ringFrameRx .. => .next fun h => h.ringFrame
  | .frameReceivedWhole .. => .next fun h => h.received
  | .frameInject => .frameInject
  | .fenceRelease .. => .fenceRelease
  | .absentClearExpiry .. => .next fun h => h.expiry fun _ hs => hs.clearWindows
  | .wardenActive => .next fun h => .ite h.toTime.becomeWarden h
  | .beaconLaunch => .next fun h => h.beaconLaunch
  | .topoReportPeriodic => .topoReportPeriodic
  | .beaconRx .. => .next fun h => .ite h.wholeFrame h
  | .beaconOkLoss => .beaconOkLoss
  | .linkAlarmRx .. => .next fun h => .ite h.wholeFrame h
  | .breakMarginEnd .. => .next fun h => h.expiry fun _ hs => hs.refreshBreaks
  | .modeReq .. => .next fun h => h.command fun _ ht => ht.modeReq
  | .pathModeChange => .pathModeChange
  | .pathChange .. => .pathChange
  | .fullPathDrainEnd => .fullPathDrainEnd
  | .localFrameAdmit .. => .next fun h => h.localAdmit
  | .localWaitTimeout .. => .next fun h => h.expiry fun _ hs => hs.localTimeout
  | .outputSelect .. => .next fun h => h.outputSelect
  | .bufferPurgeEnd => .next fun h => h.expiry fun _ hs => hs.purgeDone
  | .stickyPeakRead .. => .next fun h => h.readOne
  | .pairLoRead .. => .next fun h => h.readOne
  | .requestIssue .. => .next fun h => .ite h h.issue
  | .read .. => .next fun h => h.serveReq
  | .write .. => .next fun h => h.serveReq
  | .pwrite .. => .next fun h => h.serveReq
  | .lread .. => .next fun h => h.serveReq
  | .lwrite .. => .next fun h => h.serveReq
  | .cas .. => .next fun h => h.serveReq
  | .fadd .. => .next fun h => h.serveReq
  | .cplRx .. => .next fun h => h.cplRx
  | .requestTimeout .. => .next fun h => h.expiry fun _ hu => hu.giveUpTag.bump
  | .tagQuarantineEnd .. => .next fun h => h.expiry fun _ hs => hs.freeTag
  | .lockExpiry .. => .next fun h => h.expiry fun _ ht => ht.releaseLock.bump
  | .noticeRx .. => .next fun h => h.noticeRx
  | .quiesceEnd => .quiesceEnd
  | .cycleSnapshot => .next fun h => h.snapshot
  | .cycleLaunch .. => .next fun h => h.cycLaunch
  | .cycleFrameRx .. => .next fun h => .ite h.wholeFrame h
  | .cycleCopyCommit .. => .next fun h => h.copyCommit
  | .cycleAbsorb .. => .next fun h => .ite h.wholeFrame h
  | .cycleApply .. => .next fun h => h.cycApply
  | .cycleMasterTakeover .. => .next fun h => h.cycTakeover
  | .streamEnWrite .. => .streamEnWrite
  | .bankSupplyFail .. => .next fun h => .ite h h.off.on.wr.same.sysRec
  | .bankSupplyReturn .. => .bankSupplyReturn
  | .pinCfgWrite .. => .next fun h => h.command fun _ ht => ht.pinCfg
  | .filterAccept .. => .next fun h => h.filterAccept
  | .glitchReject .. => .next fun h => .ite h h.bumpFld.setPin
  | .filtWrite .. => .next fun h => h.command fun _ ht => ht.pinFilt
  | .outWrite .. => .next fun h => h.command fun _ ht => ht.outReg
  | .outSet .. => .next fun h => h.command fun _ ht => ht.outReg
  | .outClr .. => .next fun h => h.command fun _ ht => ht.outReg
  | .outTgl .. => .next fun h => h.command fun _ ht => ht.outReg
  | .journalRecordWrite => .next fun h => h.recordWrite
  | .journalFlush => .next fun h => h.expiry fun _ ht => ht
  | .rdPosWrite .. => .next fun h => h.command fun _ ht => ht.writeRdPos
  | .nop .. => .next fun h => h.cycleOf
  | .shin .. => .next fun h => h.cycleOf
  | .shout .. => .next fun h => h.cycleOf
  | .shio .. => .next fun h => h.cycleOf
  | .pull .. => .next fun h => h.cycleOf
  | .push .. => .next fun h => h.cycleOf
  | .cload0 .. => .next fun h => h.cycleOf
  | .cdec0 .. => .next fun h => h.cycleOf
  | .cload1 .. => .next fun h => h.cycleOf
  | .cdec1 .. => .next fun h => h.cycleOf
  | .sclr .. => .next fun h => h.cycleOf
  | .irq .. => .next fun h => h.cycleOf
  | .cload01 .. => .next fun h => h.cycleOf
  | .cdec01 .. => .next fun h => h.cycleOf
  | .capt .. => .next fun h => h.cycleOf
  | .halt .. => .next fun h => h.cycleOf
  | .stallEnd .. => .next fun h => .ite h.runRow h
  | .start .. => .next fun h => h.command fun _ ht => ht.bobAll fun _ _ hs => hs.startBob
  | .stop .. => .next fun h => h.command fun _ ht => ht.bobStop
  | .resume .. => .next fun h => h.command fun _ ht => ht.bobAll fun _ _ hs => hs.resumeBob
  | .groupStart .. => .next fun h => h.command fun _ ht => ht.bobAll fun _ _ hs => hs.startBob
  | .groupStop .. => .next fun h => h.command fun _ ht => ht.bobAll fun _ _ hs => hs.haltBob
  | .groupResume .. => .next fun h => h.command fun _ ht => ht.bobAll fun _ _ hs => hs.resumeBob
  | .syncPulse .. => .next fun h => h.command fun _ ht => ht.pulse
  | .txqPush .. => .txqPush
  | .rxqPop .. => .rxqPop
  | .queueJoin .. => .next fun h => h.command fun _ ht => ht.join
  | .slotWrite .. => .next fun h => h.command fun _ ht => ht.slotWrite
  | .prickingWrite .. => .next fun h => h.command fun _ ht => ht.prickWrite
  | .canEnable .. => .next fun h => h.command fun _ ht => ht.canCtl
  | .canIntegration .. => .next fun h => .ite h.setCan.setErr h
  | .canDisable .. => .next fun h => h.command fun _ ht => ht.canCtl
  | .canOff .. => .canOff
  | .txPush .. => .txPush
  | .frameSent .. => .next fun h => .ite h.frameSent h
  | .arbitrationLost .. => .next fun h => .ite h.off.endAttempt h
  | .txError .. => .next fun h => .ite h.txError h
  | .busOffRecovery .. => .next fun h => .ite h.setErr.canStateRec h
  | .abortHead .. => .next fun h => h.command fun _ ht => ht.canAbort
  | .canRxError .. => .canRxError
  | .protocolException .. => .next fun h => .ite h.bump.setCan h
  | .canIdComplete .. => .next fun h => .ite h.idComplete h
  | .canFrameStored .. => .next fun h => .ite h.frameValid.recOk h
  | .objectRead .. => .next fun h => h.query fun _ ht => ht.clearNew
  | .filterWrite .. => .next fun h => h.command fun _ ht => ht.filterWrite
  | .bridgeRequest => .bridgeRequest
  | .bridgeRequestEnd .. => .bridgeRequestEnd
  | .stErr .. => .stErr
  | .windowTimeout .. => .windowTimeout
  | .readAhead .. => .next fun h => h.readAhead
  | .prefetchAged => .prefetchAged
  | .stitchLockExpiry => .next fun h => h.expiry fun _ hs => hs.breakStitchLock
  | .stitchIrq .. => .next fun h => .ite h h.stitchIrq
  | .windowEnable .. => .next fun h => h.command fun _ ht => ht.winCfg
  | .stbCtlWrite .. => .next fun h => h.command fun _ ht => ht.stbCtl
  | .vbusPresent => .next fun h => h.on.tryConnect
  | .vbusLoss => .vbusLoss
  | .busReset => .busReset
  | .highSpeedEntry => .next fun h => .ite h.setFld.setUsb h
  | .chirpTimeout => .next fun h => .ite h.setUsb h
  | .suspend => .suspend
  | .remoteWakeRequest .. => .next fun h => h.requestWake
  | .remoteWakeSignal => .next fun h => .ite h.signalWake.wakeSource h.signalWake
  | .hostResume => .next fun h => .ite h.hostResume.wakeSource h
  | .resumeEnd => .resumeEnd
  | .setPortPower .. => .setPortPower
  | .clearPortPower .. => .clearPortPower
  | .portReset .. => .next fun h => .ite h.on.off.arm h
  | .portResetEnd .. => .next fun h => h.expiry fun _ hs => hs.off.on.setFld.portChange
  | .overCurrent .. => .next fun h => .ite h h.portOff.on.on.portChange.bump.stationEvent
  | .babble .. => .next fun h => .ite h.off.on.portChange.bump h
  | .configChange .. => .configChange
  | .journalStreamPacket .. => .journalStreamPacket
  | .snapshotPacket .. => .snapshotPacket
  | .eventPacket => .eventPacket
  | .tunnelMessage .. => .tunnelMessage
  | .tunnelCompletion => .tunnelCompletion
  | .getIdentity .. => .next fun h => h.vendor fun _ ht => ht.emit
  | .jstreamStart .. => .jstreamStart
  | .jstreamStop .. => .next fun h => h.vendor fun _ ht => ht.off
  | .getJrnPos .. => .next fun h => h.vendor fun _ ht => ht.emit
  | .setImgSel .. => .next fun h => h.vendor fun _ ht => ht.wr64
  | .getSvc .. => .next fun h => h.vendor fun _ ht => ht.emit
  | .syncRx .. => .syncRx
  | .followUpRx p _ => .followUpRx p
  | .announceRx p _ => .announceRx p
  | .signalingRx p _ => .signalingRx p
  | .spurPtpRx .. => .next fun h => h.spurPtp
  | .gmSyncTx .. => .next fun h => .ite h h.toTime.inject.bump
  | .gmAnnounceTx .. => .next fun h => .ite h h.expire.arm.inject
  | .pdelayReqTx .. => .next fun h => h.expiry fun _ hs => hs.pdelayReq
  | .pdelayReqRx .. => .next fun h => h.pdelayAnswer
  | .pdelayRespRx .. => .next fun h => h.pdelayResp
  | .syncLoss .. => .syncLoss
  | .domainRevert => .next fun h => .ite h.advance.trySwitch h
  | .slewComplete => .slewComplete
  | .jumpPersist => .jumpPersist
  | .acceptStep => .next fun h => h.command fun _ ht => ht.timeCmd
  | .disarm => .next fun h => h.command fun _ ht => ht.timeCmd
  | .timeSet .. => .next fun h => h.command fun _ ht => ht.setTime
  | .nowLoRead => .next fun h => h.query fun _ ht => ht.latchNow
  | .incrWrite .. => .next fun h => h.command fun _ ht => ht.writeIncr
  | .picotEnable .. => .next fun h => h.command fun _ ht => ht.picCtl
  | .picotDisable .. => .next fun h => h.command fun _ ht => ht.picCtl
  | .picotStartEdge .. => .picotStartEdge
  | .picotEndEdge .. => .picotEndEdge
  | .feedReverse .. => .next fun h => h.feedReverse
  | .feedConduct .. => .next fun h => h.feedConduct
  | .feedInRange .. => .next fun h => h.feedInRange
  | .feedUndervoltage .. => .next fun h => h.feedOut
  | .feedOvervoltage .. => .next fun h => h.feedOut
  | .inrushEnd .. => .next fun h => h.off
  | .branchOn .. => .next fun h => h.command fun _ ht => ht.brCtl
  | .branchOff .. => .next fun h => h.command fun _ ht => ht.brCtl
  | .restart .. => .next fun h => h.command fun _ ht => ht.brCtl
  | .softStartEnd .. => .next fun h => h.softStartEnd
  | .softStartTimeout .. => .next fun h => h.softStartTimeout
  | .limitBegin .. => .next fun h => h.limitBegin
  | .limitEnd .. => .next fun h => h.limitEnd
  | .faultTimerClear .. => .next fun h => h.faultClear
  | .faultTimerExpiry .. => .next fun h => h.faultExpiry
  | .fastTrip .. => .next fun h => .ite h.trip h
  | .offTimeEnd .. => .next fun h => h.offTimeEnd
  | .clearTimeEnd .. => .next fun h => h.clearTimeEnd
  | .powerGoodRise .. => .next fun h => h.pgRise
  | .powerGoodFall .. => .next fun h => .ite h.pgFall h
  | .eclr .. => .eclr
  | .plkPoll .. => .next fun h => h.plkPoll
  | .plkRead .. => .next fun h => h.plkRead
  | .plkWrite .. => .next fun h => h.plkWrite
  | .pwrLinkAccess .. => .pwrLinkAccess
  | .holdTimeEnd => .next fun h => h.holdTimeEnd
  | .powerDieReset => .next fun h => h.powerDieReset
  | .powerDieColdStart => .next fun h => h.powerDieColdStart
  | .tetherHeartbeat .. => .tetherHeartbeat
  | .tetherLoss => .tetherLoss
  | .tetherBack => .tetherBack
  | .stateDelta .. => .stateDelta
  | .inputMirror .. => .inputMirror
  | .twinRelN => .next fun h => h.partnerReleased
  | .rel => .next fun h => h.partnerReleased
  | .outputGapEnd .. => .outputGapEnd
  | .silent => .silent
  | .startEvidence => .startEvidence
  | .claimRepeat => .claimRepeat
  | .claimRx .. => .next fun h => .ite h.takeMail.claimed h.takeMail
  | .grantRx .. => .next fun h => .ite h.takeMail.grant h.takeMail
  | .identityTake => .next fun h => .ite h.until.takeIdentity h
  | .twinHeartbeatTx => .twinHeartbeatTx
  | .twinHeartbeatRx .. => .next fun h => .ite h.takeMail.setFlag.setTwin h.takeMail
  | .driveFault .. => .driveFault
  | .revertRequest => .revertRequest
  | .revertHandover => .revertHandover
  | .clrLimit => .next fun h => h.command fun _ ht => ht.off
  | .drill => .next fun h => h.command fun _ hs => hs.drillCmd
  | .drillStart => .next fun h => .ite h.toTime.handBack.setTwin h.partnerReleased
  | .drillTakeback .. => .drillTakeback
  | .patrolScrub .. => .next fun h => .ite h.scrub h
  | .churnHandover .. => .churnHandover
  | .handoverComplete .. => .next fun h => h.handoverDone
  | .hostRead .. => .next fun h => h.hostReadAt
  | .hostQread .. => .next fun h => h.hostReadAt
  | .hostWrite .. => .next fun h => h.hostWriteAt
  | .hostQwrite .. => .next fun h => h.hostWriteAt
  | .readStat .. => .next fun h => h.hostCommand fun _ ht => ht.hostGood
  | .enterQpi => .next fun h => h.hostCommand fun _ ht => ht.on.hostGood
  | .exitQpi => .next fun h => h.hostCommand fun _ ht => ht.off.hostGood
  | .mbPush .. => .next fun h => h.hostWriteAt
  | .mbPop .. => .next fun h => h.hostReadAt
  | .mbCompletion => .next fun h => .ite h.mbComplete h
  | .doorbellIn .. => .next fun h => h.command fun _ ht => ht.doorbell
  | .doorbellOut .. => .next fun h => h.hostWriteAt
  | .romImageLoad => .romImageLoad
  | .dramTrainingDone => .next fun h => .ite h h.on.same.off
  | .configApply .. => .next fun h => .ite h h.configApply
  | .targetIsolated .. => .next fun h => h.sysCommand fun _ ht => ht.modeCtl
  | .targetRing .. => .next fun h => h.sysCommand fun _ ht => ht.modeCtl
  | .targetPass .. => .next fun h => h.sysCommand fun _ ht => ht.modeCtl
  | .targetDrowse .. => .next fun h => h.sysCommand fun _ ht => ht.modeCtl
  | .drowseEntered => .next fun h => .ite h.drowseEntered h
  | .wakeFrameRx .. => .next fun h => .ite h.takeMail.wakeFrame h
  | .wakeTimer => .wakeTimer
  | .hostCsWake => .hostCsWake
  | .pinWake .. => .pinWake
  | .wakeComplete => .next fun h => h.expiry fun _ hs => hs.wakeDone
  | .wdogKick .. => .next fun h => h.sysCommand fun _ ht => ht.kick
  | .chunkData .. => .chunkData
  | .assemblyExpiry => .assemblyExpiry
  | .query .. => .next fun h => h.controlOp
  | .statusReply => .statusReply
  | .activate .. => .next fun h => h.controlOp
  | .abort .. => .next fun h => h.controlOp
  | .updData .. => .updData
  | .updControl .. => .next fun h => .ite h h.control.sendStatus
  | .sessionExpiry => .sessionExpiry
  | .stagingCopy .. => .stagingCopy
  | .activation .. => .activation
  | .romRecoveryComplete => .romRecoveryComplete
  | .recoveryStatusTx => .next fun h => .ite h.advance.same.sendStatus h
  | .helperChunkTx => .helperChunkTx
  | .registerWrite .. => .next fun h => h.registerWrite
  | .meteringSample .. => .next fun h => h.meter
  | .tetherStatus .. => .next fun h => .ite h.wr64.setFlag.noteReady h
  | .deviceRemoteWakeup .. => .next fun h => .ite h.setFlag h
  | .portConnectionChange .. => .portConnectionChange
  | .chunkStatusRx .. => .chunkStatusRx

/-- A step completes: with a command in front it is that command's, and on an empty queue a TICK. -/
theorem step_completes (s : State) : Completes s (step s) := by
  unfold step
  split
  · exact .next fun h => h.tick
  · next c rest _ =>
    obtain ⟨t, ht, hk⟩ := exec_completes c { s with pending := rest }
    exact ⟨t, ht, fun h => hk h.same⟩

end Sys2Proof.Machine
end

section
/-!
SUPPORT. The statements of the family settled here.
-/

open Sys2Proof.Machine

/-- Settles O58: every command of the table, and the idle step, ends in a next state. -/
theorem everyStepCompletes : Obligations.EveryStepCompletes := fun s =>
  let ⟨t, ht, _⟩ := step_completes s
  ⟨t, ht⟩

/-- Settles O59: the canonical form is kept by every operation that a command composes. -/
theorem canonicalStays : Obligations.CanonicalStays := fun s t hs hstep => by
  obtain ⟨u, hu, hk⟩ := step_completes s
  obtain rfl : u = t := by simpa using hu.symm.trans hstep
  exact u.canonical_iff.mpr (hk (s.canonical_iff.mp hs))

/-- Settles O60: after reset nothing is listed. -/
theorem resetIsCanonical : Obligations.ResetIsCanonical := ⟨rfl, rfl, Memory.wf_reset⟩

end

section
/-!
SUPPORT. Register commands: the writes and reads of one register that pass every rule, and the accesses refused whole.
-/

namespace Sys2Proof.Machine

variable {s : State}

theorem State.runs_iff : s.runs = true ↔ s.anat.kaHeld = false ∧ s.anat.mainHeld = false := by
  simp [State.runs]

/-! ### Who may act -/

theorem State.command_held (u : Option ResetUnit) (f : State → Res) (h : s.anat.kaHeld = true) : s.command u f = s := by
  simp [State.command, h]

theorem State.map_unitBusy_eq_false {u : Option ResetUnit} (h : ∀ r, u = some r → s.unitBusy r = false) :
    (u.map s.unitBusy).getD false = false := by
  cases u with
  | none => rfl
  | some r => exact h r rfl

/-- In Load a register command that is not the firmware's is answered WRONG_MODE (16 R406). -/
theorem State.command_load (u : Option ResetUnit) (f : State → Res) (hr : s.runs = true)
    (hu : ∀ r, u = some r → s.unitBusy r = false) (hm : s.mode = .load) (ha : s.boot.applying = false) :
    s.command u f = answer (wrongMode s) := by
  obtain ⟨hk, hh⟩ := State.runs_iff.mp hr
  simp [State.command, hk, hh, State.map_unitBusy_eq_false hu, hm, ha, refuse]

theorem State.command_takes (u : Option ResetUnit) (f : State → Res) (h : s.takes u = true) : s.command u f = answer (f s) := by
  simp only [State.takes, Bool.and_eq_true, Bool.not_eq_true', Bool.or_eq_true, bne_iff_ne] at h
  obtain ⟨⟨hr, hu⟩, hm⟩ := h
  obtain ⟨hk, hh⟩ := State.runs_iff.mp hr
  exact State.command_run u f s hk hh hu hm

/-! ### REGISTER_WRITE -/

/-- What a REGISTER_WRITE of the register row does while both domains run: the row is written with the firmware's rights in Load. -/
theorem State.registerWrite_row (i a : Nat) (d : List Byte) (hr : s.runs = true) (h1 : 0x3000000000 ≤ a) (h2 : a < 0x3001000000) :
    s.registerWrite i a d =
      let r := (s.asFirmware (i == 0 && s.mode == .load)).writeRow (a - 0x3000000000) d none
      let t := r.2.asFirmware s.boot.applying
      if r.1 = .ok ∧ s.hand.length < t.hand.length then t else t.emit (.answer r.1) := by
  obtain ⟨hk, hh⟩ := State.runs_iff.mp hr
  simp [State.registerWrite, State.localWrite, hk, hh, h1, h2]

/-- A write that the row check refuses counts its refusal and nothing else. -/
theorem State.registerWrite_refused {i a : Nat} {d : List Byte} {st : Status} {c : Nat} (hr : s.runs = true) (h1 : 0x3000000000 ≤ a)
    (h2 : a < 0x3001000000) (hc : rowCheck (a - 0x3000000000) d.length blockAt = st) (hst : st ≠ .ok)
    (hf : ∀ t, refuse st t = (st, t.bump c)) :
    (s.registerWrite i a d).out = .answer st :: s.out ∧ OnlyRegsOut [c] s (s.registerWrite i a d) := by
  have hw (t : State) : t.writeRow (a - 0x3000000000) d none = (st, t.bump c) := by
    rw [State.writeRow, hc]
    cases st with
    | ok => exact absurd rfl hst
    | _ => exact hf t
  rw [State.registerWrite_row i a d hr h1 h2]
  simp only [hw, hst, false_and, if_false]
  refine ⟨rfl, fun x hx => ?_, rfl⟩
  exact State.rd_wr_ne s _ (by simpa using hx)

theorem rowCheck_misaligned {a : Nat} {d : List Byte} {mapped : Nat → Bool} (h1 : 0x3000000000 ≤ a)
    (h : a % 4 ≠ 0 ∨ d.length % 4 ≠ 0 ∨ d = []) : rowCheck (a - 0x3000000000) d.length mapped = .badRequest := by
  have : (a - 0x3000000000) % 4 ≠ 0 ∨ d.length % 4 ≠ 0 ∨ d.length = 0 := by
    rcases h with h | h | h
    · left; omega
    · exact .inr (.inl h)
    · exact .inr (.inr (by simp [h]))
  rw [rowCheck, if_pos this]

/-- No block lies at or above offset 0x150000. -/
theorem rowCheck_beyond {a : Nat} {d : List Byte} (h1 : 0x3000150000 ≤ a) (ha : a % 4 = 0) (hd : d.length % 4 = 0) (hn : d ≠ []) :
    rowCheck (a - 0x3000000000) d.length blockAt = .unmapped := by
  have hl : d.length ≠ 0 := by simpa using hn
  have ho : a - 0x3000000000 ∈ offsets (a - 0x3000000000) d.length := by
    simp only [offsets, List.mem_map, List.mem_range]
    exact ⟨0, by omega, by omega⟩
  have hb : blockAt (a - 0x3000000000) = false := by
    simp only [blockAt, Bool.or_eq_false_iff, decide_eq_false_iff_not]
    omega
  have hall : (offsets (a - 0x3000000000) d.length).all blockAt = false := by
    rw [List.all_eq_false]
    exact ⟨_, ho, ne_true_of_eq_false hb⟩
  have hok : ¬ ((a - 0x3000000000) % 4 ≠ 0 ∨ d.length % 4 ≠ 0 ∨ d.length = 0) := by omega
  rw [rowCheck, if_neg hok, hall]
  rfl

/-! ### A write of LOCAL_WAIT_MAX -/

theorem findRow_localWaitMax : (findRow Reg.SWC_LOCAL_WAIT_MAX).map (fun r => (r.rw, r.w1c, r.w1s)) = some (0xFFFF, 0, 0) := by
  decide

theorem Word.and_ones (w : Word) : w &&& 0xFFFFFFFF#32 = w := BitVec.and_allOnes

theorem State.plainWrite_localWaitMax (w : Word) : s.plainWrite Reg.SWC_LOCAL_WAIT_MAX w =
    s.wr Reg.SWC_LOCAL_WAIT_MAX ((s.rd Reg.SWC_LOCAL_WAIT_MAX &&& 0xFFFF0000#32) ||| (w &&& 0xFFFF#32)) := by
  obtain ⟨r, hr, hm⟩ := Option.map_eq_some_iff.mp findRow_localWaitMax
  obtain ⟨hrw, hc, hs⟩ : r.rw = 0xFFFF ∧ r.w1c = 0 ∧ r.w1s = 0 := by simpa using hm
  simp [State.plainWrite, hr, hrw, hc, hs, Word.and_ones]

theorem leBytes_length (n v : Nat) : (leBytes n v).length = n := by
  induction n generalizing v with
  | zero => rfl
  | succ n ih => simp [leBytes, ih]

theorem wordsLe_leBytes (w : Word) : wordsLe (leBytes 4 w.toNat) = [w] := by
  simp only [leBytes, wordsLe, leVal, List.cons.injEq, and_true]
  apply BitVec.eq_of_toNat_eq
  simp only [BitVec.toNat_ofNat]
  have := w.isLt
  omega

/-- The rules of SWC let a TIME above 0 into LOCAL_WAIT_MAX (04 R111). -/
theorem State.swcWrite_localWaitMax {w : Word} (ha : s.asleepOrLoading = false) (hw : bits w 0 16 ≠ 0) :
    s.swcWrite 0x7C w = none := by
  simp [State.swcWrite, ha, hw]

theorem State.writeReg_localWaitMax {w : Word} (ha : s.asleepOrLoading = false) (hm : s.mode ≠ .load) (hw : bits w 0 16 ≠ 0) :
    s.writeReg Reg.SWC_LOCAL_WAIT_MAX w none = (.ok, s.plainWrite Reg.SWC_LOCAL_WAIT_MAX w) := by
  have hu : s.unitDown (0x3000000000 + Reg.SWC_LOCAL_WAIT_MAX) = false := rfl
  have hl : s.loadRefuses = false := by simp [State.loadRefuses, hm]
  have hr : s.ruledWrite Reg.SWC_LOCAL_WAIT_MAX w none = none := State.swcWrite_localWaitMax ha hw
  have hs : shadowed (0x3000000000 + Reg.SWC_LOCAL_WAIT_MAX) = false := by decide
  simp [State.writeReg, hu, hl, hr, State.sendDelta, hs]

theorem State.writeRow_localWaitMax {w : Word} (ha : s.asleepOrLoading = false) (hm : s.mode ≠ .load) (hw : bits w 0 16 ≠ 0) :
    s.writeRow Reg.SWC_LOCAL_WAIT_MAX (leBytes 4 w.toNat) none = (.ok, s.plainWrite Reg.SWC_LOCAL_WAIT_MAX w) := by
  have hc : rowCheck Reg.SWC_LOCAL_WAIT_MAX 4 blockAt = .ok := by decide
  have hwide : s.wideWrite Reg.SWC_LOCAL_WAIT_MAX (leBytes 4 w.toNat) = none := by
    simp [State.wideWrite, leBytes_length, Reg.SWC_LOCAL_WAIT_MAX]
  have hcm : commits Reg.SWC_LOCAL_WAIT_MAX = false := by decide
  simp [State.writeRow, leBytes_length, hc, hwide, wordsLe_leBytes, State.writeRegs, State.writeReg_localWaitMax ha hm hw, hcm]

/-- A REGISTER_WRITE of LOCAL_WAIT_MAX is answered OK and changes that register alone. -/
theorem State.registerWrite_localWaitMax {w : Word} (i : Nat) (hr : s.runs = true) (ha : s.asleepOrLoading = false)
    (hm : s.mode ≠ .load) (hb : s.boot.applying = false) (hw : bits w 0 16 ≠ 0) :
    s.registerWrite i 0x300002007C (leBytes 4 w.toNat) = (s.plainWrite Reg.SWC_LOCAL_WAIT_MAX w).emit (.answer .ok) := by
  have hmode : (i == 0 && s.mode == .load) = false := by simp [hm]
  have hsame : s.asFirmware false = s := by rw [← hb]; rfl
  have hrow : s.writeRow (0x300002007C - 0x3000000000) (leBytes 4 w.toNat) none = (.ok, s.plainWrite Reg.SWC_LOCAL_WAIT_MAX w) :=
    State.writeRow_localWaitMax ha hm hw
  rw [State.registerWrite_row i _ _ hr (by decide) (by decide), hmode, hsame, hrow, State.plainWrite_localWaitMax, hb]
  simp only [State.asFirmware, State.wr, Nat.lt_irrefl, and_false, if_false]
  rw [← hb]

theorem bits_merge (x w m : Word) {n : Nat} (hm : ∀ i < n, m.getLsbD i = true) :
    bits ((x &&& ~~~m) ||| (w &&& m)) 0 n = bits w 0 n := by
  simp only [bits]
  congr 1
  ext i hi
  simp [hm i hi]

/-- The field of a plain write of LOCAL_WAIT_MAX is the low half of the word written. -/
theorem State.plainWrite_localWaitMax_fld (w : Word) :
    (s.plainWrite Reg.SWC_LOCAL_WAIT_MAX w).fld Fd.SWC_LOCAL_WAIT_MAX_TIME = bits w 0 16 := by
  rw [State.plainWrite_localWaitMax]
  simp only [State.fld, State.rd_wr_same]
  exact bits_merge _ _ 0xFFFF#32 (by decide)

/-! ### A read of one register -/

theorem State.readReg_single {a : Nat} (hd : ¬ (0xF0000 ≤ a ∧ a < 0x100000)) (hl : a ≠ Reg.TIME_NOW_LO) (hh : a ≠ Reg.TIME_NOW_HI)
    (h4 : isLo (a - 4) = false) : s.readReg [a] a = (s.regValue a, (s.clearRc a).onlyIf (isLo a) (State.latchHi a)) := by
  have hd' : ¬ (0xF0000 ≤ a ∧ a < 0x100000 ∧ dieReg (a - 0xF0000) = true) := fun ⟨h, h', _⟩ => hd ⟨h, h'⟩
  simp [State.readReg, hd', hl, hh, h4]

theorem State.readOne_eq {a : Nat} (hr : s.runs = true) (hc : rowCheck a 4 blockAt = .ok) (hf : s.readRefusal a = none) :
    s.readOne a = (s.readReg [a] a).2.emit (.data .ok (leBytes 4 (s.readReg [a] a).1.toNat)) := by
  obtain ⟨hk, hh⟩ := State.runs_iff.mp hr
  have hx : rxqAt a 4 = none := by simp [rxqAt]
  have ho : offsets a 4 = [a] := by simp [offsets]
  simp [State.readOne, State.query, hk, hh, State.readRow, hc, State.rowRefusal, hx, ho, hf, State.readRegs]

theorem State.regValue_of_plain {a : Nat} (hw : (findRow a).map (·.wo) = some 0) (hd : s.derived a = none) : s.regValue a = s.rd a := by
  obtain ⟨r, hr, hw⟩ := Option.map_eq_some_iff.mp hw
  simp [State.regValue, hr, hw, hd, Word.and_ones]

theorem State.clearRc_eq {a m : Nat} (hm : (findRow a).map (·.rc) = some m) (h0 : BitVec.ofNat 32 m ≠ 0#32) :
    s.clearRc a = s.wr a ((s.rd a &&& ~~~(BitVec.ofNat 32 m)) ||| (s.presentOf a &&& BitVec.ofNat 32 m)) := by
  obtain ⟨r, hr, hm⟩ := Option.map_eq_some_iff.mp hm
  simp [State.clearRc, hr, hm, h0]

/-! ### POOL_MIN_FREE: a minimum that follows POOL_FREE (04 R100) -/

theorem findRow_poolMinFree : (findRow Reg.SWC_POOL_MIN_FREE).map (·.wo) = some 0 ∧
    (findRow Reg.SWC_POOL_MIN_FREE).map (·.rc) = some 0x7FFF := by
  decide

theorem State.readReg_poolMinFree : s.readReg [Reg.SWC_POOL_MIN_FREE] Reg.SWC_POOL_MIN_FREE = (s.rd Reg.SWC_POOL_MIN_FREE,
    s.wr Reg.SWC_POOL_MIN_FREE ((s.rd Reg.SWC_POOL_MIN_FREE &&& ~~~0x7FFF#32) ||| (s.rd Reg.SWC_POOL_FREE &&& 0x7FFF#32))) := by
  have hlo : isLo Reg.SWC_POOL_MIN_FREE = false := by decide
  rw [State.readReg_single (by decide) (by decide) (by decide) (by decide), State.regValue_of_plain findRow_poolMinFree.1 rfl,
    State.clearRc_eq findRow_poolMinFree.2 (by decide), hlo]
  rfl

theorem State.readOne_poolMinFree (hr : s.runs = true) : s.readOne Reg.SWC_POOL_MIN_FREE =
    (s.wr Reg.SWC_POOL_MIN_FREE ((s.rd Reg.SWC_POOL_MIN_FREE &&& ~~~0x7FFF#32) ||| (s.rd Reg.SWC_POOL_FREE &&& 0x7FFF#32))).emit
      (.data .ok (leBytes 4 (s.rd Reg.SWC_POOL_MIN_FREE).toNat)) := by
  rw [State.readOne_eq hr (by decide) rfl, State.readReg_poolMinFree]

/-! ### A byte counter: the low half is read, the high half is latched, both are cleared (18 R443) -/

theorem Tab.lookup_insert {α : Type} {l : List (Nat × α)} {a : Nat} (v : α) (h : ∀ e ∈ l, e.1 ≠ a) :
    (Tab.insert l a v).lookup a = some v := by
  induction l with
  | nil => simp [Tab.insert]
  | cons e l ih =>
    obtain ⟨he, hl⟩ := List.forall_mem_cons.mp h
    have hea : (a == e.1) = false := by simpa using he.symm
    simp only [Tab.insert]
    split
    · simp
    · simpa [List.lookup, hea] using ih hl

theorem findRow_txBytes {p : Nat} (hp : p < 3) :
    ((findRow (Reg.PORT_TX_BYTES_LO p)).map (·.wo) = some 0 ∧ (findRow (Reg.PORT_TX_BYTES_LO p)).map (·.rc) = some 0xFFFFFFFF) ∧
    (findRow (Reg.PORT_TX_BYTES_HI p)).map (·.wo) = some 0 ∧ (findRow (Reg.PORT_TX_BYTES_HI p)).map (·.rc) = some 0xFFFFFFFF := by
  revert p
  decide

theorem txBytes_isLo {p : Nat} (hp : p < 3) : isLo (Reg.PORT_TX_BYTES_LO p) = true ∧ isLo (Reg.PORT_TX_BYTES_LO p - 4) = false := by
  revert p
  decide

theorem txBytes_rowCheck {p : Nat} (hp : p < 3) : rowCheck (Reg.PORT_TX_BYTES_LO p) 4 blockAt = .ok := by
  revert p
  decide

/-- A read clears a counter whose every bit is RC and which follows nothing. -/
theorem State.clearRc_counter {a : Nat} (hm : (findRow a).map (·.rc) = some 0xFFFFFFFF) (hp : s.presentOf a = 0#32) :
    s.clearRc a = s.wr a 0#32 := by
  rw [State.clearRc_eq hm (by decide), hp]
  simp

theorem txBytes_offset {p : Nat} (hp : p < 3) : 0x10000 ≤ Reg.PORT_TX_BYTES_LO p ∧ Reg.PORT_TX_BYTES_HI p < 0x14000 ∧
    Reg.PORT_TX_BYTES_LO p + 4 = Reg.PORT_TX_BYTES_HI p := by
  simp only [Reg.PORT_TX_BYTES_LO, Reg.PORT_TX_BYTES_HI]
  omega

theorem State.derived_port {a : Nat} (h1 : 0x10000 ≤ a) (h2 : a < 0x14000) : s.derived a = none := by
  have h0 : ¬ a < 0x10000 := by omega
  have h1 : a < 0x20000 := by omega
  simp [State.derived, h0, h1]

theorem State.presentOf_port {a : Nat} (h : a < 0x14000) : s.presentOf a = 0#32 := by
  simp only [State.presentOf]
  grind

theorem State.readRefusal_port {a : Nat} (h : a < 0x14000) : s.readRefusal a = none := by
  have hu : unitAt (0x3000000000 + a) = none := by
    simp only [unitAt]
    grind
  simp only [State.readRefusal, State.unitDown, hu]
  grind

/-- A read of a low half takes it, latches the high half and clears both. -/
def State.takeTxBytes (p : Nat) (s : State) : State :=
  let lo := Reg.PORT_TX_BYTES_LO p
  let hi := Reg.PORT_TX_BYTES_HI p
  { ((s.wr lo 0#32).wr hi 0#32) with latches := Tab.insert (Tab.erase s.latches hi) hi (s.rd hi) }

/-- What a read of the low half shows and leaves behind. -/
theorem State.readReg_txBytesLo {p : Nat} (hp : p < 3) :
    s.readReg [Reg.PORT_TX_BYTES_LO p] (Reg.PORT_TX_BYTES_LO p) = (s.rd (Reg.PORT_TX_BYTES_LO p), s.takeTxBytes p) := by
  obtain ⟨hmin, hmax, hnext⟩ := txBytes_offset hp
  obtain ⟨hlo, hprev⟩ := txBytes_isLo hp
  obtain ⟨⟨hwoLo, hrcLo⟩, hwoHi, hrcHi⟩ := findRow_txBytes hp
  have hread (t : State) : t.regValue (Reg.PORT_TX_BYTES_HI p) = t.rd (Reg.PORT_TX_BYTES_HI p) :=
    State.regValue_of_plain hwoHi (State.derived_port (by omega) (by omega))
  have hclear (t : State) : t.clearRc (Reg.PORT_TX_BYTES_HI p) = t.wr (Reg.PORT_TX_BYTES_HI p) 0#32 :=
    State.clearRc_counter hrcHi (State.presentOf_port hmax)
  have hother : (s.wr (Reg.PORT_TX_BYTES_LO p) 0#32).rd (Reg.PORT_TX_BYTES_HI p) = s.rd (Reg.PORT_TX_BYTES_HI p) :=
    State.rd_wr_ne s _ (by omega)
  rw [State.readReg_single (by omega) (by rw [Reg.TIME_NOW_LO]; omega) (by rw [Reg.TIME_NOW_HI]; omega) hprev,
    State.regValue_of_plain hwoLo (State.derived_port hmin (by omega)), State.clearRc_counter hrcLo (State.presentOf_port (by omega)), hlo]
  simp only [State.onlyIf, if_true, State.latchHi, hnext, hclear, hread, hother]
  rfl

theorem State.readOne_txBytesLo {p : Nat} (hr : s.runs = true) (hp : p < 3) : s.readOne (Reg.PORT_TX_BYTES_LO p) =
    (s.takeTxBytes p).emit (.data .ok (leBytes 4 (s.rd (Reg.PORT_TX_BYTES_LO p)).toNat)) := by
  obtain ⟨-, hmax, hnext⟩ := txBytes_offset hp
  rw [State.readOne_eq hr (txBytes_rowCheck hp) (State.readRefusal_port (by omega)), State.readReg_txBytesLo hp]

theorem State.takeTxBytes_rd (p a : Nat) : (s.takeTxBytes p).rd a =
    if a = Reg.PORT_TX_BYTES_LO p ∨ a = Reg.PORT_TX_BYTES_HI p then 0#32 else s.rd a := by
  change ((s.wr (Reg.PORT_TX_BYTES_LO p) 0#32).wr (Reg.PORT_TX_BYTES_HI p) 0#32).rd a = _
  simp only [State.rd_wr]
  grind

theorem State.takeTxBytes_lookup (p : Nat) :
    (s.takeTxBytes p).latches.lookup (Reg.PORT_TX_BYTES_HI p) = some (s.rd (Reg.PORT_TX_BYTES_HI p)) :=
  Tab.lookup_insert _ Tab.erase_ne

/-- A latched value is what the next read of the high half alone shows. -/
theorem State.readReg_txBytesHi {p : Nat} {v : Word} (hp : p < 3) (hv : s.latches.lookup (Reg.PORT_TX_BYTES_HI p) = some v) :
    (s.readReg [Reg.PORT_TX_BYTES_HI p] (Reg.PORT_TX_BYTES_HI p)).1 = v := by
  obtain ⟨hmin, hmax, hnext⟩ := txBytes_offset hp
  obtain ⟨hlo, -⟩ := txBytes_isLo hp
  have hsub : Reg.PORT_TX_BYTES_HI p - 4 = Reg.PORT_TX_BYTES_LO p := by omega
  have hdie : ¬ 0xF0000 ≤ Reg.PORT_TX_BYTES_HI p := by omega
  have hnow : Reg.PORT_TX_BYTES_HI p ≠ Reg.TIME_NOW_LO ∧ Reg.PORT_TX_BYTES_HI p ≠ Reg.TIME_NOW_HI := by
    simp only [Reg.TIME_NOW_LO, Reg.TIME_NOW_HI]
    omega
  simp [State.readReg, hdie, hnow.1, hnow.2, hsub, hlo, hv]

/-! ### A counter stands at all-ones (R9) -/

theorem State.rd_bump_below {a : Nat} (h : (s.rd a).toNat < 0xFFFFFFFF) : ((s.bump a).rd a).toNat = (s.rd a).toNat + 1 := by
  simp only [State.rd_bump, if_true, BitVec.toNat_ofNat]
  omega

theorem State.rd_bump_full {a : Nat} (h : s.rd a = 0xFFFFFFFF#32) : (s.bump a).rd a = 0xFFFFFFFF#32 := by
  simp [State.rd_bump, h]

end Sys2Proof.Machine
end

section
open Sys2Proof.Machine

/-- Settles O24: each clause by what the command does where every rule lets it pass, or where the row check refuses it whole. -/
theorem registerCommands : Obligations.RegisterCommands := by
  unfold Obligations.RegisterCommands
  refine ⟨fun s u f => ⟨s.command_held u f, ?_, s.command_load u f, s.command_takes u f⟩, ?_, ?_, ?_, ?_, ?_, ?_, ?_⟩
  · intro hk hdown
    refine State.command_reset u f s hk (hdown.imp_right ?_)
    rintro ⟨r, rfl, hr⟩
    exact hr
  · intro s i a d hr h1 h2 hbad
    exact ⟨_, rfl, State.registerWrite_refused hr h1 h2 (rowCheck_misaligned h1 hbad) (by decide) fun _ => rfl⟩
  · intro s i a d hr h1 h2 ha hd hn
    exact ⟨_, rfl, State.registerWrite_refused hr (by omega) h2 (rowCheck_beyond h1 ha hd hn) (by decide) fun _ => rfl⟩
  · intro s i w hr ha hm hb hw
    refine ⟨_, congrArg Host.Outcome.next (State.registerWrite_localWaitMax i hr ha hm hb hw), rfl, ?_, fun x hx => ?_, rfl⟩
    · exact State.plainWrite_localWaitMax_fld w
    · rw [State.plainWrite_localWaitMax]
      exact s.rd_wr_ne _ (by simpa using hx)
  · intro s hr
    refine ⟨_, congrArg Host.Outcome.next (State.readOne_poolMinFree hr), rfl, ?_, fun x hx => ?_, rfl⟩
    · rw [State.emit_rd, State.rd_wr_same]
      exact bits_merge _ _ 0x7FFF#32 (by decide)
    · exact s.rd_wr_ne _ (by simpa using hx)
  · intro s p hr hp _
    have hoff : (BitVec.ofNat 24 (Reg.PORT_TX_BYTES_LO p)).toNat = Reg.PORT_TX_BYTES_LO p := by
      simp only [BitVec.toNat_ofNat, Reg.PORT_TX_BYTES_LO]
      omega
    have hread := (congrArg s.readOne hoff).trans (State.readOne_txBytesLo hr hp)
    refine ⟨_, congrArg Host.Outcome.next hread, rfl, ?_, ?_, s.takeTxBytes_lookup p, fun x hx => ?_, fun _ => rfl⟩
    · simp [State.takeTxBytes_rd]
    · simp [State.takeTxBytes_rd]
    · rw [State.emit_rd, State.takeTxBytes_rd, if_neg (by simpa using hx)]
  · exact fun s p v => State.readReg_txBytesHi
  · exact fun s a b => ⟨s.rd_bump_below, s.rd_bump_full, fun h => by simp [State.rd_bump, h]⟩

end

section
/-!
SUPPORT. Ring and spur ports: fields and deadlines after an update, what an update of registers leaves alone, and the branches of
preemption verification, of a software access to a module and of a write of CTL.
-/

namespace Sys2Proof.Machine

variable {s t : State} {l : List Nat}

/-! ### One-bit fields -/

theorem bits_one (w : Word) (i : Nat) : bits w i 1 = (w.getLsbD i).toNat := by
  simp [bits, BitVec.getLsbD, Nat.toNat_testBit, Nat.shiftRight_eq_div_pow]

theorem bits_eq_one {w : Word} {i : Nat} : bits w i 1 = 1 ↔ w.getLsbD i = true := by
  rw [bits_one, Bool.toNat_eq_one]

theorem bits_eq_zero {w : Word} {i : Nat} : bits w i 1 = 0 ↔ w.getLsbD i = false := by
  rw [bits_one, Bool.toNat_eq_zero]

theorem bits_beq_one (w : Word) (i : Nat) : (bits w i 1 == 1) = w.getLsbD i := by
  rw [Bool.eq_iff_iff, beq_iff_eq, bits_eq_one]

theorem State.flag_on_same (s : State) {f : Fld} (h : f.lo + f.width ≤ 32) (hw : f.width ≠ 0) : (s.on f).flag f = true := by
  have h2 : 1 < 2 ^ f.width := Nat.one_lt_two_pow hw
  simp [State.flag, State.on, s.fld_setFld_same f 1 h, Nat.mod_eq_of_lt h2]

theorem State.flag_off_same (s : State) {f : Fld} (h : f.lo + f.width ≤ 32) : (s.off f).flag f = false := by
  simp [State.flag, State.off, s.fld_setFld_same f 0 h]

/-- A field apart from the one loaded: of another register, or of other bits. -/
theorem State.flag_setFld_ne (s : State) {f g : Fld} (v : Nat)
    (h : g.reg ≠ f.reg ∨ ((g.lo + g.width ≤ f.lo ∨ f.lo + f.width ≤ g.lo) ∧ g.lo + g.width ≤ 32)) :
    (s.setFld f v).flag g = s.flag g := by
  rw [State.flag, s.fld_setFld_ne f g v h, State.flag]

/-! ### Which registers an update changes -/

theorem OnlyRegs.refl (l : List Nat) (s : State) : OnlyRegs l s s := ⟨fun _ _ => rfl, rfl⟩

theorem OnlyRegs.wr {a : Nat} {v : Word} (h : OnlyRegs l s t) (ha : a ∈ l) : OnlyRegs l s (t.wr a v) := by
  obtain ⟨hr, ht⟩ := h
  refine ⟨fun x hx => ?_, ?_⟩
  · rw [t.rd_wr_ne v (ne_of_mem_of_not_mem ha hx).symm, hr x hx]
  · rw [ht]
    rfl

theorem OnlyRegs.setFld {f : Fld} {v : Nat} (h : OnlyRegs l s t) (hf : f.reg ∈ l) : OnlyRegs l s (t.setFld f v) := h.wr hf

/-- An answer is the only other trace of a command that changes registers. -/
theorem OnlyRegs.answer {st : Status} (h : OnlyRegs l s t) : OnlyRegsOut l s (answer (st, t)) := by
  obtain ⟨hr, ht⟩ := h
  refine ⟨hr, ?_⟩
  rw [ht]
  rfl

theorem answer_flag (st : Status) (t : State) (f : Fld) : (answer (st, t)).flag f = t.flag f := rfl

/-! ### Deadlines and what an expiry leaves alone -/

theorem State.deadline_arm (s : State) (x : Timer) (d : Nat) : (s.arm x d).deadline x = some (s.clk + d) := by
  simp [State.deadline, State.arm]

theorem State.armed_arm (s : State) (x : Timer) (d : Nat) : (s.arm x d).armed x = true := by
  simp [State.armed, s.deadline_arm]

theorem State.armed_cancel (s : State) (x : Timer) : (s.cancel x).armed x = false := by
  have h : (s.cancel x).timers.lookup x = none := by
    rw [List.lookup_eq_none_iff]
    intro e he
    exact bne_comm.trans (List.mem_filter.mp he).2
  simp [State.armed, State.deadline, h]

/-- An expiry disarms its deadline, after some time or none. -/
theorem State.expire_cases (s : State) (x : Timer) : s.expire x = s.cancel x ∨ ∃ d, s.expire x = (s.advance d).cancel x := by
  unfold State.expire
  cases s.deadline x with
  | none => exact .inl rfl
  | some d => exact .inr ⟨_, rfl⟩

theorem State.expire_regs (s : State) (x : Timer) : (s.expire x).regs = s.regs := by
  obtain h | ⟨d, h⟩ := s.expire_cases x <;> rw [h] <;> rfl

theorem State.expire_rd (s : State) (x : Timer) (a : Nat) : (s.expire x).rd a = s.rd a := by
  rw [State.rd, s.expire_regs, State.rd]

theorem State.expire_mem (s : State) (x : Timer) : (s.expire x).mem = s.mem := by
  obtain h | ⟨d, h⟩ := s.expire_cases x <;> rw [h] <;> rfl

theorem State.expire_out (s : State) (x : Timer) : (s.expire x).out = s.out := by
  obtain h | ⟨d, h⟩ := s.expire_cases x <;> rw [h] <;> rfl

theorem State.expire_port (s : State) (x : Timer) (p : Nat) : (s.expire x).port p = s.port p := by
  obtain h | ⟨d, h⟩ := s.expire_cases x <;> rw [h] <;> rfl

theorem State.port_setPort_same (s : State) (p : Nat) (v : PortState) : (s.setPort p v).port p = v := Tab.get_set_same _ _ _ _

/-! ### Preemption verification (02 R45, R46) -/

/-- A verify frame leaves port `p` as attempt `n`, and verifyTime starts. -/
def State.sendVerify (p n : Nat) (s : State) : State :=
  ((s.setPort p { s.port p with verifyTries := n }).emit (.verifyFrame p)).arm (.verify p)
    (s.fld (Fd.PORT_PREEMPT_CTL_VERIFY_TIME p) * msPs)

theorem State.sendVerify_tries (s : State) (p n : Nat) : ((s.sendVerify p n).port p).verifyTries = n :=
  congrArg PortState.verifyTries (s.port_setPort_same p _)

theorem State.sendVerify_deadline (s : State) (p n : Nat) : (s.sendVerify p n).deadline (.verify p) =
    some (s.clk + s.fld (Fd.PORT_PREEMPT_CTL_VERIFY_TIME p) * msPs) := State.deadline_arm _ _ _

theorem State.sendVerify_armed (s : State) (p n : Nat) : (s.sendVerify p n).armed (.verify p) = true := State.armed_arm _ _ _

theorem State.preemptStart_verifyDis {p : Nat} (he : s.flag (Fd.PORT_PREEMPT_CTL_PREEMPT_EN p) = true)
    (hl : s.flag (Fd.PORT_CTL_LOOP_PCS p) = false) (hd : s.flag (Fd.PORT_PREEMPT_CTL_VERIFY_DIS p) = true) :
    s.preemptStart p = (s.setFld (Fd.PORT_PREEMPT_STAT_VERIFY_STATE p) 0).on (Fd.PORT_PREEMPT_STAT_ACTIVE p) := by
  simp [State.preemptStart, he, hl, hd]

theorem State.preemptStart_verify {p : Nat} (he : s.flag (Fd.PORT_PREEMPT_CTL_PREEMPT_EN p) = true)
    (hl : s.flag (Fd.PORT_CTL_LOOP_PCS p) = false) (hd : s.flag (Fd.PORT_PREEMPT_CTL_VERIFY_DIS p) = false) :
    s.preemptStart p = (s.setFld (Fd.PORT_PREEMPT_STAT_VERIFY_STATE p) 2).sendVerify p 1 := by
  simp [State.preemptStart, State.sendVerify, he, hl, hd]

theorem exec_verifyRetry {p : Fin 3} (ha : s.armed (.verify p) = true)
    (hn : (s.port p).verifyTries < s.fld (Fd.PORT_PREEMPT_CTL_VERIFY_LIMIT p)) :
    exec (.verifyRetry p) s = .next ((s.expire (.verify p)).sendVerify p ((s.port p).verifyTries + 1)) := by
  rw [← s.expire_port (.verify p) p]
  exact congrArg Host.Outcome.next (if_pos ⟨ha, hn⟩)

theorem exec_preemptVerifySuccess {p : Fin 3} (hv : s.fld (Fd.PORT_PREEMPT_STAT_VERIFY_STATE p) = 2) :
    exec (.preemptVerifySuccess p) s =
      .next (((s.cancel (.verify p)).setFld (Fd.PORT_PREEMPT_STAT_VERIFY_STATE p) 3).on (Fd.PORT_PREEMPT_STAT_ACTIVE p)) :=
  congrArg Host.Outcome.next (if_pos hv)

/-! ### A software access to a module (02 R38) -/

/-- The bits of MOD_ACC that a command writes; what BUSY, NAK and DONE showed stays. -/
def State.loadModAcc (p : Nat) (w : Word) (s : State) : State :=
  s.wr (Reg.PORT_MOD_ACC p) ((s.rd (Reg.PORT_MOD_ACC p) &&& 0x00003800#32) ||| (w &&& 0x00FF03FF#32))

theorem State.loadModAcc_busy (s : State) (p : Nat) (w : Word) :
    (s.loadModAcc p w).flag (Fd.PORT_MOD_ACC_BUSY p) = s.flag (Fd.PORT_MOD_ACC_BUSY p) := by
  simp [State.flag, State.fld, bits_one, State.loadModAcc]

/-- An access taken: DONE and NAK are cleared, then BUSY, or NAK without a module, is set. -/
def State.takeModAcc (p : Nat) (w : Word) (s : State) : State :=
  State.on (if s.flag (Fd.PORT_STAT_MOD_PRESENT p) then Fd.PORT_MOD_ACC_BUSY p else Fd.PORT_MOD_ACC_NAK p)
    (((s.loadModAcc p w).off (Fd.PORT_MOD_ACC_DONE p)).off (Fd.PORT_MOD_ACC_NAK p))

theorem State.takeModAcc_onlyRegs (s : State) (p : Nat) (w : Word) : OnlyRegs [Reg.PORT_MOD_ACC p] s (s.takeModAcc p w) := by
  have h : OnlyRegs [Reg.PORT_MOD_ACC p] s (((s.loadModAcc p w).off (Fd.PORT_MOD_ACC_DONE p)).off (Fd.PORT_MOD_ACC_NAK p)) :=
    (((OnlyRegs.refl _ s).wr (by simp)).setFld (by simp)).setFld (by simp)
  refine h.setFld ?_
  split <;> simp

theorem State.takeModAcc_done (s : State) (p : Nat) (w : Word) : (s.takeModAcc p w).flag (Fd.PORT_MOD_ACC_DONE p) = false := by
  have h : (((s.loadModAcc p w).off (Fd.PORT_MOD_ACC_DONE p)).off (Fd.PORT_MOD_ACC_NAK p)).flag (Fd.PORT_MOD_ACC_DONE p) = false :=
    (State.flag_setFld_ne _ 0 (by simp)).trans (State.flag_off_same _ (by simp))
  refine (State.flag_setFld_ne _ 1 ?_).trans h
  split <;> simp

/-- BUSY was clear, so it is now set with a module present only. -/
theorem State.takeModAcc_busy {p : Nat} (w : Word) (hb : s.flag (Fd.PORT_MOD_ACC_BUSY p) = false) :
    (s.takeModAcc p w).flag (Fd.PORT_MOD_ACC_BUSY p) = s.flag (Fd.PORT_STAT_MOD_PRESENT p) := by
  unfold State.takeModAcc
  cases s.flag (Fd.PORT_STAT_MOD_PRESENT p) with
  | true => exact State.flag_on_same _ (by simp) (by simp)
  | false =>
    calc
      _ = (((s.loadModAcc p w).off (Fd.PORT_MOD_ACC_DONE p)).off (Fd.PORT_MOD_ACC_NAK p)).flag (Fd.PORT_MOD_ACC_BUSY p) :=
        State.flag_setFld_ne _ 1 (by simp)
      _ = ((s.loadModAcc p w).off (Fd.PORT_MOD_ACC_DONE p)).flag (Fd.PORT_MOD_ACC_BUSY p) := State.flag_setFld_ne _ 0 (by simp)
      _ = (s.loadModAcc p w).flag (Fd.PORT_MOD_ACC_BUSY p) := State.flag_setFld_ne _ 0 (by simp)
      _ = false := (s.loadModAcc_busy p w).trans hb

theorem State.takeModAcc_nak (s : State) (p : Nat) (w : Word) :
    (s.takeModAcc p w).flag (Fd.PORT_MOD_ACC_NAK p) = !s.flag (Fd.PORT_STAT_MOD_PRESENT p) := by
  unfold State.takeModAcc
  cases s.flag (Fd.PORT_STAT_MOD_PRESENT p) with
  | true => exact (State.flag_setFld_ne _ 1 (by simp)).trans (State.flag_off_same _ (by simp))
  | false => exact State.flag_on_same _ (by simp) (by simp)

/-- The command is a write with GO set. -/
theorem exec_modAccGo {p : Fin 3} {w : Word} (ht : s.takes none = true) :
    exec (.modAccGo p w) s = .next (answer (s.modAcc p (w ||| 0x400#32))) :=
  congrArg Host.Outcome.next (State.command_takes none _ ht)

theorem bits_setGo (w : Word) : bits (w ||| 0x400#32) 10 1 = 1 := by
  simp [bits_eq_one]

/-- Setting GO leaves the other bits of the word. -/
theorem bits_setGo_ne (w : Word) {i : Nat} (h : (0x400#32).getLsbD i = false) : bits (w ||| 0x400#32) i 1 = bits w i 1 := by
  rw [bits_one, bits_one, BitVec.getLsbD_or, h, Bool.or_false]

/-- A write to page A0h, with GO set or not. -/
theorem bits_setGo_writeA0 (w : Word) : (bits (w ||| 0x400#32) 9 1 = 1 ∧ bits (w ||| 0x400#32) 8 1 = 0) ↔
    (w.getLsbD 9 = true ∧ w.getLsbD 8 = false) := by
  rw [bits_setGo_ne w rfl, bits_setGo_ne w rfl, bits_eq_one, bits_eq_zero]

theorem exec_modAccGo_busy {p : Fin 3} {w : Word} (ht : s.takes none = true) (hb : s.flag (Fd.PORT_MOD_ACC_BUSY p) = true) :
    exec (.modAccGo p w) s = .next (answer (.busy, s)) := by
  rw [exec_modAccGo ht]
  simp [State.modAcc, bits_setGo, hb, refuse]

theorem exec_modAccGo_denied {p : Fin 3} {w : Word} (ht : s.takes none = true) (hb : s.flag (Fd.PORT_MOD_ACC_BUSY p) = false)
    (hw : w.getLsbD 9 = true) (hp : w.getLsbD 8 = false) : exec (.modAccGo p w) s = .next (answer (.denied, s)) := by
  have hpage := (bits_setGo_writeA0 w).mpr ⟨hw, hp⟩
  rw [exec_modAccGo ht]
  simp [State.modAcc, bits_setGo, hb, hpage, refuse]

theorem exec_modAccGo_taken {p : Fin 3} {w : Word} (ht : s.takes none = true) (hb : s.flag (Fd.PORT_MOD_ACC_BUSY p) = false)
    (hw : w.getLsbD 9 = false ∨ w.getLsbD 8 = true) :
    exec (.modAccGo p w) s = .next (answer (.ok, s.takeModAcc p (w ||| 0x400#32))) := by
  have hpage : ¬ (bits (w ||| 0x400#32) 9 1 = 1 ∧ bits (w ||| 0x400#32) 8 1 = 0) := by
    rw [bits_setGo_writeA0]
    grind
  rw [exec_modAccGo ht]
  unfold State.modAcc
  cases hm : s.flag (Fd.PORT_STAT_MOD_PRESENT p) <;> simp [bits_setGo, hb, hm, hpage, State.takeModAcc, State.loadModAcc]

theorem exec_modAccDone_nak {p : Fin 3} {d : Byte} (hb : s.flag (Fd.PORT_MOD_ACC_BUSY p) = true) :
    exec (.modAccDone p false d) s = .next ((s.off (Fd.PORT_MOD_ACC_BUSY p)).on (Fd.PORT_MOD_ACC_NAK p)) := by
  have h : exec (.modAccDone p false d) s = .next (if !s.flag (Fd.PORT_MOD_ACC_BUSY p) then s else s.accNak p) := rfl
  rw [h, State.accNak, hb]
  rfl

/-- BUSY gives way to DONE. -/
def State.doneModAcc (p : Nat) (s : State) : State := (s.off (Fd.PORT_MOD_ACC_BUSY p)).on (Fd.PORT_MOD_ACC_DONE p)

/-- What ends an access that the module acknowledges. -/
theorem exec_modAccDone_ack {p : Fin 3} {d : Byte} (hb : s.flag (Fd.PORT_MOD_ACC_BUSY p) = true) :
    exec (.modAccDone p true d) s = .next (if s.flag (Fd.PORT_MOD_ACC_WRITE p) then s.doneModAcc p
      else (s.doneModAcc p).setFld (Fd.PORT_MOD_DATA_RDATA p) d.toNat) := by
  have hw : (s.doneModAcc p).flag (Fd.PORT_MOD_ACC_WRITE p) = s.flag (Fd.PORT_MOD_ACC_WRITE p) :=
    (State.flag_setFld_ne _ 1 (by simp)).trans (State.flag_setFld_ne _ 0 (by simp))
  rw [← hw]
  refine congrArg Host.Outcome.next (if_neg ?_)
  simp [hb]

theorem State.doneModAcc_busy (s : State) (p : Nat) : (s.doneModAcc p).flag (Fd.PORT_MOD_ACC_BUSY p) = false :=
  (State.flag_setFld_ne _ 1 (by simp)).trans (State.flag_off_same _ (by simp))

theorem State.doneModAcc_done (s : State) (p : Nat) : (s.doneModAcc p).flag (Fd.PORT_MOD_ACC_DONE p) = true :=
  State.flag_on_same _ (by simp) (by simp)

theorem State.doneModAcc_onlyRegs (s : State) (p : Nat) :
    OnlyRegs [Reg.PORT_MOD_ACC p, Reg.PORT_MOD_DATA p] s (s.doneModAcc p) :=
  ((OnlyRegs.refl _ s).setFld (by simp)).setFld (by simp)

theorem State.doneModAcc_setRdata (s : State) (p : Nat) (d : Byte) :
    ((s.doneModAcc p).setFld (Fd.PORT_MOD_DATA_RDATA p) d.toNat).fld (Fd.PORT_MOD_DATA_RDATA p) = d.toNat := by
  rw [State.fld_setFld_same _ _ _ (by simp)]
  exact Nat.mod_eq_of_lt d.isLt

/-! ### A write of CTL (02 R30, R39, R42, R470) -/

theorem State.portCtl_drowse {p : Nat} {w : Word} (hm : s.mode = .drowse) : s.portCtl p w = wrongMode s := by
  simp [State.portCtl, hm, refuse]

theorem State.portCtl_loopRefused {p : Nat} {w : Word} (hm : s.mode ≠ .isolated) (hw : w.getLsbD 5 = true)
    (hl : s.flag (Fd.PORT_CTL_LOOP_PCS p) = false) : s.portCtl p w = wrongMode s := by
  unfold State.portCtl
  simp only [bits_beq_one, hw, hl, refuse]
  simp [hm]

/-- The state in which a write of CTL finds the link: a change of SPEED or LOOP_PCS has declared it down (R39). -/
def State.beforeCtl (p : Nat) (w : Word) (s : State) : State :=
  if bits w 0 2 = s.fld (Fd.PORT_CTL_SPEED p) ∧ w.getLsbD 5 = s.flag (Fd.PORT_CTL_LOOP_PCS p) then s else s.declareDown p 4

/-- A change of SPEED, LOOP_PCS or AN37_EN (R40). -/
def State.ctlRenews (p : Nat) (w : Word) (s : State) : Bool :=
  !(bits w 0 2 == s.fld (Fd.PORT_CTL_SPEED p) && w.getLsbD 5 == s.flag (Fd.PORT_CTL_LOOP_PCS p) &&
    w.getLsbD 3 == s.flag (Fd.PORT_CTL_AN37_EN p))

/-- A write of CTL that no rule refuses and that names its line mode. -/
theorem State.portCtl_named {p : Nat} {w : Word} (hm : s.mode ≠ .drowse)
    (hl : s.mode = .isolated ∨ w.getLsbD 5 = false ∨ s.flag (Fd.PORT_CTL_LOOP_PCS p) = true) (hs : bits w 0 2 ≠ 3) :
    s.portCtl p w = (.ok, State.onlyIf (s.ctlRenews p w) (State.restartUp p)
      ((((s.beforeCtl p w).wr (Reg.PORT_CTL p) (w &&& 0x3B#32)).setFld (Fd.PORT_STAT_SPEED_ACT p) (bits w 0 2)).driveTxdis p)) := by
  have hloop : (w.getLsbD 5 && !s.flag (Fd.PORT_CTL_LOOP_PCS p) && s.mode != .isolated) = false := by
    rcases hl with h | h | h <;> simp only [h, bne_self_eq_false, Bool.and_false, Bool.false_and, Bool.not_true]
  have hdown : s.onlyIf (bits w 0 2 != s.fld (Fd.PORT_CTL_SPEED p) || w.getLsbD 5 != s.flag (Fd.PORT_CTL_LOOP_PCS p))
      (State.declareDown p 4) = s.beforeCtl p w := by
    unfold State.beforeCtl State.onlyIf
    grind
  have hact : (if bits w 0 2 = 2 then 2 else bits w 0 2) = bits w 0 2 := by grind
  have hnew : (bits w 0 2 != s.fld (Fd.PORT_CTL_SPEED p) || w.getLsbD 5 != s.flag (Fd.PORT_CTL_LOOP_PCS p) ||
      w.getLsbD 3 != s.flag (Fd.PORT_CTL_AN37_EN p)) = s.ctlRenews p w := by
    simp only [State.ctlRenews, bne, Bool.not_and]
  simp only [State.portCtl, bits_beq_one, hm, hloop, hdown, hact, hnew, hs, if_false, false_and, Bool.false_eq_true]

theorem exec_portSpeedWrite {p : Fin 3} {w : Word} (h : s.takes none = true) :
    exec (.portSpeedWrite p w) s = .next (answer (s.portCtl p w)) :=
  congrArg Host.Outcome.next (State.command_takes none _ h)

/-- The two commands are one write. -/
theorem exec_loopPcsWrite (p : Fin 3) (w : Word) (s : State) : exec (.loopPcsWrite p w) s = exec (.portSpeedWrite p w) s := rfl

end Sys2Proof.Machine
end

section
open Sys2Proof.Machine

/-- Settles O12: the start by its two branches; each event by what it does once its guard holds. -/
theorem preemptionVerification : Obligations.PreemptionVerification := by
  unfold Obligations.PreemptionVerification
  refine ⟨fun s p he hl => ⟨fun hd => ?_, fun hd => ?_⟩, fun s p ha hn => ?_, fun s p hv => ?_, fun s p ha hn => ?_⟩
  · rw [State.preemptStart_verifyDis he hl hd]
    exact ⟨State.flag_on_same _ (by simp) (by simp), ((OnlyRegs.refl _ s).setFld (by simp)).setFld (by simp)⟩
  · rw [State.preemptStart_verify he hl hd]
    refine ⟨s.fld_setFld_same _ 2 (by simp), rfl, ?_, fun a ha => s.rd_wr_ne _ (by simpa using ha)⟩
    rw [State.sendVerify_deadline, s.fld_setFld_ne _ _ 2 (by simp)]
    rfl
  · refine ⟨_, exec_verifyRetry ha hn, State.sendVerify_tries _ _ _, congrArg (_ :: ·) (s.expire_out _), State.sendVerify_armed _ _ _,
      fun a _ => s.expire_rd _ a, fun a => ?_⟩
    exact congrArg (Tab.get 0#8 · a) (s.expire_mem _)
  · refine ⟨_, exec_preemptVerifySuccess hv, ?_, State.flag_on_same _ (by simp) (by simp), s.armed_cancel _, ?_, fun _ => rfl, rfl⟩
    · exact (State.fld_setFld_ne _ _ _ 1 (by simp)).trans (State.fld_setFld_same _ _ 3 (by simp))
    · exact (((OnlyRegs.refl _ (s.cancel (.verify p))).setFld (by simp)).setFld (by simp)).1
  · exact congrArg Host.Outcome.next (if_pos ⟨ha, hn⟩)

/-- Settles O14: GO by the three answers of MOD_ACC, the end of an access by the acknowledge, CTL by its two refusals and its effect. -/
theorem moduleAccessAndPortControl : Obligations.ModuleAccessAndPortControl := by
  unfold Obligations.ModuleAccessAndPortControl
  refine ⟨fun s p w ht => ?_, fun s p d hb => ⟨?_, ?_⟩, fun s p w ht => ?_⟩
  · refine ⟨exec_modAccGo_busy ht, exec_modAccGo_denied ht, fun hb hw => ?_⟩
    refine ⟨_, exec_modAccGo_taken ht hb hw, ?_, ?_, ?_, rfl, (s.takeModAcc_onlyRegs p _).answer⟩
    · rw [answer_flag, State.takeModAcc_busy _ hb]
    · rw [answer_flag, State.takeModAcc_nak]
    · rw [answer_flag, State.takeModAcc_done]
  · refine ⟨_, exec_modAccDone_nak hb, ?_, State.flag_on_same _ (by simp) (by simp), ?_⟩
    · exact (State.flag_setFld_ne _ 1 (by simp)).trans (s.flag_off_same (by simp))
    · exact ((OnlyRegs.refl _ s).setFld (by simp)).setFld (by simp)
  · refine ⟨_, exec_modAccDone_ack hb, ?_⟩
    have hreg : Reg.PORT_MOD_ACC p ≠ Reg.PORT_MOD_DATA p := by simp
    cases s.flag (Fd.PORT_MOD_ACC_WRITE p) with
    | true => exact ⟨s.doneModAcc_busy p, s.doneModAcc_done p, nofun, s.doneModAcc_onlyRegs p⟩
    | false =>
      refine ⟨?_, ?_, fun _ => ?_, (s.doneModAcc_onlyRegs p).setFld (by simp)⟩
      · exact (State.flag_setFld_ne _ _ (.inl hreg)).trans (s.doneModAcc_busy p)
      · exact (State.flag_setFld_ne _ _ (.inl hreg)).trans (s.doneModAcc_done p)
      · exact s.doneModAcc_setRdata p d
  · rw [exec_loopPcsWrite, exec_portSpeedWrite ht]
    refine ⟨fun hm => ?_, fun hm hw hl => ?_, fun hm hl hs => ⟨s.beforeCtl p w, rfl, ?_, rfl⟩⟩
    · rw [State.portCtl_drowse hm]
    · rw [State.portCtl_loopRefused hm hw hl]
    · rw [State.portCtl_named hm hl hs, State.ctlRenews]

end

section
/-!
SUPPORT. Ring frames: the verdicts of the window test, the header-time decision at a ring port, and the end of a reception.
-/

namespace Sys2Proof.Machine

variable {s : State} {f : Frame} {r : Reception} {p n id : Nat}

/-! ### The window test (03 R68) -/

section
variable {w v : Window} {q : BitVec 16}

theorem windowTest_invalid (hv : w.valid = false) : windowTest w q = .accept { valid := true, top := q, map := 1#128 } := by
  simp [windowTest, hv]

theorem windowTest_above (hv : w.valid = true) (ha : 1 ≤ (q - w.top).toNat ∧ (q - w.top).toNat ≤ 32767) :
    windowTest w q = .accept { valid := true, top := q, map := (w.map <<< (q - w.top).toNat) ||| 1#128 } := by
  simp [windowTest, hv, ha, -BitVec.toNat_sub]

/-- A SEQ that stands up to 127 below TOP does not stand above it. -/
theorem seq_not_above_of_back {top : BitVec 16} (hb : (top - q).toNat ≤ 127) :
    ¬ (1 ≤ (q - top).toNat ∧ (q - top).toNat ≤ 32767) := by
  bv_omega

theorem windowTest_back (hv : w.valid = true) (hb : (w.top - q).toNat ≤ 127) : windowTest w q =
    if w.map.getLsbD (w.top - q).toNat then .dup else .accept { w with map := w.map ||| (1#128 <<< (w.top - q).toNat) } := by
  simp [windowTest, hv, hb, seq_not_above_of_back hb, -BitVec.toNat_sub]

theorem windowTest_stale (hv : w.valid = true) (ha : ¬ (1 ≤ (q - w.top).toNat ∧ (q - w.top).toNat ≤ 32767))
    (hb : ¬ (w.top - q).toNat ≤ 127) : windowTest w q = .stale := by
  simp [windowTest, hv, ha, hb, -BitVec.toNat_sub]

/-- The bits of a map that moved up by `d`, with the bit of the new TOP. -/
theorem getLsbD_shiftLeft_or_one (m : BitVec 128) {d k : Nat} (hd : 1 ≤ d) (hk : k + d < 128) :
    (m <<< d ||| 1#128).getLsbD (k + d) = m.getLsbD k := by
  have hd0 : d ≠ 0 := Nat.ne_of_gt hd
  simp [-BitVec.getLsbD_eq_getElem, BitVec.getLsbD_shiftLeft, BitVec.getLsbD_one, hk, hd0]

/-- A map in which bit `k` was set. -/
theorem getLsbD_or_one_shiftLeft (m : BitVec 128) {k : Nat} (hk : k < 128) : (m ||| 1#128 <<< k).getLsbD k = true := by
  simp [-BitVec.getLsbD_eq_getElem, BitVec.getLsbD_shiftLeft, hk]

/-- The window holds `q`: it is within the map, and its bit is 1. -/
def Window.Holds (w : Window) (q : BitVec 16) : Prop :=
  w.valid = true ∧ (w.top - q).toNat ≤ 127 ∧ w.map.getLsbD (w.top - q).toNat = true

theorem windowTest_dup (h : w.Holds q) : windowTest w q = .dup := by
  obtain ⟨hv, hb, hm⟩ := h
  rw [windowTest_back hv hb, if_pos hm]

/-- What a window accepts it holds from then on. -/
theorem Window.holds_of_accept (h : windowTest w q = .accept v) : v.Holds q := by
  cases hv : w.valid with
  | false =>
    rw [windowTest_invalid hv] at h
    cases h
    simp [Window.Holds]
  | true =>
    by_cases ha : 1 ≤ (q - w.top).toNat ∧ (q - w.top).toNat ≤ 32767
    · rw [windowTest_above hv ha] at h
      cases h
      simp [Window.Holds]
    by_cases hb : (w.top - q).toNat ≤ 127
    · rw [windowTest_back hv hb] at h
      split at h <;> cases h
      exact ⟨hv, hb, getLsbD_or_one_shiftLeft w.map (by omega)⟩
    · rw [windowTest_stale hv ha hb] at h
      cases h

end

/-! ### The windows of a node (03 R68, R70) -/

theorem State.windowAccepts_absent (h : s.present (macNodeOf f.sa) = false) :
    s.windowAccepts f = (false, s.bump Reg.WARDEN_ABSENT_DROP) := by
  simp [State.windowAccepts, h]

section
variable (hp : s.present (macNodeOf f.sa) = true)
include hp

theorem State.windowAccepts_accept {w : Window} (h : windowTest (s.window (macNodeOf f.sa) f.cls.toNat) f.seq = .accept w) :
    s.windowAccepts f = (true, s.setWindow (macNodeOf f.sa) f.cls.toNat w) := by
  simp [State.windowAccepts, hp, h]

theorem State.windowAccepts_dup (h : windowTest (s.window (macNodeOf f.sa) f.cls.toNat) f.seq = .dup) :
    s.windowAccepts f = (false, s.bump Reg.WARDEN_DUP_DISCARD) := by
  simp [State.windowAccepts, hp, h]

theorem State.windowAccepts_stale (h : windowTest (s.window (macNodeOf f.sa) f.cls.toNat) f.seq = .stale) :
    s.windowAccepts f = (false, s.bump Reg.WARDEN_STALE_DISCARD) := by
  simp [State.windowAccepts, hp, h]

end

/-- An accepted frame changes a window and no register. -/
theorem State.windowAccepts_flag (ha : (s.windowAccepts f).1 = true) (x : Fld) : (s.windowAccepts f).2.flag x = s.flag x := by
  cases hp : s.present (macNodeOf f.sa) with
  | false => simp [State.windowAccepts_absent hp] at ha
  | true =>
    cases h : windowTest (s.window (macNodeOf f.sa) f.cls.toNat) f.seq with
    | accept w =>
      rw [State.windowAccepts_accept hp h]
      rfl
    | dup => simp [State.windowAccepts_dup hp h] at ha
    | stale => simp [State.windowAccepts_stale hp h] at ha

/-! ### The header at a ring port (03 R56, R65, R66) -/

theorem State.portCheck_badHchk (hu : s.portUsable p = true) (ht : f.etype = 0x88B5#16) (hc : f.hchk ≠ f.check) :
    s.portCheck p f = (false, s.bump (Reg.PORT_RX_HCHK_ERR p)) := by
  simp [State.portCheck, Frame.plainPtp, hu, ht, hc]

theorem State.portCheck_good (hu : s.portUsable p = true) (ht : f.etype = 0x88B5#16) (hc : f.hchk = f.check) :
    s.portCheck p f = (true, s) := by
  simp [State.portCheck, Frame.plainPtp, hu, ht, hc]

theorem State.startRx_idle (hr : s.rxOf p = none) (express : Bool) : s.startRx p express = s := by
  simp [State.startRx, hr]

theorem State.ringFrame_dropped {t : State} (hc : s.portCheck p f = (false, t)) : s.ringFrame p f = t := by
  simp [State.ringFrame, hc]

/-- A frame that passes the checks of an idle port is in reception as its header decided. -/
theorem State.ringFrame_decided {i : Option Nat} {u : RxUse} {t : State} (hc : s.portCheck p f = (true, s)) (hr : s.rxOf p = none)
    (hd : s.decide65 p f = (i, u, t)) : s.ringFrame p f = t.setRx { port := p, frame := f, stored := i, use := u } := by
  simp [State.ringFrame, hc, State.startRx_idle hr, hd]

theorem Frame.known_eq_false (h : f.ver ≠ 2#4 ∨ kindKnown f.kind = false) : f.known = false := by
  rcases h with h | h <;> simp [Frame.known, h]

theorem kindWindowed_iff (k : BitVec 5) : kindWindowed k = true ↔ k ≠ Kd.cycle ∧ k ≠ Kd.beacon ∧ k ≠ Kd.time := by
  simp [kindWindowed, and_assoc]

theorem State.decide65_own (hsa : f.sa = s.ownMac) (hi : s.hasIdentity = true) : s.decide65 p f = (none, .stripped,
    if isGroup f.da then s.bump Reg.WARDEN_STRIPPED else (s.bump Reg.WARDEN_STRIPPED).bump Reg.WARDEN_RET_UNICAST) := by
  rw [State.decide65, if_pos ⟨hsa, hi⟩]
  cases isGroup f.da <;> rfl

section
variable (hsa : f.sa ≠ s.ownMac)
include hsa

theorem State.decide65_unknown (hk : f.known = false) : s.decide65 p f =
    (((s.bump Reg.WARDEN_RX_UNKNOWN).forward f p []).1, .done, ((s.bump Reg.WARDEN_RX_UNKNOWN).forward f p []).2) := by
  simp [State.decide65, hsa, hk]

theorem State.decide65_misuse (hk : f.known = true) (hc : classMismatch f = true) :
    s.decide65 p f = (none, .done, s.bump Reg.WARDEN_CLASS_MISUSE) := by
  simp [State.decide65, hsa, hk, hc]

theorem State.decide65_badHeader (hk : f.known = true) (hc : classMismatch f = false) (hb : badHeader f = true) :
    s.decide65 p f = (none, .done, s.bump Reg.WARDEN_HDR_BAD) := by
  simp [State.decide65, hsa, hk, hc, hb]

variable (hi : s.hasIdentity = true) (hk : f.known = true) (hc : classMismatch f = false) (hb : badHeader f = false)
  (hw : kindWindowed f.kind = true)
include hi hk hc hb hw

/-- A windowed unicast frame for another node passes through. -/
theorem State.decide65_passing (hm : f.da ≠ s.ownMac) (hg : f.da ≠ macGateway s.ownRing) (ha : f.da ≠ macBroadcast s.ownRing) :
    s.decide65 p f = ((s.forward f p []).1, .done, (s.forward f p []).2) := by
  obtain ⟨h1, h2, h3⟩ := (kindWindowed_iff _).mp hw
  simp [State.decide65, hsa, hk, hc, hb, hi, h1, h2, h3, State.addressed, hm, hg, ha]

/-- A windowed frame for this node is queued for the local port. -/
theorem State.decide65_mine (hm : f.da = s.ownMac) (hd : f.dstRing.toNat = s.ownRing) (hp : s.path = 0) : s.decide65 p f =
    ((s.switchIn (s.arrival f p) [3]).1, .queued, (s.switchIn (s.arrival f p) [3]).2) := by
  obtain ⟨h1, h2, h3⟩ := (kindWindowed_iff _).mp hw
  simp [State.decide65, State.takeFrame, hsa, hk, hc, hb, hi, h1, h2, h3, State.addressed, hm, hd, hp]

end

/-! ### Forwarding (03 R64) -/

theorem State.forward_expired (hh : f.hops = 0#10) (l : List Nat) :
    s.forward f p l = (s.bump Reg.WARDEN_HOPS_EXPIRED).switchIn (s.arrival f p) l := by
  simp [State.forward, hh]

theorem State.forward_broken (hh : f.hops ≠ 0#10) (hu : s.portUsable (1 - p) = false) (l : List Nat) :
    s.forward f p l = (s.bump Reg.WARDEN_BREAK_DROP).switchIn (s.arrival f p) l := by
  simp [State.forward, hh, hu]

theorem State.forward_on (hh : f.hops ≠ 0#10) (hu : s.portUsable (1 - p) = true) (l : List Nat) :
    s.forward f p l = s.switchIn (s.arrival { f with hops := f.hops - 1#10 } p) ((1 - p) :: l) := by
  simp [State.forward, hh, hu]

/-! ### The end of a reception (02 R47, 04 R94, R103, R104) -/

theorem State.rxOf_port (hr : s.rxOf p = some r) : r.port = p := by
  simpa using List.find?_some hr

theorem State.frameUse_done (hu : r.use = .done) (good : Bool) : s.frameUse r good = s := by
  cases good <;> simp [State.frameUse, hu]

/-- The end of a frame with no further use is its verdict alone. -/
theorem State.received_rxEnd {e : RxEnd} (hr : s.rxOf p = some r) (hu : r.use = .done) (he : e ≠ .fragmentEnd ∧ e ≠ .continued) :
    s.received p e n = ((s.endRx p).rxEnd r e n).2 := by
  cases e with
  | fragmentEnd => exact absurd rfl he.1
  | continued => exact absurd rfl he.2
  | _ => simp only [State.received, hr, State.frameUse_done hu]

theorem State.endRx_overruns : (s.endRx p).overruns r n = s.overruns r n := rfl

section
variable {e : RxEnd} (hr : s.rxOf p = some r) (hs : r.stored = some id) (hu : r.use = .done) (hp : r.paused = false) (ht : r.tag = 0)
include hr hs hu hp ht

/-- What makes the frame errored counts, and the stored frame is spoiled. -/
theorem State.received_fault {a : Nat} (he : e ≠ .fragmentEnd ∧ e ≠ .continued) (ho : s.overruns r n = false)
    (hf : rxFault p e n 0 = some a) : s.received p e n = ((s.endRx p).bump a).spoil id := by
  simp [State.received_rxEnd hr hu he, State.rxEnd, State.endRx_overruns, State.onlyIf, State.receiveBad, State.rxOf_port hr, hs, hp, ht,
    ho, hf]

theorem State.received_good (ho : s.overruns r n = false) (hf : rxFault p .good n 0 = none) :
    s.received p .good n = ((s.endRx p).countRx p n).complete id n := by
  simp [State.received_rxEnd hr hu, State.rxEnd, State.endRx_overruns, State.onlyIf, State.rxOf_port hr, hs, hp, ht, ho, hf]

theorem State.received_overrun (ho : s.overruns r n = true) (hf : rxFault p .good n 0 = none) :
    s.received p .good n = (((s.endRx p).bump Reg.SWC_LEN_OVERRUN).countRx p n).spoil id := by
  simp [State.received_rxEnd hr hu, State.rxEnd, State.endRx_overruns, State.onlyIf, State.rxOf_port hr, hs, hp, ht, ho, hf]

end

theorem rxFault_short_or_long (h : n < 64 ∨ 1522 < n) : rxFault p .good n 0 = some (Reg.PORT_RX_LEN_ERR p) := by
  simp [rxFault, h]

theorem rxFault_good (h1 : 64 ≤ n) (h2 : n ≤ 1522) : rxFault p .good n 0 = none := by
  simp [rxFault, h1, h2]

theorem State.received_fragmentEnd (hr : s.rxOf p = some r) : s.received p .fragmentEnd n = s.fragmentIn r n := by
  simp only [State.received, hr]

theorem State.received_continued (hr : s.rxOf p = some r) : s.received p .continued n = s.fragmentOn r := by
  simp only [State.received, hr]

/-- A fragment of 64 bytes or more pauses the reception and changes no register and no copy. -/
theorem State.fragmentIn_pauses (hp : r.paused = false) (h2 : r.port ≠ 2) (hc : r.frame.cls ≠ 7#3) (hn : 64 ≤ n) :
    (s.fragmentIn r n).rxOf r.port = some { r with paused := true } ∧ (s.fragmentIn r n).sw.copies = s.sw.copies ∧
      SameRegs [] s (s.fragmentIn r n) ∧ SameBytes s (s.fragmentIn r n) := by
  have hok : (r.paused || r.port == 2 || r.frame.cls == 7#3 || decide (n < 64)) = false := by simp [hp, h2, hc, hn]
  simp only [State.fragmentIn, hok, Bool.false_eq_true, if_false]
  exact ⟨by simp [State.rxOf], rfl, fun _ _ => rfl, fun _ => rfl⟩

/-- The next fragment of a paused reception takes it up again and counts. -/
theorem State.fragmentOn_resumes (hp : r.paused = true) :
    (s.fragmentOn r).rxOf r.port = some { r with paused := false } ∧
      (s.fragmentOn r).rd (Reg.PORT_FRAG_RX r.port) =
        BitVec.ofNat 32 (min ((s.rd (Reg.PORT_FRAG_RX r.port)).toNat + 1) 0xFFFFFFFF) ∧
      SameRegs [Reg.PORT_FRAG_RX r.port] s (s.fragmentOn r) ∧ SameBytes s (s.fragmentOn r) := by
  simp only [State.fragmentOn, hp, Bool.not_true, Bool.false_eq_true, if_false]
  exact ⟨by simp [State.rxOf], State.rd_wr_same _ _ _, fun a ha => State.rd_wr_ne _ _ (by simpa using ha), fun _ => rfl⟩

/-! ### What this node consumes (03 R54, R68, R71) -/

section
variable (hu : r.use = .queued)
include hu

theorem State.consume_gone (hn : s.rxCopies r 3 = []) : s.consume r = s := by
  simp [State.consume, hu, RxUse.output, hn]

variable (hn : s.rxCopies r 3 ≠ []) (hp : r.port < 2) (hw : kindWindowed r.frame.kind = true)
include hn hp hw

theorem State.consume_discarded (hv : (s.windowAccepts r.frame).1 = false) : s.consume r =
    (s.windowAccepts r.frame).2.forEach ((s.windowAccepts r.frame).2.rxCopies r 3) State.dropCopy := by
  simp [State.consume, hu, RxUse.output, hn, hp, hw, hv]

theorem State.consume_accepted (hv : (s.windowAccepts r.frame).1 = true) (hl : r.frame.lenBad = false)
    (hj : s.flag Fd.WARDEN_RING_STAT_JOINED = true) : s.consume r = (s.windowAccepts r.frame).2 := by
  simp [State.consume, hu, RxUse.output, hn, hp, hw, hv, hl, State.windowAccepts_flag hv, hj]

end

end Sys2Proof.Machine
end

section
open Sys2Proof.Machine

/-- Settles O15: the verdict by where the SEQ stands to TOP; what was accepted the window holds, so it is a duplicate. -/
theorem windowTest : Obligations.WindowTest := by
  unfold Obligations.WindowTest
  refine ⟨fun w q => windowTest_invalid, fun w q hv h1 h2 => ?_, fun w q hv hb => ?_, fun w q hv ha hb => ?_, fun w v q h => ?_,
    fun s f => ⟨State.windowAccepts_absent, fun _ hp h => State.windowAccepts_accept hp h, State.windowAccepts_dup,
      State.windowAccepts_stale⟩⟩
  · exact ⟨_, windowTest_above hv ⟨h1, h2⟩, rfl, rfl, by simp, fun k => getLsbD_shiftLeft_or_one w.map h1⟩
  · rw [windowTest_back hv hb]
    exact ⟨fun hm => if_pos hm, fun hm => ⟨_, if_neg (by rw [hm]; exact Bool.false_ne_true), hv, rfl⟩⟩
  · exact windowTest_stale hv (by omega) (by omega)
  · exact windowTest_dup (Window.holds_of_accept h)

/-- Settles O16: at the header by what it decides, at the end by the verdict, the fragment or the tests of the consumer. -/
theorem framesOfTheRing : Obligations.FramesOfTheRing := by
  unfold Obligations.FramesOfTheRing
  refine ⟨fun s p f hu ht hc => ?_, fun s p f hu ht hc hi hr => ?_, fun s f p l => ?_, fun s p r id n hr hs hu hp htag => ?_,
    fun s p r n hr hp => ?_, fun s r hu hp hw => ?_⟩
  · exact congrArg Host.Outcome.next (State.ringFrame_dropped (State.portCheck_badHchk hu ht hc))
  · have decided {i : Option Nat} {u : RxUse} {t : State} (hd : s.decide65 p f = (i, u, t)) : exec (.ringFrameRx p f) s =
        .next (t.setRx { port := p, frame := f, stored := i, use := u }) :=
      congrArg Host.Outcome.next (State.ringFrame_decided (State.portCheck_good hu ht hc) hr hd)
    refine ⟨fun hsa => decided (State.decide65_own hsa hi),
      fun hsa hk => decided (State.decide65_unknown hsa (Frame.known_eq_false hk)), fun hsa hv hkind => ?_⟩
    have hk : f.known = true := by simp [Frame.known, hv, hkind]
    exact ⟨fun hm => decided (State.decide65_misuse hsa hk hm),
      fun hm hb => decided (State.decide65_badHeader hsa hk hm hb),
      fun hm hb hw ho hg ha => decided (State.decide65_passing hsa hi hk hm hb hw ho hg ha),
      fun hm hb hw ho hd hpath => decided (State.decide65_mine hsa hi hk hm hb hw ho hd hpath)⟩
  · exact ⟨fun hh => State.forward_expired hh l, fun hh hu => State.forward_broken hh hu l, fun hh hu => State.forward_on hh hu l⟩
  · have fault {e : RxEnd} {a : Nat} (ho : s.overruns r n.toNat = false) (he : e ≠ .fragmentEnd ∧ e ≠ .continued)
        (hf : rxFault p e n.toNat 0 = some a) : exec (.frameReceivedWhole p e n) s = .next (((s.endRx p).bump a).spoil id) :=
      congrArg Host.Outcome.next (State.received_fault hr hs hu hp htag he ho hf)
    refine ⟨fun ho => ⟨fault ho (by simp) rfl, fault ho (by simp) rfl, fault ho (by simp) rfl, fault ho (by simp) rfl,
      fun hn => fault ho (by simp) (rxFault_short_or_long hn), fun h1 h2 => ?_⟩, fun ho h1 h2 => ?_, fun h2 hc hn => ⟨_, rfl, ?_⟩⟩
    · exact congrArg Host.Outcome.next (State.received_good hr hs hu hp htag ho (rxFault_good h1 h2))
    · exact congrArg Host.Outcome.next (State.received_overrun hr hs hu hp htag ho (rxFault_good h1 h2))
    · have hport := State.rxOf_port hr
      rw [State.received_fragmentEnd hr, ← hport]
      exact State.fragmentIn_pauses hp (by omega) hc hn
  · refine ⟨_, rfl, ?_⟩
    rw [State.received_continued hr, ← State.rxOf_port hr]
    exact State.fragmentOn_resumes hp
  · exact ⟨State.consume_gone hu, fun hn => ⟨State.consume_discarded hu hn hp hw, State.consume_accepted hu hn hp hw⟩⟩

end

section
/-!
SUPPORT. The checks of a target (05 R121): what each refuses, and that none changes memory; access windows; arrival in a quiesce.
-/

namespace Sys2Proof.Machine

variable {s : State} {k : ReqKind} {q : Request}

/-! ### What a refusal leaves alone -/

theorem refuse_mem (st : Status) (s : State) : (refuse st s).2.mem = s.mem := by
  cases st <;> rfl

theorem State.onlyIf_mem {f : State → State} (c : Bool) (s : State) (h : ∀ t : State, (f t).mem = t.mem) :
    (s.onlyIf c f).mem = s.mem := by
  cases c with
  | false => rfl
  | true => exact h s

theorem State.dropStitchLock_mem (s : State) : s.dropStitchLock.mem = s.mem := by
  simp only [State.dropStitchLock]
  split <;> rfl

theorem State.releaseLock_mem (n : Nat) (s : State) : (s.releaseLock n).mem = s.mem :=
  s.onlyIf_mem _ State.dropStitchLock_mem

/-! ### Checks 2 to 6 -/

theorem State.checks_malformed (hf : formatOk k q = false) : s.checks k q = refuse .badRequest s := by
  simp [State.checks, hf]

theorem State.checks_unwindowed (hf : formatOk k q = true) (ho : s.ownReq q = false) (hw : s.windowGrants k q = false) :
    s.checks k q = (.denied, s.bump Reg.TXN_WIN_DENIED) := by
  simp [State.checks, hf, ho, hw]

theorem State.windowed_or_own (hg : s.ownReq q = true ∨ s.windowGrants k q = true) :
    (!s.ownReq q && !s.windowGrants k q) = false := by
  rcases hg with h | h <;> simp [h]

section
variable (hf : formatOk k q = true) (hg : s.ownReq q = true ∨ s.windowGrants k q = true)
include hf hg

theorem State.checks_stateRefused (hs : s.stateCheck q.addr.toNat ≠ .ok) :
    s.checks k q = refuse (s.stateCheck q.addr.toNat) s := by
  simp only [State.checks, hf, State.windowed_or_own hg, Bool.not_true, Bool.false_eq_true, if_false]

theorem State.checks_mapRefused (hs : s.stateCheck q.addr.toNat = .ok) (hm : s.mapCheck q.addr.toNat q.bytes.toNat ≠ .ok) :
    s.checks k q = refuse (s.mapCheck q.addr.toNat q.bytes.toNat) s := by
  simp only [State.checks, hf, State.windowed_or_own hg, hs, Bool.not_true, Bool.false_eq_true, if_false]

theorem State.checks_regionRefused (hs : s.stateCheck q.addr.toNat = .ok) (hm : s.mapCheck q.addr.toNat q.bytes.toNat = .ok)
    (hr : s.regionCheck k q ≠ .ok) : s.checks k q = refuse (s.regionCheck k q) s := by
  simp only [State.checks, hf, State.windowed_or_own hg, hs, hm, Bool.not_true, Bool.false_eq_true, if_false]

end

/-! ### Check 7: locks -/

theorem State.lockCheck_other {l : Nat × Lock} (hl : l ∈ s.txn.locks) (hh : l.2.holds q = false)
    (ht : l.2.touches q.addr.toNat q.bytes.toNat = true) (hr : k ≠ .read) (hw : k ≠ .lwrite) : s.lockCheck k q = (.busy, s) := by
  have hother : (s.txn.locks.any fun l => !l.2.holds q && l.2.touches q.addr.toNat q.bytes.toNat) = true :=
    List.any_eq_true.mpr ⟨l, hl, by simp [hh, ht]⟩
  cases k with
  | read => exact absurd rfl hr
  | lwrite => exact absurd rfl hw
  | _ => simp only [State.lockCheck, hother, Bool.true_or, if_true]

theorem State.lockCheck_lwrite_unlocked (h : ∀ l ∈ s.txn.locks, l.2.holds q = false) :
    s.lockCheck .lwrite q = (.lockBroken, s.bump Reg.TXN_LOCK_BROKEN_CNT) := by
  have hmine : (s.txn.locks.filter fun l => l.2.holds q) = [] := by simpa using h
  simp only [State.lockCheck, hmine]

theorem State.lockCheck_mem (k : ReqKind) (q : Request) (s : State) : (s.lockCheck k q).2.mem = s.mem := by
  cases k with
  | read => rfl
  | lread =>
    simp only [State.lockCheck]
    split
    · rfl
    · split
      · exact refuse_mem _ s
      · rfl
  | lwrite =>
    simp only [State.lockCheck]
    split
    · rfl
    · split
      · rfl
      · rw [refuse_mem, State.releaseLock_mem]
        exact s.onlyIf_mem _ fun _ => rfl
  | _ =>
    simp only [State.lockCheck]
    split <;> rfl

/-- No check changes memory. -/
theorem State.checks_mem (k : ReqKind) (q : Request) (s : State) : (s.checks k q).2.mem = s.mem := by
  unfold State.checks
  split
  · exact refuse_mem _ s
  · split
    · rfl
    · split
      · split
        · split
          · exact s.lockCheck_mem k q
          · exact refuse_mem _ s
        · exact refuse_mem _ s
      · exact refuse_mem _ s

/-! ### Access windows (05 R140) -/

/-- The bytes of an access window entry of four words. -/
def windowBytes (w0 w1 w2 w3 : Word) : List Byte :=
  leBytes 4 w0.toNat ++ leBytes 4 w1.toNat ++ leBytes 4 w2.toNat ++ leBytes 4 w3.toNat

theorem wordsLe_leBytes_append (w : Word) (l : List Byte) : wordsLe (leBytes 4 w.toNat ++ l) = w :: wordsLe l := by
  have h := wordsLe_leBytes w
  simp only [leBytes, wordsLe, List.cons.injEq, and_true] at h
  simp only [leBytes, List.cons_append, List.nil_append, wordsLe, h]

variable {w0 w1 w2 w3 : Word}

theorem wordsLe_windowBytes : wordsLe (windowBytes w0 w1 w2 w3) = [w0, w1, w2, w3] := by
  simp only [windowBytes, List.append_assoc, wordsLe_leBytes_append, wordsLe_leBytes]

theorem length_windowBytes : (windowBytes w0 w1 w2 w3).length = 16 := by
  simp [windowBytes, leBytes_length]

theorem windowOk_windowBytes_eq_false (h : bits w1 0 28 < bits w0 0 28 ∨ bits w2 9 9 < bits w2 0 9) :
    windowOk (windowBytes w0 w1 w2 w3) = false := by
  simpa only [windowOk, wordsLe_windowBytes, Bool.and_eq_false_iff, decide_eq_false_iff_not, Nat.not_le] using h

theorem windowFix_windowBytes : windowFix (windowBytes w0 w1 w2 w3) =
    windowBytes (0x8FFFFFFF#32 &&& w0) (0x0FFFFFFF#32 &&& w1) (0x07F3FFFF#32 &&& w2) (0x0000000F#32 &&& w3) := by
  rw [windowFix, wordsLe_windowBytes]
  simp [windowBytes]

/-- A field that a mask keeps whole. -/
theorem bits_mask (w : Word) {m : Word} {lo n : Nat} (h : ∀ i < n, m.getLsbD (lo + i) = true) : bits (m &&& w) lo n = bits w lo n := by
  simp only [bits]
  congr 1
  ext i hi
  simp [h i hi]

/-- The reserved bits are no part of what R140 compares. -/
theorem windowOk_windowFix_eq_false (h : bits w1 0 28 < bits w0 0 28 ∨ bits w2 9 9 < bits w2 0 9) :
    windowOk (windowFix (windowBytes w0 w1 w2 w3)) = false := by
  rw [windowFix_windowBytes]
  apply windowOk_windowBytes_eq_false
  rwa [bits_mask w0 (by decide), bits_mask w1 (by decide), bits_mask w2 (by decide), bits_mask w2 (by decide)]

/-- A write of exactly one entry that is not acceptable writes nothing. -/
theorem State.entryWrite_refused {base size i : Nat} {b : List Byte} {fix : List Byte → List Byte} {ok : List Byte → Bool}
    (hb : b.length = size) (hn : 0 < size) (h : ok (fix b) = false) :
    s.entryWrite base size (size * i) b fix ok = (false, refuse .badRequest s) := by
  have hone : (List.range ((size * i + b.length + size - 1) / size - size * i / size)).map (size * i / size + ·) = [i] := by
    rw [show size * i + b.length + size - 1 = (size - 1) + size * (i + 1) by rw [Nat.mul_add]; omega,
      Nat.add_mul_div_left _ _ hn, Nat.mul_div_cancel_left i hn, Nat.div_eq_of_lt (by omega)]
    simp
  have hbytes : ((List.range size).map fun j =>
      if size * i ≤ size * i + j ∧ size * i + j < size * i + b.length then b.getD (size * i + j - size * i) 0#8
      else s.byte (base + (size * i + j))) = b := by
    refine List.ext_getElem (by simp [hb]) fun j _ hj => ?_
    simp [hj]
  simp only [State.entryWrite, hone, List.foldl_cons, List.foldl_nil, hbytes, h, Bool.false_eq_true, if_false]

theorem State.windowWrite_refused {i : Nat} (hp : s.permits = true)
    (h : bits w1 0 28 < bits w0 0 28 ∨ bits w2 9 9 < bits w2 0 9) :
    s.windowWrite (16 * i) (windowBytes w0 w1 w2 w3) = refuse .badRequest s := by
  simp only [State.windowWrite, hp, State.entryWrite_refused length_windowBytes (by decide) (windowOk_windowFix_eq_false h),
    Bool.not_true, Bool.false_eq_true, if_false, State.onlyIf_false]

/-! ### A quiesce (05 R147) -/

theorem State.arrive_quiescing (hs : s.serving = true) (hq : s.flag Fd.TXN_TXN_STAT_QUIESCING = true) (hk : k ≠ .lwrite) :
    s.arrive k q = if k = .pwrite then (s.bump Reg.TXN_SERVE_BUSY).lateError q .busy
      else (s.bump Reg.TXN_SERVE_BUSY).reply k q .busy [] := by
  have hr : s.quiesced k q = true := by simp [State.quiesced, State.quiescing, hs, hq, hk]
  simp only [State.arrive, hr, if_true]

end Sys2Proof.Machine
end

section
open Sys2Proof.Machine

/-- Settles O22: the checks one after the other, each under what lets the earlier ones pass; then the windows and the quiesce. -/
theorem checksAtTheTarget : Obligations.ChecksAtTheTarget := by
  unfold Obligations.ChecksAtTheTarget
  refine ⟨fun s k q => State.checks_malformed, fun s k q => State.checks_unwindowed, fun s k q hf hg => ?_, fun s q => rfl,
    fun s k q l => State.lockCheck_other, fun s q => State.lockCheck_lwrite_unlocked, fun s k q => s.checks_mem k q,
    fun w0 w1 w2 w3 => windowOk_windowBytes_eq_false, fun s i w0 w1 w2 w3 _ => State.windowWrite_refused,
    fun s k q => State.arrive_quiescing⟩
  exact ⟨State.checks_stateRefused hf hg, State.checks_mapRefused hf hg, State.checks_regionRefused hf hg⟩

end

section
/-!
SUPPORT. The initiators (05 R129 to R133, R141) and the events of the transaction engine: tags, completions, NOTICEs, locks, quiesce.
-/

namespace Sys2Proof.Machine

variable {s : State} {k : ReqKind} {u : TagUse} {f : Frame} {i t ring node : Nat}

/-! ### What an update leaves alone -/

theorem SameBytes.of_mem {s t : State} (h : t.mem = s.mem) : SameBytes s t := fun a => congrArg (Tab.get 0#8 · a) h

theorem State.flag_congr {s t : State} {x : Fld} (h : t.rd x.reg = s.rd x.reg) : t.flag x = s.flag x := by
  rw [State.flag, State.fld, h]
  rfl

theorem State.expire_txn (s : State) (x : Timer) : (s.expire x).txn = s.txn := by
  obtain h | ⟨d, h⟩ := s.expire_cases x <;> rw [h] <;> rfl

theorem State.dropStitchLock_regs (s : State) : s.dropStitchLock.regs = s.regs := by
  simp only [State.dropStitchLock]
  split <;> rfl

theorem State.dropStitchLock_locks (s : State) : s.dropStitchLock.txn.locks = s.txn.locks.filter fun l => !l.2.stitch := by
  simp only [State.dropStitchLock]
  split <;> rfl

/-! ### Tags (05 R129, R131) -/

theorem State.setOutst_rd_same (s : State) (i v : Nat) : (s.setOutst i v).rd (Reg.TXN_OUTST i) = BitVec.ofNat 32 v := by
  have h : Reg.TXN_OUTST i ≠ Reg.TXN_PEAK_OUT i := by simp
  simp only [State.setOutst]
  split
  · rw [State.rd_wr_ne _ _ h, State.rd_wr_same]
  · exact s.rd_wr_same _ _

theorem State.setOutst_sameRegs (s : State) (i v : Nat) : SameRegs [Reg.TXN_OUTST i, Reg.TXN_PEAK_OUT i] s (s.setOutst i v) := by
  intro a ha
  obtain ⟨ho, hp⟩ : a ≠ Reg.TXN_OUTST i ∧ a ≠ Reg.TXN_PEAK_OUT i := by simpa using ha
  simp only [State.setOutst]
  split
  · rw [State.rd_wr_ne _ _ hp, State.rd_wr_ne _ _ ho]
  · exact s.rd_wr_ne _ ho

theorem State.setOutst_mem (s : State) (i v : Nat) : (s.setOutst i v).mem = s.mem := by
  simp only [State.setOutst]
  split <;> rfl

theorem State.setOutst_txn (s : State) (i v : Nat) : (s.setOutst i v).txn = s.txn := by
  simp only [State.setOutst]
  split <;> rfl

theorem State.setOutst_clk (s : State) (i v : Nat) : (s.setOutst i v).clk = s.clk := by
  simp only [State.setOutst]
  split <;> rfl

/-- Tag `t` stands for the request `u`. -/
def State.listTag (t : Nat) (u : TagUse) (s : State) : State := { s with txn := { s.txn with tags := (t, u) :: s.txn.tags } }

theorem State.takeTag_eq (s : State) (t : Nat) (u : TagUse) : s.takeTag t u =
    ((s.listTag t u).setOutst u.init ((s.rd (Reg.TXN_OUTST u.init)).toNat + 1)).arm (.tagTimeout t)
      (s.fld (Fd.TXN_TIMEOUT_TIME u.init) * usPs) := rfl

theorem State.takeTag_sameRegs (s : State) (t : Nat) {u : TagUse} (h : u.init = i) :
    SameRegs [Reg.TXN_OUTST i, Reg.TXN_PEAK_OUT i] s (s.takeTag t u) := by
  subst h
  intro a ha
  rw [State.takeTag_eq, State.arm_rd]
  exact (s.listTag t u).setOutst_sameRegs u.init _ a ha

theorem State.takeTag_outst (s : State) (t : Nat) (u : TagUse) :
    (s.takeTag t u).rd (Reg.TXN_OUTST u.init) = BitVec.ofNat 32 ((s.rd (Reg.TXN_OUTST u.init)).toNat + 1) := by
  rw [State.takeTag_eq, State.arm_rd, State.setOutst_rd_same]

theorem State.takeTag_mem (s : State) (t : Nat) (u : TagUse) : (s.takeTag t u).mem = s.mem := by
  rw [State.takeTag_eq, State.arm_mem, State.setOutst_mem, State.listTag]

theorem State.takeTag_lookup (s : State) (t : Nat) (u : TagUse) : (s.takeTag t u).txn.tags.lookup t = some u := by
  rw [State.takeTag_eq, State.arm_txn, State.setOutst_txn, State.listTag, List.lookup_cons_self]

theorem State.takeTag_deadline (s : State) (t : Nat) (u : TagUse) :
    (s.takeTag t u).deadline (.tagTimeout t) = some (s.clk + s.fld (Fd.TXN_TIMEOUT_TIME u.init) * usPs) := by
  rw [State.takeTag_eq, State.deadline_arm, State.setOutst_clk, State.listTag]

theorem State.takeTag_ownDst (s : State) (t : Nat) (u : TagUse) (ring node : Nat) :
    (s.takeTag t u).ownDst ring node = s.ownDst ring node := by
  have h : (s.takeTag t u).rd Reg.WARDEN_RING_ID = s.rd Reg.WARDEN_RING_ID := by
    refine s.takeTag_sameRegs t rfl _ ?_
    simp only [Reg.WARDEN_RING_ID, Reg.TXN_OUTST, Reg.TXN_PEAK_OUT, List.mem_cons, List.not_mem_nil, or_false]
    omega
  simp only [State.ownDst, State.ownRing, State.ownNode, State.fld, h]

/-- A tag that is freed stands for no request. -/
theorem State.freeTag_tags (s : State) (t : Nat) : ∀ e ∈ (s.freeTag t).txn.tags, e.1 ≠ t := by
  unfold State.freeTag
  cases h : s.txn.tags.lookup t with
  | none => exact fun e he heq => by simpa [heq] using List.lookup_eq_none_iff.mp h e he
  | some u =>
    have hf : ∀ e ∈ s.txn.tags.filter (fun e => e.1 != t), e.1 ≠ t := fun e he => by simpa using (List.mem_filter.mp he).2
    dsimp only
    split
    · exact hf
    · rw [State.setOutst_txn]
      exact hf

theorem State.freeTag_mem (s : State) (t : Nat) : (s.freeTag t).mem = s.mem := by
  unfold State.freeTag
  split
  · rfl
  · dsimp only
    split
    · rfl
    · exact State.setOutst_mem _ _ _

/-! ### Issuing a request (05 R129 to R133, R141) -/

theorem State.issue_tagged {hi : Nat} {c : BitVec 3} {fl : BitVec 6} {p : List Byte} {m : Nat} (hk : k ≠ .pwrite) (hr : ring ≠ 0)
    (ho : s.ownDst ring node = false) (hc : s.issueCheck i k hi ring node c.toNat = (.ok, s)) (ht : s.freeTagNo = some t) :
    s.issue i k hi ring node c fl p m =
      (s.takeTag t { quarantined := false, init := i, dstRing := BitVec.ofNat 6 ring, dstNode := BitVec.ofNat 9 node, kind := k,
                     bytes := fieldBE p 6 2 % 512, ttag := m }).queueFrame
        (s.formFrame k.code c fl (BitVec.ofNat 6 ring) (BitVec.ofNat 9 node) (BitVec.ofNat 9 t) 0#4 p) := by
  simp [State.issue, hr, hc, hk, ht, State.takeTag_ownDst, ho]

theorem State.issueCheck_quota {cls : Nat} (hh : s.anat.mainHeld = false) (hm : s.onRing = true) (hq : s.quiescing = false)
    (hj : s.flag Fd.WARDEN_RING_STAT_JOINED = true) (hc : cls ≠ 7) (hn : node ≠ 511) (ho : s.ownDst ring node = false)
    (hd : (s.daFor ring node).isSome = true) (he : s.egress i k ring node = true) (hk : k ≠ .pwrite)
    (hl : s.fld (Fd.TXN_INIT_CFG_QUOTA i) ≤ (s.rd (Reg.TXN_OUTST i)).toNat) :
    s.issueCheck i k 0 ring node cls = (.busy, s.bump Reg.TXN_QUOTA_BUSY) := by
  have hmode : s.mode ≠ .recovery ∧ s.mode ≠ .drowse ∧ s.mode ≠ .load ∧ s.mode ≠ .passThrough := by
    revert hm
    cases h : s.mode <;> simp [State.onRing, h]
  obtain ⟨h1, h2, h3, h4⟩ := hmode
  have hd' : (s.daFor ring node).isNone = false := by simpa using hd
  simp [State.issueCheck, hh, h1, h2, h3, h4, hm, hq, hj, hc, hn, ho, hd', he, hk, hl]

theorem exec_requestIssue {j : Fin 3} {dst : BitVec 64} {n : BitVec 9} {sz : BitVec 2} {d : List Byte} {c : BitVec 3} {fl : BitVec 6}
    (h : s.anat.kaHeld = false) : exec (.requestIssue j k dst n sz d c fl) s =
      .next (s.issue j.val k (dst.extractLsb' 55 9).toNat (dst.extractLsb' 49 6).toNat (dst.extractLsb' 40 9).toNat c fl
        (beBytes 5 (dst.extractLsb' 0 40).toNat ++ [BitVec.ofNat 8 (j.val * 16 + sz.toNat * 4)] ++ beBytes 2 n.toNat ++ d) 0) :=
  congrArg Host.Outcome.next (if_neg (by simp [h]))

/-! ### Completions (05 R131) -/

section
variable (hs : s.serving = true)
include hs

theorem State.cplRx_unknown (h : s.txn.tags.lookup f.tag.toNat = none) :
    s.cplRx f = (s.takeInbox f).bump Reg.TXN_LATE_CPL := by
  have hs' : (s.takeInbox f).serving = true := hs
  have h' : (s.takeInbox f).txn.tags.lookup f.tag.toNat = none := h
  simp [State.cplRx, hs', h']

theorem State.cplRx_late (h : s.txn.tags.lookup f.tag.toNat = some u)
    (hu : u.quarantined = true ∨ u.dstRing ≠ f.srcRing ∨ u.dstNode ≠ f.srcNode) :
    s.cplRx f = (s.takeInbox f).bump Reg.TXN_LATE_CPL := by
  have hs' : (s.takeInbox f).serving = true := hs
  have h' : (s.takeInbox f).txn.tags.lookup f.tag.toNat = some u := h
  simp only [State.cplRx, hs', h', Bool.not_true, Bool.false_eq_true, if_false]
  exact if_pos (by simpa [or_assoc] using hu)

theorem State.cplRx_ok (h : s.txn.tags.lookup f.tag.toNat = some u) (hq : u.quarantined = false) (hr : u.dstRing = f.srcRing)
    (hn : u.dstNode = f.srcNode) (hok : f.status = 0#4) : s.cplRx f =
      ((s.takeInbox f).freeTag f.tag.toNat).initCpl u.init (some f.tag.toNat) (some u) .ok (f.payload.take f.len.toNat) := by
  have hs' : (s.takeInbox f).serving = true := hs
  have h' : (s.takeInbox f).txn.tags.lookup f.tag.toNat = some u := h
  simp [State.cplRx, hs', h', hq, hr, hn, hok, Status.ofCode]

end

/-! ### NOTICEs (05 R145, R146) -/

/-- NOTICE_LAST takes the payload, a word each. -/
def State.storeNotice (p : List Byte) (s : State) : State :=
  s.forEach (List.range 6) fun w t => t.wr (Reg.TXN_NOTICE_LAST w) (BitVec.ofNat 32 (leVal ((p.drop (4 * w)).take 4)))

/-- Loads of several registers leave the others. -/
theorem State.forEach_wr_rd_ne {l : List Nat} {r : Nat → Nat} {v : Nat → Word} {a : Nat} (s : State) (h : ∀ w ∈ l, a ≠ r w) :
    (s.forEach l fun w t => t.wr (r w) (v w)).rd a = s.rd a :=
  State.forEach_induct (fun t => t.rd a = s.rd a) l _ s rfl fun w hw t ht => (t.rd_wr_ne _ (h w hw)).trans ht

/-- Each of several registers reads what was loaded. -/
theorem State.forEach_wr_rd {l : List Nat} {r : Nat → Nat} {v : Nat → Word} (hr : r.Injective) (hl : l.Nodup) (s : State) {w : Nat}
    (hw : w ∈ l) : (s.forEach l fun w t => t.wr (r w) (v w)).rd (r w) = v w := by
  induction l generalizing s with
  | nil => simp at hw
  | cons b l ih =>
    obtain ⟨hb, hl⟩ := List.nodup_cons.mp hl
    rcases List.mem_cons.mp hw with rfl | hw
    · refine (State.forEach_wr_rd_ne (s.wr (r w) (v w)) fun x hx => ?_).trans (s.rd_wr_same _ _)
      exact fun h => hb (hr h ▸ hx)
    · exact ih hl _ hw

theorem State.storeNotice_rd_ne {a : Nat} (p : List Byte) (s : State) (h : ∀ w < 6, a ≠ Reg.TXN_NOTICE_LAST w) :
    (s.storeNotice p).rd a = s.rd a := s.forEach_wr_rd_ne fun w hw => h w (List.mem_range.mp hw)

theorem State.storeNotice_rd {w : Nat} (p : List Byte) (s : State) (h : w < 6) :
    (s.storeNotice p).rd (Reg.TXN_NOTICE_LAST w) = BitVec.ofNat 32 (leVal ((p.drop (4 * w)).take 4)) :=
  State.forEach_wr_rd (r := fun w => Reg.TXN_NOTICE_LAST w) (v := fun w => BitVec.ofNat 32 (leVal ((p.drop (4 * w)).take 4)))
    (fun a b h => by simp only [Reg.TXN_NOTICE_LAST] at h; omega) List.nodup_range s (List.mem_range.mpr h)

theorem State.storeNotice_mem (p : List Byte) (s : State) : (s.storeNotice p).mem = s.mem :=
  State.forEach_induct (fun t => t.mem = s.mem) _ _ s rfl fun _ _ _ ht => ht

theorem State.storeNotice_out (p : List Byte) (s : State) : (s.storeNotice p).out = s.out :=
  State.forEach_induct (fun t => t.out = s.out) _ _ s rfl fun _ _ _ ht => ht

/-- What a NOTICE for the control processor does beside its interrupt. -/
def State.noteNotice (p : List Byte) (s : State) : State :=
  ((s.on Fd.TXN_EVT_LATE_ERR).bump Reg.TXN_NOTICE_RX).storeNotice p

theorem State.noticeRx_processor (hs : s.serving = true) (h1 : fieldBE f.payload 0 1 = 1) (h0 : fieldBE f.payload 1 1 % 16 = 0) :
    s.noticeRx f = ((s.takeInbox f).noteNotice f.payload).irq 0x30000 := by
  have hs' : (s.takeInbox f).serving = true := hs
  simp [State.noticeRx, hs', h1, h0, State.noteNotice, State.storeNotice]

theorem State.noteNotice_lateErr (p : List Byte) (s : State) : (s.noteNotice p).flag Fd.TXN_EVT_LATE_ERR = true := by
  calc
    _ = ((s.on Fd.TXN_EVT_LATE_ERR).bump Reg.TXN_NOTICE_RX).flag Fd.TXN_EVT_LATE_ERR :=
      State.flag_congr (State.storeNotice_rd_ne p _ fun w _ => by simp only [Reg.TXN_EVT, Reg.TXN_NOTICE_LAST]; omega)
    _ = (s.on Fd.TXN_EVT_LATE_ERR).flag Fd.TXN_EVT_LATE_ERR := State.flag_congr (State.rd_wr_ne _ _ (by decide))
    _ = true := State.flag_on_same _ (by simp) (by simp)

theorem State.noteNotice_count (p : List Byte) (s : State) : (s.noteNotice p).rd Reg.TXN_NOTICE_RX =
    BitVec.ofNat 32 (min ((s.rd Reg.TXN_NOTICE_RX).toNat + 1) 0xFFFFFFFF) := by
  rw [State.noteNotice, State.storeNotice_rd_ne p _ fun w _ => by simp only [Reg.TXN_NOTICE_RX, Reg.TXN_NOTICE_LAST]; omega,
    State.rd_bump, if_pos rfl, State.on, State.rd_setFld_ne _ _ _ (by decide)]

/-! ### Locks (05 R127) and the end of a quiesce (05 R148) -/

theorem State.releaseLock_locks (n : Nat) (s : State) : ∀ l ∈ (s.releaseLock n).txn.locks, l.1 ≠ n :=
  fun l hl => by simpa using (List.mem_filter.mp hl).2

theorem State.releaseLock_rd (n : Nat) (s : State) (a : Nat) : (s.releaseLock n).rd a = s.rd a := by
  have h : (s.releaseLock n).regs = s.regs := by
    change (s.onlyIf _ State.dropStitchLock).regs = s.regs
    unfold State.onlyIf
    split
    · exact s.dropStitchLock_regs
    · rfl
  rw [State.rd, h, State.rd]

theorem State.dropLocks_locks (s : State) : s.dropLocks.txn.locks = [] := by
  rw [State.dropLocks, State.dropStitchLock_locks]
  rfl

/-- Whatever the requests and tags leave, a quiesce ends with the locks dropped and its two flags loaded. -/
theorem State.endQuiesce_eq (s : State) : ∃ t : State, s.endQuiesce =
    ((t.dropLocks.cancel .quiesce).off Fd.TXN_TXN_STAT_QUIESCING).on Fd.TXN_TXN_STAT_QUIESCE_DONE := by
  unfold State.endQuiesce
  exact ⟨_, rfl⟩

theorem State.endQuiesce_locks (s : State) : s.endQuiesce.txn.locks = [] := by
  obtain ⟨t, ht⟩ := s.endQuiesce_eq
  rw [ht]
  exact t.dropLocks_locks

theorem State.endQuiesce_quiescing (s : State) : s.endQuiesce.flag Fd.TXN_TXN_STAT_QUIESCING = false := by
  obtain ⟨t, ht⟩ := s.endQuiesce_eq
  rw [ht]
  exact (State.flag_setFld_ne _ 1 (by simp)).trans (State.flag_off_same _ (by simp))

theorem State.endQuiesce_done (s : State) : s.endQuiesce.flag Fd.TXN_TXN_STAT_QUIESCE_DONE = true := by
  obtain ⟨t, ht⟩ := s.endQuiesce_eq
  rw [ht]
  exact State.flag_on_same _ (by simp) (by simp)

/-- Where neither Drowse nor an activation waits for it, the end of a quiesce is all that happens. -/
theorem exec_quiesceEnd (ha : s.armed .quiesce = true)
    (he : ((if s.quiet then s else s.expire .quiesce).endQuiesce).flag Fd.SYS_MODE_STAT_ENTERING = false)
    (hc : ((if s.quiet then s else s.expire .quiesce).endQuiesce).flag Fd.SYS_MODE_STAT_ACTIVATING = false) :
    exec .quiesceEnd s = .next ((if s.quiet then s else s.expire .quiesce).endQuiesce) := by
  refine congrArg Host.Outcome.next ((if_neg (by simp [ha])).trans ?_)
  simp only [he, hc, Bool.false_and, Bool.false_eq_true, if_false]

end Sys2Proof.Machine
end

section
open Sys2Proof.Machine

/-- Settles O23: each event by what it does once its guard holds. -/
theorem initiatorsAndTags : Obligations.InitiatorsAndTags := by
  unfold Obligations.InitiatorsAndTags
  refine ⟨fun s i k dst n sz d c fl t hka hk => ?_, fun s i k ring node cls => State.issueCheck_quota,
    fun s f hs => ⟨fun h => ?_, fun u h => ⟨fun hu => ?_, fun hq hr hn hok => ?_⟩⟩, fun s t ha => ?_, fun s t ha => ?_,
    fun s f hs h1 h0 => ?_, fun s k ha => ?_, fun s ha => ?_⟩
  · intro ring node p hr ho hc ht
    rw [exec_requestIssue hka, State.issue_tagged hk hr ho hc ht]
    refine ⟨_, rfl, State.takeTag_outst _ _ _, ?_, State.takeTag_deadline _ _ _, State.takeTag_sameRegs _ _ rfl,
      SameBytes.of_mem (State.takeTag_mem _ _ _)⟩
    rw [State.takeTag_lookup]
    rfl
  · exact congrArg Host.Outcome.next (State.cplRx_unknown hs h)
  · exact congrArg Host.Outcome.next (State.cplRx_late hs h hu)
  · exact congrArg Host.Outcome.next (State.cplRx_ok hs h hq hr hn hok)
  · exact congrArg Host.Outcome.next (State.expiry_armed _ _ s ha)
  · refine ⟨_, congrArg Host.Outcome.next (State.expiry_armed _ _ s ha), State.freeTag_tags _ _, SameBytes.of_mem ?_⟩
    rw [State.freeTag_mem, State.expire_mem]
  · refine ⟨_, congrArg Host.Outcome.next (State.noticeRx_processor hs h1 h0), State.noteNotice_lateErr _ _,
      State.noteNotice_count _ _, fun w hw => State.storeNotice_rd f.payload _ hw, ?_, SameBytes.of_mem ?_⟩
    · exact congrArg (_ :: ·) (State.storeNotice_out f.payload _)
    · exact State.storeNotice_mem f.payload _
  · refine ⟨_, congrArg Host.Outcome.next (State.expiry_armed _ _ s ha), State.releaseLock_locks _ _, ?_, fun a h => ?_,
      SameBytes.of_mem ?_⟩
    · rw [State.rd_bump, if_pos rfl, State.releaseLock_rd, State.expire_rd]
    · rw [State.rd_bump, if_neg (by simpa using h), State.releaseLock_rd, State.expire_rd]
    · exact (State.releaseLock_mem _ _).trans (s.expire_mem _)
  · exact ⟨State.endQuiesce_locks _, State.endQuiesce_quiescing _, State.endQuiesce_done _, exec_quiesceEnd ha⟩

end

section
/-!
SUPPORT. An LWRITE in DRAM whose lock carries the mark of the stitch bus: releasing it drops every lock with that mark.
-/

namespace Sys2Proof.Machine

/-! ### A completion leaves the locks alone (05 R120, R130) -/

theorem State.freeTag_locks (s : State) (t : Nat) : (s.freeTag t).txn.locks = s.txn.locks := by
  unfold State.freeTag
  split
  · rfl
  · dsimp only
    split
    · rfl
    · rw [State.setOutst_txn]
      rfl

theorem State.initCpl_locks (i : Nat) (t : Option Nat) (u : Option TagUse) (st : Status) (d : List Byte) (s : State) :
    (s.initCpl i t u st d).txn.locks = s.txn.locks := by
  cases u with
  | none => rfl
  | some u =>
    simp only [State.initCpl]
    split
    · rfl
    · split <;> rfl

theorem State.ownCpl_locks (q : Request) (st : Status) (d : List Byte) (s : State) :
    (s.ownCpl q st d).txn.locks = s.txn.locks := by
  unfold State.ownCpl
  split
  · split
    · rfl
    · rw [State.initCpl_locks, State.freeTag_locks]
  · rfl

theorem State.reply_locks (k : ReqKind) (q : Request) (st : Status) (d : List Byte) (s : State) :
    (s.reply k q st d).txn.locks = s.txn.locks := by
  unfold State.reply
  split
  · rfl
  · split
    · exact s.ownCpl_locks q st d
    · rfl

theorem State.complete1_locks (k : ReqKind) (q : Request) (st : Status) (d : List Byte) (s : State) :
    (s.complete1 k q st d).txn.locks = s.txn.locks := by
  unfold State.complete1
  split <;> exact State.reply_locks _ _ _ _ _

/-! ### The state -/

/-- An LWRITE of 4 bytes at the bottom of DRAM by this node's control processor. -/
def dramLwrite : Request :=
  { srcRing := 0#6, srcNode := 0#9, init := 0#4, cls := 6#3, flow := 0#6, tag := 0#9, addr := 0x20000000#40, bytes := 4#9,
    len := 12#12, data := [1#8, 2#8, 3#8, 4#8] }

/-- A lock of its holder on its block of DRAM, with the mark of the stitch bus. -/
def markedLock : Lock :=
  { ring := 0#6, node := 0#9, init := 0#4, cls := 6#3, flow := 0#6, lo := 0x20000000, hi := 0x20000040, stitch := true }

/-- In field service the LWRITE holds its serve entry, and two locks carry the mark. -/
def twoMarkedLocks : State :=
  { mode := .isolated, txn := { serve := [(.lwrite, dramLwrite)], locks := [(0, markedLock), (1, markedLock)] } }

theorem twoMarkedLocks_ready : Ready twoMarkedLocks .lwrite dramLwrite := by
  exact ⟨rfl, rfl, rfl, by decide, by decide, rfl, by decide, by decide⟩

/-- The release of lock 0 takes lock 1 with it. -/
theorem twoMarkedLocks_served : (twoMarkedLocks.serveReq .lwrite dramLwrite []).txn.locks = [] := by
  decide

end Sys2Proof.Machine
end

section
open Sys2Proof.Machine

/-- Refutes O21, in its clause on LWRITE: `Ready` admits a lock of DRAM that carries the mark of the stitch bus. Its release runs
`dropStitchLock`, which removes every lock so marked, where the clause has the lock of the LWRITE alone removed. No command takes
such a lock: `takeLock` never sets the mark, and the bridge sets it on locks of the stitch region only. -/
theorem not_memoryRequests : ¬ Obligations.MemoryRequests := by
  unfold Obligations.MemoryRequests
  rintro ⟨-, -, -, -, hlwrite, -⟩
  obtain ⟨u, hexec, -, -, hlocks, -⟩ := hlwrite _ _ (0, markedLock) twoMarkedLocks_ready (by decide)
  have hout : twoMarkedLocks.serveReq .lwrite dramLwrite [] = u.complete1 .lwrite dramLwrite .ok [] := Host.Outcome.next.inj hexec
  have hnone : u.txn.locks = [] := by rw [← u.complete1_locks .lwrite dramLwrite .ok [], ← hout, twoMarkedLocks_served]
  have hone : u.txn.locks = [(1, markedLock)] := hlocks
  exact absurd (hnone.symm.trans hone) (by decide)

end

section
/-!
SUPPORT. Cycle copies (06 R152 to R166): what a launch, a snapshot, a copy that passes, is read or is absorbed, and a take-over leave
alone and what they change.
-/

namespace Sys2Proof.Machine

variable {s t u : State} {f : Frame} {p i k : Nat}

/-! ### Streams and stores -/

theorem State.str_setStr_same (s : State) (i : Nat) (v : StreamState) : (s.setStr i v).str i = v := Tab.get_set_same _ _ _ _

theorem State.str_setStr_ne (s : State) (v : StreamState) {j : Nat} (h : j ≠ i) : (s.setStr i v).str j = s.str j :=
  Tab.get_set_ne _ _ _ _ h

theorem State.setStr_rd (i : Nat) (v : StreamState) (s : State) (a : Nat) : (s.setStr i v).rd a = s.rd a := rfl

theorem State.setStr_mem (i : Nat) (v : StreamState) (s : State) : (s.setStr i v).mem = s.mem := rfl

theorem State.bump_str (a : Nat) (s : State) (i : Nat) : (s.bump a).str i = s.str i := rfl

theorem State.toTime_regs (ns : Nat) (s : State) : (s.toTime ns).regs = s.regs := by
  unfold State.toTime
  split <;> rfl

theorem State.toTime_mem (ns : Nat) (s : State) : (s.toTime ns).mem = s.mem := by
  unfold State.toTime
  split <;> rfl

theorem State.rd_congr (h : t.regs = s.regs) (a : Nat) : t.rd a = s.rd a := by
  rw [State.rd, h]
  rfl

theorem State.str_congr (h : t.cyc.streams = s.cyc.streams) (i : Nat) : t.str i = s.str i := by
  rw [State.str, h]
  rfl

theorem State.toTime_rd (ns : Nat) (s : State) (a : Nat) : (s.toTime ns).rd a = s.rd a := State.rd_congr (s.toTime_regs ns) a

theorem State.toTime_flag (ns : Nat) (s : State) (x : Fld) : (s.toTime ns).flag x = s.flag x := State.flag_congr (s.toTime_rd ns _)

theorem State.toTime_portUsable (ns : Nat) (s : State) : (s.toTime ns).portUsable = s.portUsable :=
  funext fun p => by simp only [State.portUsable, State.linkIsUp, State.toTime_flag]

theorem State.toTime_ringOuts (ns : Nat) (s : State) : (s.toTime ns).ringOuts = s.ringOuts := by
  simp only [State.ringOuts, State.toTime_portUsable]

/-- A store changes memory alone. -/
theorem State.writeBytes_eq (a : Nat) (l : List Byte) (s : State) : s.writeBytes a l = { s with mem := (s.writeBytes a l).mem } := by
  induction l generalizing a s with
  | nil => rfl
  | cons b l ih => exact ih (a + 1) (s.setByte a b)

/-! ### The cycle of an instant (06 R151) -/

theorem State.cycFor_bounds {c : Nat} (h : s.cycNow i = some c) (lo : Nat) :
    c ≤ s.cycFor i lo ∧ s.cycFor i lo ≤ c + 1 ∧ (lo ≤ c + 1 → lo ≤ s.cycFor i lo) := by
  simp only [State.cycFor, h]
  split <;> omega

/-! ### Snapshots (06 R157) -/

theorem State.slotLen_congr (h : t.rd (Reg.CYC_STR_CFG i) = s.rd (Reg.CYC_STR_CFG i)) : t.slotLen i = s.slotLen i := by
  rw [State.slotLen, State.fld, h]
  rfl

/-- The snapshot of cycle `k` is `d`. -/
def State.snapped (k : Nat) (d : List Byte) (s : State) : State := s.setCyc { s.cyc with snapNext := k + 1, snap := some (k, d) }

theorem State.snapped_rd (k : Nat) (d : List Byte) (s : State) (a : Nat) : (s.snapped k d).rd a = s.rd a := rfl

theorem State.snapped_mem (k : Nat) (d : List Byte) (s : State) : (s.snapped k d).mem = s.mem := rfl

/-- A snapshot is taken at its instant: SLOT_LEN bytes, and the items sent as zero count. -/
theorem State.snapshot_takes (hr : s.cycRuns (s.fld Fd.CYC_PUB_CFG_STREAM) = true) (he : s.flag Fd.CYC_PUB_CFG_EN = true)
    (ho : s.onRing = true) : ∃ (ns n : Nat) (d : List Byte), d.length = s.slotLen (s.fld Fd.CYC_PUB_CFG_STREAM) ∧
      s.snapshot = ((s.toTime ns).bumpBy Reg.CYC_PUB_ZERO n).snapped (s.cycFor (s.fld Fd.CYC_PUB_CFG_STREAM)
        (max s.cyc.snapNext (max s.cyc.pubFrom (s.str (s.fld Fd.CYC_PUB_CFG_STREAM)).from_))) d := by
  simp only [State.snapshot, hr, he, ho, Bool.not_true, Bool.or_self, Bool.false_eq_true, if_false]
  refine ⟨_, _, _, ?_, rfl⟩
  rw [List.length_take, List.length_append, List.length_replicate, Nat.min_eq_left (Nat.le_add_left _ _)]
  refine State.slotLen_congr ?_
  rw [State.rd_bumpBy, if_neg (by dsimp only [Reg.CYC_STR_CFG, Reg.CYC_PUB_ZERO]; omega), State.toTime_rd]

/-! ### What the switch leaves alone -/

/-- The cycle engine, its registers and memory stand as before. -/
def CycleKept (s t : State) : Prop :=
  t.cyc = s.cyc ∧ t.mem = s.mem ∧ ∀ a, 0x40000 ≤ a → a < 0x50000 → t.rd a = s.rd a

theorem CycleKept.refl (s : State) : CycleKept s s := ⟨rfl, rfl, fun _ _ _ => rfl⟩

theorem CycleKept.str (h : CycleKept s t) (i : Nat) : t.str i = s.str i :=
  State.str_congr (congrArg Cycle.streams h.1) i

theorem CycleKept.wr {b : Nat} {v : Word} (h : CycleKept s t) (hb : b < 0x40000 ∨ 0x50000 ≤ b) : CycleKept s (t.wr b v) :=
  ⟨h.1, h.2.1, fun a h1 h2 => (t.rd_wr_ne v (by omega)).trans (h.2.2 a h1 h2)⟩

theorem CycleKept.ite {c : Prop} [Decidable c] (ht : CycleKept s t) (hu : CycleKept s u) : CycleKept s (if c then t else u) := by
  split <;> assumption

theorem CycleKept.ite_snd {α : Type} {c : Prop} [Decidable c] {x y : α × State} (hx : CycleKept s x.2) (hy : CycleKept s y.2) :
    CycleKept s (if c then x else y).2 := by
  split <;> assumption

theorem CycleKept.forEach {β : Type} {l : List β} {g : β → State → State} (h : CycleKept s t)
    (hg : ∀ b ∈ l, ∀ u, CycleKept s u → CycleKept s (g b u)) : CycleKept s (t.forEach l g) :=
  State.forEach_induct _ l g t h hg

theorem CycleKept.setPool {v : Nat} (h : CycleKept s t) : CycleKept s (t.setPool v) :=
  .ite ((h.wr (by decide)).wr (by decide)) (h.wr (by decide))

theorem CycleKept.setDepth {q v : Nat} (h : CycleKept s t) (hq : q < 32) : CycleKept s (t.setDepth q v) :=
  have hdepth : CycleKept s (t.wr (Reg.SWC_DEPTH q) (BitVec.ofNat 32 v)) := h.wr (by dsimp only [Reg.SWC_DEPTH]; omega)
  .ite (hdepth.wr (by dsimp only [Reg.SWC_PEAK]; omega)) hdepth

theorem CycleKept.countDrop {o c : Nat} {several : Bool} (h : CycleKept s t) (ho : o < 4) (hc : c < 8) :
    CycleKept s (t.countDrop o c several) :=
  have hdrop : CycleKept s (t.bump (Reg.SWC_DROP (8 * o + c))) := h.wr (by dsimp only [Reg.SWC_DROP]; omega)
  .ite (hdrop.wr (by dsimp only [Reg.SWC_MC_DROP]; omega)) hdrop

theorem CycleKept.place {a : Arrival} {c : Nat} {pt : Bool} {outs : List Nat} (h : CycleKept s t) (ho : ∀ o ∈ outs, o < 4)
    (hc : c < 8) : CycleKept s (t.place a c pt outs) := by
  have hforced : CycleKept s (t.forEach (outs.filter fun o => t.mixed a.input o) fun o => State.bump (Reg.PORT_SAF_FORCED o)) :=
    h.forEach fun o hm _ hu => hu.wr (by have := ho o (List.mem_filter.mp hm).1; dsimp only [Reg.PORT_SAF_FORCED]; omega)
  have hstored (b : Bool) : CycleKept s (State.onlyIf b (·.bump Reg.SWC_SAF_PREEMPT) _) := .ite (hforced.wr (by decide)) hforced
  exact .ite (hstored _) (CycleKept.setPool (CycleKept.forEach (hstored _) fun o hm _ hu =>
    hu.setDepth (by have := ho o hm; omega)))

theorem CycleKept.admitFull {a : Arrival} {c : Nat} {outs : List Nat} (h : CycleKept s t) (ho : ∀ o ∈ outs, o < 4) (hc : c < 8) :
    CycleKept s (t.admitFull a c outs).2 :=
  have hdrops : CycleKept s (t.forEach (outs.filter fun o => !t.roomAt o c a.frame.cells) fun o u =>
      u.countDrop o c (decide (1 < outs.length))) :=
    h.forEach fun o hm _ hu => hu.countDrop (ho o (List.mem_filter.mp hm).1) hc
  .ite_snd hdrops (hdrops.place (fun o hm => ho o (List.mem_filter.mp hm).1) hc)

theorem CycleKept.admitPt {a : Arrival} {outs : List Nat} (h : CycleKept s t) : CycleKept s (t.admitPt a outs).2 :=
  have hlow : ∀ o ∈ outs.filter (· < 2), o < 4 := fun o hm => by have := of_decide_eq_true (List.mem_filter.mp hm).2; omega
  have hdrops : ∀ l : List Nat, CycleKept s
      (t.forEach l fun _ u => u.bump (if (a.frame.cls == 7#3) = true then Reg.SWC_PT_DROP7 else Reg.SWC_PT_DROP)) :=
    fun l => h.forEach fun _ _ _ hu => hu.wr (by split <;> decide)
  .ite_snd (hdrops _) ((hdrops _).place (fun o hm => hlow o (List.mem_filter.mp hm).1) a.frame.cls.isLt)

theorem State.queueClass_lt (s : State) (i : Nat) {c : Nat} (hc : c < 8) : s.queueClass i c < 8 := by
  unfold State.queueClass
  split
  · exact hc
  · exact BitVec.isLt _

theorem CycleKept.switchIn {a : Arrival} {outs : List Nat} (h : CycleKept s t) (ho : ∀ o ∈ outs, o < 4) :
    CycleKept s (t.switchIn a outs).2 :=
  .ite_snd h (.ite_snd (h.admitFull ho (t.queueClass_lt a.input a.frame.cls.isLt)) h.admitPt)

theorem CycleKept.localIn {epoch : BitVec 16} {outs : List Nat} (h : CycleKept s t) (ho : ∀ o ∈ outs, o < 4) :
    CycleKept s (t.localIn f epoch outs) :=
  have hwait (l : List LocalFrame) : CycleKept s (State.noteWaiting { t with sw := { t.sw with waiting := l } }) :=
    CycleKept.wr (t := { t with sw := { t.sw with waiting := l } }) h (by decide)
  .ite (h.switchIn ho) (.ite (hwait _) (hwait _))

/-- A frame sent both ways takes its SEQ, and a place in the switch or a count. -/
theorem CycleKept.launch {epoch : BitVec 16} (h : CycleKept s t) : CycleKept s (t.launch f none epoch) :=
  have hd : CycleKept s (t.dress f none).2 := h
  have ho : ∀ o ∈ (t.dress f none).2.outsFor none, o < 4 := fun o hm => by
    have h01 : o ∈ [0, 1] := (List.mem_filter.mp hm).1
    simp only [List.mem_cons, List.not_mem_nil, or_false] at h01
    omega
  .ite (hd.wr (by decide)) (hd.localIn ho)

/-! ### Launch (06 R152, R163) -/

/-- The stream after the launch of cycle `k` on `n` ports. -/
def StreamState.launched (st : StreamState) (k n : Nat) : StreamState :=
  { st with launchNext := k + 1, due := n, retE := false, retW := false, echo := 0#256 }

/-- Stream `i`, so far at `st`, opens the account of the launch of cycle `k`: what the launch before still missed counts. -/
def State.opened (i k : Nat) (st : StreamState) (s : State) : State :=
  ((s.bumpBy Reg.CYC_RET_MISS st.due).bumpBy Reg.CYC_LAUNCH_CNT s.ringOuts.length).setStr i (st.launched k s.ringOuts.length)

section
variable (i k : Nat) (st : StreamState) (s : State)

theorem State.opened_str : (s.opened i k st).str i = st.launched k s.ringOuts.length := State.str_setStr_same _ _ _

theorem State.opened_missed : (s.opened i k st).rd Reg.CYC_RET_MISS =
    BitVec.ofNat 32 (min ((s.rd Reg.CYC_RET_MISS).toNat + st.due) 0xFFFFFFFF) := by
  rw [State.opened, State.setStr_rd, State.rd_bumpBy, if_neg (by decide), State.rd_bumpBy, if_pos rfl]

theorem State.opened_mem : (s.opened i k st).mem = s.mem := by
  rw [State.opened, State.setStr_mem, State.bumpBy_mem, State.bumpBy_mem]

end

/-- A launch opens its account at its instant and sends one frame both ways. -/
theorem State.cycLaunch_eq (h : s.launches i = true) : ∃ (ns : Nat) (f : Frame) (e : BitVec 16), s.cycLaunch i =
    ((s.toTime ns).opened i (s.cycFor i (max (s.str i).launchNext (s.str i).from_)) (s.str i)).launch f none e := by
  simp only [State.cycLaunch, h, Bool.not_true, Bool.false_eq_true, if_false]
  exact ⟨_, _, _, rfl⟩

/-! ### Copies in passing (06 R158) -/

theorem State.decide65_cycle (hsa : f.sa ≠ s.ownMac) (hkind : f.kind = Kd.cycle) (hv : f.ver = 2#4) (hc : f.cls = 7#3)
    (hb : badHeader f = false) : s.decide65 p f = ((s.passCycle p f).1, .cycle (s.passCycle p f).2.1 (s.passCycle p f).2.2.1,
      (s.passCycle p f).2.2.2) := by
  have hknown : f.known = true := by simp [Frame.known, hv, hkind, kindKnown]
  have hclass : classMismatch f = false := by simp [classMismatch, hkind, hc, kindIs7]
  have hbeacon : Kd.cycle ≠ Kd.beacon := by decide
  simp [State.decide65, hsa, hknown, hclass, hb, hkind, hbeacon]

section
variable (hu : s.portUsable (1 - p) = true)
include hu

theorem State.passCycle_unread (hr : s.cycReads (fieldBE f.payload 0 1 % 32) = false) :
    s.passCycle p f = ((s.forward f p []).1, none, false, (s.forward f p []).2) := by
  simp [State.passCycle, hr, hu]

theorem State.passCycle_current (hr : s.cycReads (fieldBE f.payload 0 1 % 32) = true)
    (hk : s.copyCycle (fieldBE f.payload 0 1 % 32) (fieldBE f.payload 4 4) = some k)
    (ht : s.cycTaken (fieldBE f.payload 0 1 % 32) k = true) :
    let g := { f with payload := if reflected f.payload then f.payload else s.filled (fieldBE f.payload 0 1 % 32) k f.payload }
    s.passCycle p f = ((s.forward g p []).1, some k, false, (s.forward g p []).2) := by
  have htaken : (some k).filter (s.cycTaken (fieldBE f.payload 0 1 % 32)) = some k := by simp [ht]
  simp only [State.passCycle, hr, hk, htaken]
  simp [reflected, hu]

end

/-! ### Copies that are read (06 R159) -/

/-- Copy `c` waits for its FCS check, in place of an earlier one of its port. -/
def State.staging (c : StagedCopy) (s : State) : State :=
  s.setCyc { s.cyc with staged := s.cyc.staged.filter (fun d => d.port != c.port) ++ [c] }

theorem State.staging_find (c : StagedCopy) (s : State) : ((s.staging c).cyc.staged.find? fun d => d.port == c.port) = some c := by
  show (s.cyc.staged.filter (fun d => d.port != c.port) ++ [c]).find? (fun d => d.port == c.port) = some c
  rw [List.find?_append, List.find?_eq_none.mpr (by simp)]
  simp

theorem State.staging_str (c : StagedCopy) (s : State) (i : Nat) : (s.staging c).str i = s.str i := rfl

/-- A copy of another node that is noted moves `seen` on and ends a take-over. -/
theorem State.noteCopy_foreign (hsa : f.sa ≠ s.ownMac) : (s.noteCopy i k f).str i =
    { s.str i with seen := k + 1, takeover := false, missed := 0 } := by
  rw [State.noteCopy, State.str_setStr_same]
  simp [hsa]

theorem State.readCopy_late (h : k < (s.str i).applyNext) (good : Bool) :
    s.readCopy p i k f good = (s.noteCopy i k f).bump Reg.CYC_SUB_LATE := if_pos h

section
variable (h : (s.str i).applyNext ≤ k)
include h

theorem State.readCopy_bad : s.readCopy p i k f false = (s.noteCopy i k f).bump Reg.CYC_COPY_BAD := if_neg (by omega)

theorem State.readCopy_good : s.readCopy p i k f true = (s.noteCopy i k f).staging ⟨p, i, k, s.slotsIn i k f.payload⟩ :=
  if_neg (by omega)

end

/-! ### The end of a copy (06 R159, R163) -/

section
variable {r : Reception}

theorem State.frameUse_cycle (hu : r.use = .cycle (some k) false) (hb : reflected r.frame.payload = false) (good : Bool) :
    s.frameUse r good = s.readCopy r.port (fieldBE r.frame.payload 0 1 % 32) k r.frame good := by
  simp [State.frameUse, State.copyIn, hu, hb]

theorem State.frameUse_ownCycle (hu : r.use = .stripped) (hkind : r.frame.kind = Kd.cycle) (good : Bool) :
    s.frameUse r good = if good then s.absorb r.frame else s := by
  have hbeacon : Kd.cycle ≠ Kd.beacon := by decide
  cases good <;> simp [State.frameUse, hu, hkind, hbeacon]

end

/-! ### Copies that are absorbed (06 R163) -/

theorem State.commitSlots_regs (l : List (Nat × List Byte)) : (s.commitSlots k l).regs = s.regs := by
  refine State.forEach_induct (fun t => t.regs = s.regs) l _ s rfl fun e _ t ht => ?_
  dsimp only
  split
  · exact ht
  · exact (congrArg State.regs (t.writeBytes_eq _ _)).trans ht

theorem State.commitSlots_streams (l : List (Nat × List Byte)) : (s.commitSlots k l).cyc.streams = s.cyc.streams := by
  refine State.forEach_induct (fun t => t.cyc.streams = s.cyc.streams) l _ s rfl fun e _ t ht => ?_
  split <;> exact ht

/-- The stream after a copy of its own launch has returned: one less is due, its direction is marked, its valid slots `m`
stand in ECHO. -/
def StreamState.absorbed (st : StreamState) (f : Frame) (m : BitVec 256) : StreamState :=
  { st with due := st.due - 1, retE := st.retE || !f.dir, retW := st.retW || f.dir, echo := st.echo ||| m }

/-- A copy has been absorbed and counted, stream `i` stands at `st`, and STR_STAT shows the directions that have returned. -/
def State.credited (i : Nat) (st : StreamState) (s : State) : State :=
  (((s.bump Reg.CYC_ABSORB_CNT).setStr i st).setFlag (Fd.CYC_STR_STAT_E_RET i) st.retE).setFlag (Fd.CYC_STR_STAT_W_RET i) st.retW

theorem State.credited_str (i : Nat) (st : StreamState) (s : State) : (s.credited i st).str i = st :=
  (s.bump Reg.CYC_ABSORB_CNT).str_setStr_same i st

theorem State.credited_count (i : Nat) (st : StreamState) (s : State) :
    (s.credited i st).rd Reg.CYC_ABSORB_CNT = (s.bump Reg.CYC_ABSORB_CNT).rd Reg.CYC_ABSORB_CNT := by
  have hne : Reg.CYC_ABSORB_CNT ≠ Reg.CYC_STR_STAT i := by dsimp only [Reg.CYC_ABSORB_CNT, Reg.CYC_STR_STAT]; omega
  exact (State.rd_setFld_ne _ _ _ hne).trans (State.rd_setFld_ne _ _ _ hne)

section
variable (hi : fieldBE f.payload 0 1 % 32 = i) (hr : s.cycRuns i = true) (ho : s.onRing = true) (hb : reflected f.payload = false)
  (h0 : (s.str i).launchNext ≠ 0) (hk : ((s.str i).launchNext - 1) % 2 ^ 32 = fieldBE f.payload 4 4)
include hi hr ho hb h0 hk

/-- A copy of the last launch is credited to its stream; its slots are committed, or it counts as late. -/
theorem State.absorb_eq : ∃ (m : BitVec 256) (l : List (Nat × List Byte)),
    s.absorb f = if (s.str i).launchNext - 1 < (s.str i).applyNext then
      (s.credited i ((s.str i).absorbed f m)).bump Reg.CYC_SUB_LATE
    else (s.credited i ((s.str i).absorbed f m)).commitSlots ((s.str i).launchNext - 1) l := by
  have hown : ¬ ((s.str i).launchNext = 0 ∨ ((s.str i).launchNext - 1) % 2 ^ 32 ≠ fieldBE f.payload 4 4) :=
    not_or.mpr ⟨h0, Classical.not_not.mpr hk⟩
  subst hi
  exact ⟨_, _, (if_neg (by simp [hr, ho, hb])).trans (if_neg hown)⟩

/-- Neither the late count nor the commits touch the stream and the count of the absorbed copies. -/
theorem State.absorb_returned : ∃ m : BitVec 256, (s.absorb f).str i = (s.str i).absorbed f m ∧
    (s.absorb f).rd Reg.CYC_ABSORB_CNT = (s.bump Reg.CYC_ABSORB_CNT).rd Reg.CYC_ABSORB_CNT := by
  obtain ⟨m, l, h⟩ := State.absorb_eq hi hr ho hb h0 hk
  have hstr := s.credited_str i ((s.str i).absorbed f m)
  have hcount := s.credited_count i ((s.str i).absorbed f m)
  refine ⟨m, ?_⟩
  rw [h]
  split
  · exact ⟨(State.bump_str _ _ _).trans hstr, by rw [State.rd_bump, if_neg (by decide), hcount]⟩
  · exact ⟨(State.str_congr (State.commitSlots_streams l) i).trans hstr, (State.rd_congr (State.commitSlots_regs l) _).trans hcount⟩

end

/-! ### Take-over (06 R153) -/

theorem State.cycTakeover_takes (hr : s.cycRuns i = true) (ho : s.onRing = true) (h2 : s.fld (Fd.CYC_STR_CFG_ROLE i) = 2)
    (hm : 3 ≤ (s.str i).missed) (ht : (s.str i).takeover = false) : s.cycTakeover i =
    (s.setStr i { s.str i with takeover := true, launchNext := max (s.str i).launchNext (s.str i).applyNext }).bump
      Reg.CYC_MASTER_TAKEOVER :=
  if_pos (by simp [hr, ho, h2, hm, ht])

end Sys2Proof.Machine
end

section
open Sys2Proof.Machine

/-- Settles O25: each event by what it does where its guard holds; the switch and the commits leave the streams alone. -/
theorem cycleCopies : Obligations.CycleCopies := by
  unfold Obligations.CycleCopies
  refine ⟨fun s hr he ho => ?_, fun s i h => ?_, fun s i lo c h => State.cycFor_bounds h lo,
    fun s p f e hkind => ⟨fun hsa hid => ?_, fun hno => ?_⟩,
    fun s p f hp ho ht hc hkind hv hcls hb hsa hr => ⟨fun hread => ?_, fun k hread hk htaken => ?_⟩, fun s r k good hu hb => ?_,
    fun s p i k f hsa => ⟨fun hlate => ?_, fun h => ?_, fun h => ?_⟩, fun s r hu hkind => ?_,
    fun s f i hi hr ho hb h0 hk => ?_,
    fun s i hr ho h2 hm ht => ?_⟩
  · obtain ⟨ns, n, d, hd, h⟩ := State.snapshot_takes hr he ho
    refine ⟨_, d, congrArg Host.Outcome.next h, rfl, hd, rfl, fun a ha => ?_, SameBytes.of_mem ?_⟩
    · rw [State.snapped_rd, State.rd_bumpBy, if_neg (by simpa using ha), State.toTime_rd]
    · rw [State.snapped_mem, State.bumpBy_mem, State.toTime_mem]
  · intro k
    obtain ⟨ns, f, e, heq⟩ := State.cycLaunch_eq h
    have hkept := (CycleKept.refl ((s.toTime ns).opened i k (s.str i))).launch (f := f) (epoch := e)
    have hstr := (hkept.str i).trans (State.opened_str _ _ _ _)
    rw [State.toTime_ringOuts] at hstr
    obtain ⟨-, hmem, hrd⟩ := hkept
    refine ⟨_, congrArg Host.Outcome.next heq, ?_⟩
    rw [hstr, hrd _ (by decide) (by decide), State.opened_missed, State.toTime_rd]
    exact ⟨rfl, rfl, rfl, rfl, rfl, SameBytes.of_mem (by rw [hmem, State.opened_mem, State.toTime_mem])⟩
  · exact congrArg Host.Outcome.next (if_pos ⟨hkind, hsa, hid⟩)
  · refine congrArg Host.Outcome.next (if_pos ⟨hkind, ?_⟩)
    rintro ⟨hsa, hid⟩
    simp [hsa, hid] at hno
  · refine State.ringFrame_decided (State.portCheck_good hp ht hc) hr ?_
    rw [State.decide65_cycle hsa hkind hv hcls hb, State.passCycle_unread ho hread]
  · refine State.ringFrame_decided (State.portCheck_good hp ht hc) hr ?_
    rw [State.decide65_cycle hsa hkind hv hcls hb, State.passCycle_current ho hread hk htaken]
  · exact State.frameUse_cycle hu hb good
  · exact ⟨s.noteCopy i k f, fun _ _ => rfl, State.readCopy_late hlate true⟩
  · exact ⟨s.noteCopy i k f, fun _ _ => rfl, State.readCopy_bad h⟩
  · refine ⟨(s.noteCopy i k f).staging ⟨p, i, k, s.slotsIn i k f.payload⟩, fun _ _ => rfl, State.readCopy_good h,
      State.staging_find ⟨p, i, k, _⟩ _, ?_⟩
    rw [State.staging_str, State.noteCopy_foreign hsa]
    exact ⟨rfl, rfl, rfl⟩
  · exact ⟨State.frameUse_ownCycle hu hkind false, State.frameUse_ownCycle hu hkind true⟩
  · obtain ⟨m, hstr, hcount⟩ := State.absorb_returned hi.symm hr ho hb h0 hk
    dsimp only
    rw [hstr, hcount, State.rd_bump, if_pos rfl]
    exact ⟨rfl, rfl, rfl, rfl, rfl⟩
  · refine ⟨_, congrArg Host.Outcome.next (State.cycTakeover_takes hr ho h2 hm ht), ?_, ?_, fun j hj => ?_, fun a ha => ?_,
      SameBytes.of_mem ?_⟩
    · rw [State.bump_str, State.str_setStr_same]
    · rw [State.rd_bump, if_pos rfl, State.setStr_rd]
    · rw [State.bump_str, State.str_setStr_ne _ _ hj]
    · rw [State.rd_bump, if_neg (by simpa using ha), State.setStr_rd]
    · rw [State.bump_mem, State.setStr_mem]

end

section
/-!
SUPPORT. What a field pin drives, its pull and its keeper (07 R174 to R179), and a write of OUT.
-/

namespace Sys2Proof.Machine

variable {s : State} {n : Nat}

theorem State.fld_wr_ne (s : State) {f : Fld} {a : Nat} (v : Word) (h : f.reg ≠ a) : (s.wr a v).fld f = s.fld f := by
  rw [State.fld, s.rd_wr_ne v h, State.fld]

/-! ### Levels of the driver (07 R174, R179) -/

theorem State.odValue_pushPull (h : s.flag (Fd.PIN_CFG_OD n) = false) (v : Bool) : s.odValue n v = some v := by
  simp [State.odValue, h]

theorem State.safeValue_pushPull (h : s.flag (Fd.PIN_CFG_OD n) = false) (c : Nat) :
    s.safeValue n c = match c with | 1 => some false | 2 => some true | _ => none := by
  simp only [State.safeValue, State.odValue_pushPull h]
  match c with
  | 0 | 1 | 2 | _ + 3 => rfl

/-! ### The driver by mode (07 R178) -/

theorem State.pinOwned_iff : s.pinOwned n = true ↔ s.fld (Fd.PIN_STAT_OWNER n) ≠ 0 := bne_iff_ne

theorem State.inField_iff : s.inField = true ↔ s.mode = .isolated ∨ s.mode = .seamless ∨ s.mode = .split := by
  simp only [State.inField, State.onRing, Bool.or_eq_true, beq_iff_eq]
  exact or_comm

theorem answer_pinDrive (st : Status) (t : State) (n : Nat) : (answer (st, t)).pinDrive n = t.pinDrive n := rfl

theorem State.pinDrive_off (h : s.anat.kaHeld = true ∨ s.anat.mainHeld = true ∨ s.anat.outputsReleased = true ∨
    s.bankFailed (n / 16) = true ∨ s.fld (Fd.PIN_STAT_OWNER n) = 0) : s.pinDrive n = none :=
  if_pos (by simpa [State.pinOwned, or_assoc] using h)

section
variable (hr : s.runs = true) (ho : s.anat.outputsReleased = false)
include hr ho

theorem State.pinsHeld_eq_false : s.pinsHeld = false := by
  obtain ⟨hk, hm⟩ := State.runs_iff.mp hr
  simp [State.pinsHeld, hk, hm, ho]

theorem State.pinPull_configured (hm : s.mode ≠ .recovery) (hf : s.fld (Fd.PIN_CFG_FUNC n) ≠ 1) :
    s.pinPull n = s.fld (Fd.PIN_CFG_PULL n) := by
  simp [State.pinPull, State.pinsHeld_eq_false hr ho, hm, hf]

theorem State.pinPull_off (h : s.mode = .recovery ∨ s.fld (Fd.PIN_CFG_FUNC n) = 1) : s.pinPull n = 0 := by
  simp [State.pinPull, State.pinsHeld_eq_false hr ho, h]

end

section
variable (hd : s.boot.drowsy = false)
include hd

theorem State.pinDrive_idleMode (hm : s.mode = .standby ∨ s.mode = .recovery ∨ s.mode = .load) : s.pinDrive n = none := by
  rw [State.pinDrive, hd]
  split
  · rfl
  · rcases hm with hm | hm | hm <;> simp [hm]

variable (hr : s.runs = true) (ho : s.anat.outputsReleased = false)
include hr ho

/-- A DROWSE level of 0b00 is the keeper's, owned or not. -/
theorem State.pinKeeper_drowse (hm : s.mode = .drowse) (h0 : s.fld (Fd.PIN_CFG_DROWSE n) = 0) : s.pinKeeper n = true := by
  simp [State.pinKeeper, State.pinsHeld_eq_false hr ho, hd, hm, h0]

theorem State.pinKeeper_passThrough (hm : s.mode = .passThrough) (hn : s.fld (Fd.PIN_STAT_OWNER n) ≠ 0)
    (h0 : s.fld (Fd.PIN_CFG_SAFE n) = 0) : s.pinKeeper n = true := by
  simp [State.pinKeeper, State.pinsHeld_eq_false hr ho, hd, hm, State.pinOwned_iff.mpr hn, h0]

variable (hb : s.bankFailed (n / 16) = false) (hn : s.fld (Fd.PIN_STAT_OWNER n) ≠ 0)
include hb hn

omit hd in
/-- Nothing keeps the driver of an owned pin off. -/
theorem State.pinDrive_enabled : (s.anat.kaHeld || s.anat.mainHeld || s.anat.outputsReleased || s.bankFailed (n / 16) || !s.pinOwned n)
    = false := by
  obtain ⟨hk, hm⟩ := State.runs_iff.mp hr
  simp [hk, hm, ho, hb, State.pinOwned_iff.mpr hn]

theorem State.pinDrive_inField (hf : s.inField = true) : s.pinDrive n =
    if s.fld (Fd.PIN_STAT_OWNER n) = 1 then s.odValue n ((s.rd (Reg.PB_OUT (n / 16))).getLsbD (n % 16))
    else if (s.pin n).enable then s.odValue n (s.pin n).value else none := by
  rw [State.pinDrive, State.pinDrive_enabled hr ho hb hn, hd, ← bits_beq_one]
  rcases State.inField_iff.mp hf with hm | hm | hm <;> rw [hm] <;> rfl

theorem State.pinDrive_passThrough (hm : s.mode = .passThrough) : s.pinDrive n = s.safeValue n (s.fld (Fd.PIN_CFG_SAFE n)) := by
  rw [State.pinDrive, State.pinDrive_enabled hr ho hb hn, hd, hm]
  rfl

theorem State.pinDrive_drowse (hm : s.mode = .drowse) : s.pinDrive n = s.safeValue n (s.fld (Fd.PIN_CFG_DROWSE n)) := by
  rw [State.pinDrive, State.pinDrive_enabled hr ho hb hn, hd, hm]
  rfl

end

/-! ### A write of OUT (07 R174) -/

/-- `w` has been written to OUT of bank `b`. -/
def State.loadOut (b : Nat) (w : Word) (s : State) : State := s.wr (Reg.PB_OUT b) (w &&& 0xFFFF#32)

theorem exec_outWrite {b : Fin 16} {w : Word} (ht : s.takes none = true) (ha : s.asleepOrLoading = false) :
    exec (.outWrite b w) s = .next (answer (.ok, s.loadOut b w)) := by
  have hout : s.outReg b (fun _ => w) = (.ok, s.loadOut b w) := if_neg (by simp [ha])
  rw [← hout]
  exact congrArg Host.Outcome.next (State.command_takes none _ ht)

theorem State.loadOut_bit (s : State) (b : Nat) (w : Word) {k : Nat} (hk : k < 16) :
    ((s.loadOut b w).rd (Reg.PB_OUT b)).getLsbD k = w.getLsbD k := by
  have hlow : (0xFFFF#32).getLsbD k = true := by
    revert k
    decide
  rw [State.loadOut, State.rd_wr_same, BitVec.getLsbD_and, hlow, Bool.and_true]

/-- The registers of the pins lie above those of the banks. -/
theorem State.loadOut_fld (s : State) {b : Nat} (w : Word) {f : Fld} (hb : b < 16) (hf : 0x58000 ≤ f.reg) :
    (s.loadOut b w).fld f = s.fld f :=
  s.fld_wr_ne _ (by dsimp only [Reg.PB_OUT]; omega)

/-- A software pin under push-pull shows its bit of OUT at once. -/
theorem State.loadOut_pinDrive {b k : Nat} {w : Word} (hd : s.boot.drowsy = false) (hr : s.runs = true)
    (ho : s.anat.outputsReleased = false) (hb : b < 16) (hk : k < 16) (hgood : s.bankFailed b = false) (hf : s.inField = true)
    (hn : s.fld (Fd.PIN_STAT_OWNER (16 * b + k)) = 1) (hod : s.flag (Fd.PIN_CFG_OD (16 * b + k)) = false) :
    (s.loadOut b w).pinDrive (16 * b + k) = some (w.getLsbD k) := by
  have hbank : (16 * b + k) / 16 = b := by omega
  have hpin : (16 * b + k) % 16 = k := by omega
  have howner : (s.loadOut b w).fld (Fd.PIN_STAT_OWNER (16 * b + k)) = 1 :=
    (s.loadOut_fld w hb (by dsimp only [Reg.PIN_STAT]; omega)).trans hn
  have hpush : (s.loadOut b w).flag (Fd.PIN_CFG_OD (16 * b + k)) = false := by
    rw [State.flag, s.loadOut_fld w hb (by dsimp only [Reg.PIN_CFG]; omega)]
    exact hod
  rw [State.pinDrive_inField (s := s.loadOut b w) hd hr ho (by rw [hbank]; exact hgood) (by rw [howner]; decide) hf, if_pos howner,
    State.odValue_pushPull hpush, hbank, hpin, s.loadOut_bit b w hk]

end Sys2Proof.Machine
end

section
open Sys2Proof.Machine

/-- Settles O28: the driver, the pull and the keeper by the mode; a write of OUT leaves the pin's own registers alone. -/
theorem whatAPinDrives : Obligations.WhatAPinDrives := by
  unfold Obligations.WhatAPinDrives
  refine ⟨fun s n => State.pinDrive_off, fun s n hr ho hb hd => ?_, fun s b k w ht ha hf hd ho hb hn hod => ?_⟩
  · refine ⟨fun hf hn => ?_, fun hf hn hod => ?_, fun hm hn hod => ?_, fun hm hn hod => ?_, State.pinDrive_idleMode hd,
      State.pinKeeper_drowse hd hr ho, State.pinKeeper_passThrough hd hr ho, State.pinPull_configured hr ho, State.pinPull_off hr ho⟩
    · rw [State.pinDrive_inField hd hr ho hb (by omega) hf, if_pos hn, State.odValue, Bool.and_comm]
      simp only [Bool.and_eq_true]
    · rw [State.pinDrive_inField hd hr ho hb (by omega) hf, if_neg (by omega), State.odValue_pushPull hod]
    · exact (State.pinDrive_passThrough hd hr ho hb hn hm).trans (State.safeValue_pushPull hod _)
    · exact (State.pinDrive_drowse hd hr ho hb hn hm).trans (State.safeValue_pushPull hod _)
  · have hrun : s.runs = true := by simp only [State.takes, Bool.and_eq_true] at ht; exact ht.1.1
    refine ⟨_, exec_outWrite ht ha, ?_⟩
    rw [answer_pinDrive]
    exact State.loadOut_pinDrive hd hrun ho b.isLt k.isLt hb hf hn hod

end

section
/-!
SUPPORT. The edge journal (07 R181 to R190): the record's bytes, the burst FIFOs, positions, what a reader notes, the writer and a
restart.
-/

namespace Sys2Proof.Machine

variable {s t u : State} {l m : List Nat} {r i : Nat}

/-! ### Memory, burst FIFOs and registers left alone -/

/-- Memory, the burst FIFOs and every register but those of `l` stand as before. -/
def JournalKept (l : List Nat) (s t : State) : Prop := SameRegs l s t ∧ t.mem = s.mem ∧ t.fifos = s.fifos

theorem JournalKept.refl (l : List Nat) (s : State) : JournalKept l s s := ⟨fun _ _ => rfl, rfl, rfl⟩

theorem JournalKept.wr {a : Nat} {v : Word} (h : JournalKept l s t) (ha : a ∈ l) : JournalKept l s (t.wr a v) := by
  obtain ⟨hr, hm, hf⟩ := h
  exact ⟨fun x hx => (t.rd_wr_ne v (ne_of_mem_of_not_mem ha hx).symm).trans (hr x hx), hm, hf⟩

theorem JournalKept.setFld {f : Fld} {v : Nat} (h : JournalKept l s t) (hf : f.reg ∈ l) : JournalKept l s (t.setFld f v) := h.wr hf

theorem JournalKept.ite {c : Prop} [Decidable c] (ht : JournalKept l s t) (hu : JournalKept l s u) :
    JournalKept l s (if c then t else u) := by
  split <;> assumption

theorem JournalKept.trans (h : JournalKept l s t) (h' : JournalKept m t u) : JournalKept (l ++ m) s u := by
  obtain ⟨hr, hm, hf⟩ := h
  obtain ⟨hr', hm', hf'⟩ := h'
  refine ⟨fun a ha => ?_, hm'.trans hm, hf'.trans hf⟩
  obtain ⟨hl, hl'⟩ := not_or.mp (mt List.mem_append.mpr ha)
  exact (hr' a hl').trans (hr a hl)

/-- The registers in which an event of the station function shows. -/
def stationRegs : List Nat := [Reg.USB_EVT_LOST, Reg.USB_WAKE_SRC]

theorem mem_stationRegs {a : Nat} : a ∈ stationRegs ↔ a = 0xD010C ∨ a = 0xD0010 := by
  simp [stationRegs]

/-- An event of the station function changes its own state and two registers of the USB block (11 R277, R282). -/
theorem State.stationEvent_kept (code arg : Nat) (s : State) : JournalKept stationRegs s (s.stationEvent code arg) := by
  have hwake (v : State) (h : JournalKept stationRegs s v) : JournalKept stationRegs s (v.requestWake none) :=
    .ite h (.ite ((h.setFld (by decide)).setFld (by decide)) (h.setFld (by decide)))
  exact .ite (.wr (t := { s with usb := { s.usb with evLost := true } }) (.refl _ s) (by decide))
    (.ite (hwake _ (.refl _ s)) (.refl _ s))

/-! ### 64-bit positions (07 R185, 18 R443) -/

theorem State.rd64_wr64 (s : State) {lo hi v : Nat} (hne : lo ≠ hi) (hv : v < 2 ^ 64) : (s.wr64 lo hi v).rd64 lo hi = v := by
  rw [State.rd64, State.wr64, State.rd_wr_ne _ _ hne, State.rd_wr_same, State.rd_wr_same, BitVec.toNat_ofNat, BitVec.toNat_ofNat]
  omega

theorem State.add64_eq (s : State) (lo hi n : Nat) : s.add64 lo hi n = s.wr64 lo hi (min (s.rd64 lo hi + n) (2 ^ 64 - 1)) := rfl

theorem State.rd64_congr {lo hi : Nat} (hlo : t.rd lo = s.rd lo) (hhi : t.rd hi = s.rd hi) : t.rd64 lo hi = s.rd64 lo hi := by
  rw [State.rd64, hlo, hhi, State.rd64]

theorem State.rd64_lt (s : State) (lo hi : Nat) : s.rd64 lo hi < 2 ^ 64 := by
  have := (s.rd lo).isLt
  have := (s.rd hi).isLt
  rw [State.rd64]
  omega

/-- Loading a register pair changes no other register. -/
theorem State.wr64_onlyRegs (s : State) (lo hi v : Nat) : OnlyRegs [lo, hi] s (s.wr64 lo hi v) :=
  ((OnlyRegs.refl _ s).wr (by simp)).wr (by simp)

theorem OnlyRegs.kept (h : OnlyRegs l s t) : JournalKept l s t := by
  obtain ⟨hr, ht⟩ := h
  exact ⟨hr, by rw [ht], by rw [ht]⟩

/-! ### A record (07 R181) -/

theorem JRec.encode_length (r : JRec) (q : Nat) : (r.encode q).length = 16 := by
  simp [JRec.encode, leBytes_length]

/-! ### The burst FIFOs (07 R184) -/

theorem State.pushRec_room {r : JRec} (h : (Tab.get [] s.fifos i).length < fifoCap i) :
    Tab.get [] (s.pushRec i r).fifos i = Tab.get [] s.fifos i ++ [{ r with lost := r.lost || s.fifoLost.contains i }] ∧
    SameRegs [] s (s.pushRec i r) := by
  simp only [State.pushRec, h, if_true]
  exact ⟨Tab.get_set_same _ _ _ _, fun _ _ => rfl⟩

/-- Burst FIFO `i` has lost a record: its next one carries LOST, and the loss counts. -/
def State.loseRec (i : Nat) (s : State) : State :=
  State.bump Reg.JRN_LOST_TOTAL { s with fifoLost := i :: s.fifoLost.filter (· != i) }

/-- A full burst FIFO counts the loss in its own counter too, where it has one. -/
theorem State.pushRec_full {r : JRec} (h : fifoCap i ≤ (Tab.get [] s.fifos i).length) :
    s.pushRec i r = match lostCounter i with
      | some f => (s.loseRec i).bumpFld f 1
      | none => s.loseRec i := by
  rw [State.pushRec]
  exact if_neg (by omega)

/-- No FIFO's own counter lies in LOST_TOTAL. -/
theorem lostCounter_reg {f : Fld} (h : lostCounter i = some f) : Reg.JRN_LOST_TOTAL ≠ f.reg := by
  unfold lostCounter at h
  split at h
  · obtain rfl := Option.some.inj h
    dsimp only [Reg.JRN_LOST_TOTAL, Reg.PIN_CNT]
    omega
  · split at h
    · obtain rfl := Option.some.inj h
      dsimp only [Reg.JRN_LOST_TOTAL, Reg.BOB_JLOST]
      omega
    · split at h
      · obtain rfl := Option.some.inj h
        dsimp only [Reg.JRN_LOST_TOTAL, Reg.CAN_JLOST]
        omega
      · split at h
        · obtain rfl := Option.some.inj h
          dsimp only [Reg.JRN_LOST_TOTAL, Reg.PIC_JLOST]
          omega
        · cases h

theorem State.pushRec_loses {r : JRec} (h : fifoCap i ≤ (Tab.get [] s.fifos i).length) : (s.pushRec i r).fifos = s.fifos ∧
    (s.pushRec i r).fifoLost.contains i = true ∧
    (s.pushRec i r).rd Reg.JRN_LOST_TOTAL = BitVec.ofNat 32 (min ((s.rd Reg.JRN_LOST_TOTAL).toNat + 1) 0xFFFFFFFF) := by
  have hlost : (s.loseRec i).fifoLost.contains i = true := by simp [State.loseRec]
  have hcount : (s.loseRec i).rd Reg.JRN_LOST_TOTAL = BitVec.ofNat 32 (min ((s.rd Reg.JRN_LOST_TOTAL).toNat + 1) 0xFFFFFFFF) := by
    rw [State.loseRec, State.rd_bump, if_pos rfl]
    rfl
  rw [State.pushRec_full h]
  split
  · next f hf => exact ⟨rfl, hlost, (State.rd_setFld_ne _ _ _ (lostCounter_reg hf)).trans hcount⟩
  · exact ⟨rfl, hlost, hcount⟩

/-! ### What a reader notes (07 R189, R190) -/

/-- A level newly reached sets its event. -/
def State.noteLevel (r : Nat) (s before : State) : State :=
  s.onlyIf (s.levelReached r && !before.levelReached r) (State.on ⟨Reg.JRN_EVT, r, 1⟩)

/-- An overrun counts, OVR is set, and the event of the reader. -/
def State.countOverrun (r : Nat) (s : State) : State :=
  ((s.bump Reg.JRN_OVR_CNT).on (Fd.RD_RD_STAT_OVR r)).on ⟨Reg.JRN_EVT, 4 + r, 1⟩

/-- The overrun of the reader that streams is an event of the station function and moves its position on. -/
def State.noteOverrun (r : Nat) (s : State) : State :=
  let t := (s.countOverrun r).onlyIf (r == 2) (State.stationEvent 0x03 0)
  if r = 2 ∧ s.streaming = true then t.wr64 (Reg.RD_RD_POS_LO 2) (Reg.RD_RD_POS_HI 2) (s.wrTotal - s.jrnCap) else t

/-- The registers in which reader `r` notes a level and an overrun. -/
def noteRegs (r : Nat) : List Nat := [Reg.JRN_EVT, Reg.RD_RD_STAT r, Reg.JRN_OVR_CNT]

theorem mem_noteRegs {a : Nat} : a ∈ noteRegs r ↔ a = 0x60020 ∨ a = 0x6010C + 0x20 * r ∨ a = 0x60204 := by
  simp [noteRegs]

/-- The registers that follow an overrun: those of its event, and the position of the reader that streams. -/
def movedRegs : List Nat := stationRegs ++ [Reg.RD_RD_POS_LO 2, Reg.RD_RD_POS_HI 2]

theorem mem_movedRegs {a : Nat} : a ∈ movedRegs ↔ a = 0xD010C ∨ a = 0xD0010 ∨ a = 0x60140 ∨ a = 0x60144 := by
  simp [movedRegs, stationRegs]

theorem OnlyRegs.noteLevel {before : State} (h : OnlyRegs l s t) (he : Reg.JRN_EVT ∈ l) : OnlyRegs l s (t.noteLevel r before) := by
  unfold State.noteLevel State.onlyIf
  split
  · exact h.setFld he
  · exact h

theorem OnlyRegs.countOverrun (h : OnlyRegs l s t) (he : Reg.JRN_EVT ∈ l) (hs : Reg.RD_RD_STAT r ∈ l) (hc : Reg.JRN_OVR_CNT ∈ l) :
    OnlyRegs l s (t.countOverrun r) := ((h.wr hc).setFld hs).setFld he

theorem State.noteLevel_onlyRegs (r : Nat) (s before : State) : OnlyRegs [Reg.JRN_EVT] s (s.noteLevel r before) :=
  (OnlyRegs.refl _ s).noteLevel (by simp)

/-- A change of EVT alone leaves the positions, and what follows from them. -/
theorem OnlyRegs.reader_congr (h : OnlyRegs [Reg.JRN_EVT] s t) (r : Nat) :
    t.wrTotal = s.wrTotal ∧ t.rdPos r = s.rdPos r ∧ t.jrnCap = s.jrnCap ∧ t.streaming = s.streaming ∧
    t.overrun r = s.overrun r := by
  obtain ⟨hr, -⟩ := h
  have hne {a : Nat} (ha : 0x60020 ≠ a) : t.rd a = s.rd a := hr a (by simpa using ha.symm)
  have htotal : t.wrTotal = s.wrTotal := State.rd64_congr (hne (by decide)) (hne (by decide))
  have hpos : t.rdPos r = s.rdPos r :=
    State.rd64_congr (hne (a := 0x60100 + 0x20 * r) (by omega)) (hne (a := 0x60104 + 0x20 * r) (by omega))
  have hcap : t.jrnCap = s.jrnCap := congrArg BitVec.toNat (hne (by decide))
  refine ⟨htotal, hpos, hcap, State.flag_congr (hne (by decide)), ?_⟩
  rw [State.overrun, State.behind, htotal, hpos, hcap, State.overrun, State.behind]

/-- What a new position does for a reader: a level newly reached is noted, then an overrun. -/
theorem State.noteReader_eq (r : Nat) (t s : State) : t.noteReader r s =
    if t.overrun r && !s.overrun r then (t.noteLevel r s).noteOverrun r else t.noteLevel r s := by
  obtain ⟨-, -, -, -, hov⟩ := (t.noteLevel_onlyRegs r s).reader_congr r
  rw [← hov]
  rfl

/-- Where the reader does not stream the overrun is counted and at most becomes an event. -/
theorem State.noteOverrun_still (h : ¬ (r = 2 ∧ s.streaming = true)) :
    s.noteOverrun r = (s.countOverrun r).onlyIf (r == 2) (State.stationEvent 0x03 0) := if_neg h

theorem State.noteOverrun_streaming (h : s.streaming = true) : s.noteOverrun 2 =
    ((s.countOverrun 2).stationEvent 0x03 0).wr64 (Reg.RD_RD_POS_LO 2) (Reg.RD_RD_POS_HI 2) (s.wrTotal - s.jrnCap) := if_pos ⟨rfl, h⟩

theorem State.stationNote_kept (r : Nat) (s : State) :
    JournalKept stationRegs s (s.onlyIf (r == 2) (State.stationEvent 0x03 0)) :=
  .ite (s.stationEvent_kept 3 0) (.refl _ s)

/-- Once the overrun is counted only the station function and the position of the reader that streams move. -/
theorem State.noteOverrun_counted (r : Nat) (s : State) :
    JournalKept movedRegs (s.countOverrun r) (s.noteOverrun r) := by
  have h := (s.countOverrun r).stationNote_kept r
  exact .ite (h.trans (State.wr64_onlyRegs _ _ _ _).kept) (h.trans (.refl _ _))

theorem State.countOverrun_onlyRegs (r : Nat) (s : State) : OnlyRegs (noteRegs r) s (s.countOverrun r) :=
  (OnlyRegs.refl _ s).countOverrun (by simp [noteRegs]) (by simp [noteRegs]) (by simp [noteRegs])

theorem State.noteReader_kept (r : Nat) (t s : State) : JournalKept (noteRegs r ++ movedRegs) t (t.noteReader r s) := by
  have hlevel : JournalKept (noteRegs r) t (t.noteLevel r s) := ((OnlyRegs.refl _ t).noteLevel (by simp [noteRegs])).kept
  have hcount : JournalKept (noteRegs r) t ((t.noteLevel r s).countOverrun r) :=
    (((OnlyRegs.refl _ t).noteLevel (by simp [noteRegs])).countOverrun (by simp [noteRegs]) (by simp [noteRegs]) (by simp [noteRegs])).kept
  rw [State.noteReader_eq]
  exact .ite (hcount.trans (State.noteOverrun_counted r _)) (hlevel.trans (.refl _ _))

theorem State.noteReader_wrTotal (r : Nat) (t s : State) : (t.noteReader r s).wrTotal = t.wrTotal := by
  obtain ⟨hr, -, -⟩ := t.noteReader_kept r s
  have hapart {a : Nat} (ha : a = 0x60010 ∨ a = 0x60014) : a ∉ noteRegs r ++ movedRegs := by
    rw [List.mem_append, mem_noteRegs, mem_movedRegs]
    omega
  exact State.rd64_congr (hr _ (hapart (.inl rfl))) (hr _ (hapart (.inr rfl)))

/-- A reader that does not stream keeps its position. -/
theorem State.noteReader_rdPos (hr : r < 4) (h : ¬ (r = 2 ∧ t.streaming = true)) : (t.noteReader r s).rdPos r = t.rdPos r := by
  obtain ⟨-, hlevel, -, hstream, -⟩ := (t.noteLevel_onlyRegs r s).reader_congr r
  rw [← hlevel, State.noteReader_eq]
  split
  · rw [State.noteOverrun_still (by rw [hstream]; exact h)]
    obtain ⟨hstation, -, -⟩ := ((t.noteLevel r s).countOverrun r).stationNote_kept r
    obtain ⟨hcount, -⟩ := (t.noteLevel r s).countOverrun_onlyRegs r
    have hpos {a : Nat} (ha : a = 0x60100 + 0x20 * r ∨ a = 0x60104 + 0x20 * r) :
        (((t.noteLevel r s).countOverrun r).onlyIf (r == 2) (State.stationEvent 0x03 0)).rd a = (t.noteLevel r s).rd a :=
      (hstation a (by rw [mem_stationRegs]; omega)).trans (hcount a (by rw [mem_noteRegs]; omega))
    exact State.rd64_congr (hpos (.inl rfl)) (hpos (.inr rfl))
  · rfl

/-- But for RD[2] a reader notes in its registers alone. -/
theorem OnlyRegs.noteReader {before : State} (h : OnlyRegs l s t) (h2 : r ≠ 2) (he : Reg.JRN_EVT ∈ l) (hs : Reg.RD_RD_STAT r ∈ l)
    (hc : Reg.JRN_OVR_CNT ∈ l) : OnlyRegs l s (t.noteReader r before) := by
  have hstill : (t.noteLevel r before).noteOverrun r = (t.noteLevel r before).countOverrun r := by
    rw [State.noteOverrun_still (fun h => h2 h.1), beq_false_of_ne h2, State.onlyIf_false]
  rw [State.noteReader_eq, hstill]
  split
  · exact (h.noteLevel he).countOverrun he hs hc
  · exact h.noteLevel he

section
variable (hnew : t.overrun r = true) (hold : s.overrun r = false)
include hnew hold

theorem State.noteReader_overrun : t.noteReader r s = (t.noteLevel r s).noteOverrun r := by
  rw [State.noteReader_eq, hnew, hold]
  rfl

theorem State.noteReader_ovr (hr : r < 4) : (t.noteReader r s).flag (Fd.RD_RD_STAT_OVR r) = true := by
  obtain ⟨hkept, -, -⟩ := (t.noteLevel r s).noteOverrun_counted r
  rw [State.noteReader_overrun hnew hold, State.flag_congr (hkept _ (by rw [mem_movedRegs]; dsimp only [Reg.RD_RD_STAT]; omega))]
  exact (State.flag_setFld_ne _ 1 (.inl (by dsimp only [Reg.RD_RD_STAT, Reg.JRN_EVT]; omega))).trans
    (State.flag_on_same _ (by simp) (by simp))

theorem State.noteReader_ovrCnt :
    (t.noteReader r s).rd Reg.JRN_OVR_CNT = BitVec.ofNat 32 (min ((t.rd Reg.JRN_OVR_CNT).toNat + 1) 0xFFFFFFFF) := by
  obtain ⟨hkept, -, -⟩ := (t.noteLevel r s).noteOverrun_counted r
  obtain ⟨hlevel, -⟩ := t.noteLevel_onlyRegs r s
  rw [State.noteReader_overrun hnew hold, hkept _ (by decide), State.countOverrun, State.on, State.on,
    State.rd_setFld_ne _ ⟨Reg.JRN_EVT, 4 + r, 1⟩ _ (show Reg.JRN_OVR_CNT ≠ Reg.JRN_EVT by decide),
    State.rd_setFld_ne _ _ _ (by dsimp only [Reg.RD_RD_STAT, Reg.JRN_OVR_CNT]; omega),
    State.rd_bump, if_pos rfl, hlevel _ (by decide)]

end

/-- RD[2] moves on past what is overwritten while it streams. -/
theorem State.noteReader_moves (hnew : t.overrun 2 = true) (hold : s.overrun 2 = false) (h : t.streaming = true) :
    (t.noteReader 2 s).rdPos 2 = t.wrTotal - t.jrnCap := by
  obtain ⟨htotal, -, hcap, hstream, -⟩ := (t.noteLevel_onlyRegs 2 s).reader_congr 2
  have hlt := t.rd64_lt Reg.JRN_WR_TOTAL_LO Reg.JRN_WR_TOTAL_HI
  rw [State.noteReader_overrun hnew hold, State.noteOverrun_streaming (hstream.trans h), htotal, hcap]
  exact State.rd64_wr64 _ (by decide) (Nat.lt_of_le_of_lt (Nat.sub_le _ _) hlt)

theorem State.getLsbD_on {a i j : Nat} (hj : j < 32) (h : i = j ∨ (s.rd a).getLsbD j = true) :
    ((s.on ⟨a, i, 1⟩).rd a).getLsbD j = true := by
  have hput : (s.on ⟨a, i, 1⟩).rd a = putBits (s.rd a) i 1 1 := s.rd_wr_same _ _
  rw [hput, getLsbD_putBits _ _ _ _ _ hj]
  split
  · next hij =>
    obtain rfl : i = j := by omega
    simp
  · next hij => exact h.resolve_left fun hj => hij ⟨by omega, by omega⟩

theorem State.noteReader_level (hr : r < 4) (hnew : t.levelReached r = true) (hold : s.levelReached r = false) :
    ((t.noteReader r s).rd Reg.JRN_EVT).getLsbD r = true := by
  have hset : ((t.noteLevel r s).rd Reg.JRN_EVT).getLsbD r = true := by
    rw [State.noteLevel, hnew, hold]
    exact State.getLsbD_on (by omega) (.inl rfl)
  obtain ⟨hkept, -, -⟩ := (t.noteLevel r s).noteOverrun_counted r
  rw [State.noteReader_eq]
  split
  · rw [hkept _ (by decide)]
    refine State.getLsbD_on (by omega) (.inr ?_)
    rw [State.on, State.rd_setFld_ne _ _ _ (by dsimp only [Reg.RD_RD_STAT, Reg.JRN_EVT]; omega), State.rd_bump, if_neg (by decide)]
    exact hset
  · exact hset

/-! ### A write of RD_POS (07 R189) -/

theorem State.loadRdPos_rd (s : State) (r v : Nat) {a : Nat} (h : a ≠ 0x60100 + 0x20 * r ∧ a ≠ 0x60104 + 0x20 * r) :
    (s.wr64 (Reg.RD_RD_POS_LO r) (Reg.RD_RD_POS_HI r) v).rd a = s.rd a :=
  (State.rd_wr_ne _ _ h.2).trans (s.rd_wr_ne _ h.1)

/-- Reader `r` stands at `v` and notes what that brings. -/
def State.loadPos (r v : Nat) (s : State) : State := (s.wr64 (Reg.RD_RD_POS_LO r) (Reg.RD_RD_POS_HI r) v).noteReader r s

theorem answer_rdPos (st : Status) (t : State) (r : Nat) : (answer (st, t)).rdPos r = t.rdPos r := rfl

theorem answer_mem (st : Status) (t : State) : (answer (st, t)).mem = t.mem := rfl

theorem OnlyRegs.answer_out {st : Status} (h : OnlyRegs l s t) : (Machine.answer (st, t)).out = .answer st :: s.out := by
  obtain ⟨-, ht⟩ := h
  rw [ht]
  rfl

theorem exec_rdPosWrite {r : Fin 4} {v : BitVec 64} (ht : s.takes (some .journal) = true) :
    exec (.rdPosWrite r v) s = .next (answer (s.writeRdPos r v.toNat)) :=
  congrArg Host.Outcome.next (State.command_takes (some .journal) _ ht)

theorem State.writeRdPos_streaming {v : Nat} (h : s.streaming = true) : s.writeRdPos 2 v = wrongMode s := if_pos ⟨rfl, h⟩

section
variable {v : Nat} (h : ¬ (r = 2 ∧ s.streaming = true))
include h

theorem State.writeRdPos_beyond (hv : s.wrTotal < v) : s.writeRdPos r v = refuse .badRequest s := by
  rw [State.writeRdPos, if_neg h, if_pos hv]

theorem State.writeRdPos_ok (hv : v ≤ s.wrTotal) : s.writeRdPos r v = (.ok, s.loadPos r v) := by
  rw [State.writeRdPos, if_neg h, if_neg (by omega), State.loadPos]

/-- The position loaded is the reader's own: the reader does not stream. -/
theorem State.loadPos_rdPos (hr : r < 4) (hv : v < 2 ^ 64) : (s.loadPos r v).rdPos r = v := by
  have hstream : (s.wr64 (Reg.RD_RD_POS_LO r) (Reg.RD_RD_POS_HI r) v).streaming = s.streaming :=
    State.flag_congr (s.loadRdPos_rd r v (a := 0xD0040) (by omega))
  rw [State.loadPos, State.noteReader_rdPos hr (by rw [hstream]; exact h)]
  exact s.rd64_wr64 (by simp) hv

end

theorem State.loadPos_mem (s : State) (r v : Nat) : (s.loadPos r v).mem = s.mem := by
  obtain ⟨-, hmem, -⟩ := State.noteReader_kept r (s.wr64 (Reg.RD_RD_POS_LO r) (Reg.RD_RD_POS_HI r) v) s
  exact hmem.trans (s.wr64_mem _ _ _)

theorem State.loadPos_onlyRegs (s : State) (v : Nat) (h2 : r ≠ 2) :
    OnlyRegs [Reg.RD_RD_POS_LO r, Reg.RD_RD_POS_HI r, Reg.JRN_EVT, Reg.RD_RD_STAT r, Reg.JRN_OVR_CNT] s (s.loadPos r v) :=
  (((OnlyRegs.refl _ s).wr (by simp)).wr (by simp)).noteReader h2 (by simp) (by simp) (by simp)

/-! ### The writer (07 R184, R185, R188) -/

theorem State.writeBytes_fifos (a : Nat) (l : List Byte) (s : State) : (s.writeBytes a l).fifos = s.fifos :=
  (congrArg State.fifos (s.writeBytes_eq a l)).trans rfl

theorem State.writeBytes_rd (a : Nat) (l : List Byte) (s : State) (x : Nat) : (s.writeBytes a l).rd x = s.rd x :=
  State.rd_congr ((congrArg State.regs (s.writeBytes_eq a l)).trans rfl) x

/-- The bytes `d` of a record stand at `a`, its two words are clean, and WR_TOTAL has moved on by one. -/
def State.storeRecord (a : Nat) (d : List Byte) (s : State) : State :=
  State.add64 Reg.JRN_WR_TOTAL_LO Reg.JRN_WR_TOTAL_HI 1 (((s.writeBytes a d).setMark a 0).setMark (a + 8) 0)

theorem State.storeRecord_stored (a : Nat) (d : List Byte) (s : State) : (s.storeRecord a d).mem = (s.writeBytes a d).mem ∧
    (s.storeRecord a d).fifos = s.fifos ∧ (s.storeRecord a d).wrTotal = min (s.wrTotal + 1) (2 ^ 64 - 1) := by
  refine ⟨rfl, s.writeBytes_fifos a d, ?_⟩
  have htotal : (((s.writeBytes a d).setMark a 0).setMark (a + 8) 0).rd64 Reg.JRN_WR_TOTAL_LO Reg.JRN_WR_TOTAL_HI = s.wrTotal :=
    State.rd64_congr (s.writeBytes_rd a d _) (s.writeBytes_rd a d _)
  rw [State.storeRecord, State.add64_eq, htotal]
  exact State.rd64_wr64 _ (by decide) (by omega)

/-- The four readers note what the new position brings. -/
theorem State.forEach_noteReader (l : List Nat) (t s : State) :
    let u := t.forEach l fun r v => v.noteReader r s
    u.mem = t.mem ∧ u.fifos = t.fifos ∧ u.wrTotal = t.wrTotal := by
  refine State.forEach_induct (fun v => v.mem = t.mem ∧ v.fifos = t.fifos ∧ v.wrTotal = t.wrTotal) l _ t ⟨rfl, rfl, rfl⟩ ?_
  rintro r - v ⟨hm, hf, hw⟩
  obtain ⟨-, hm', hf'⟩ := v.noteReader_kept r s
  exact ⟨hm'.trans hm, hf'.trans hf, (v.noteReader_wrTotal r s).trans hw⟩

/-- What a record does to the flush deadline: the end of a block cancels it, the first record of one arms it. -/
def State.flushAfter (p : Nat) (s : State) : State :=
  if (p + 1) % 4 = 0 then s.cancel .flush
  else if s.armed .flush then s
  else s.arm .flush (s.fld Fd.JRN_JRN_CTL_FLUSH * usPs)

theorem State.flushAfter_same (p : Nat) (s : State) :
    (s.flushAfter p).mem = s.mem ∧ (s.flushAfter p).fifos = s.fifos ∧ (s.flushAfter p).wrTotal = s.wrTotal := by
  unfold State.flushAfter
  split
  · exact ⟨rfl, rfl, rfl⟩
  · split <;> exact ⟨rfl, rfl, rfl⟩

theorem State.writeRecord_eq (q : JRec) (s : State) : s.writeRecord q =
    (State.forEach [0, 1, 2, 3] (fun r t => t.noteReader r s)
      (s.storeRecord (s.recAddr s.wrTotal) (q.encode (s.wrTotal % 2 ^ 32)))).flushAfter s.wrTotal := rfl

theorem State.writeRecord_stored (q : JRec) (s : State) :
    (s.writeRecord q).mem = (s.writeBytes (s.recAddr s.wrTotal) (q.encode (s.wrTotal % 2 ^ 32))).mem ∧
    (s.writeRecord q).fifos = s.fifos ∧ (s.writeRecord q).wrTotal = min (s.wrTotal + 1) (2 ^ 64 - 1) := by
  rw [State.writeRecord_eq]
  generalize q.encode (s.wrTotal % 2 ^ 32) = d
  obtain ⟨hm, hf, hw⟩ := s.storeRecord_stored (s.recAddr s.wrTotal) d
  obtain ⟨hm', hf', hw'⟩ := (s.storeRecord (s.recAddr s.wrTotal) d).forEach_noteReader [0, 1, 2, 3] s
  obtain ⟨hm'', hf'', hw''⟩ := State.flushAfter_same s.wrTotal
    (State.forEach [0, 1, 2, 3] (fun r t => t.noteReader r s) (s.storeRecord (s.recAddr s.wrTotal) d))
  exact ⟨hm''.trans (hm'.trans hm), hf''.trans (hf'.trans hf), hw''.trans (hw'.trans hw)⟩

/-- The writer has served burst FIFO `i` and left `l` in it. -/
def State.takeRecord (i : Nat) (l : List JRec) (s : State) : State :=
  { s with fifos := Tab.set [] s.fifos i l, field := { s.field with served := i, gap := false, sysFirst := s.field.sysFirst - 1 } }

theorem State.recordWrite_empty (h : s.nextFifo = none) : s.recordWrite = s := by
  rw [State.recordWrite, h]
  exact ite_self s

theorem State.recordWrite_takes {q : JRec} {l : List JRec} (hj : s.journals = true) (hm : s.mode ≠ .drowse) (hc : s.jrnCap ≠ 0)
    (hr : s.runs = true) (hu : s.unitBusy .journal = false) (hn : s.nextFifo = some i) (hq : Tab.get [] s.fifos i = q :: l) :
    s.recordWrite = (s.takeRecord i l).writeRecord { q with lost := q.lost || s.field.gap } := by
  obtain ⟨hk, hh⟩ := State.runs_iff.mp hr
  have hruns : (!s.journals || s.mode == .drowse || s.jrnCap == 0 || s.anat.mainHeld || s.anat.kaHeld || s.unitBusy .journal) = false := by
    simp [hj, hm, hc, hk, hh, hu]
  rw [State.recordWrite, hruns, hn]
  simp only [Bool.false_eq_true, if_false, hq]
  rfl

/-! ### The flush deadline (07 R188) -/

theorem State.expire_armed (s : State) (x : Timer) : (s.expire x).armed x = false := by
  obtain h | ⟨d, h⟩ := s.expire_cases x <;> rw [h] <;> exact State.armed_cancel _ x

theorem exec_journalFlush (h : s.armed .flush = true) : exec .journalFlush s = .next (s.expire .flush) :=
  congrArg Host.Outcome.next (s.expiry_armed .flush id h)

/-! ### A restart of the journal (07 R187) -/

/-- Every position is 0. -/
def State.zeroPositions (s : State) : State :=
  State.forEach [0, 1, 2, 3] (fun r t => t.wr64 (Reg.RD_RD_POS_LO r) (Reg.RD_RD_POS_HI r) 0)
    (s.wr64 Reg.JRN_WR_TOTAL_LO Reg.JRN_WR_TOTAL_HI 0)

theorem State.loadRdPos_wrTotal (s : State) (r v : Nat) :
    (s.wr64 (Reg.RD_RD_POS_LO r) (Reg.RD_RD_POS_HI r) v).wrTotal = s.wrTotal :=
  State.rd64_congr (s.loadRdPos_rd r v (a := 0x60010) (by omega)) (s.loadRdPos_rd r v (a := 0x60014) (by omega))

theorem State.loadRdPos_rdPos (s : State) (k r : Nat) :
    (s.wr64 (Reg.RD_RD_POS_LO k) (Reg.RD_RD_POS_HI k) 0).rdPos r = if r = k then 0 else s.rdPos r := by
  split
  · next h =>
    subst h
    exact s.rd64_wr64 (by simp) (by decide)
  · exact State.rd64_congr (s.loadRdPos_rd k 0 (a := 0x60100 + 0x20 * r) (by omega))
      (s.loadRdPos_rd k 0 (a := 0x60104 + 0x20 * r) (by omega))

theorem State.zeroPositions_wrTotal (s : State) : s.zeroPositions.wrTotal = 0 :=
  State.forEach_induct (fun t => t.wrTotal = 0) _ _ _ (s.rd64_wr64 (by decide) (by decide))
    fun r _ t ht => (t.loadRdPos_wrTotal r 0).trans ht

theorem State.zeroPositions_rdPos (s : State) (hr : r < 4) : s.zeroPositions.rdPos r = 0 := by
  simp only [State.zeroPositions, State.forEach, List.foldl, State.loadRdPos_rdPos]
  obtain rfl | rfl | rfl | rfl : r = 0 ∨ r = 1 ∨ r = 2 ∨ r = 3 := by omega
  all_goals rfl

section
variable (h : s.field.restarted = false)
include h

theorem State.restartJournal_rd (a : Nat) :
    s.restartJournal.rd a = ((s.zeroPositions.on Fd.JRN_EVT_RESTARTED).bump Reg.JRN_RESTART_CNT).rd a := by
  rw [State.restartJournal, if_neg (by simp [h])]
  rfl

/-- EVT and RESTART_CNT apart, a restart shows in the positions alone. -/
theorem State.restartJournal_rd_position {a : Nat} (ha : a ≠ 0x60020 ∧ a ≠ 0x60208) : s.restartJournal.rd a = s.zeroPositions.rd a := by
  rw [State.restartJournal_rd h, State.rd_bump, if_neg ha.2]
  exact State.rd_setFld_ne _ _ _ ha.1

theorem State.restartJournal_restarted : s.restartJournal.flag Fd.JRN_EVT_RESTARTED = true := by
  have hevt : s.restartJournal.rd Reg.JRN_EVT = (s.zeroPositions.on Fd.JRN_EVT_RESTARTED).rd Reg.JRN_EVT := by
    rw [State.restartJournal_rd h, State.rd_bump, if_neg (by decide)]
  rw [State.flag_congr hevt]
  exact State.flag_on_same _ (by decide) (by decide)

/-- Record 0x007 stands first: a new one, or the one that a reset has left. -/
theorem State.restartJournal_first : (Tab.get [] s.restartJournal.fifos 363).head?.map (·.source) = some 0x007 := by
  rw [State.restartJournal, if_neg (by simp [h])]
  dsimp only
  split
  · next hheld =>
    obtain ⟨-, q, hq, hsource⟩ : s.wrTotal = 0 ∧ ∃ q, (Tab.get [] s.fifos 363).head? = some q ∧ q.source = 0x007 := by
      simpa [Option.getD_eq_iff] using hheld
    exact Option.map_eq_some_iff.mpr ⟨q, hq, hsource⟩
  · rw [Tab.get_set_same]
    rfl

end

end Sys2Proof.Machine
end

section
open Sys2Proof.Machine

/-- Settles O29: the writer by the record that it stores, a full FIFO by its two counters, a reader by what it notes. -/
theorem edgeJournal : Obligations.EdgeJournal := by
  unfold Obligations.EdgeJournal
  refine ⟨fun s i q l hj hm hc hr hu hn hq => ?_, fun s h => congrArg Host.Outcome.next (State.recordWrite_empty h),
    fun r q => r.encode_length q, fun s i r => State.pushRec_room, fun s i r => State.pushRec_loses, fun s h => ?_,
    fun s r v ht => ?_, fun s t r hnew hold => ?_, fun s t r => State.noteReader_level r.isLt, fun s h => ?_⟩
  · obtain ⟨hmem, hfifos, htotal⟩ := (s.takeRecord i l).writeRecord_stored { q with lost := q.lost || s.field.gap }
    refine ⟨_, congrArg Host.Outcome.next (State.recordWrite_takes hj hm hc hr hu hn hq), fun x => ?_, htotal, ?_, fun j hji => ?_⟩
    · exact (congrArg (Tab.get 0#8 · x) hmem).trans (State.byte_writeBytes _ _ _ x)
    · rw [hfifos]
      exact Tab.get_set_same _ _ _ _
    · rw [hfifos]
      exact Tab.get_set_ne _ _ _ _ hji
  · exact ⟨_, exec_journalFlush h, s.expire_armed _, fun a _ => s.expire_rd _ a, SameBytes.of_mem (s.expire_mem _)⟩
  · rw [exec_rdPosWrite ht]
    have hfree (h : r ≠ 2 ∨ s.streaming = false) : ¬ (r.val = 2 ∧ s.streaming = true) := by
      rintro ⟨h2, hs⟩
      exact h.elim (fun h => h (Fin.ext h2)) (by simp [hs])
    refine ⟨fun h2 hs => ?_, fun h hv => ?_, fun h hv => ?_⟩
    · rw [h2]
      exact congrArg (fun q => Host.Outcome.next (answer q)) (State.writeRdPos_streaming hs)
    · rw [State.writeRdPos_beyond (hfree h) hv]
    · rw [State.writeRdPos_ok (hfree h) hv]
      refine ⟨_, rfl, ?_, SameBytes.of_mem ?_, fun h2 => ?_⟩
      · exact (answer_rdPos _ _ r).trans (State.loadPos_rdPos (hfree h) r.isLt v.isLt)
      · exact (answer_mem _ _).trans (s.loadPos_mem r v.toNat)
      · have honly := State.loadPos_onlyRegs s v.toNat (fun h => h2 (Fin.ext h))
        exact ⟨honly.answer_out, honly.answer⟩
  · refine ⟨State.noteReader_ovr hnew hold r.isLt, State.noteReader_ovrCnt hnew hold, ?_⟩
    rintro rfl hs
    exact State.noteReader_moves hnew hold hs
  · have hpos {a : Nat} (ha : a ≠ 0x60020 ∧ a ≠ 0x60208) := State.restartJournal_rd_position h ha
    refine ⟨?_, fun r hr => ?_, State.restartJournal_restarted h, State.restartJournal_first h⟩
    · exact (State.rd64_congr (hpos (by decide)) (hpos (by decide))).trans s.zeroPositions_wrTotal
    · refine (State.rd64_congr (hpos ?_) (hpos ?_)).trans (s.zeroPositions_rdPos hr)
      · dsimp only [Reg.RD_RD_POS_LO]
        omega
      · dsimp only [Reg.RD_RD_POS_HI]
        omega

end

section
/-!
SUPPORT. Bobbin commands (08 R202 to R215): what an update leaves alone, START, STOP and RESUME of one bobbin and of a group, the SYNC
pulse, a stalled cycle, and the queues.
-/

namespace Sys2Proof.Machine

variable {s t u : State} {l m : List Nat} {n : Fin 64} {v : Nat}

/-! ### Fields and bobbin states after an update -/

theorem State.fld_lt (s : State) (f : Fld) : s.fld f < 2 ^ f.width := BitVec.isLt _

theorem State.fld_congr {x : Fld} (h : t.rd x.reg = s.rd x.reg) : t.fld x = s.fld x := by
  rw [State.fld, h, State.fld]

/-- A value that fits its field is read back whole. -/
theorem State.fld_setFld_fits {f : Fld} (s : State) (h : f.lo + f.width ≤ 32) (hv : v < 2 ^ f.width) : (s.setFld f v).fld f = v := by
  rw [s.fld_setFld_same f v h, Nat.mod_eq_of_lt hv]

@[simp] theorem State.setFld_bob (s : State) (f : Fld) (x k : Nat) : (s.setFld f x).bob k = s.bob k := rfl

@[simp] theorem State.setBob_bob_same (s : State) (k : Nat) (b : BobState) : (s.setBob k b).bob k = b := Tab.get_set_same _ _ _ _

theorem State.setBob_bob_ne (s : State) {k j : Nat} (b : BobState) (h : j ≠ k) : (s.setBob k b).bob j = s.bob j :=
  Tab.get_set_ne _ _ _ _ h

theorem answer_rd (st : Status) (t : State) (a : Nat) : (answer (st, t)).rd a = t.rd a := rfl

theorem answer_fld (st : Status) (t : State) (f : Fld) : (answer (st, t)).fld f = t.fld f := rfl

theorem answer_bobRun (st : Status) (t : State) (k : Nat) : (answer (st, t)).bobRun k = t.bobRun k := rfl

theorem answer_held (st : Status) (t : State) (k : Nat) : ((answer (st, t)).bob k).held = (t.bob k).held := rfl

theorem answer_bob (st : Status) (t : State) (k : Nat) : (answer (st, t)).bob k = t.bob k := rfl

/-! ### What a bobbin's command leaves alone -/

/-- Memory, what has left the part and every register but those of `l` stand as before. -/
def BobbinKept (l : List Nat) (s t : State) : Prop := SameRegs l s t ∧ t.mem = s.mem ∧ t.out = s.out

theorem BobbinKept.refl (l : List Nat) (s : State) : BobbinKept l s s := ⟨fun _ _ => rfl, rfl, rfl⟩

theorem BobbinKept.wr {a : Nat} {w : Word} (h : BobbinKept l s t) (ha : a ∈ l) : BobbinKept l s (t.wr a w) := by
  obtain ⟨hr, hm, ho⟩ := h
  exact ⟨fun x hx => (t.rd_wr_ne w (ne_of_mem_of_not_mem ha hx).symm).trans (hr x hx), hm, ho⟩

theorem BobbinKept.setFld {f : Fld} (h : BobbinKept l s t) (hf : f.reg ∈ l) : BobbinKept l s (t.setFld f v) := h.wr hf

theorem BobbinKept.setBob {k : Nat} {b : BobState} (h : BobbinKept l s t) : BobbinKept l s (t.setBob k b) := h

theorem BobbinKept.ite {c : Prop} [Decidable c] (ht : BobbinKept l s t) (hu : BobbinKept l s u) :
    BobbinKept l s (if c then t else u) := by
  split <;> assumption

theorem BobbinKept.peak {f : Fld} (h : BobbinKept l s t) (hf : f.reg ∈ l) : BobbinKept l s (t.peak f v) := .ite (h.setFld hf) h

theorem BobbinKept.forEach {β : Type} {js : List β} {f : β → State → State} (h : BobbinKept l s t)
    (hf : ∀ j u, BobbinKept l s u → BobbinKept l s (f j u)) : BobbinKept l s (t.forEach js f) :=
  State.forEach_induct (BobbinKept l s) js f t h fun j _ => hf j

theorem BobbinKept.trans (h : BobbinKept l s t) (h' : BobbinKept m t u) : BobbinKept (l ++ m) s u := by
  obtain ⟨hr, hm, ho⟩ := h
  obtain ⟨hr', hm', ho'⟩ := h'
  refine ⟨fun a ha => ?_, hm'.trans hm, ho'.trans ho⟩
  obtain ⟨hl, hl'⟩ := not_or.mp (mt List.mem_append.mpr ha)
  exact (hr' a hl').trans (hr a hl)

/-- An answer is the only other trace of such a command. -/
theorem BobbinKept.answer {st : Status} (h : BobbinKept l s t) : (Machine.answer (st, t)).out = .answer st :: s.out ∧
    SameRegs l s (Machine.answer (st, t)) ∧ SameBytes s (Machine.answer (st, t)) := by
  obtain ⟨hr, hm, ho⟩ := h
  exact ⟨congrArg (_ :: ·) ho, hr, SameBytes.of_mem hm⟩

theorem State.pushRec_kept (s : State) (n : Fin 64) (r : JRec) :
    BobbinKept [Reg.JRN_LOST_TOTAL, Reg.BOB_JLOST n] s (s.pushRec (256 + n) r) := by
  by_cases h : (Tab.get [] s.fifos (256 + n)).length < fifoCap (256 + n)
  · simp only [State.pushRec, h, if_true]
    exact .refl _ s
  · have hcounter : lostCounter (256 + n) = some ⟨Reg.BOB_JLOST n, 0, 32⟩ := by
      rw [lostCounter, if_neg (by omega), if_pos (by omega), Nat.add_sub_cancel_left]
    rw [State.pushRec_full (by omega), hcounter]
    have hlost : BobbinKept [Reg.JRN_LOST_TOTAL, Reg.BOB_JLOST n] s (s.loseRec (256 + n)) :=
      .wr (t := { s with fifoLost := (256 + n) :: s.fifoLost.filter (· != (256 + n)) }) (.refl _ s) (by simp)
    exact hlost.setFld (by simp)

/-! ### The status of a command (08 R206, R211, R213 to R215) -/

theorem State.bobAll_ok {needStopped needClean : Bool} {f : Nat → State → State} {ns : List Nat}
    (h : s.bobGate needStopped needClean ns = .ok) : s.bobAll needStopped needClean f ns = (.ok, s.forEach ns f) := by
  rw [State.bobAll, h]

theorem State.bobAll_one {needStopped needClean : Bool} {f : Nat → State → State} {k : Nat}
    (h : s.bobGate needStopped needClean [k] = .ok) : s.bobAll needStopped needClean f [k] = (.ok, f k s) := State.bobAll_ok h

theorem State.bobAll_refused {needStopped needClean : Bool} {f : Nat → State → State} {ns : List Nat}
    (h : s.bobGate needStopped needClean ns ≠ .ok) :
    s.bobAll needStopped needClean f ns = refuse (s.bobGate needStopped needClean ns) s := by
  unfold State.bobAll
  split
  · exact absurd ‹_› h
  · rfl

theorem State.bobInReset_of_takes (ht : s.takes (some (.bobbin n)) = true) : s.bobInReset n = false := by
  simp only [State.takes, Bool.and_eq_true, Bool.not_eq_true'] at ht
  obtain ⟨⟨-, hbusy⟩, -⟩ := ht
  exact hbusy

theorem State.bobGate_lent (needStopped needClean : Bool) (ha : s.asleepOrLoading = false) (hl : s.bobLent n = true) :
    s.bobGate needStopped needClean [n.val] = .busy := by
  simp [State.bobGate, ha, hl]

/-- For a stopped bobbin that may run, a dirty pricking alone stands against a command. -/
theorem State.bobGate_stopped (needClean : Bool) (ht : s.takes (some (.bobbin n)) = true) (ha : s.asleepOrLoading = false)
    (hf : s.inField = true) (hd : s.boot.drowsy = false) (hl : s.bobLent n = false) (hr : s.bobRun n = 0) :
    s.bobGate true needClean [n.val] =
      if needClean && s.flag (Fd.BOB_STAT_PRICK_DIRTY n) then .wrongMode else .ok := by
  have hf' : (s.onRing || s.mode == .isolated) = true := hf
  simp [State.bobGate, ha, hl, State.bobInReset_of_takes ht, hd, hf', hr]

/-! ### START, STOP and RESUME (08 R211, R213) -/

theorem exec_start (ht : s.takes (some (.bobbin n)) = true) :
    exec (.start n) s = .next (answer (s.bobAll true false State.startBob [n.val])) :=
  congrArg Host.Outcome.next (State.command_takes _ _ ht)

theorem exec_resume (ht : s.takes (some (.bobbin n)) = true) :
    exec (.resume n) s = .next (answer (s.bobAll true true State.resumeBob [n.val])) :=
  congrArg Host.Outcome.next (State.command_takes _ _ ht)

theorem exec_stop (ht : s.takes (some (.bobbin n)) = true) (ha : s.asleepOrLoading = false) :
    exec (.stop n) s = .next (answer (.ok, s.haltBob n)) := by
  have hstop : s.bobStop n = (.ok, s.haltBob n) := if_neg (by simp [ha])
  rw [← hstop]
  exact congrArg Host.Outcome.next (State.command_takes _ _ ht)

theorem exec_groupStart {hi : Bool} {w : Word} (ht : s.takes none = true) :
    exec (.groupStart hi w) s = .next (answer (s.bobAll true false State.startBob (named hi w))) :=
  congrArg Host.Outcome.next (State.command_takes none _ ht)

theorem exec_groupStop {hi : Bool} {w : Word} (ht : s.takes none = true) :
    exec (.groupStop hi w) s = .next (answer (s.bobAll false false State.haltBob (named hi w))) :=
  congrArg Host.Outcome.next (State.command_takes none _ ht)

theorem exec_groupResume {hi : Bool} {w : Word} (ht : s.takes none = true) :
    exec (.groupResume hi w) s = .next (answer (s.bobAll true true State.resumeBob (named hi w))) :=
  congrArg Host.Outcome.next (State.command_takes none _ ht)

/-- Shift register and counters are cleared and the bit counter is loaded. -/
def State.clearShift (n : Nat) (s : State) : State := ((s.wr (Reg.BOB_SR n) 0#32).wr (Reg.BOB_CNT_VAL n) 0#32).loadBits n

theorem State.clearShift_kept (n : Nat) (s : State) : BobbinKept [Reg.BOB_SR n, Reg.BOB_CNT_VAL n, Reg.BOB_EXEC n] s (s.clearShift n) :=
  (((BobbinKept.refl _ s).wr (by simp)).wr (by simp)).setFld (by simp)

theorem State.clearShift_rd (n : Nat) (s : State) {a : Nat} (h : a ≠ Reg.BOB_EXEC n) :
    (s.clearShift n).rd a = ((s.wr (Reg.BOB_SR n) 0#32).wr (Reg.BOB_CNT_VAL n) 0#32).rd a := State.rd_setFld_ne _ _ _ h

theorem State.clearShift_sr (n : Nat) (s : State) : (s.clearShift n).rd (Reg.BOB_SR n) = 0#32 := by
  rw [State.clearShift_rd _ _ (by simp), State.rd_wr_ne _ _ (by simp), State.rd_wr_same]

theorem State.clearShift_cntVal (n : Nat) (s : State) : (s.clearShift n).rd (Reg.BOB_CNT_VAL n) = 0#32 := by
  rw [State.clearShift_rd _ _ (by simp), State.rd_wr_same]

theorem State.clearShift_bitcnt (n : Nat) (s : State) : (s.clearShift n).fld (Fd.BOB_EXEC_BITCNT n) = s.bobBits n := by
  have hbits : ((s.wr (Reg.BOB_SR n) 0#32).wr (Reg.BOB_CNT_VAL n) 0#32).bobBits n = s.bobBits n :=
    (State.fld_wr_ne _ _ (by simp)).trans (s.fld_wr_ne _ (by simp))
  rw [← hbits]
  exact State.fld_setFld_fits _ (by simp) (State.fld_lt _ _)

/-- Prescalers are cleared, no row is held and no pulse stands. -/
def State.clearBob (n : Nat) (s : State) : State := s.setBob n { s.bob n with p0 := 0, p1 := 0, held := false, sync := false }

theorem State.clearBob_rd (n : Nat) (s : State) (a : Nat) : (s.clearBob n).rd a = s.rd a := rfl

theorem BobbinKept.clearBob {k : Nat} (h : BobbinKept l s t) : BobbinKept l s (t.clearBob k) := h.setBob

/-- The bobbin runs from state `v` under IMAP0, its pricking clean. -/
def State.runFrom (n v : Nat) (s : State) : State :=
  (((s.off (Fd.BOB_STAT_PRICK_DIRTY n)).off (Fd.BOB_STAT_MAP n)).setFld (Fd.BOB_STAT_STATE n) v).setFld (Fd.BOB_STAT_RUN n) 1

theorem State.startBob_eq (n : Nat) (s : State) :
    s.startBob n = ((s.clearShift n).clearBob n).runFrom n (s.fld (Fd.BOB_CFG_START_STATE n)) := by
  have hstate : ((((s.clearShift n).clearBob n).off (Fd.BOB_STAT_PRICK_DIRTY n)).off (Fd.BOB_STAT_MAP n)).fld
      (Fd.BOB_CFG_START_STATE n) = s.fld (Fd.BOB_CFG_START_STATE n) := by
    obtain ⟨hr, -⟩ := s.clearShift_kept n
    rw [State.off, State.fld_setFld_ne _ _ _ _ (.inl (by simp)), State.off, State.fld_setFld_ne _ _ _ _ (.inl (by simp)),
      State.fld_congr (State.clearBob_rd n _ _)]
    exact State.fld_congr (hr _ (by simp))
  rw [State.runFrom, ← hstate]
  rfl

theorem State.runFrom_kept (n v : Nat) (s : State) : BobbinKept [Reg.BOB_STAT n] s (s.runFrom n v) :=
  ((((BobbinKept.refl _ s).setFld (by simp)).setFld (by simp)).setFld (by simp)).setFld (by simp)

theorem State.runFrom_bob (n v : Nat) (s : State) (k : Nat) : (s.runFrom n v).bob k = s.bob k := rfl

theorem State.runFrom_stat (n : Nat) (s : State) (hv : v < 32) :
    (s.runFrom n v).bobRun n = 1 ∧ (s.runFrom n v).fld (Fd.BOB_STAT_STATE n) = v ∧
    (s.runFrom n v).flag (Fd.BOB_STAT_MAP n) = false ∧ (s.runFrom n v).flag (Fd.BOB_STAT_PRICK_DIRTY n) = false := by
  refine ⟨State.fld_setFld_fits _ (by simp) (by simp), ?_, ?_, ?_⟩
  · exact (State.fld_setFld_ne _ _ _ _ (.inr (by simp))).trans (State.fld_setFld_fits _ (by simp) hv)
  · rw [State.runFrom, State.flag_setFld_ne _ _ (.inr (by simp)), State.flag_setFld_ne _ _ (.inr (by simp))]
    exact State.flag_off_same _ (by simp)
  · rw [State.runFrom, State.flag_setFld_ne _ _ (.inr (by simp)), State.flag_setFld_ne _ _ (.inr (by simp)), State.off,
      State.flag_setFld_ne _ _ (.inr (by simp))]
    exact State.flag_off_same _ (by simp)

theorem State.startBob_kept (n : Nat) (s : State) :
    BobbinKept [Reg.BOB_SR n, Reg.BOB_CNT_VAL n, Reg.BOB_EXEC n, Reg.BOB_STAT n] s (s.startBob n) := by
  rw [State.startBob_eq]
  exact (s.clearShift_kept n).clearBob.trans (State.runFrom_kept n _ _)

theorem State.startBob_stat (n : Nat) (s : State) :
    (s.startBob n).bobRun n = 1 ∧ (s.startBob n).fld (Fd.BOB_STAT_STATE n) = s.fld (Fd.BOB_CFG_START_STATE n) ∧
    (s.startBob n).flag (Fd.BOB_STAT_MAP n) = false ∧ (s.startBob n).flag (Fd.BOB_STAT_PRICK_DIRTY n) = false := by
  rw [State.startBob_eq]
  exact State.runFrom_stat n _ (s.fld_lt _)

/-- STAT apart, START leaves what it has cleared. -/
theorem State.startBob_rd (n : Nat) (s : State) {a : Nat} (h : a ≠ Reg.BOB_STAT n) : (s.startBob n).rd a = (s.clearShift n).rd a := by
  obtain ⟨hr, -⟩ := State.runFrom_kept n (s.fld (Fd.BOB_CFG_START_STATE n)) ((s.clearShift n).clearBob n)
  rw [State.startBob_eq]
  exact (hr a (by simpa using h)).trans (State.clearBob_rd n _ a)

theorem State.startBob_shift (n : Nat) (s : State) :
    (s.startBob n).rd (Reg.BOB_SR n) = 0#32 ∧ (s.startBob n).rd (Reg.BOB_CNT_VAL n) = 0#32 ∧
    (s.startBob n).fld (Fd.BOB_EXEC_BITCNT n) = s.bobBits n :=
  ⟨(s.startBob_rd n (by simp)).trans (s.clearShift_sr n), (s.startBob_rd n (by simp)).trans (s.clearShift_cntVal n),
    (State.fld_congr (s.startBob_rd n (by simp))).trans (s.clearShift_bitcnt n)⟩

theorem State.startBob_held (n : Nat) (s : State) : ((s.startBob n).bob n).held = false := by
  rw [State.startBob_eq, State.runFrom_bob, State.clearBob, State.setBob_bob_same]

theorem State.resumeBob_onlyRegs (n : Nat) (s : State) : OnlyRegs [Reg.BOB_STAT n] s (s.resumeBob n) :=
  (OnlyRegs.refl _ s).setFld (by simp)

theorem State.resumeBob_bobRun (n : Nat) (s : State) : (s.resumeBob n).bobRun n = 1 :=
  State.fld_setFld_fits s (by simp) (by simp)

theorem State.resumeBob_state (n : Nat) (s : State) : (s.resumeBob n).fld (Fd.BOB_STAT_STATE n) = s.fld (Fd.BOB_STAT_STATE n) :=
  s.fld_setFld_ne _ _ 1 (.inr (by simp))

/-- RUN and STOP_CAUSE of a stop, the row that RESUME executes again, and the end of the pulse. -/
def State.markStopped (n cause : Nat) (held : Bool) (s : State) : State :=
  State.setBob n { s.bob n with held := held, sync := false }
    ((s.setFld (Fd.BOB_STAT_RUN n) 0).setFld (Fd.BOB_STAT_STOP_CAUSE n) cause)

theorem State.markStopped_kept (n cause : Nat) (held : Bool) (s : State) :
    BobbinKept [Reg.BOB_STAT n] s (s.markStopped n cause held) :=
  BobbinKept.setBob (((BobbinKept.refl _ s).setFld (by simp)).setFld (by simp))

theorem State.markStopped_stat (n : Nat) {cause : Nat} (held : Bool) (s : State) (hc : cause < 16) :
    (s.markStopped n cause held).bobRun n = 0 ∧ (s.markStopped n cause held).fld (Fd.BOB_STAT_STOP_CAUSE n) = cause :=
  ⟨(State.fld_setFld_ne _ _ _ _ (.inr (by simp))).trans (s.fld_setFld_fits (by simp) (by simp)),
    State.fld_setFld_fits _ (by simp) hc⟩

theorem State.bobRec_kept (n : Fin 64) (detail : Nat) (level : Bool) (s : State) :
    BobbinKept [Reg.JRN_LOST_TOTAL, Reg.BOB_JLOST n] s (s.bobRec n detail level) := .ite (s.pushRec_kept n _) (.refl _ s)

/-- A stop whose cause is no fault is journalled and interrupts nobody. -/
theorem State.stopBob_noFault (n : Nat) {cause : Nat} (held : Bool) (s : State) (hc : ¬ (cause = 3 ∨ cause = 4)) :
    ∃ detail, s.stopBob n cause held = (s.markStopped n cause held).bobRec n detail true := ⟨_, if_neg hc⟩

/-- The registers in which a stop shows. -/
def stopRegs (n : Nat) : List Nat := [Reg.BOB_STAT n, Reg.JRN_LOST_TOTAL, Reg.BOB_JLOST n]

theorem sr_not_mem_stopRegs (n : Nat) : Reg.BOB_SR n ∉ stopRegs n := by
  simp only [stopRegs, Reg.BOB_SR, Reg.BOB_STAT, Reg.JRN_LOST_TOTAL, Reg.BOB_JLOST, List.mem_cons, List.not_mem_nil, or_false]
  omega

theorem State.haltBob_running (hr : s.bobRun n ≠ 0) :
    (s.haltBob n).bobRun n = 0 ∧ (s.haltBob n).fld (Fd.BOB_STAT_STOP_CAUSE n) = 1 ∧
    BobbinKept (stopRegs n) s (s.haltBob n) := by
  obtain ⟨detail, hstop⟩ := State.stopBob_noFault n (cause := 1) (decide (s.bobRun n = 2) || (s.bob n).held) s (by decide)
  rw [State.haltBob, if_neg hr, hstop]
  generalize (decide (s.bobRun n = 2) || (s.bob n).held) = held
  obtain ⟨hrun, hcause⟩ := State.markStopped_stat n held s (cause := 1) (by decide)
  have hrec := (s.markStopped n 1 held).bobRec_kept n detail true
  have hkept : BobbinKept (stopRegs n) s _ := (s.markStopped_kept n 1 held).trans hrec
  obtain ⟨hregs, -⟩ := hrec
  have hstat : ((s.markStopped n 1 held).bobRec n detail true).rd (Reg.BOB_STAT n) = (s.markStopped n 1 held).rd (Reg.BOB_STAT n) :=
    hregs _ (by simp only [Reg.BOB_STAT, Reg.JRN_LOST_TOTAL, Reg.BOB_JLOST, List.mem_cons, List.not_mem_nil, or_false]; omega)
  exact ⟨(State.fld_congr hstat).trans hrun, (State.fld_congr hstat).trans hcause, hkept⟩

theorem State.haltBob_stopped (hr : s.bobRun n = 0) : s.haltBob n = s := if_pos hr

/-! ### The SYNC pulse (08 R202) -/

/-- The pulse of a word that names its cushion stands for bobbin `k` if it runs. -/
def State.pulseBob (w : Word) (k : Nat) (s : State) : State :=
  if w.getLsbD (k / 16) && s.bobRun k == 1 then s.setBob k { s.bob k with sync := true } else s

theorem State.pulseBob_kept (w : Word) (k : Nat) (s : State) : BobbinKept [] s (s.pulseBob w k) := .ite (.refl _ s) (.refl _ s)

theorem State.pulseBob_sync (w : Word) (k j : Nat) (s : State) : ((s.pulseBob w k).bob j).sync =
    (j == k && (w.getLsbD (k / 16) && s.bobRun k == 1) || (s.bob j).sync) := by
  unfold State.pulseBob
  generalize (w.getLsbD (k / 16) && s.bobRun k == 1) = hit
  by_cases hj : j = k
  · subst hj
    cases hit <;> simp
  · cases hit <;> simp [State.setBob_bob_ne _ _ hj, hj]

/-- The pulse goes to bobbins 0 to `k` - 1. -/
def State.pulseBelow (w : Word) (k : Nat) (s : State) : State := s.forEach (List.range k) (State.pulseBob w)

theorem State.pulseBelow_kept (w : Word) (k : Nat) (s : State) : BobbinKept [] s (s.pulseBelow w k) :=
  (BobbinKept.refl [] s).forEach fun j u h => h.trans (u.pulseBob_kept w j)

theorem State.pulseBelow_succ (w : Word) (k : Nat) (s : State) : s.pulseBelow w (k + 1) = (s.pulseBelow w k).pulseBob w k := by
  simp [State.pulseBelow, State.forEach, List.range_succ]

theorem State.pulseBelow_sync (w : Word) (k j : Nat) (s : State) : ((s.pulseBelow w k).bob j).sync =
    (decide (j < k) && (w.getLsbD (j / 16) && s.bobRun j == 1) || (s.bob j).sync) := by
  induction k with
  | zero => simp [State.pulseBelow, State.forEach]
  | succ k ih =>
    have hrun : (s.pulseBelow w k).bobRun k = s.bobRun k := State.fld_congr ((s.pulseBelow_kept w k).1 _ (by simp))
    rw [State.pulseBelow_succ, State.pulseBob_sync, ih, hrun]
    rcases Nat.lt_trichotomy j k with h | rfl | h
    · simp [h, Nat.lt_succ_of_lt h, Nat.ne_of_lt h]
    · simp
    · simp [Nat.ne_of_gt h, Nat.not_lt_of_gt h, Nat.not_lt.mpr (Nat.succ_le_of_lt h)]

theorem exec_syncPulse {w : Word} (ht : s.takes none = true) (ha : s.asleepOrLoading = false) :
    exec (.syncPulse w) s = .next (answer (.ok, s.pulseBelow w 64)) := by
  have hpulse : s.pulse w = (.ok, s.pulseBelow w 64) := if_neg (by simp [ha])
  rw [← hpulse]
  exact congrArg Host.Outcome.next (State.command_takes none _ ht)

/-! ### A stalled cycle (08 R210) -/

theorem State.nextRow_stalled {k : Nat} (h : s.bobRun k = 2) : s.nextRow k = s.fld (Fd.BOB_EXEC_ROW k) := if_pos (.inl h)

theorem fetched_bob (k addr : Nat) (s : State) : (fetched k addr s).bob k = { s.bob k with sync := false, held := false } := by
  simp [fetched]

theorem fetched_rd (k addr : Nat) (s : State) {a : Nat} (h : a ≠ Reg.BOB_EXEC k) : (fetched k addr s).rd a = s.rd a :=
  (State.setBob_rd _ _ _ _).trans ((State.setBob_rd _ _ _ _).trans (s.rd_setFld_ne _ _ h))

section
variable {k addr : Nat} (hm : s.mark (rowAddr k addr) = 0) (ha : s.rowWord k addr / 2 ^ 17 % 16 = 4)
include hm ha

theorem State.runRow_pullEmpty (hq : (s.bob k).tx = []) : s.runRow k addr = (fetched k addr s).stall k := by
  have htx : ((fetched k addr s).bob k).tx = [] := by rw [fetched_bob]; exact hq
  refine (if_neg (fun hne => hne hm)).trans ((if_pos ha).trans ?_)
  split
  · rfl
  · next h r heq => exact absurd (htx.symm.trans heq) (by simp)

theorem State.runRow_pullWord {h : QWord} {r : List QWord} (hq : (s.bob k).tx = h :: r) :
    s.runRow k addr = (fetched k addr s).pullRow k addr (s.rowWord k addr) h r := by
  have htx : ((fetched k addr s).bob k).tx = h :: r := by rw [fetched_bob]; exact hq
  refine (if_neg (fun hne => hne hm)).trans ((if_pos ha).trans ?_)
  split
  · next heq => exact absurd (htx.symm.trans heq) (by simp)
  · next h' r' heq =>
    obtain ⟨rfl, rfl⟩ := List.cons.inj (htx.symm.trans heq)
    rfl

end

theorem State.stall_bobRun (k : Nat) (s : State) : (s.stall k).bobRun k = 2 := by
  have hstat : (s.stall k).rd (Reg.BOB_STAT k) = (s.setFld (Fd.BOB_STAT_RUN k) 2).rd (Reg.BOB_STAT k) := by
    rw [State.stall, State.rd_bump, if_neg (by simp)]
  exact (State.fld_congr hstat).trans (s.fld_setFld_fits (by simp) (by simp))

theorem State.stall_stallCyc (k : Nat) (s : State) : (s.stall k).rd (Reg.BOB_STALL_CYC k) =
    BitVec.ofNat 32 (min ((s.rd (Reg.BOB_STALL_CYC k)).toNat + 1) 0xFFFFFFFF) := by
  rw [State.stall, State.rd_bump, if_pos rfl, State.rd_setFld_ne _ _ _ (by simp)]

theorem exec_stallEnd (hr : s.bobRun n = 2) (he : s.bobsExecute n = true) :
    exec (.stallEnd n) s = .next (s.runRow n (s.fld (Fd.BOB_EXEC_ROW n))) := by
  rw [← State.nextRow_stalled hr]
  exact congrArg Host.Outcome.next (if_pos ⟨hr, he⟩)

/-! ### Queues (08 R206, R207) -/

theorem State.txqPush_unlent {k : Nat} (w : Word) (last : Bool) (ha : s.asleepOrLoading = false) (hl : s.bobLent k = false) :
    s.txqPush k w last = s.pushTx k w last := by
  rw [State.txqPush, if_neg (by simp [ha]), if_neg (by simp [hl])]

/-- A push of a word that is stored without an error. -/
theorem exec_txqPush {wide : Bool} {w : BitVec 64} (ht : s.takes (some (.bobbin n)) = true) (ha : s.asleepOrLoading = false)
    (hl : s.bobLent n = false) :
    exec (.txqPush n wide w 0) s = .next (answer (s.pushTx n (w.setWidth 32) (wide && w.getLsbD 34))) := by
  rw [← State.txqPush_unlent _ _ ha hl]
  refine congrArg Host.Outcome.next ((State.command_takes _ _ ht).trans (congrArg answer ?_))
  split
  · next heq => exact heq.symm
  · rfl

/-- A word enters the TX queue. -/
def State.storeTx (k : Nat) (w : Word) (last : Bool) (s : State) : State :=
  (s.setBob k { s.bob k with tx := (s.bob k).tx ++ [{ data := w, last }] }).peak (Fd.BOB_QPEAK_TX_PEAK k) ((s.bob k).tx.length + 1)

theorem State.storeTx_kept (k : Nat) (w : Word) (last : Bool) (s : State) : BobbinKept [Reg.BOB_QPEAK k] s (s.storeTx k w last) :=
  BobbinKept.peak (BobbinKept.refl _ s).setBob (by simp)

theorem State.peak_bob (f : Fld) (x k : Nat) (s : State) : (s.peak f x).bob k = s.bob k := by
  unfold State.peak
  split <;> rfl

theorem State.storeTx_tx (k : Nat) (w : Word) (last : Bool) (s : State) :
    ((s.storeTx k w last).bob k).tx = (s.bob k).tx ++ [{ data := w, last }] := by
  rw [State.storeTx, State.peak_bob, State.setBob_bob_same]

theorem State.pushTx_room {k : Nat} (w : Word) (last : Bool) (h : (s.bob k).tx.length < s.bobDepth k) :
    s.pushTx k w last = (.ok, s.storeTx k w last) := if_neg (Nat.not_le.mpr h)

theorem State.pushTx_full {k : Nat} (w : Word) (last : Bool) (h : s.bobDepth k ≤ (s.bob k).tx.length) :
    s.pushTx k w last = (.busy, s.on (Fd.BOB_STAT_TX_OVF k)) := if_pos h

theorem State.query_takes {r : ResetUnit} (f : State → Status × List Byte × State) (h : s.takes (some r) = true) :
    s.query (some r) f = (f s).2.2.emit (.data (f s).1 (f s).2.1) := by
  simp only [State.takes, Bool.and_eq_true, Bool.not_eq_true'] at h
  obtain ⟨⟨hr, hu⟩, -⟩ := h
  obtain ⟨hk, hh⟩ := State.runs_iff.mp hr
  have hup : ¬ ((s.anat.mainHeld || (Option.map s.unitBusy (some r)).getD false) = true) := by rw [hh, hu]; decide
  rw [State.query, if_neg (by simp [hk]), if_neg hup]

theorem State.rxqPop_empty {k : Nat} (ha : s.asleepOrLoading = false) (hl : s.bobLent k = false) (hq : (s.bob k).rx = []) :
    s.rxqPop k = (.ok, 0, s) := by
  rw [State.rxqPop, if_neg (by simp [ha]), if_neg (by simp [hl]), hq]

/-- The head of the RX queue leaves it. -/
theorem State.rxqPop_head {k : Nat} {h : QWord} {r : List QWord} (ha : s.asleepOrLoading = false) (hl : s.bobLent k = false)
    (hq : (s.bob k).rx = h :: r) (hu : h.upset = 0) :
    s.rxqPop k = (.ok, h.popValue, s.setBob k { s.bob k with rx := r }) := by
  rw [State.rxqPop, if_neg (by simp [ha]), if_neg (by simp [hl]), hq]
  simp [State.popCheck, hu]

/-- A pop of a word that is read without an error. -/
theorem exec_rxqPop {x : Nat} (ht : s.takes (some (.bobbin n)) = true) (hp : s.rxqPop n = (.ok, x, t)) :
    exec (.rxqPop n 0) s = .next (t.emit (.data .ok (leBytes 8 x))) := by
  refine congrArg Host.Outcome.next ((State.query_takes _ ht).trans ?_)
  change (s.rxqPop n).2.2.emit (.data (s.rxqPop n).1 (if (s.rxqPop n).1 = .ok then leBytes 8 (s.rxqPop n).2.1 else [])) = _
  rw [hp]
  rfl

end Sys2Proof.Machine
end

section
open Sys2Proof.Machine

/-- Settles O31: each command by its status, then by what START, RESUME, a stop, the pulse, a stalled cycle and a queue leave. -/
theorem bobbinCommands : Obligations.BobbinCommands := by
  unfold Obligations.BobbinCommands
  refine ⟨fun s n ht ha hf hd hl hr => ?_, fun s n ht ha => ⟨fun hl => ?_, fun hr => ?_, fun hr => ?_⟩,
    fun s hi w ht => ⟨fun h => ?_, fun h => ?_, fun h => ?_, fun h => ?_⟩, fun s w ht ha => ?_,
    fun s n hr he hm hp => ?_, fun s n wide v ht ha hl => ⟨fun h => ?_, fun h => ?_⟩, fun s n ht ha hl => ⟨fun h => ?_, ?_⟩⟩
  · have hgate (c : Bool) := State.bobGate_stopped c ht ha hf hd hl hr
    rw [exec_start ht, exec_resume ht]
    refine ⟨?_, fun hclean => ?_, fun hdirty => ?_⟩
    · rw [State.bobAll_one (hgate false)]
      obtain ⟨hrun, hstate, hmap, hprick⟩ := s.startBob_stat n
      obtain ⟨hsr, hcnt, hbits⟩ := s.startBob_shift n
      exact ⟨_, rfl, (answer_bobRun _ _ _).trans hrun, (answer_fld _ _ _).trans hstate, (answer_flag _ _ _).trans hmap,
        (answer_flag _ _ _).trans hprick, (answer_rd _ _ _).trans hsr, (answer_rd _ _ _).trans hcnt, (answer_fld _ _ _).trans hbits,
        (answer_held _ _ _).trans (s.startBob_held n), (s.startBob_kept n).answer⟩
    · rw [State.bobAll_one ((hgate true).trans (if_neg (by simp [hclean])))]
      exact ⟨_, rfl, (answer_bobRun _ _ _).trans (s.resumeBob_bobRun n), (answer_fld _ _ _).trans (s.resumeBob_state n),
        (answer_bob _ _ _).trans (s.setFld_bob _ _ _), (s.resumeBob_onlyRegs n).answer⟩
    · have hrefused : s.bobGate true true [n.val] = .wrongMode := (hgate true).trans (if_pos (by simp [hdirty]))
      rw [State.bobAll_refused (by rw [hrefused]; decide), hrefused]
      rfl
  · have hgate (c : Bool) := State.bobGate_lent true c ha hl
    rw [exec_start ht, exec_resume ht, State.bobAll_refused (by rw [hgate]; decide), State.bobAll_refused (by rw [hgate]; decide),
      hgate, hgate]
    exact ⟨rfl, rfl⟩
  · obtain ⟨hrun, hcause, hkept⟩ := State.haltBob_running hr
    obtain ⟨-, hregs, hbytes⟩ := hkept.answer (st := .ok)
    exact ⟨_, exec_stop ht ha, (answer_bobRun _ _ _).trans hrun, (answer_fld _ _ _).trans hcause, hregs _ (sr_not_mem_stopRegs n),
      hbytes⟩
  · rw [exec_stop ht ha, State.haltBob_stopped hr]
  · rw [exec_groupStart ht, State.bobAll_ok h]
  · rw [exec_groupStop ht, State.bobAll_ok h]
  · rw [exec_groupResume ht, State.bobAll_ok h]
  · rw [exec_groupStart ht, State.bobAll_refused h]
  · obtain ⟨-, hregs, hbytes⟩ := (s.pulseBelow_kept w 64).answer (st := .ok)
    refine ⟨_, exec_syncPulse ht ha, fun k hk => ?_, hregs, hbytes⟩
    rw [answer_bob, State.pulseBelow_sync, decide_eq_true hk, Bool.true_and]
  · rw [exec_stallEnd hr he]
    refine ⟨fun h l hq => by rw [State.runRow_pullWord hm hp hq], fun hq => ?_⟩
    rw [State.runRow_pullEmpty hm hp hq]
    refine ⟨_, rfl, State.stall_bobRun _ _, ?_⟩
    rw [State.stall_stallCyc, fetched_rd _ _ _ (by simp)]
  · rw [exec_txqPush ht ha hl, State.pushTx_room _ _ h]
    obtain ⟨hout, hregs, hbytes⟩ := (s.storeTx_kept n (v.setWidth 32) (wide && v.getLsbD 34)).answer (st := .ok)
    refine ⟨_, rfl, hout, ?_, hregs, hbytes⟩
    rw [answer_bob, State.storeTx_tx]
  · rw [exec_txqPush ht ha hl, State.pushTx_full _ _ h]
  · exact exec_rxqPop ht (State.rxqPop_empty ha hl h)
  · intro h l hq hu
    obtain ⟨hregs, hmem, -⟩ := (BobbinKept.refl [] s).setBob (k := n) (b := { s.bob n with rx := l })
    refine ⟨_, exec_rxqPop ht (State.rxqPop_head ha hl hq hu), ?_, rfl, hregs, SameBytes.of_mem hmem⟩
    exact congrArg BobState.rx (s.setBob_bob_same n _)

end

section
/-!
SUPPORT. Queues, slots and prickings of a stopped bobbin (08 R194, R197, R205, R206, R212): what JOIN, a write of a slot and a write of a
pricking store, and what they leave alone.
-/

namespace Sys2Proof.Machine

variable {s t : State} {l : List Nat} {n : Fin 64} {k j : Nat} {w : Word} {b : List Byte}

theorem answer_bobLent (st : Status) (t : State) (k : Nat) : (answer (st, t)).bobLent k = t.bobLent k := rfl

theorem answer_byte (st : Status) (t : State) (x : Nat) : (answer (st, t)).byte x = t.byte x := rfl

theorem answer_ownedBy (st : Status) (t : State) (k : Nat) (o : Owner) : (answer (st, t)).ownedBy k o = t.ownedBy k o := rfl

/-! ### JOIN (08 R206) -/

/-- What each element establishes of itself, and every other keeps, holds of all of them after the iteration. -/
theorem State.forEach_establishes {β : Type} {P : β → State → Prop} {f : β → State → State} (js : List β) (s : State)
    (hset : ∀ i u, P i (f i u)) (hkeep : ∀ i i' u, P i u → P i (f i' u)) {i : β} (hi : i ∈ js) : P i (s.forEach js f) := by
  induction js generalizing s with
  | nil => cases hi
  | cons x js ih =>
    rcases List.mem_cons.mp hi with rfl | hi
    · exact State.forEach_induct (P i) js f (f i s) (hset i s) fun i' _ u => hkeep i i' u
    · exact ih (f x s) hi

theorem joinMembers_zero (k : Nat) : joinMembers k 0 = [k] := rfl

/-- Bobbin `k` has lost the words of its queues and is nobody's. -/
def State.emptyMember (k : Nat) (s : State) : State := (s.setBob k { s.bob k with tx := [], rx := [] }).off (Fd.BOB_STAT_LENT k)

/-- Bobbin `k` lends its queues to `n`, unless it is `n`. -/
def State.lendTo (n k : Nat) (s : State) : State := s.setFlag (Fd.BOB_STAT_LENT k) (k != n)

/-- Bobbin `n`, so far alone, leads the group of JOIN = `j`. -/
def State.lead (n j : Nat) (s : State) : State :=
  ((s.forEach (joinMembers n 0 ++ joinMembers n j) State.emptyMember).forEach (joinMembers n j) (State.lendTo n)).wr (Reg.BOB_QCFG n)
    (BitVec.ofNat 32 j)

/-- Both queues of bobbin `k` are empty. -/
def State.queuesEmpty (k : Nat) (s : State) : Prop := (s.bob k).tx = [] ∧ (s.bob k).rx = []

theorem State.emptyMember_bob (i k : Nat) (s : State) :
    (s.emptyMember i).bob k = (s.setBob i { s.bob i with tx := [], rx := [] }).bob k := rfl

theorem State.emptyMember_same (k : Nat) (s : State) : (s.emptyMember k).queuesEmpty k := by
  rw [State.queuesEmpty, State.emptyMember_bob, State.setBob_bob_same]
  exact ⟨rfl, rfl⟩

theorem State.emptyMember_keeps (i k : Nat) (s : State) (h : s.queuesEmpty k) : (s.emptyMember i).queuesEmpty k := by
  by_cases hik : k = i
  · subst hik
    exact s.emptyMember_same k
  · rw [State.queuesEmpty, State.emptyMember_bob, State.setBob_bob_ne _ _ hik]
    exact h

theorem State.lendTo_lent_same (n k : Nat) (s : State) : (s.lendTo n k).bobLent k = (k != n) := by
  rw [State.lendTo, State.bobLent, State.flag, State.setFlag, State.fld_setFld_fits _ (by simp) (by split <;> simp)]
  cases k != n <;> rfl

theorem State.lendTo_lent_keeps (n i k : Nat) (s : State) (h : s.bobLent k = (k != n)) : (s.lendTo n i).bobLent k = (k != n) := by
  by_cases hik : k = i
  · subst hik
    exact s.lendTo_lent_same n k
  · have hreg : Reg.BOB_STAT k ≠ Reg.BOB_STAT i := by
      dsimp only [Reg.BOB_STAT]
      omega
    exact (s.flag_setFld_ne _ (.inl hreg)).trans h

theorem State.lead_queuesEmpty (n : Nat) (s : State) (hk : k ∈ joinMembers n j) : (s.lead n j).queuesEmpty k :=
  State.forEach_induct (State.queuesEmpty k) _ (State.lendTo n) _
    (State.forEach_establishes _ s State.emptyMember_same (fun i i' => State.emptyMember_keeps i' i) (List.mem_append_right _ hk))
    fun _ _ _ h => h

theorem State.lead_lent (n : Nat) (s : State) (hk : k ∈ joinMembers n j) : (s.lead n j).bobLent k = (k != n) := by
  have hloop := State.forEach_establishes (P := fun i u => u.bobLent i = (i != n)) (joinMembers n j)
    (s.forEach (joinMembers n 0 ++ joinMembers n j) State.emptyMember) (State.lendTo_lent_same n)
    (fun i i' => State.lendTo_lent_keeps n i' i) hk
  exact (State.flag_congr (State.rd_wr_ne _ _ (by dsimp only [Reg.BOB_STAT, Reg.BOB_QCFG]; omega))).trans hloop

theorem State.lead_same (n j : Nat) (s : State) : (s.lead n j).mem = s.mem ∧ (s.lead n j).out = s.out :=
  State.forEach_induct (fun u => u.mem = s.mem ∧ u.out = s.out) _ (State.lendTo n) _
    (State.forEach_induct (fun u => u.mem = s.mem ∧ u.out = s.out) _ State.emptyMember s ⟨rfl, rfl⟩ fun _ _ _ h => h) fun _ _ _ h => h

theorem State.join_malformed (ha : s.asleepOrLoading = false) (h : bits w 0 2 = 3 ∨ k % 2 ^ bits w 0 2 ≠ 0) :
    s.join k w = refuse .badRequest s := by
  rw [State.join, if_neg (by simp [ha]), if_pos h]

/-- A bobbin is a member of each group that it leads. -/
theorem leader_mem_joinMembers (k j : Nat) : k ∈ joinMembers k j :=
  List.mem_map.mpr ⟨0, List.mem_range.mpr (Nat.two_pow_pos j), rfl⟩

theorem State.join_lends (ha : s.asleepOrLoading = false) (hj : bits w 0 2 ≠ 3) (hk : k % 2 ^ bits w 0 2 = 0)
    (hl : s.bobLent k = false) (h0 : s.fld (Fd.BOB_QCFG_JOIN k) = 0)
    (hm : ∀ i ∈ joinMembers k (bits w 0 2), s.bobRun i = 0 ∧ s.otherJoin k i = false) :
    s.join k w = (.ok, s.lead k (bits w 0 2)) := by
  have hstopped : ((joinMembers k 0 ++ joinMembers k (bits w 0 2)).any fun i => s.bobRun i != 0) = false := by
    have hleader : s.bobRun k = 0 := (hm k (leader_mem_joinMembers k _)).1
    simpa [joinMembers_zero, hleader] using fun i hi => (hm i hi).1
  have hfree : (joinMembers k (bits w 0 2)).any (s.otherJoin k) = false := by simpa using fun i hi => (hm i hi).2
  simp only [State.join, ha, h0, hl, hstopped, hfree, hj, hk, Bool.false_eq_true, ne_eq, not_true_eq_false, or_self, if_false]
  rfl

theorem exec_queueJoin (ht : s.takes (some (.bobbin n)) = true) : exec (.queueJoin n w) s = .next (answer (s.join n w)) :=
  congrArg Host.Outcome.next (State.command_takes _ _ ht)

/-! ### Slots (08 R194) -/

theorem State.dirty_dirty (n : Nat) (s : State) : (s.dirty n).flag (Fd.BOB_STAT_PRICK_DIRTY n) = true :=
  State.flag_on_same s (by simp) (by simp)

theorem BobbinKept.dirty (h : BobbinKept l s t) (hk : Reg.BOB_STAT k ∈ l) : BobbinKept l s (t.dirty k) := h.setFld hk

theorem BobbinKept.idleSlot (h : BobbinKept l s t) : BobbinKept l s (t.idleSlot k j) := h.setBob

theorem State.idleSlot_rd (n k : Nat) (s : State) (a : Nat) : (s.idleSlot n k).rd a = s.rd a := rfl

/-- Until a row applies, the driver of the slot is off. -/
theorem State.idleSlot_oen (n : Nat) (s : State) (hk : k < 6) : ((s.idleSlot n k).bob n).oen.getLsbD k = false := by
  rw [State.idleSlot, State.setBob_bob_same]
  simp only [BitVec.getLsbD_and, BitVec.getLsbD_not, BitVec.getLsbD_ofNat, Nat.testBit_two_pow_self, hk, decide_true, Bool.and_self,
    Bool.not_true, Bool.and_false]

/-- Slot `k` takes a value and idles; the pricking is dirty. -/
def State.loadSlot (n k : Nat) (w : Word) (s : State) : State :=
  ((s.wr (Reg.BOB_SLOT n k) (w &&& 0x73F#32)).dirty n).idleSlot n k

theorem BobbinKept.loadSlot (n k : Nat) (w : Word) (h : BobbinKept l s t) (hslot : Reg.BOB_SLOT n k ∈ l) (hstat : Reg.BOB_STAT n ∈ l) :
    BobbinKept l s (t.loadSlot n k w) := ((h.wr hslot).dirty hstat).idleSlot

theorem State.loadSlot_kept (n k : Nat) (w : Word) (s : State) : BobbinKept [Reg.BOB_SLOT n k, Reg.BOB_STAT n] s (s.loadSlot n k w) :=
  (BobbinKept.refl _ s).loadSlot n k w (by simp) (by simp)

theorem State.loadSlot_slot (n k : Nat) (w : Word) (s : State) : (s.loadSlot n k w).rd (Reg.BOB_SLOT n k) = w &&& 0x73F#32 := by
  have hstat : Reg.BOB_SLOT n k ≠ Reg.BOB_STAT n := by
    dsimp only [Reg.BOB_SLOT, Reg.BOB_STAT]
    omega
  rw [State.loadSlot, State.idleSlot_rd, State.dirty, State.on, State.rd_setFld_ne _ _ _ hstat, State.rd_wr_same]

theorem State.loadSlot_dirty (n k : Nat) (w : Word) (s : State) : (s.loadSlot n k w).flag (Fd.BOB_STAT_PRICK_DIRTY n) = true := by
  rw [State.loadSlot, State.flag_congr (State.idleSlot_rd n k _ _), State.dirty_dirty]

theorem State.loadSlot_oen (n : Nat) (w : Word) (s : State) (hk : k < 6) : ((s.loadSlot n k w).bob n).oen.getLsbD k = false :=
  State.idleSlot_oen n _ hk

/-- A word that would drive sets DRIVE. -/
theorem getLsbD_drive (h : bits w 9 2 = 3) : w.getLsbD 9 = true := by
  have hbit : (bits w 9 2).testBit 0 = w.getLsbD 9 := by
    rw [bits, BitVec.testBit_toNat, BitVec.getLsbD_extractLsb']
    rfl
  rw [← hbit, h]
  rfl

theorem exec_slotWrite {k : Fin 8} (ht : s.takes (some (.bobbin n)) = true) :
    exec (.slotWrite n k w) s = .next (answer (s.slotWrite n k w)) :=
  congrArg Host.Outcome.next (State.command_takes _ _ ht)

theorem State.slotWrite_running (hr : s.bobRun j ≠ 0) : s.slotWrite j k w = wrongMode s := by
  rw [State.slotWrite]
  exact if_pos (by simp [hr])

/-- The driver of a pin goes to `o`. -/
def State.own (o : Owner) (p : Nat) (s : State) : State :=
  (s.setFld (Fd.PIN_STAT_OWNER p) o.code).setFld (Fd.PIN_STAT_OWNER_IDX p) o.index

theorem BobbinKept.own (o : Owner) (p : Nat) (h : BobbinKept l s t) (hp : Reg.PIN_STAT p ∈ l) : BobbinKept l s (t.own o p) :=
  (h.setFld hp).setFld hp

theorem State.own_ownedBy {o : Owner} (p : Nat) (s : State) (hi : o.index < 64) : (s.own o p).ownedBy p o = true := by
  have hcode : o.code < 16 := by cases o <;> simp [Owner.code]
  have howner : (s.own o p).fld (Fd.PIN_STAT_OWNER p) = o.code :=
    (State.fld_setFld_ne _ _ _ _ (.inr (by simp))).trans (State.fld_setFld_fits _ (by simp) hcode)
  have hindex : (s.own o p).fld (Fd.PIN_STAT_OWNER_IDX p) = o.index := State.fld_setFld_fits _ (by simp) hi
  rw [State.ownedBy, howner, hindex, beq_self_eq_true, beq_self_eq_true, Bool.and_self]

/-- A slot shares no register with a pin. -/
theorem State.loadSlot_ownedBy (n k : Nat) (w : Word) (o : Owner) {p : Nat} (s : State) (hp : p < 256) :
    (s.loadSlot n k w).ownedBy p o = s.ownedBy p o := by
  obtain ⟨hregs, -⟩ := s.loadSlot_kept n k w
  have hpin : (s.loadSlot n k w).rd (Reg.PIN_STAT p) = s.rd (Reg.PIN_STAT p) := by
    refine hregs _ ?_
    simp only [Reg.PIN_STAT, Reg.BOB_SLOT, Reg.BOB_STAT, List.mem_cons, List.not_mem_nil, or_false]
    omega
  rw [State.ownedBy, State.fld_congr (x := Fd.PIN_STAT_OWNER p) hpin, State.fld_congr (x := Fd.PIN_STAT_OWNER_IDX p) hpin, State.ownedBy]

/-- The pins of a bobbin's cushion are 64 of the part's 256. -/
theorem slotPin_lt (n : Fin 64) (w : Word) : n.val / 16 * 64 + bits w 0 6 < 256 := by
  have hpin : bits w 0 6 < 2 ^ 6 := BitVec.isLt _
  omega

theorem State.release_nil (o : Owner) (s : State) : s.release o [] = s := rfl

/-- A pin that nobody owns can be claimed. -/
theorem State.claim_free {p : Nat} (o : Owner) (ha : s.applying = false) (hp : s.fld (Fd.PIN_STAT_OWNER p) = 0) :
    s.claim o [p] = (.ok, s.own o p) := by
  have hall : [p].all (s.claimable o) = true := by simp [State.claimable, State.pinOwned, hp]
  rw [State.claim, if_neg (by simp [ha]), if_pos hall]
  rfl

section
variable (ha : s.asleepOrLoading = false) (hr : s.bobRun j = 0)
include ha hr

theorem State.slotWrite_noDriver (hk : 6 ≤ k) (hw : w.getLsbD 9 = true) : s.slotWrite j k w = refuse .badRequest s := by
  rw [State.slotWrite, if_neg (by simp [ha, hr]), if_pos ⟨hk, bits_eq_one.mpr hw⟩]

/-- A slot that neither drove nor drives touches no pin. -/
theorem State.slotWrite_input (hw : w.getLsbD 9 = false) (hs : s.slotDrives j k = false) :
    s.slotWrite j k w = (.ok, s.loadSlot j k w) := by
  have hdrives : bits w 9 2 ≠ 3 := fun h => Bool.false_ne_true (hw.symm.trans (getLsbD_drive h))
  have hdrive : bits w 9 1 ≠ 1 := fun h => Bool.false_ne_true (hw.symm.trans (bits_eq_one.mp h))
  rw [State.slotWrite, if_neg (by simp [ha, hr]), if_neg (fun h => hdrive h.2), if_neg (fun h => hdrives h.1), if_neg hdrives]
  simp [hs, hdrives, State.release_nil, State.loadSlot]

/-- A slot that comes to drive claims its pin. -/
theorem State.slotWrite_claims (hp : s.applying = false) (hk : k < 6) (hw : bits w 9 2 = 3)
    (hs : ∀ i, i < 6 → s.slotDrives j i = false) (ho : s.fld (Fd.PIN_STAT_OWNER (j / 16 * 64 + bits w 0 6)) = 0) :
    s.slotWrite j k w = (.ok, (s.own (.bobbin j) (j / 16 * 64 + bits w 0 6)).loadSlot j k w) := by
  have halone : ¬ (bits w 9 2 = 3 ∧ ((List.range 6).any fun i => i != k && s.slotDrives j i &&
      s.slotPin j i == j / 16 * 64 + bits w 0 6) = true) := by
    simp +contextual [hs]
  rw [State.slotWrite, if_neg (by simp [ha, hr]), if_neg (fun h => absurd h.1 (by omega)), if_neg halone, if_pos hw,
    State.claim_free _ hp ho]
  simp [hs k hk, State.release_nil, State.loadSlot]

end

/-! ### Prickings (08 R197, R205, R212) -/

/-- Whole rows as they are stored: of each four bytes the highest is 0. -/
def storedRows (b : List Byte) : List Byte := (List.range (b.length / 4)).flatMap fun i => (b.drop (4 * i)).take 3 ++ [0#8]

theorem storedRows_cons (x y z v : Byte) (b : List Byte) : storedRows (x :: y :: z :: v :: b) = x :: y :: z :: 0#8 :: storedRows b := by
  have hrows : (x :: y :: z :: v :: b).length / 4 = b.length / 4 + 1 := by
    simp only [List.length_cons]
    omega
  have hdrop (i : Nat) : (x :: y :: z :: v :: b).drop (4 * (i + 1)) = b.drop (4 * i) := rfl
  rw [storedRows, hrows, List.range_succ_eq_map, List.flatMap_cons, List.flatMap_map]
  simp only [Nat.succ_eq_add_one, hdrop]
  rfl

/-- A list of whole rows is empty or starts with one. -/
theorem rows_induct {P : List Byte → Prop} (nil : P []) (cons : ∀ x y z v b, P b → P (x :: y :: z :: v :: b)) :
    ∀ b : List Byte, b.length % 4 = 0 → P b
  | [], _ => nil
  | [_], h => by simp at h
  | [_, _], h => by simp at h
  | [_, _, _], h => by simp at h
  | x :: y :: z :: v :: b, h => cons x y z v b (rows_induct nil cons b (by simp only [List.length_cons] at h; omega))

theorem storedRows_length (h : b.length % 4 = 0) : (storedRows b).length = b.length := by
  refine rows_induct (P := fun b => (storedRows b).length = b.length) rfl (fun x y z v b ih => ?_) b h
  rw [storedRows_cons]
  simp only [List.length_cons, ih]

theorem storedRows_getD (h : b.length % 4 = 0) (i : Nat) : (storedRows b).getD i 0#8 = if i % 4 = 3 then 0#8 else b.getD i 0#8 := by
  refine rows_induct (P := fun b => ∀ i, (storedRows b).getD i 0#8 = if i % 4 = 3 then 0#8 else b.getD i 0#8) (fun i => ?_)
    (fun x y z v b ih i => ?_) b h i
  · exact (ite_self _).symm
  · rw [storedRows_cons]
    match i with
    | 0 | 1 | 2 | 3 => rfl
    | i + 4 =>
      have hrow : (i + 4) % 4 = i % 4 := Nat.add_mod_right i 4
      rw [hrow]
      exact ih i

theorem State.writeBytes_out (a : Nat) (b : List Byte) (s : State) : (s.writeBytes a b).out = s.out :=
  (congrArg State.out (s.writeBytes_eq a b)).trans rfl

/-- The `q` rows from `a` on have fresh parity. -/
def State.freshRows (a q : Nat) (s : State) : State := s.forEach (List.range q) fun i u => u.setMark (a + 4 * i) 0

theorem State.freshRows_same (a q : Nat) (s : State) :
    (s.freshRows a q).mem = s.mem ∧ (s.freshRows a q).regs = s.regs ∧ (s.freshRows a q).out = s.out :=
  State.forEach_induct (fun u => u.mem = s.mem ∧ u.regs = s.regs ∧ u.out = s.out) _ _ s ⟨rfl, rfl, rfl⟩ fun _ _ _ h => h

/-- The rows `b` of bobbin `n` stand at `a`, and its pricking is dirty. -/
def State.storePricking (n a : Nat) (b : List Byte) (s : State) : State :=
  ((s.writeBytes a (storedRows b)).freshRows a (b.length / 4)).dirty n

theorem State.storePricking_dirty (n a : Nat) (b : List Byte) (s : State) :
    (s.storePricking n a b).flag (Fd.BOB_STAT_PRICK_DIRTY n) = true := State.dirty_dirty n _

theorem State.storePricking_out (n a : Nat) (b : List Byte) (s : State) : (s.storePricking n a b).out = s.out := by
  obtain ⟨-, -, hout⟩ := (s.writeBytes a (storedRows b)).freshRows_same a (b.length / 4)
  exact hout.trans (s.writeBytes_out _ _)

theorem State.storePricking_sameRegs (n a : Nat) (b : List Byte) (s : State) : SameRegs [Reg.BOB_STAT n] s (s.storePricking n a b) := by
  obtain ⟨-, hregs, -⟩ := (s.writeBytes a (storedRows b)).freshRows_same a (b.length / 4)
  intro x hx
  rw [State.storePricking, State.dirty, State.on, State.rd_setFld_ne _ _ _ (by simpa using hx), State.rd_congr hregs,
    State.writeBytes_rd]

/-- The bytes of rows written at `off` of a pricking that begins at `p`: the highest of each row reads 0. -/
theorem State.storePricking_byte (n : Nat) (s : State) {p off : Nat} (hoff : off % 4 = 0) (hb : b.length % 4 = 0) (x : Nat) :
    (s.storePricking n (p + off) b).byte x = if p + off ≤ x ∧ x < p + off + b.length then
      (if (x - p) % 4 = 3 then 0#8 else b.getD (x - p - off) 0#8) else s.byte x := by
  obtain ⟨hmem, -, -⟩ := (s.writeBytes (p + off) (storedRows b)).freshRows_same (p + off) (b.length / 4)
  have hstored : (s.storePricking n (p + off) b).byte x = (s.writeBytes (p + off) (storedRows b)).byte x :=
    congrArg (Tab.get 0#8 · x) hmem
  rw [hstored, State.byte_writeBytes, storedRows_length hb]
  split
  · have hrow : (x - p) % 4 = (x - (p + off)) % 4 := by omega
    rw [storedRows_getD hb, hrow, Nat.sub_sub]
  · rfl

theorem exec_prickingWrite {off : BitVec 12} (ht : s.takes (some (.bobbin n)) = true) :
    exec (.prickingWrite n off b) s = .next (answer (s.prickWrite n off.toNat b)) :=
  congrArg Host.Outcome.next (State.command_takes _ _ ht)

section
variable {off : Nat} (ha : s.asleepOrLoading = false) (hoff : off % 4 = 0) (hb : b.length % 4 = 0) (hn : b ≠ [])
  (hmax : off + b.length ≤ 0x1000)
include ha hoff hb hn hmax

theorem State.prickWrite_running (hr : s.bobRun k ≠ 0) : s.prickWrite k off b = wrongMode (s.on (Fd.BOB_STAT_PRICK_WERR k)) := by
  rw [State.prickWrite, if_neg (by simp [ha]), if_neg (by simp [hoff, hb, hn, hmax]), if_pos hr]
  rfl

theorem State.prickWrite_stopped (hr : s.bobRun k = 0) :
    s.prickWrite k off b = (.ok, s.storePricking k (rowAddr k 0 + off) b) := by
  rw [State.prickWrite, if_neg (by simp [ha]), if_neg (by simp [hoff, hb, hn, hmax]), if_neg (fun hne => hne hr)]
  rfl

end

end Sys2Proof.Machine
end

section
open Sys2Proof.Machine

/-- Settles O32: a join by its two loops, a slot by what it loads and the pin that it claims, a pricking by the rows that it stores. -/
theorem bobbinTables : Obligations.BobbinTables := by
  unfold Obligations.BobbinTables
  refine ⟨fun s n w ht ha => ⟨fun h => ?_, fun hj hn hl h0 hm => ?_⟩,
    fun s n k w ht ha => ⟨fun hr => ?_, fun hr hk hw => ?_, fun hr hw hs => ?_, fun hr hp hk hw _ hs ho => ?_⟩,
    fun s n off b ht ha hoff hb hne hmax => ⟨fun hr => ?_, fun hr => ?_⟩⟩
  · rw [exec_queueJoin ht, State.join_malformed ha h]
  · obtain ⟨hmem, hout⟩ := s.lead_same n (bits w 0 2)
    rw [exec_queueJoin ht, State.join_lends ha hj hn hl h0 hm]
    refine ⟨_, rfl, (answer_rd _ _ _).trans (State.rd_wr_same _ _ _), congrArg (_ :: ·) hout, fun m hm => ?_,
      SameBytes.of_mem ((answer_mem _ _).trans hmem)⟩
    obtain ⟨htx, hrx⟩ := s.lead_queuesEmpty n hm
    rw [answer_bob, answer_bobLent]
    exact ⟨htx, hrx, s.lead_lent n hm⟩
  · rw [exec_slotWrite ht, State.slotWrite_running hr]
  · rw [exec_slotWrite ht, State.slotWrite_noDriver ha hr hk hw]
  · rw [exec_slotWrite ht, State.slotWrite_input ha hr hw hs]
    obtain ⟨hout, hregs, hbytes⟩ := (s.loadSlot_kept n k w).answer (st := .ok)
    refine ⟨_, rfl, (answer_rd _ _ _).trans (s.loadSlot_slot n k w), (answer_flag _ _ _).trans (s.loadSlot_dirty n k w), hout,
      fun hk => ?_, hregs, hbytes⟩
    rw [answer_bob]
    exact s.loadSlot_oen n w hk
  · rw [exec_slotWrite ht, State.slotWrite_claims ha hr hp hk hw hs ho]
    have hown := (BobbinKept.refl [Reg.BOB_SLOT n k, Reg.BOB_STAT n, Reg.PIN_STAT (n / 16 * 64 + bits w 0 6)] s).own
      (.bobbin n) (n / 16 * 64 + bits w 0 6) (by simp)
    obtain ⟨-, hregs, hbytes⟩ := (hown.loadSlot n k w (by simp) (by simp)).answer (st := .ok)
    refine ⟨_, rfl, (answer_rd _ _ _).trans (State.loadSlot_slot n k w _), ?_, ?_, hregs, hbytes⟩
    · rw [answer_ownedBy, State.loadSlot_ownedBy _ _ _ _ _ (slotPin_lt n w)]
      exact State.own_ownedBy _ s n.isLt
    · rw [answer_bob]
      exact State.loadSlot_oen n w _ hk
  · rw [exec_prickingWrite ht, State.prickWrite_running ha hoff hb hne hmax hr]
  · rw [exec_prickingWrite ht, State.prickWrite_stopped ha hoff hb hne hmax hr]
    have hregs := s.storePricking_sameRegs n (rowAddr n 0 + off.toNat) b
    refine ⟨_, rfl, (answer_flag _ _ _).trans (State.storePricking_dirty n _ b s), fun x => ?_,
      congrArg (_ :: ·) (State.storePricking_out n _ b s), fun a ha => (answer_rd _ _ _).trans (hregs a ha)⟩
    exact (answer_byte _ _ _).trans (s.storePricking_byte n hoff hb x)

end

section
/-!
SUPPORT. CAN controllers (09 R223 to R232): what records, the error counters and the end of a head leave alone, and what each command
and event of the transmit path does once its guard holds. What stands as before is said by `BobbinKept`, which speaks of no bobbin:
memory, what has left the part, and every register but those listed.
-/

namespace Sys2Proof.Machine

variable {s t : State} {l : List Nat} {n : Nat}

/-! ### Controllers after an update -/

@[simp] theorem State.setCan_can_same (s : State) (n : Nat) (c : CanState) : (s.setCan n c).can n = c := Tab.get_set_same _ _ _ _

theorem State.can_congr (h : t.cans = s.cans) (n : Nat) : t.can n = s.can n := by
  rw [State.can, h, State.can]

theorem BobbinKept.setCan {c : CanState} (h : BobbinKept l s t) : BobbinKept l s (t.setCan n c) := h

theorem answer_can (st : Status) (t : State) (n : Nat) : (answer (st, t)).can n = t.can n := rfl

theorem answer_canState (st : Status) (t : State) (n : Nat) : (answer (st, t)).canState n = t.canState n := rfl

theorem State.rd_bump_ne (s : State) {a b : Nat} (h : b ≠ a) : (s.bump a).rd b = s.rd b := (s.rd_bump a b).trans (if_neg h)

/-- A field that is cleared reads 0. -/
theorem State.fld_off_same (s : State) {f : Fld} (h : f.lo + f.width ≤ 32) : (s.off f).fld f = 0 := by
  rw [State.off, s.fld_setFld_same f 0 h, Nat.zero_mod]

/-! ### Journal records (09 R240) -/

theorem BobbinKept.pushRec {i : Nat} {f : Fld} {r : JRec} (h : BobbinKept l s t) (hi : lostCounter i = some f)
    (hlost : Reg.JRN_LOST_TOTAL ∈ l) (hf : f.reg ∈ l) : BobbinKept l s (t.pushRec i r) := by
  by_cases hroom : (Tab.get [] t.fifos i).length < fifoCap i
  · simp only [State.pushRec, hroom, if_true]
    exact h
  · rw [State.pushRec_full (by omega), hi]
    have hcount : BobbinKept l s (t.loseRec i) := .wr (t := { t with fifoLost := i :: t.fifoLost.filter (· != i) }) h hlost
    exact hcount.setFld hf

theorem State.pushRec_cans (i : Nat) (r : JRec) (s : State) : (s.pushRec i r).cans = s.cans := by
  by_cases hroom : (Tab.get [] s.fifos i).length < fifoCap i
  · simp only [State.pushRec, hroom, if_true]
  · rw [State.pushRec_full (by omega)]
    split <;> rfl

/-- The registers that count a lost record of controller `n`. -/
def canLostRegs (n : Nat) : List Nat := [Reg.JRN_LOST_TOTAL, Reg.CAN_JLOST n]

theorem lostCounter_can (hn : n < 8) : lostCounter (320 + n) = some ⟨Reg.CAN_JLOST n, 0, 32⟩ := by
  rw [lostCounter, if_neg (by omega), if_neg (by omega), if_pos (by omega), Nat.add_sub_cancel_left]

theorem BobbinKept.canStateRec {event arg : Nat} {i : Instant} (h : BobbinKept l s t) (hn : n < 8) (hl : canLostRegs n ⊆ l) :
    BobbinKept l s (t.canStateRec n event arg i) :=
  .ite (.ite (h.pushRec (lostCounter_can hn) (hl (by simp [canLostRegs])) (hl (by simp [canLostRegs]))) h) h

theorem mem_canLostRegs {a : Nat} : a ∈ canLostRegs n ↔ a = 0x60200 ∨ a = 0xA0234 + 0x1000 * n := by
  simp [canLostRegs]

theorem canStat_notMem_lost (n : Nat) : Reg.CAN_STAT n ∉ canLostRegs n := by
  rw [mem_canLostRegs]
  dsimp only [Reg.CAN_STAT]
  omega

theorem canErrCnt_notMem_lost (n : Nat) : Reg.CAN_ERR_CNT n ∉ canLostRegs n := by
  rw [mem_canLostRegs]
  dsimp only [Reg.CAN_ERR_CNT]
  omega

theorem State.canStateRec_rd (hn : n < 8) (event arg : Nat) (i : Instant) (s : State) {a : Nat} (ha : a ∉ canLostRegs n) :
    (s.canStateRec n event arg i).rd a = s.rd a := by
  obtain ⟨hr, -⟩ := (BobbinKept.refl (canLostRegs n) s).canStateRec (event := event) (arg := arg) (i := i) hn (List.Subset.refl _)
  exact hr a ha

theorem State.canStateRec_cans (n event arg : Nat) (i : Instant) (s : State) : (s.canStateRec n event arg i).cans = s.cans := by
  unfold State.canStateRec State.canRec
  split
  · split
    · exact State.pushRec_cans _ _ s
    · rfl
  · rfl

/-! ### Error counters and states (09 R231, R232) -/

/-- STATE of a controller on the bus with these counters. -/
def errState (tec rec_ : Nat) : Nat := if 255 < tec then 3 else if 127 < tec ∨ 127 < rec_ then 2 else 1

theorem errState_lt (tec rec_ : Nat) : errState tec rec_ < 4 := by
  unfold errState
  split
  · decide
  · split <;> decide

/-- The counters and STATE take their values. -/
def State.loadErr (n tec rec_ : Nat) (s : State) : State :=
  ((s.setFld (Fd.CAN_ERR_CNT_TEC n) (min tec 511)).setFld (Fd.CAN_ERR_CNT_REC n) (min rec_ 511)).setFld (Fd.CAN_STAT_STATE n)
    (errState tec rec_)

theorem State.loadErr_kept (n tec rec_ : Nat) (s : State) :
    BobbinKept [Reg.CAN_ERR_CNT n, Reg.CAN_STAT n] s (s.loadErr n tec rec_) :=
  (((BobbinKept.refl _ s).setFld (by simp)).setFld (by simp)).setFld (by simp)

theorem State.loadErr_canState (n tec rec_ : Nat) (s : State) : (s.loadErr n tec rec_).canState n = errState tec rec_ :=
  State.fld_setFld_fits _ (by simp) (errState_lt tec rec_)

theorem State.loadErr_tec (n rec_ : Nat) (s : State) {tec : Nat} (h : tec ≤ 511) : (s.loadErr n tec rec_).tec n = tec := by
  have hfits : min tec 511 < 2 ^ 9 := by omega
  rw [State.tec, State.loadErr, State.fld_setFld_ne _ _ _ _ (.inl (by simp)), State.fld_setFld_ne _ _ _ _ (.inr (by simp)),
    State.fld_setFld_fits _ (by simp) hfits, Nat.min_eq_left h]

theorem State.loadErr_recCnt (n tec : Nat) (s : State) {rec_ : Nat} (h : rec_ ≤ 511) : (s.loadErr n tec rec_).recCnt n = rec_ := by
  have hfits : min rec_ 511 < 2 ^ 9 := by omega
  rw [State.recCnt, State.loadErr, State.fld_setFld_ne _ _ _ _ (.inl (by simp)), State.fld_setFld_fits _ (by simp) hfits,
    Nat.min_eq_left h]

/-- The registers that count a change of STATE and a lost record of it. -/
def canNoteRegs (n : Nat) : List Nat := Reg.CAN_BUSOFF_CNT n :: canLostRegs n

theorem mem_canNoteRegs {a : Nat} : a ∈ canNoteRegs n ↔ a = 0xA0218 + 0x1000 * n ∨ a = 0x60200 ∨ a = 0xA0234 + 0x1000 * n := by
  simp [canNoteRegs, canLostRegs]

/-- A change of STATE from `was` to `now` is noted; at bus-off the head leaves the wire first. -/
def State.noteState (n was now tec : Nat) (s : State) : State :=
  if was = now then s
  else if now = 3 then
    ((s.off (Fd.CAN_STAT_TX_ACTIVE n)).bump (Reg.CAN_BUSOFF_CNT n)).canStateRec n 0x3 (s.can n).queue.length s.instant
  else if now = 2 then s.canStateRec n 0x1 tec s.instant
  else if was = 2 then s.canStateRec n 0x2 0 s.instant
  else s

theorem State.setErr_eq (n tec rec_ : Nat) (s : State) :
    s.setErr n tec rec_ = (s.loadErr n tec rec_).noteState n (s.canState n) (errState tec rec_) tec := rfl

theorem State.noteState_induct (P : State → Prop) (n was now tec : Nat) (s : State) (same : P s)
    (record : ∀ event arg i, P (s.canStateRec n event arg i))
    (busOff : ∀ arg i, P (((s.off (Fd.CAN_STAT_TX_ACTIVE n)).bump (Reg.CAN_BUSOFF_CNT n)).canStateRec n 0x3 arg i)) :
    P (s.noteState n was now tec) := by
  unfold State.noteState
  split
  · exact same
  · split
    · exact busOff _ _
    · split
      · exact record _ _ _
      · split
        · exact record _ _ _
        · exact same

theorem State.setErr_cases (hn : n < 8) (tec rec_ : Nat) (s : State) :
    BobbinKept (canNoteRegs n) (s.loadErr n tec rec_) (s.setErr n tec rec_) ∨
    BobbinKept (canNoteRegs n) ((s.loadErr n tec rec_).off (Fd.CAN_STAT_TX_ACTIVE n)) (s.setErr n tec rec_) := by
  have hlost : canLostRegs n ⊆ canNoteRegs n := List.subset_cons_self _ _
  rw [State.setErr_eq]
  refine State.noteState_induct (fun t => BobbinKept _ (s.loadErr n tec rec_) t ∨ BobbinKept _ _ t) n _ _ tec _
    (.inl (.refl _ _)) (fun event arg i => .inl ((BobbinKept.refl _ _).canStateRec hn hlost)) fun arg i => .inr ?_
  exact BobbinKept.canStateRec (.wr (.refl _ _) (List.mem_cons_self ..)) hn hlost

theorem State.setErr_errCnt (hn : n < 8) (tec rec_ : Nat) (s : State) :
    (s.setErr n tec rec_).rd (Reg.CAN_ERR_CNT n) = (s.loadErr n tec rec_).rd (Reg.CAN_ERR_CNT n) := by
  have hapart : Reg.CAN_ERR_CNT n ∉ canNoteRegs n := by
    rw [mem_canNoteRegs]
    dsimp only [Reg.CAN_ERR_CNT]
    omega
  obtain ⟨hr, -⟩ | ⟨hr, -⟩ := State.setErr_cases hn tec rec_ s
  · exact hr _ hapart
  · exact (hr _ hapart).trans (State.rd_setFld_ne _ _ _ (by simp))

theorem State.setErr_canState (hn : n < 8) (tec rec_ : Nat) (s : State) : (s.setErr n tec rec_).canState n = errState tec rec_ := by
  have hapart : Reg.CAN_STAT n ∉ canNoteRegs n := by
    rw [mem_canNoteRegs]
    dsimp only [Reg.CAN_STAT]
    omega
  rw [← State.loadErr_canState n tec rec_ s]
  obtain ⟨hr, -⟩ | ⟨hr, -⟩ := State.setErr_cases hn tec rec_ s
  · exact State.fld_congr (hr _ hapart)
  · exact (State.fld_congr (hr _ hapart)).trans (State.fld_setFld_ne _ _ _ _ (.inr (by simp)))

theorem State.setErr_tec (hn : n < 8) (rec_ : Nat) (s : State) {tec : Nat} (h : tec ≤ 511) : (s.setErr n tec rec_).tec n = tec :=
  (State.fld_congr (State.setErr_errCnt hn tec rec_ s)).trans (s.loadErr_tec n rec_ h)

theorem State.setErr_recCnt (hn : n < 8) (tec : Nat) (s : State) {rec_ : Nat} (h : rec_ ≤ 511) :
    (s.setErr n tec rec_).recCnt n = rec_ :=
  (State.fld_congr (State.setErr_errCnt hn tec rec_ s)).trans (s.loadErr_recCnt n tec h)

theorem State.setErr_cans (n tec rec_ : Nat) (s : State) : (s.setErr n tec rec_).cans = s.cans :=
  State.noteState_induct (fun t => t.cans = s.cans) n _ _ tec _ rfl (fun _ _ _ => State.canStateRec_cans _ _ _ _ _)
    fun _ _ => State.canStateRec_cans _ _ _ _ _

theorem State.loadErr_cans (n tec rec_ : Nat) (s : State) : (s.loadErr n tec rec_).cans = s.cans := rfl

/-- A controller that becomes error active from off does so unrecorded. -/
theorem State.setErr_fromOff (h : s.canState n = 0) : s.setErr n 0 0 = s.loadErr n 0 0 := by
  simp only [State.setErr, h]
  rfl

/-- `k` further errors of one frame that do not reach bus-off each raise TEC by 8. -/
theorem State.pile_tec (hn : n < 8) : ∀ (k : Nat) (s : State), s.canState n ≠ 3 → s.tec n + 8 * k ≤ 255 →
    (s.pile n true k).tec n = s.tec n + 8 * k
  | 0, _, _, _ => rfl
  | k + 1, s, hs, hk => by
    have htec : (s.setErr n (s.tec n + 8) (s.recCnt n)).tec n = s.tec n + 8 := State.setErr_tec hn _ s (by omega)
    have hstate : (s.setErr n (s.tec n + 8) (s.recCnt n)).canState n ≠ 3 := by
      rw [State.setErr_canState hn, errState, if_neg (by omega)]
      split <;> decide
    rw [State.pile, if_neg (by simp [hs])]
    simp only [if_true, Nat.add_zero]
    rw [State.pile_tec hn k _ hstate (by omega), htec]
    omega

/-! ### The head leaves (09 R228, R229) -/

/-- The registers in which the check of a new head shows: the counts of queue errors, and a discarded entry with its record. -/
def canSettleRegs (n : Nat) : List Nat := [Reg.MEM_QCORR, Reg.MEM_QUE, Reg.MEM_QPERR, Reg.CAN_TX_POISON n] ++ canLostRegs n

theorem mem_canSettleRegs {a : Nat} : a ∈ canSettleRegs n ↔ a = 0x11041C ∨ a = 0x110420 ∨ a = 0x110418 ∨ a = 0xA022C + 0x1000 * n ∨
    a = 0x60200 ∨ a = 0xA0234 + 0x1000 * n := by
  simp [canSettleRegs, canLostRegs]

theorem BobbinKept.popCheck {w : QWord} (h : BobbinKept l s t) (hl : canSettleRegs n ⊆ l) : BobbinKept l s (t.popCheck w).2 := by
  have hbump {a : Nat} (ha : a ∈ canSettleRegs n) : BobbinKept l s (t.bump a) := h.wr (hl ha)
  unfold State.popCheck
  split
  · exact h
  · split
    · split <;> exact hbump (by simp [canSettleRegs])
    · exact hbump (by simp [canSettleRegs])

theorem BobbinKept.settleHead (hn : n < 8) (hl : canSettleRegs n ⊆ l) : ∀ {q : List (List QWord)} {t : State}, BobbinKept l s t →
    BobbinKept l s (t.settleHead n q)
  | [], _, h => h
  | e :: _, t, h => by
    have hchecked := List.foldlRecOn (motive := fun r : Bool × State => BobbinKept l s r.2) e
      (fun a w => let p := State.popCheck w a.2; (a.1 || p.1.poison, p.2)) (b := (false, t)) h fun _ hr _ _ => hr.popCheck hl
    have hcount (w : Word) := hchecked.wr (w := w) (hl (by simp [canSettleRegs] : Reg.CAN_TX_POISON n ∈ canSettleRegs n))
    exact .ite (((hcount _).canStateRec hn fun _ ha => hl (List.mem_append_right _ ha)).settleHead hn hl) hchecked

/-- The head leaves the wire, and its abort and its run of clashes end. -/
def State.clearHead (n : Nat) (s : State) : State :=
  ((s.off (Fd.CAN_STAT_TX_ACTIVE n)).off (Fd.CAN_STAT_ABORT_PEND n)).off (Fd.CAN_CLASH_RUN_RUN n)

/-- The check of the next head leaves the controller's own registers. -/
theorem State.dropHead_rd (hn : n < 8) (s : State) {a : Nat} (ha : a = Reg.CAN_STAT n ∨ a = Reg.CAN_CLASH_RUN n) :
    (s.dropHead n).rd a = (s.clearHead n).rd a := by
  obtain ⟨hr, -⟩ := BobbinKept.settleHead hn (List.Subset.refl _) (q := ((s.clearHead n).can n).queue.drop 1)
    (BobbinKept.refl (canSettleRegs n) (s.clearHead n))
  refine hr a ?_
  rw [mem_canSettleRegs]
  dsimp only [Reg.CAN_STAT, Reg.CAN_CLASH_RUN] at ha
  omega

theorem State.dropHead_run (hn : n < 8) (s : State) : (s.dropHead n).fld (Fd.CAN_CLASH_RUN_RUN n) = 0 :=
  (State.fld_congr (s.dropHead_rd hn (.inr rfl))).trans (State.fld_off_same _ (by simp))

theorem State.dropHead_idClash (hn : n < 8) (s : State) :
    (s.dropHead n).flag (Fd.CAN_STAT_ID_CLASH n) = s.flag (Fd.CAN_STAT_ID_CLASH n) := by
  rw [State.flag_congr (s.dropHead_rd hn (.inl rfl)), State.clearHead, State.off, State.off, State.off,
    State.flag_setFld_ne _ _ (.inl (by simp)), State.flag_setFld_ne _ _ (.inr (by simp)), State.flag_setFld_ne _ _ (.inr (by simp))]

/-- The only entry leaves an empty queue. -/
theorem State.dropHead_queue (h : (s.can n).queue.length ≤ 1) : ((s.dropHead n).can n).queue = [] := by
  have hrest : (s.can n).queue.drop 1 = [] := List.drop_eq_nil_of_le h
  have hdrop : s.dropHead n = (s.clearHead n).settleHead n ((s.can n).queue.drop 1) := rfl
  rw [hdrop, hrest, State.settleHead, State.setCan_can_same]

/-! ### An identifier clash (09 R230) -/

/-- The run of clashes after one more. -/
def State.nextRun (s : State) (n : Nat) : Nat := min (s.fld (Fd.CAN_CLASH_RUN_RUN n) + 1) 15

/-- The clash is flagged and counted. -/
def State.flagClash (n : Nat) (s : State) : State :=
  ((s.on (Fd.CAN_STAT_ID_CLASH n)).bump (Reg.CAN_CLASH_CNT n)).setFld (Fd.CAN_CLASH_RUN_RUN n) (s.nextRun n)

/-- The clash is recorded. -/
def State.countClash (n : Nat) (sof : Instant) (s : State) : State := (s.flagClash n).canStateRec n 0x5 (s.nextRun n) sof

/-- The drop of the head is counted and recorded. -/
def State.countClashDrop (n : Nat) (sof : Instant) (s : State) : State :=
  (s.bump (Reg.CAN_CLASH_DROP n)).canStateRec n 0x6 (entryTag ((s.can n).queue.getD 0 [])) sof

theorem State.flagClash_idClash (n : Nat) (s : State) : (s.flagClash n).flag (Fd.CAN_STAT_ID_CLASH n) = true := by
  rw [State.flagClash, State.flag_setFld_ne _ _ (.inl (by simp)), State.flag_congr (State.rd_bump_ne _ (by simp)),
    State.flag_on_same _ (by simp) (by simp)]

theorem State.flagClash_cnt (n : Nat) (s : State) :
    (s.flagClash n).rd (Reg.CAN_CLASH_CNT n) = BitVec.ofNat 32 (min ((s.rd (Reg.CAN_CLASH_CNT n)).toNat + 1) 0xFFFFFFFF) := by
  rw [State.flagClash, State.rd_setFld_ne _ _ _ (by simp), State.rd_bump, if_pos rfl, State.on, State.rd_setFld_ne _ _ _ (by simp)]

theorem State.flagClash_run (n : Nat) (s : State) : (s.flagClash n).fld (Fd.CAN_CLASH_RUN_RUN n) = s.nextRun n := by
  have hfits : s.nextRun n < 2 ^ 4 := by
    rw [State.nextRun]
    omega
  exact State.fld_setFld_fits _ (by simp) hfits

theorem State.flagClash_ctl (n : Nat) (s : State) : (s.flagClash n).rd (Reg.CAN_CTL n) = s.rd (Reg.CAN_CTL n) := by
  rw [State.flagClash, State.rd_setFld_ne _ _ _ (by simp), State.rd_bump_ne _ (by simp), State.on, State.rd_setFld_ne _ _ _ (by simp)]

/-- The record leaves the controller's own registers below its count of lost records. -/
theorem State.countClash_rd (hn : n < 8) (sof : Instant) (s : State) {a : Nat} (ha : 0xA0000 ≤ a) (ha' : a < 0xA0234 + 0x1000 * n) :
    (s.countClash n sof).rd a = (s.flagClash n).rd a :=
  State.canStateRec_rd hn _ _ _ _ (by rw [mem_canLostRegs]; omega)

theorem State.countClash_cans (n : Nat) (sof : Instant) (s : State) : (s.countClash n sof).cans = s.cans :=
  State.canStateRec_cans _ _ _ _ _

theorem State.countClashDrop_cans (n : Nat) (sof : Instant) (s : State) : (s.countClashDrop n sof).cans = s.cans :=
  State.canStateRec_cans _ _ _ _ _

theorem State.countClash_idClash (hn : n < 8) (sof : Instant) (s : State) :
    (s.countClash n sof).flag (Fd.CAN_STAT_ID_CLASH n) = true :=
  (State.flag_congr (s.countClash_rd hn sof (Nat.le_trans (by decide) (Nat.le_add_right _ _)) (by simp))).trans (s.flagClash_idClash n)

theorem State.countClash_run (hn : n < 8) (sof : Instant) (s : State) :
    (s.countClash n sof).fld (Fd.CAN_CLASH_RUN_RUN n) = s.nextRun n :=
  (State.fld_congr (s.countClash_rd hn sof (Nat.le_trans (by decide) (Nat.le_add_right _ _)) (by simp))).trans (s.flagClash_run n)

theorem State.countClash_cnt (hn : n < 8) (sof : Instant) (s : State) : (s.countClash n sof).rd (Reg.CAN_CLASH_CNT n) =
    BitVec.ofNat 32 (min ((s.rd (Reg.CAN_CLASH_CNT n)).toNat + 1) 0xFFFFFFFF) :=
  (s.countClash_rd hn sof (Nat.le_trans (by decide) (Nat.le_add_right _ _)) (by simp)).trans (s.flagClash_cnt n)

theorem State.countClashDrop_idClash (hn : n < 8) (sof : Instant) (s : State) :
    (s.countClashDrop n sof).flag (Fd.CAN_STAT_ID_CLASH n) = s.flag (Fd.CAN_STAT_ID_CLASH n) :=
  State.flag_congr ((State.canStateRec_rd hn _ _ _ _ (canStat_notMem_lost n)).trans (State.rd_bump_ne _ (by simp)))

/-- A clash is counted, and drops the head where the run reaches CLASH_MAX. -/
theorem State.clash_eq (hn : n < 8) (sof : Instant) (s : State) : s.clash n sof =
    if s.fld (Fd.CAN_CTL_CLASH_MAX n) = s.nextRun n then ((s.countClash n sof).countClashDrop n sof).dropHead n
    else s.countClash n sof := by
  have hmax : (s.countClash n sof).fld (Fd.CAN_CTL_CLASH_MAX n) = s.fld (Fd.CAN_CTL_CLASH_MAX n) :=
    State.fld_congr ((s.countClash_rd hn sof (Nat.le_add_right _ _) (by simp)).trans (s.flagClash_ctl n))
  rw [← hmax]
  rfl

theorem State.clash_below (hn : n < 8) (sof : Instant) (h : s.fld (Fd.CAN_CTL_CLASH_MAX n) ≠ s.nextRun n) :
    s.clash n sof = s.countClash n sof := by
  rw [State.clash_eq hn, if_neg h]

theorem State.clash_reaches (hn : n < 8) (sof : Instant) (h : s.fld (Fd.CAN_CTL_CLASH_MAX n) = s.nextRun n) :
    s.clash n sof = ((s.countClash n sof).countClashDrop n sof).dropHead n := by
  rw [State.clash_eq hn, if_pos h]

theorem State.clash_idClash (hn : n < 8) (sof : Instant) (s : State) : (s.clash n sof).flag (Fd.CAN_STAT_ID_CLASH n) = true := by
  rw [State.clash_eq hn]
  split
  · rw [State.dropHead_idClash hn, State.countClashDrop_idClash hn, State.countClash_idClash hn]
  · exact s.countClash_idClash hn sof

/-! ### Attempts of the head (09 R225, R228 to R231) -/

theorem State.measureDelay_off (d : CanDelay) (h : s.flag (Fd.CAN_CTL_TDC_EN n) = false) : s.measureDelay n d = s := by
  unfold State.measureDelay
  split
  · rfl
  · exact if_neg (by simp [h])

theorem State.endAttempt_plain (h : s.flag (Fd.CAN_STAT_ABORT_PEND n) = false) : s.endAttempt n = s.off (Fd.CAN_STAT_TX_ACTIVE n) := by
  have hpend : (s.off (Fd.CAN_STAT_TX_ACTIVE n)).flag (Fd.CAN_STAT_ABORT_PEND n) = false :=
    (State.flag_setFld_ne s 0 (.inr (by simp))).trans h
  exact if_neg (by simp [hpend])

/-- What an error other than a clash does before the counters move. -/
def State.failAttempt (n : Nat) (s : State) : State :=
  ((s.bump (Reg.CAN_ERR_TX n)).off (Fd.CAN_CLASH_RUN_RUN n)).off (Fd.CAN_STAT_TX_ACTIVE n)

theorem State.failAttempt_errCnt (n : Nat) (s : State) : (s.failAttempt n).rd (Reg.CAN_ERR_CNT n) = s.rd (Reg.CAN_ERR_CNT n) := by
  rw [State.failAttempt, State.off, State.off, State.rd_setFld_ne _ _ _ (by simp), State.rd_setFld_ne _ _ _ (by simp),
    State.rd_bump_ne _ (by simp)]

section
variable {n : Fin 8} {age : BitVec 40} {e : List QWord} {q : List (List QWord)} (hs : s.canSends n = true)
include hs

theorem exec_frameSent {tdc : Option (BitVec 8)} (hq : (s.can n).queue = e :: q) (htdc : s.flag (Fd.CAN_CTL_TDC_EN n) = false)
    (hloop : s.canLoops n = false) (hjtx : s.flag (Fd.CAN_CTL_JTX n) = false) :
    exec (.frameSent n age tdc) s =
      .next ((((s.emit (.can n ((entryWord e 0).getLsbD 29) ((entryWord e 0).setWidth 29) (s.ownFrame n e))).bump
        (Reg.CAN_TX_OK n)).setErr n (s.tec n - 1) (s.recCnt n)).dropHead n) := by
  refine congrArg Host.Outcome.next ((if_pos hs).trans ?_)
  have hctl (o : Out) : ((s.emit o).bump (Reg.CAN_TX_OK n)).flag (Fd.CAN_CTL_JTX n) = false :=
    (State.flag_congr (State.rd_bump_ne _ (by simp))).trans hjtx
  have herr (o : Out) : ((s.emit o).bump (Reg.CAN_TX_OK n)).rd (Reg.CAN_ERR_CNT n) = s.rd (Reg.CAN_ERR_CNT n) :=
    State.rd_bump_ne _ (by simp)
  have htec (o : Out) : ((s.emit o).bump (Reg.CAN_TX_OK n)).tec n = s.tec n := State.fld_congr (herr o)
  have hrec (o : Out) : ((s.emit o).bump (Reg.CAN_TX_OK n)).recCnt n = s.recCnt n := State.fld_congr (herr o)
  simp only [State.frameSent, hq, State.measureDelay_off _ htdc, hloop, hctl, Bool.false_eq_true, if_false, htec, hrec]

theorem exec_arbitrationLost (hp : s.flag (Fd.CAN_STAT_ABORT_PEND n) = false) :
    exec (.arbitrationLost n) s = .next ((s.off (Fd.CAN_CLASH_RUN_RUN n)).off (Fd.CAN_STAT_TX_ACTIVE n)) := by
  have hpend : (s.off (Fd.CAN_CLASH_RUN_RUN n)).flag (Fd.CAN_STAT_ABORT_PEND n) = false :=
    (State.flag_setFld_ne s 0 (.inl (by simp))).trans hp
  exact congrArg Host.Outcome.next ((if_pos hs).trans (State.endAttempt_plain hpend))

theorem exec_txError {d : CanDelay} (hp : s.flag (Fd.CAN_STAT_ABORT_PEND n) = false) (htdc : s.flag (Fd.CAN_CTL_TDC_EN n) = false) :
    exec (.txError n age ⟨.counted, 0#4⟩ d) s = .next ((s.failAttempt n).setErr n (s.tec n + 8) (s.recCnt n)) := by
  have hpend : ((s.bump (Reg.CAN_ERR_TX n)).off (Fd.CAN_CLASH_RUN_RUN n)).flag (Fd.CAN_STAT_ABORT_PEND n) = false :=
    ((State.flag_setFld_ne _ 0 (.inl (by simp))).trans (State.flag_congr (State.rd_bump_ne s (by simp)))).trans hp
  have htec : (s.failAttempt n).tec n = s.tec n := State.fld_congr (s.failAttempt_errCnt n)
  have hrec : (s.failAttempt n).recCnt n = s.recCnt n := State.fld_congr (s.failAttempt_errCnt n)
  refine congrArg Host.Outcome.next ((if_pos hs).trans ?_)
  rw [← htec, ← hrec, State.failAttempt, ← State.endAttempt_plain hpend, State.txError, State.measureDelay_off _ htdc]
  rfl

end

theorem State.loseArbitration_run (n : Nat) (s : State) :
    ((s.off (Fd.CAN_CLASH_RUN_RUN n)).off (Fd.CAN_STAT_TX_ACTIVE n)).fld (Fd.CAN_CLASH_RUN_RUN n) = 0 :=
  (State.fld_setFld_ne _ _ _ 0 (.inl (by simp))).trans (s.fld_off_same (by simp))

/-- The head is off the wire and the run of clashes is over; nothing else changes. -/
theorem State.loseArbitration_onlyRegs (n : Nat) (s : State) : OnlyRegs [Reg.CAN_CLASH_RUN n, Reg.CAN_STAT n] s
    ((s.off (Fd.CAN_CLASH_RUN_RUN n)).off (Fd.CAN_STAT_TX_ACTIVE n)) :=
  ((OnlyRegs.refl _ s).setFld (by simp)).setFld (by simp)

/-! ### Bus-off recovery and integration (09 R223, R232) -/

theorem exec_busOffRecovery {n : Fin 8} (hs : s.canState n = 3) (hv : s.canService = true) :
    exec (.busOffRecovery n) s = .next ((s.setErr n 0 0).canStateRec n 0x4 (s.can n).queue.length s.instant) :=
  congrArg Host.Outcome.next (if_pos ⟨hs, hv⟩)

theorem exec_canIntegration {n : Fin 8} (hi : (s.can n).integrating = true) (hv : s.canService = true)
    (he : s.rd (Reg.CAN_ERR_CNT n) = 0#32) (hs : s.canState n = 0) :
    exec (.canIntegration n) s = .next ((s.setCan n { s.can n with integrating := false }).loadErr n 0 0) := by
  have htec : s.tec n = 0 := by
    rw [State.tec, State.fld, he]
    rfl
  have hrec : s.recCnt n = 0 := by
    rw [State.recCnt, State.fld, he]
    rfl
  refine congrArg Host.Outcome.next ((if_pos ⟨hi, hv⟩).trans ?_)
  rw [htec, hrec]
  exact State.setErr_fromOff hs

/-! ### Enable and off (09 R223, R241, R242) -/

/-- The controller leaves the bus. -/
def State.leaveBus (n : Nat) (s : State) : State :=
  let t := if s.canOnWire n then s.off (Fd.CAN_CLASH_RUN_RUN n) else s
  ((t.setFld (Fd.CAN_STAT_STATE n) 0).off (Fd.CAN_STAT_TX_ACTIVE n)).setCan n { t.can n with integrating := false, rx := none }

theorem BobbinKept.leaveBus (h : BobbinKept l s t) (hr : Reg.CAN_CLASH_RUN n ∈ l) (hs : Reg.CAN_STAT n ∈ l) :
    BobbinKept l s (t.leaveBus n) :=
  (((BobbinKept.ite (h.setFld hr) h).setFld hs).setFld hs).setCan

theorem State.leaveBus_can (n : Nat) (s : State) : (s.leaveBus n).can n = { s.can n with integrating := false, rx := none } := by
  rw [State.leaveBus, State.setCan_can_same]
  split <;> rfl

theorem State.leaveBus_canState (n : Nat) (s : State) : (s.leaveBus n).canState n = 0 :=
  (State.fld_setFld_ne _ _ (Fd.CAN_STAT_STATE n) 0 (.inr (by simp))).trans (State.fld_off_same _ (by simp))

theorem State.leaveBus_canOnWire (n : Nat) (s : State) : (s.leaveBus n).canOnWire n = false := State.flag_off_same _ (by simp)

theorem State.leaveBus_abortPend (n : Nat) (s : State) :
    (s.leaveBus n).flag (Fd.CAN_STAT_ABORT_PEND n) = s.flag (Fd.CAN_STAT_ABORT_PEND n) := by
  refine (State.flag_setFld_ne _ (g := Fd.CAN_STAT_ABORT_PEND n) 0 (.inr (by simp))).trans
    ((State.flag_setFld_ne _ 0 (.inr (by simp))).trans ?_)
  split
  · exact State.flag_setFld_ne _ 0 (.inl (by simp))
  · rfl

/-- The controller leaves the bus and its counters clear. -/
def State.goOff (n : Nat) (s : State) : State := (s.leaveBus n).wr (Reg.CAN_ERR_CNT n) 0#32

theorem State.canGoOff_plain (h : s.flag (Fd.CAN_STAT_ABORT_PEND n) = false) : s.canGoOff n true = s.goOff n := by
  have hpend : (s.leaveBus n).flag (Fd.CAN_STAT_ABORT_PEND n) = false := (s.leaveBus_abortPend n).trans h
  have hnone : (if (s.leaveBus n).flag (Fd.CAN_STAT_ABORT_PEND n) then (s.leaveBus n).abortNow n else s.leaveBus n) = s.leaveBus n :=
    if_neg (by simp [hpend])
  exact congrArg (State.wr (Reg.CAN_ERR_CNT n) 0#32) hnone

theorem BobbinKept.goOff (h : BobbinKept l s t) (he : Reg.CAN_ERR_CNT n ∈ l) (hs : Reg.CAN_STAT n ∈ l) (hr : Reg.CAN_CLASH_RUN n ∈ l) :
    BobbinKept l s (t.goOff n) := (h.leaveBus hr hs).wr he

theorem State.goOff_can (n : Nat) (s : State) : (s.goOff n).can n = { s.can n with integrating := false, rx := none } :=
  (State.can_congr (State.wr_cans _ _ _) n).trans (s.leaveBus_can n)

theorem State.goOff_errCnt (n : Nat) (s : State) : (s.goOff n).rd (Reg.CAN_ERR_CNT n) = 0#32 := State.rd_wr_same _ _ _

theorem State.goOff_stat (n : Nat) (s : State) : (s.goOff n).rd (Reg.CAN_STAT n) = (s.leaveBus n).rd (Reg.CAN_STAT n) :=
  State.rd_wr_ne _ _ (by simp)

theorem State.goOff_canState (n : Nat) (s : State) : (s.goOff n).canState n = 0 :=
  (State.fld_congr (s.goOff_stat n)).trans (s.leaveBus_canState n)

theorem State.goOff_canOnWire (n : Nat) (s : State) : (s.goOff n).canOnWire n = false :=
  (State.flag_congr (s.goOff_stat n)).trans (s.leaveBus_canOnWire n)

theorem exec_canOff {n : Fin 8} (he : s.flag (Fd.CAN_CTL_EN n) = false) : exec (.canOff n) s = .next (s.canGoOff n true) :=
  congrArg Host.Outcome.next (if_pos he)

theorem exec_canEnable {n : Fin 8} {w : Word} (ht : s.takes (some (.can n)) = true) :
    exec (.canEnable n w) s = .next (answer (s.canCtl n (w ||| 1#32))) :=
  congrArg Host.Outcome.next (State.command_takes _ _ ht)

theorem exec_canDisable {n : Fin 8} {w : Word} (ht : s.takes (some (.can n)) = true) :
    exec (.canDisable n w) s = .next (answer (s.canCtl n (w &&& ~~~1#32))) :=
  congrArg Host.Outcome.next (State.command_takes _ _ ht)

/-- CTL takes the value written. -/
def State.loadCtl (n : Nat) (w : Word) (s : State) : State := s.wr (Reg.CAN_CTL n) (w &&& 0x01FF0F7F#32)

section
variable {w : Word} (ha : s.asleepOrLoading = false) (hm : bits w 1 2 < 2)
include ha hm

/-- A write of CTL that every rule lets pass takes its value, and enables a disabled controller where it sets EN. -/
theorem State.canCtl_passes
    (hw : s.flag (Fd.CAN_CTL_EN n) = true → ((w &&& 0x01FF0F7F#32) ^^^ s.rd (Reg.CAN_CTL n)) &&& 0x01FF004E#32 = 0#32) :
    s.canCtl n w = if bits w 0 1 = 1 ∧ s.flag (Fd.CAN_CTL_EN n) = false then (.ok, ((s.loadCtl n w).canGoOff n true).integrate n)
      else (.ok, s.loadCtl n w) := by
  have hloop : (bits w 1 2 == 2) = false := beq_false_of_ne (by omega)
  have hsame : (s.flag (Fd.CAN_CTL_EN n) && ((w &&& 0x01FF0F7F#32) ^^^ s.rd (Reg.CAN_CTL n)) &&& 0x01FF004E#32 != 0#32) = false := by
    cases he : s.flag (Fd.CAN_CTL_EN n) with
    | false => rfl
    | true => simp [hw he]
  rw [State.canCtl, if_neg (by simp [ha]), if_neg (by omega), if_neg (by simp only [hloop, hsame]; simp)]
  rfl

theorem State.canCtl_enables (hb : w.getLsbD 0 = true) (he : s.flag (Fd.CAN_CTL_EN n) = false) :
    s.canCtl n w = (.ok, ((s.loadCtl n w).canGoOff n true).integrate n) := by
  rw [State.canCtl_passes ha hm (by simp [he]), if_pos ⟨bits_eq_one.mpr hb, he⟩]

theorem State.canCtl_disables (hb : w.getLsbD 0 = false)
    (hw : ((w &&& 0x01FF0F7F#32) ^^^ s.rd (Reg.CAN_CTL n)) &&& 0x01FF004E#32 = 0#32) : s.canCtl n w = (.ok, s.loadCtl n w) := by
  rw [State.canCtl_passes ha hm fun _ => hw, if_neg]
  rintro ⟨h1, -⟩
  exact Bool.false_ne_true (hb.symm.trans (bits_eq_one.mp h1))

end

theorem State.loadCtl_kept (n : Nat) (w : Word) (s : State) :
    BobbinKept [Reg.CAN_CTL n, Reg.CAN_ERR_CNT n, Reg.CAN_STAT n, Reg.CAN_CLASH_RUN n] s (s.loadCtl n w) :=
  (BobbinKept.refl _ s).wr (by simp)

theorem BobbinKept.integrate (h : BobbinKept l s t) : BobbinKept l s (t.integrate n) := h.setCan

theorem State.integrate_rd (n : Nat) (s : State) (a : Nat) : (s.integrate n).rd a = s.rd a := rfl

theorem State.integrate_canState (n : Nat) (s : State) : (s.integrate n).canState n = s.canState n := rfl

theorem State.integrate_integrating (n : Nat) (s : State) : ((s.integrate n).can n).integrating = true := by
  rw [State.integrate, State.setCan_can_same]

/-- What leaves the bus keeps CTL. -/
theorem State.goOff_ctl (n : Nat) (s : State) : (s.goOff n).rd (Reg.CAN_CTL n) = s.rd (Reg.CAN_CTL n) := by
  obtain ⟨hregs, -⟩ := (BobbinKept.refl [Reg.CAN_ERR_CNT n, Reg.CAN_STAT n, Reg.CAN_CLASH_RUN n] s).goOff (n := n)
    (by simp) (by simp) (by simp)
  exact hregs _ (by simp)

/-- Setting or clearing EN leaves OPMODE. -/
theorem bits_opmode_en (w : Word) : bits (w ||| 1#32) 1 2 = bits w 1 2 ∧ bits (w &&& ~~~1#32) 1 2 = bits w 1 2 := by
  have hor : (1#32 : Word).extractLsb' 1 2 = 0#2 := by decide
  have hand : (~~~1#32 : Word).extractLsb' 1 2 = BitVec.allOnes 2 := by decide
  rw [bits, bits, bits, BitVec.extractLsb'_or, BitVec.extractLsb'_and, hor, hand, BitVec.or_zero, BitVec.and_allOnes]
  exact ⟨rfl, rfl⟩

/-- The bits that a running controller holds fast do not take EN in. -/
theorem ctl_fast (w c : Word) : (((w &&& ~~~1#32) &&& 0x01FF0F7F#32) ^^^ c) &&& 0x01FF004E#32 = (w ^^^ c) &&& 0x01FF004E#32 := by
  have hdistrib (x : Word) : (x ^^^ c) &&& 0x01FF004E#32 = (x &&& 0x01FF004E#32) ^^^ (c &&& 0x01FF004E#32) :=
    BitVec.eq_of_toNat_eq (by simp only [BitVec.toNat_and, BitVec.toNat_xor, Nat.and_xor_distrib_right])
  have hmask : ~~~1#32 &&& 0x01FF0F7F#32 &&& 0x01FF004E#32 = (0x01FF004E#32 : Word) := by decide
  rw [hdistrib, hdistrib, BitVec.and_assoc, BitVec.and_assoc, ← BitVec.and_assoc (~~~1#32), hmask]

/-! ### Pushes and aborts (09 R226, R227, R229) -/

/-- An entry enters the queue. -/
def State.storeEntry (n : Nat) (b : List Byte) (s : State) : State :=
  (s.setCan n { s.can n with queue := (s.can n).queue ++ [entryOf b] }).peak (Fd.CAN_QPEAK_PEAK n) ((s.can n).queue.length + 1)

theorem State.storeEntry_queue (n : Nat) (b : List Byte) (s : State) :
    ((s.storeEntry n b).can n).queue = (s.can n).queue ++ [entryOf b] := by
  have hpeak (f : Fld) (x : Nat) (t : State) : (t.peak f x).cans = t.cans := by
    unfold State.peak
    split <;> rfl
  rw [State.storeEntry, State.can_congr (hpeak _ _ _), State.setCan_can_same]

theorem State.storeEntry_kept (n : Nat) (b : List Byte) (s : State) : BobbinKept [Reg.CAN_QPEAK n] s (s.storeEntry n b) :=
  BobbinKept.peak (BobbinKept.refl _ s).setCan (by simp)

/-- A push whose words are stored without an error. -/
theorem exec_txPush {n : Fin 8} {b : List Byte} (ht : s.takes (some (.can n)) = true) :
    exec (.txPush n b []) s = .next (answer (s.canPush n b)) := by
  refine congrArg Host.Outcome.next ((State.command_takes _ _ ht).trans (congrArg answer ?_))
  split
  · next heq => exact heq.symm
  · rfl

theorem exec_abortHead {n : Fin 8} (ht : s.takes (some (.can n)) = true) : exec (.abortHead n) s = .next (answer (s.canAbort n)) :=
  congrArg Host.Outcome.next (State.command_takes _ _ ht)

section
variable (ha : s.asleepOrLoading = false) (hsb : s.mode ≠ .standby) (hpt : s.mode ≠ .passThrough)
include ha hsb hpt

/-- Neither the mode nor Load shuts a push or an abort out. -/
theorem State.canMode_ok : ¬ ((s.asleepOrLoading || s.mode == .standby || s.mode == .passThrough) = true) := by
  simp [ha, hsb, hpt]

theorem State.canPush_malformed {b : List Byte} (hb : entryOk b = false) : s.canPush n b = refuse .badRequest s := by
  rw [State.canPush, if_neg (State.canMode_ok ha hsb hpt), if_pos (by simp [hb])]

theorem State.canPush_full {b : List Byte} (hb : entryOk b = true) (hq : 32 ≤ (s.can n).queue.length) :
    s.canPush n b = (.busy, (s.on (Fd.CAN_STAT_TX_OVF n)).bump (Reg.CAN_TX_OVF_CNT n)) := by
  rw [State.canPush, if_neg (State.canMode_ok ha hsb hpt), if_neg (by simp [hb])]
  exact if_pos hq

theorem State.canPush_room {b : List Byte} (hb : entryOk b = true) (hq : (s.can n).queue.length < 32) :
    s.canPush n b = (.ok, s.storeEntry n b) := by
  rw [State.canPush, if_neg (State.canMode_ok ha hsb hpt), if_neg (by simp [hb])]
  exact if_neg (by omega)

theorem State.canAbort_onWire (hp : s.flag (Fd.CAN_STAT_ABORT_PEND n) = false) (hw : s.canOnWire n = true) :
    s.canAbort n = (.ok, s.on (Fd.CAN_STAT_ABORT_PEND n)) := by
  rw [State.canAbort, if_neg (State.canMode_ok ha hsb hpt), if_neg (by simp [hp]), if_pos hw]

theorem State.canAbort_offWire (hp : s.flag (Fd.CAN_STAT_ABORT_PEND n) = false) (hw : s.canOnWire n = false) :
    s.canAbort n = (.ok, s.abortNow n) := by
  rw [State.canAbort, if_neg (State.canMode_ok ha hsb hpt), if_neg (by simp [hp]), if_neg (by simp [hw])]

end

theorem State.abortNow_head {e : List QWord} {q : List (List QWord)} (hq : (s.can n).queue = e :: q) :
    s.abortNow n = ((s.bump (Reg.CAN_ABORT_CNT n)).canStateRec n 0x7 (entryTag e) s.instant).dropHead n := by
  rw [State.abortNow, hq]

end Sys2Proof.Machine
end

section
open Sys2Proof.Machine

/-- Settles O33: each command and event by what it does once its guard holds, then by what the controller leaves alone. -/
theorem canTransmit : Obligations.CanTransmit := by
  unfold Obligations.CanTransmit
  refine ⟨fun s n w ht ha hm he hp => ?_, fun s n hi hv he hs => ?_, fun s n w ht ha hop hm hw => ?_, fun s n he hp => ?_,
    fun s n b ht ha hsb hpt => ⟨fun hb => ?_, fun hb hq => ?_, fun hb hq => ?_⟩,
    fun s n age tdc d e q hs hq => ⟨exec_frameSent hs hq, fun hp => ?_, exec_txError hs⟩,
    fun s n k hn => State.pile_tec hn k s, fun s n e => ⟨rfl, rfl⟩,
    fun s n sof => ⟨s.clash_idClash n.isLt sof, fun hmax => ?_, fun hmax => ?_⟩,
    fun s n tec rec_ hn ht hr => ⟨State.setErr_tec hn rec_ s ht, State.setErr_recCnt hn tec s hr, State.setErr_canState hn tec rec_ s⟩,
    fun s n hs hv => ?_,
    fun s n ht ha hsb hpt hp => ⟨fun hw => ?_, fun hw => ⟨?_, fun e q => State.abortNow_head⟩⟩⟩
  · obtain ⟨hopmode, -⟩ := bits_opmode_en w
    have hpend : (s.loadCtl n (w ||| 1#32)).flag (Fd.CAN_STAT_ABORT_PEND n) = false :=
      (State.flag_congr (State.rd_wr_ne _ _ (by simp))).trans hp
    rw [exec_canEnable ht, State.canCtl_enables ha (hopmode ▸ hm) (by simp) he, State.canGoOff_plain hpend]
    obtain ⟨hout, hregs, hbytes⟩ := ((s.loadCtl_kept n (w ||| 1#32)).goOff (n := n) (by simp) (by simp) (by simp)).integrate.answer
    refine ⟨_, rfl, ?_, ?_, ?_, ?_, hout, hregs, hbytes⟩
    · rw [answer_rd, State.integrate_rd, State.goOff_ctl, State.loadCtl, State.rd_wr_same]
    · rw [answer_can, State.integrate_integrating]
    · rw [answer_rd, State.integrate_rd, State.goOff_errCnt]
    · rw [answer_canState, State.integrate_canState, State.goOff_canState]
  · rw [exec_canIntegration hi hv he hs]
    obtain ⟨hregs, hmem, -⟩ := State.loadErr_kept n 0 0 (s.setCan n { s.can n with integrating := false })
    refine ⟨_, rfl, State.loadErr_canState n 0 0 _, ?_, ?_, hregs, SameBytes.of_mem hmem⟩ <;>
      rw [State.can_congr (State.loadErr_cans n 0 0 _), State.setCan_can_same]
  · obtain ⟨-, hopmode⟩ := bits_opmode_en w
    rw [exec_canDisable ht, State.canCtl_disables ha (by rwa [hopmode]) (by simp) ((ctl_fast w _).trans hw)]
    exact ⟨_, rfl, State.rd_wr_same _ _ _, rfl, ((OnlyRegs.refl _ s).wr (by simp)).answer⟩
  · rw [exec_canOff he, State.canGoOff_plain hp]
    obtain ⟨hregs, hmem, -⟩ := (BobbinKept.refl [Reg.CAN_ERR_CNT n, Reg.CAN_STAT n, Reg.CAN_CLASH_RUN n] s).goOff (n := n)
      (by simp) (by simp) (by simp)
    exact ⟨_, rfl, s.goOff_canState n, s.goOff_canOnWire n, s.goOff_errCnt n, by rw [s.goOff_can], by rw [s.goOff_can], hregs,
      SameBytes.of_mem hmem⟩
  · rw [exec_txPush ht, State.canPush_malformed ha hsb hpt hb]
  · rw [exec_txPush ht, State.canPush_room ha hsb hpt hb hq]
    obtain ⟨hout, hregs, hbytes⟩ := (s.storeEntry_kept n b).answer (st := .ok)
    exact ⟨_, rfl, s.storeEntry_queue n b, hout, hregs, hbytes⟩
  · rw [exec_txPush ht, State.canPush_full ha hsb hpt hb hq]
  · rw [exec_arbitrationLost hs hp]
    exact ⟨_, rfl, s.loseArbitration_run n, State.flag_off_same _ (by simp), hq, s.loseArbitration_onlyRegs n⟩
  · rw [State.clash_below n.isLt sof hmax]
    exact ⟨s.countClash_run n.isLt sof, congrArg CanState.queue (State.can_congr (s.countClash_cans n sof) n), s.countClash_cnt n.isLt sof⟩
  · rw [State.clash_reaches n.isLt sof hmax]
    refine ⟨State.dropHead_run n.isLt _, fun hq => State.dropHead_queue ?_⟩
    rw [State.can_congr ((State.countClashDrop_cans n sof _).trans (s.countClash_cans n sof))]
    exact hq
  · rw [exec_busOffRecovery hs hv]
    have hcans := (State.canStateRec_cans n 0x4 (s.can n).queue.length s.instant _).trans (State.setErr_cans n 0 0 s)
    have hstat := State.canStateRec_rd n.isLt 0x4 (s.can n).queue.length s.instant (s.setErr n 0 0) (canStat_notMem_lost n)
    have herr := State.canStateRec_rd n.isLt 0x4 (s.can n).queue.length s.instant (s.setErr n 0 0) (canErrCnt_notMem_lost n)
    exact ⟨_, rfl, (State.fld_congr hstat).trans (State.setErr_canState n.isLt 0 0 s),
      (State.fld_congr herr).trans (State.setErr_tec n.isLt 0 s (by decide)),
      (State.fld_congr herr).trans (State.setErr_recCnt n.isLt 0 s (by decide)), congrArg CanState.queue (State.can_congr hcans n)⟩
  · rw [exec_abortHead ht, State.canAbort_onWire ha hsb hpt hp hw]
    exact ⟨_, rfl, (answer_flag _ _ _).trans (State.flag_on_same s (by simp) (by simp)), ((OnlyRegs.refl _ s).setFld (by simp)).answer⟩
  · rw [exec_abortHead ht, State.canAbort_offWire ha hsb hpt hp hw]

end

section
/-!
SUPPORT. A READ of this node in the bridge whose tag is held by an initiator that the part does not have: the register OUTST of that
initiator stands at the offset of STB.EVT.
-/

namespace Sys2Proof.Machine

/-- A window of 4 KB onto an 8-bit target, without prefetch. -/
def byteWindow : StWin := { win := 0, base := 0x2000000000, size := 0x1000, tgt := 0, cfg := 0x80000000#32, tmo := 100 }

/-- A READ of one byte at the bottom of the window by this node, under tag 0. -/
def ownByteRead : StReq :=
  { kind := .read, map := byteWindow,
    req := { srcRing := 0#6, srcNode := 0#9, init := 0#4, cls := 6#3, flow := 0#6, tag := 0#9, addr := 0x2000000000#40, bytes := 1#9,
             len := 8#12 } }

/-- Tag 0 is held by initiator 0x8FFF, whose `Reg.TXN_OUTST` is `Reg.STB_EVT`. -/
def strayTagUse : TagUse :=
  { quarantined := false, init := 0x8FFF, dstRing := 0#6, dstNode := 0#9, kind := .read, bytes := 1 }

/-- The bridge serves in field service and runs the READ. -/
def strayTag : State :=
  State.on Fd.STB_STB_CTL_EN
    { mode := .isolated, txn := { tags := [(0, strayTagUse)] }, stb := { queue := [ownByteRead], running := true } }

theorem strayTag_bridgeRuns : strayTag.bridgeRuns = true := by decide

/-- ST_ERR ends the READ: EVT.ERR is set first, then the completion frees the tag, and what OUTST counts down to is left in STB.EVT. -/
theorem strayTag_stErr : ∃ t, exec (.stErr 0 []) strayTag = .next t ∧ t.rd Reg.STB_EVT = 0#32 :=
  ⟨_, rfl, by decide⟩

end Sys2Proof.Machine
end

section
open Sys2Proof.Machine

/-- Refutes O35, in its clause on a request that ends in error, which leaves open what initiator a tag names. A tag of this node's
own READ that names initiator 0x8FFF has its OUTST at the offset of STB.EVT, so the completion that frees the tag takes EVT.ERR
back. No command takes such a tag: requests are issued by the initiators 0 to 2 only. -/
theorem not_stitchBridge : ¬ Obligations.StitchBridge := by
  unfold Obligations.StitchBridge
  rintro ⟨-, -, hends, hfails, -⟩
  obtain ⟨hstErr, -⟩ := hends strayTag ownByteRead [] 0 [] rfl rfl strayTag_bridgeRuns
  obtain ⟨herr, -⟩ := hfails strayTag ownByteRead 0 0 [] rfl (by decide) (by decide)
  obtain ⟨t, hexec, hevt⟩ := strayTag_stErr
  have hend : t = strayTag.failBridge ownByteRead 0 [] 0 := Host.Outcome.next.inj (hexec.symm.trans hstErr)
  have hclear : t.flag Fd.STB_EVT_ERR = false := by
    rw [State.flag, State.fld, hevt]
    decide
  exact absurd herr (by simp [← hend, hclear])

end

section
/-!
SUPPORT. The USB block (11 R270 to R286): what an event of the hub leaves alone, the default state of hub and station function, and the
downstream ports.
-/

namespace Sys2Proof.Machine

variable {s t : State} {l : List Nat}

/-! ### Registers after an update of a field -/

@[simp] theorem State.rd_setFld (s : State) (f : Fld) (v a : Nat) :
    (s.setFld f v).rd a = if a = f.reg then putBits (s.rd f.reg) f.lo f.width v else s.rd a := s.rd_wr _ _ _

@[simp] theorem State.rd_on (s : State) (f : Fld) (a : Nat) :
    (s.on f).rd a = if a = f.reg then putBits (s.rd f.reg) f.lo f.width 1 else s.rd a := s.rd_wr _ _ _

@[simp] theorem State.rd_off (s : State) (f : Fld) (a : Nat) :
    (s.off f).rd a = if a = f.reg then putBits (s.rd f.reg) f.lo f.width 0 else s.rd a := s.rd_wr _ _ _

@[simp] theorem State.rd_setFlag (s : State) (f : Fld) (b : Bool) (a : Nat) :
    (s.setFlag f b).rd a = if a = f.reg then putBits (s.rd f.reg) f.lo f.width (if b then 1 else 0) else s.rd a := s.rd_wr _ _ _

@[simp] theorem State.setUsb_usb (s : State) (v : Usb) : (s.setUsb v).usb = v := rfl

/-- The registers of the four downstream ports lie together. -/
theorem dsStat_ne {n : Fin 4} {a : Nat} (h : a < 0xD0024 ∨ 0xD0030 < a) : a ≠ Reg.USB_DS_STAT n := by
  dsimp only [Reg.USB_DS_STAT]
  omega

theorem dsStat_not_mem_stationRegs (n : Fin 4) : Reg.USB_DS_STAT n ∉ stationRegs := by
  rw [mem_stationRegs]
  exact not_or.mpr ⟨(dsStat_ne (.inr (by decide))).symm, (dsStat_ne (.inl (by decide))).symm⟩

/-! ### What such an event leaves alone -/

theorem JournalKept.setUsb {v : Usb} (h : JournalKept l s t) : JournalKept l s (t.setUsb v) := h

theorem JournalKept.emit {o : Out} (h : JournalKept l s t) : JournalKept l s (t.emit o) := h

theorem JournalKept.arm {x : Timer} {d : Nat} (h : JournalKept l s t) : JournalKept l s (t.arm x d) := h

theorem JournalKept.cancel {x : Timer} (h : JournalKept l s t) : JournalKept l s (t.cancel x) := h

theorem JournalKept.advance {d : Nat} (h : JournalKept l s t) : JournalKept l s (t.advance d) := h

theorem JournalKept.expire {x : Timer} (h : JournalKept l s t) : JournalKept l s (t.expire x) := by
  obtain hx | ⟨d, hx⟩ := t.expire_cases x <;> rw [hx]
  · exact h.cancel
  · exact h.advance.cancel

theorem JournalKept.onlyIf {c : Bool} {f : State → State} (h : JournalKept l s t) (hf : JournalKept l s (f t)) :
    JournalKept l s (t.onlyIf c f) := .ite hf h

theorem JournalKept.forEach {β : Type} {js : List β} {f : β → State → State} (h : JournalKept l s t)
    (hf : ∀ j ∈ js, ∀ v, JournalKept l s v → JournalKept l s (f j v)) : JournalKept l s (t.forEach js f) :=
  State.forEach_induct (JournalKept l s) js f t h hf

theorem JournalKept.same (h : JournalKept l s t) : SameRegs l s t ∧ SameBytes s t := by
  obtain ⟨hr, hm, -⟩ := h
  exact ⟨hr, SameBytes.of_mem hm⟩

theorem JournalKept.flag (h : JournalKept l s t) (f : Fld) (hf : f.reg ∉ l) : t.flag f = s.flag f := State.flag_congr (h.1 _ hf)

theorem OnlyRegs.forEach {β : Type} {js : List β} {f : β → State → State} (h : OnlyRegs l s t)
    (hf : ∀ j ∈ js, ∀ v, OnlyRegs l s v → OnlyRegs l s (f j v)) : OnlyRegs l s (t.forEach js f) :=
  State.forEach_induct (OnlyRegs l s) js f t h hf

/-! ### Downstream ports (R272 to R276) -/

/-- STAT of the downstream ports. -/
def dsRegs : List Nat := [0, 1, 2, 3].map Reg.USB_DS_STAT

theorem dsStat_mem {n : Nat} (h : n ∈ [0, 1, 2, 3]) : Reg.USB_DS_STAT n ∈ dsRegs := List.mem_map_of_mem h

/-- Every downstream port loses its power. -/
def State.portsOff (s : State) : State := s.forEach [0, 1, 2, 3] State.portOff

/-- The enabled downstream ports are suspended. -/
def State.suspendPorts (s : State) : State :=
  s.forEach [0, 1, 2, 3] fun n t => if t.flag (Fd.USB_DS_STAT_ENABLE n) then t.on (Fd.USB_DS_STAT_SUSPEND n) else t

/-- No downstream port is suspended any more. -/
def State.resumePorts (s : State) : State := s.forEach [0, 1, 2, 3] fun n t => t.off (Fd.USB_DS_STAT_SUSPEND n)

theorem State.suspendPorts_onlyRegs (s : State) : OnlyRegs dsRegs s s.suspendPorts := by
  refine (OnlyRegs.refl dsRegs s).forEach fun n hn v hv => ?_
  split
  · exact hv.setFld (dsStat_mem hn)
  · exact hv

theorem State.resumePorts_onlyRegs (s : State) : OnlyRegs dsRegs s s.resumePorts :=
  (OnlyRegs.refl dsRegs s).forEach fun _ hn _ hv => hv.setFld (dsStat_mem hn)

theorem JournalKept.portOff {n : Nat} (h : JournalKept l s t) (hn : Reg.USB_DS_STAT n ∈ l) : JournalKept l s (t.portOff n) := h.wr hn

theorem State.portsOff_kept (s : State) : JournalKept dsRegs s s.portsOff :=
  (JournalKept.refl dsRegs s).forEach fun _ hn _ hv => hv.portOff (dsStat_mem hn)

/-- Without power a port shows nothing but its two sticky bits. -/
theorem State.portOff_flag (s : State) (n : Nat) {i : Nat} (hi : i < 8) : (s.portOff n).flag ⟨Reg.USB_DS_STAT n, i, 1⟩ = false := by
  have hmask : (0x300#32).getLsbD i = false := by
    revert i
    decide
  have hrd : (s.portOff n).rd (Reg.USB_DS_STAT n) = s.rd (Reg.USB_DS_STAT n) &&& 0x300#32 := s.rd_wr_same _ _
  simp [State.flag, State.fld, hrd, bits_one, hmask]

/-! ### The default state (R270, R271, R285, R286) -/

theorem State.ctrlAbort_closed (h : s.usb.ctrlOpen = false) : s.ctrlAbort = s := if_neg (by simp [h])

theorem State.ctrlAbort_open (h : s.usb.ctrlOpen = true) : s.ctrlAbort =
    ((s.setUsb { s.usb with ctrlOpen := false }).bump Reg.USB_CTRL_ABORT_CNT).on Fd.USB_EVT_CTRL_ABORT := if_pos h

theorem State.ctrlAbort_usb (s : State) : s.ctrlAbort.usb = { s.usb with ctrlOpen := false } := by
  cases h : s.usb.ctrlOpen with
  | false => rw [State.ctrlAbort_closed h, ← h]
  | true => rw [State.ctrlAbort_open h]; rfl

theorem State.ctrlAbort_txn (s : State) : s.ctrlAbort.txn = s.txn := by
  unfold State.ctrlAbort
  split <;> rfl

theorem JournalKept.ctrlAbort (h : JournalKept l s t) (hc : Reg.USB_CTRL_ABORT_CNT ∈ l) (he : Reg.USB_EVT ∈ l) :
    JournalKept l s t.ctrlAbort := .ite ((h.setUsb.wr hc).setFld he) h

theorem JournalKept.fnEndpoints (h : JournalKept l s t) (hd : Reg.USB_TUN_DROP ∈ l) : JournalKept l s t.fnEndpoints := h.setUsb.wr hd

@[simp] theorem State.fnEndpoints_rd (s : State) {a : Nat} (h : a ≠ Reg.USB_TUN_DROP) : s.fnEndpoints.rd a = s.rd a :=
  ((JournalKept.refl [Reg.USB_TUN_DROP] s).fnEndpoints (by simp)).1 a (by simpa using h)

/-- The endpoints of the station function start afresh. -/
def Usb.restart (u : Usb) : Usb := { u with snap := none, part := 0, swaps := 0, sent := 0, ep3 := [], ep4 := [] }

/-- Hub and station function return to default, and an open control transfer is abandoned. -/
def State.toDefault (s : State) : State := s.ctrlAbort.fnDefault.hubDefault

/-- The registers in which that shows. -/
def defaultRegs : List Nat := [Reg.USB_CTRL_ABORT_CNT, Reg.USB_EVT, Reg.USB_TUN_DROP, Reg.USB_USB_STAT]

theorem State.toDefault_kept (s : State) : JournalKept defaultRegs s s.toDefault := by
  have habort : JournalKept defaultRegs s s.ctrlAbort := (JournalKept.refl _ s).ctrlAbort (by decide) (by decide)
  have hfn : JournalKept defaultRegs s s.ctrlAbort.fnDefault :=
    (((habort.setFld (by decide)).setFld (by decide)).setFld (by decide)).fnEndpoints (by decide)
  exact hfn.setUsb.setFld (by decide)

/-- ADDRESS, CONFIGURED, ALT and RWAKE_ARMED are cleared; the other fields of USB_STAT stay. -/
theorem State.toDefault_usbStat (s : State) : s.toDefault.rd Reg.USB_USB_STAT =
    putBits (putBits (putBits (putBits (s.rd Reg.USB_USB_STAT) 10 7 0) 6 1 0) 17 2 0) 8 1 0 := by
  have habort : s.ctrlAbort.rd Reg.USB_USB_STAT = s.rd Reg.USB_USB_STAT :=
    ((JournalKept.refl [Reg.USB_CTRL_ABORT_CNT, Reg.USB_EVT] s).ctrlAbort (by simp) (by simp)).1 _ (by simp)
  rw [← habort]
  simp [State.toDefault, State.hubDefault, State.fnDefault]

/-- The hub's own address and configuration are 0 again, and it reports no change. -/
def Usb.hubReset (u : Usb) : Usb := { u with hubAddress := 0#7, hubConf := false, changes := [] }

theorem State.toDefault_usb (s : State) : s.toDefault.usb = { s.usb with ctrlOpen := false }.restart.hubReset := by
  rw [← s.ctrlAbort_usb]
  rfl

theorem State.toDefault_cpls (s : State) : s.toDefault.txn.cpls = s.txn.cpls.filter fun c => c.init != 2 := by
  rw [← s.ctrlAbort_txn]
  rfl

/-! ### Connection, loss and reset (R270, R271) -/

theorem State.tryConnect_connects (hc : s.connected = false) (hv : s.flag Fd.USB_USB_STAT_VBUS = true)
    (he : s.flag Fd.USB_USB_CTL_EN = true) (hm : s.usbMode = true) :
    s.tryConnect = (s.on Fd.USB_USB_STAT_CONNECTED).setFld Fd.USB_USB_STAT_SPEED 1 := by
  simp [State.tryConnect, hc, hv, he, hm]

/-- The resets, the mode and the place in a twin decide; none of them stands in the USB block. -/
theorem State.usbMode_congr (h : OnlyRegs [Reg.USB_USB_STAT] s t) : t.usbMode = s.usbMode := by
  obtain ⟨hr, ht⟩ := h
  have hf (f : Fld) (hf : f.reg ≠ Reg.USB_USB_STAT) : t.flag f = s.flag f := State.flag_congr (hr _ (by simpa using hf))
  have hanat : t.anat = s.anat := by rw [ht]
  have hmode : t.mode = s.mode := by rw [ht]
  simp only [State.usbMode, State.unitBusy, State.second, hanat, hmode, hf _ (show (busyBit .usb).reg ≠ _ by decide),
    hf Fd.SYS_STRAP_TWIN_POS (by decide), hf Fd.TWIN_TWIN_CFG_EN (by decide)]

/-- The state in which the pull-up comes: VBUS is seen, the part is connected at full speed. -/
def State.connect (s : State) : State :=
  ((s.on Fd.USB_USB_STAT_VBUS).on Fd.USB_USB_STAT_CONNECTED).setFld Fd.USB_USB_STAT_SPEED 1

theorem exec_vbusPresent (hc : s.connected = false) (he : s.flag Fd.USB_USB_CTL_EN = true) (hm : s.usbMode = true) :
    exec .vbusPresent s = .next s.connect := by
  have hon : OnlyRegs [Reg.USB_USB_STAT] s (s.on Fd.USB_USB_STAT_VBUS) := (OnlyRegs.refl _ s).setFld (by simp)
  refine congrArg Host.Outcome.next (State.tryConnect_connects ?_ (s.flag_on_same (by simp) (by simp)) ?_ ?_)
  · exact (s.flag_setFld_ne 1 (by simp)).trans hc
  · exact (s.flag_setFld_ne 1 (by simp)).trans he
  · exact (State.usbMode_congr hon).trans hm

theorem State.connect_stat (s : State) : s.connect.connected = true ∧ s.connect.fld Fd.USB_USB_STAT_SPEED = 1 ∧
    s.connect.flag Fd.USB_USB_STAT_VBUS = true := by
  simp [State.connect, State.connected, State.flag, State.fld, bits_putBits_same, bits_putBits_ne]

theorem State.disconnect_eq (s : State) : ∃ v : Usb, s.disconnect =
    ((s.toDefault.wr Reg.USB_USB_STAT (s.toDefault.rd Reg.USB_USB_STAT &&& 1#32)).setUsb v).portsOff :=
  ⟨_, rfl⟩

/-- Without the pull-up USB_STAT shows nothing but VBUS. -/
theorem State.disconnect_flag (s : State) {i : Nat} (hi : i ≠ 0) : s.disconnect.flag ⟨Reg.USB_USB_STAT, i, 1⟩ = false := by
  obtain ⟨v, h⟩ := s.disconnect_eq
  rw [h, (State.portsOff_kept _).flag _ (show Reg.USB_USB_STAT ∉ dsRegs by decide)]
  simp [State.flag, State.fld, bits_one, hi]

theorem State.disconnect_vbus (s : State) : s.disconnect.flag Fd.USB_USB_STAT_VBUS = s.flag Fd.USB_USB_STAT_VBUS := by
  have hvbus : s.toDefault.flag Fd.USB_USB_STAT_VBUS = s.flag Fd.USB_USB_STAT_VBUS := by
    simp [State.flag, State.fld, s.toDefault_usbStat, bits_putBits_ne]
  obtain ⟨v, h⟩ := s.disconnect_eq
  rw [h, (State.portsOff_kept _).flag _ (show Reg.USB_USB_STAT ∉ dsRegs by decide), ← hvbus]
  simp [State.flag, State.fld, bits_one]

theorem State.disconnect_mem (s : State) : s.disconnect.mem = s.mem := by
  obtain ⟨-, hm, -⟩ := s.toDefault_kept
  exact hm

theorem State.disconnect_cpls (s : State) : s.disconnect.txn.cpls = s.txn.cpls.filter fun c => c.init != 2 := s.toDefault_cpls

/-- Where a resume ends in the loss of VBUS or in a reset, bit `f` of WAKE_SRC says so (R277). -/
def State.breakResume (f : Fld) (s : State) : State := s.onlyIf (s.flag Fd.USB_USB_STAT_IN_RESUME) (·.on f)

theorem State.breakResume_onlyRegs (s : State) {f : Fld} (hf : f.reg = Reg.USB_WAKE_SRC) :
    OnlyRegs [Reg.USB_WAKE_SRC] s (s.breakResume f) := by
  unfold State.breakResume State.onlyIf
  split
  · exact (OnlyRegs.refl _ s).setFld (by simp [hf])
  · exact .refl _ s

/-- VBUS is gone. -/
def State.dropVbus (s : State) : State := (s.breakResume Fd.USB_WAKE_SRC_DISC_IN_RESUME).off Fd.USB_USB_STAT_VBUS

theorem exec_vbusLoss (s : State) : exec .vbusLoss s = .next s.dropVbus.disconnect := rfl

theorem State.dropVbus_mem (s : State) : s.dropVbus.mem = s.mem := by
  obtain ⟨-, h⟩ := s.breakResume_onlyRegs (f := Fd.USB_WAKE_SRC_DISC_IN_RESUME) rfl
  rw [State.dropVbus, h]
  rfl

/-- No remote wake waits, the host drives no K, and the chirp stands as given. -/
def Usb.quiet (chirp : Bool) (u : Usb) : Usb := { u with wakeFn := false, wakeDs := 0#4, hostK := false, chirping := chirp }

/-- A reset of the bus: hub and function at default, no resume or suspend, full speed; the chirp starts unless FS_ONLY. -/
def State.atReset (s : State) : State :=
  let t := ((s.breakResume Fd.USB_WAKE_SRC_RESET_IN_RESUME).toDefault.off Fd.USB_USB_STAT_IN_RESUME).off Fd.USB_USB_STAT_SUSPENDED
  (t.setFld Fd.USB_USB_STAT_SPEED 1).setUsb (t.usb.quiet !t.flag Fd.USB_USB_CTL_FS_ONLY)

theorem exec_busReset (hc : s.connected = true) :
    exec .busReset s = .next ((s.atReset.portsOff.on Fd.USB_EVT_BUS_RESET).bump Reg.USB_BUS_RESET_CNT) := by
  refine congrArg Host.Outcome.next (if_neg ?_)
  simp [hc]

/-- The registers in which a reset of the bus shows beside its event, its count and the downstream ports. -/
theorem State.atReset_kept (s : State) : JournalKept (Reg.USB_WAKE_SRC :: defaultRegs) s s.atReset := by
  have hresume := (s.breakResume_onlyRegs (f := Fd.USB_WAKE_SRC_RESET_IN_RESUME) rfl).kept
  have hdefault := hresume.trans (s.breakResume Fd.USB_WAKE_SRC_RESET_IN_RESUME).toDefault_kept
  exact (((hdefault.setFld (by decide)).setFld (by decide)).setFld (by decide)).setUsb

theorem State.atReset_usbStat (s : State) : s.atReset.rd Reg.USB_USB_STAT =
    putBits (putBits (putBits (putBits (putBits (putBits (putBits (s.rd Reg.USB_USB_STAT) 10 7 0) 6 1 0) 17 2 0) 8 1 0) 9 1 0) 7 1 0)
      4 2 1 := by
  obtain ⟨hresume, -⟩ := s.breakResume_onlyRegs (f := Fd.USB_WAKE_SRC_RESET_IN_RESUME) rfl
  rw [← hresume Reg.USB_USB_STAT (by simp)]
  simp [State.atReset, State.toDefault_usbStat]

theorem State.atReset_usb (s : State) :
    s.atReset.usb = { s.usb with ctrlOpen := false }.restart.hubReset.quiet !s.flag Fd.USB_USB_CTL_FS_ONLY := by
  obtain ⟨hresume, hsame⟩ := s.breakResume_onlyRegs (f := Fd.USB_WAKE_SRC_RESET_IN_RESUME) rfl
  have husb : (s.breakResume Fd.USB_WAKE_SRC_RESET_IN_RESUME).usb = s.usb := by rw [hsame]
  obtain ⟨hdefault, -⟩ := (s.breakResume Fd.USB_WAKE_SRC_RESET_IN_RESUME).toDefault_kept
  have hctl : (s.breakResume Fd.USB_WAKE_SRC_RESET_IN_RESUME).toDefault.rd Reg.USB_USB_CTL = s.rd Reg.USB_USB_CTL :=
    (hdefault _ (by decide)).trans (hresume _ (by simp))
  simp [State.atReset, State.toDefault_usb, husb, State.flag, State.fld, hctl]

/-- What the reset of the bus leaves in USB_STAT once the ports are off and the event is set. -/
theorem State.busReset_stat (s : State) :
    let t := (s.atReset.portsOff.on Fd.USB_EVT_BUS_RESET).bump Reg.USB_BUS_RESET_CNT
    t.connected = s.connected ∧ t.suspended = false ∧ t.fld Fd.USB_USB_STAT_ADDRESS = 0 ∧
    t.flag Fd.USB_USB_STAT_CONFIGURED = false ∧ t.fld Fd.USB_USB_STAT_SPEED = 1 := by
  have h : s.atReset.portsOff.rd Reg.USB_USB_STAT = s.atReset.rd Reg.USB_USB_STAT := s.atReset.portsOff_kept.1 _ (by decide)
  simp [State.connected, State.suspended, State.flag, State.fld, h, s.atReset_usbStat, bits_putBits_same, bits_putBits_ne]

theorem State.busReset_event (s : State) :
    ((s.atReset.portsOff.on Fd.USB_EVT_BUS_RESET).bump Reg.USB_BUS_RESET_CNT).flag Fd.USB_EVT_BUS_RESET = true := by
  simp [State.flag, State.fld, bits_putBits_same]

theorem State.busReset_count (s : State) :
    ((s.atReset.portsOff.on Fd.USB_EVT_BUS_RESET).bump Reg.USB_BUS_RESET_CNT).rd Reg.USB_BUS_RESET_CNT =
      BitVec.ofNat 32 (min ((s.rd Reg.USB_BUS_RESET_CNT).toNat + 1) 0xFFFFFFFF) := by
  have h : s.atReset.portsOff.rd Reg.USB_BUS_RESET_CNT = s.rd Reg.USB_BUS_RESET_CNT :=
    (s.atReset.portsOff_kept.1 _ (by decide)).trans (s.atReset_kept.1 _ (by decide))
  simp [h]

/-! ### The chirp, suspend and resume (R271, R276, R277) -/

section
variable (hc : s.connected = true) (hch : s.usb.chirping = true)
include hc hch

theorem exec_highSpeedEntry : exec .highSpeedEntry s =
    .next ((s.setFld Fd.USB_USB_STAT_SPEED 2).setUsb { s.usb with chirping := false }) :=
  congrArg Host.Outcome.next (if_pos (by rw [hc, hch]; rfl))

theorem exec_chirpTimeout : exec .chirpTimeout s = .next (s.setUsb { s.usb with chirping := false }) :=
  congrArg Host.Outcome.next (if_pos (by rw [hc, hch]; rfl))

end

/-- The bus is suspended; the ports follow. -/
def State.atSuspend (s : State) : State :=
  ((s.on Fd.USB_USB_STAT_SUSPENDED).on Fd.USB_EVT_SUSPEND).setUsb { s.usb with suspendedAt := s.clk }

theorem exec_suspend (hc : s.connected = true) (hs : s.suspended = false) : exec .suspend s = .next s.atSuspend.suspendPorts :=
  congrArg Host.Outcome.next (if_neg (by simp [hc, hs]))

theorem State.atSuspend_flags (s : State) : s.atSuspend.suspended = true ∧ s.atSuspend.flag Fd.USB_EVT_SUSPEND = true := by
  simp [State.atSuspend, State.suspended, State.flag, State.fld, bits_putBits_same]

/-- A host resume as WAKE_SRC and USB_STAT show it: one that comes while the function waits for its own wake serves it (R277). -/
def State.recordResume (s : State) : State :=
  let t := (s.on Fd.USB_WAKE_SRC_HOST_RESUME).on Fd.USB_USB_STAT_IN_RESUME
  t.onlyIf t.usb.wakeFn (·.on Fd.USB_WAKE_SRC_FN_SERVED)

/-- The host drives K, and no remote wake waits. -/
def Usb.handOver (u : Usb) : Usb := { u with hostK := true, wakeFn := false, wakeDs := 0#4 }

theorem State.hostResume_suspended (hs : s.suspended = true) : s.hostResume = s.recordResume.setUsb s.recordResume.usb.handOver :=
  if_neg (by simp [hs])

theorem State.recordResume_cases (s : State) :
    s.recordResume = (s.on Fd.USB_WAKE_SRC_HOST_RESUME).on Fd.USB_USB_STAT_IN_RESUME ∨
    s.recordResume = ((s.on Fd.USB_WAKE_SRC_HOST_RESUME).on Fd.USB_USB_STAT_IN_RESUME).on Fd.USB_WAKE_SRC_FN_SERVED := by
  unfold State.recordResume State.onlyIf
  dsimp only
  split
  · exact .inr rfl
  · exact .inl rfl

theorem State.recordResume_onlyRegs (s : State) : OnlyRegs [Reg.USB_USB_STAT, Reg.USB_WAKE_SRC] s s.recordResume := by
  have h : OnlyRegs [Reg.USB_USB_STAT, Reg.USB_WAKE_SRC] s ((s.on Fd.USB_WAKE_SRC_HOST_RESUME).on Fd.USB_USB_STAT_IN_RESUME) :=
    ((OnlyRegs.refl _ s).setFld (by simp)).setFld (by simp)
  obtain heq | heq := s.recordResume_cases <;> rw [heq]
  · exact h
  · exact h.setFld (by simp)

theorem State.recordResume_flags (s : State) : s.recordResume.flag Fd.USB_USB_STAT_IN_RESUME = true ∧
    s.recordResume.flag Fd.USB_WAKE_SRC_HOST_RESUME = true := by
  obtain heq | heq := s.recordResume_cases <;> rw [heq]
  · simp [State.flag, State.fld, bits_putBits_same]
  · simp [State.flag, State.fld, bits_putBits_same, bits_putBits_ne]

/-- Out of Drowse, and not on the way there, nothing wakes (16 R412). -/
theorem State.wakeSource_awake (f : Fld) (usb : Bool) (hm : s.mode ≠ .drowse) (he : s.flag Fd.SYS_MODE_STAT_ENTERING = false) :
    s.wakeSource f usb = s := if_pos (by simp [hm, he])

theorem exec_hostResume (hs : s.suspended = true) (hm : s.mode ≠ .drowse) (he : s.flag Fd.SYS_MODE_STAT_ENTERING = false) :
    exec .hostResume s = .next (s.recordResume.setUsb s.recordResume.usb.handOver) := by
  obtain ⟨hr, hsame⟩ := s.recordResume_onlyRegs
  have hmode : s.recordResume.mode ≠ .drowse := by rw [hsame]; exact hm
  have hentering : s.recordResume.flag Fd.SYS_MODE_STAT_ENTERING = false := (State.flag_congr (hr _ (by decide))).trans he
  refine congrArg Host.Outcome.next ((if_pos hs).trans ?_)
  rw [State.hostResume_suspended hs]
  exact State.wakeSource_awake _ _ hmode hentering

/-- The resume is over on the bus and at the ports. -/
def State.endResume (s : State) : State :=
  (((s.off Fd.USB_USB_STAT_IN_RESUME).off Fd.USB_USB_STAT_SUSPENDED).on Fd.USB_EVT_RESUME).setUsb { s.usb with hostK := false }

theorem exec_resumeEnd (h : s.flag Fd.USB_USB_STAT_IN_RESUME = true) : exec .resumeEnd s = .next s.endResume.resumePorts :=
  congrArg Host.Outcome.next (if_neg (by simp [h]))

theorem State.endResume_flags (s : State) : s.endResume.suspended = false ∧ s.endResume.flag Fd.USB_USB_STAT_IN_RESUME = false ∧
    s.endResume.flag Fd.USB_EVT_RESUME = true := by
  simp [State.endResume, State.suspended, State.flag, State.fld, bits_putBits_same, bits_putBits_ne]

/-! ### Remote wake (R277) -/

/-- 5 ms after the suspend at the earliest. -/
def State.wakeTime (s : State) : State := s.advance (s.usb.suspendedAt + 5 * msPs - s.clk)

theorem State.wakeTime_clk (s : State) : s.usb.suspendedAt + 5 * msPs ≤ s.wakeTime.clk := by
  simp only [State.wakeTime, State.advance]
  omega

theorem State.wakeTime_kept (s : State) : JournalKept [] s s.wakeTime := (JournalKept.refl _ s).advance

/-- The port drives K, counts, and hands the resume over to the host. -/
def State.handOver (s : State) : State := ((s.setUsb s.usb.handOver).on Fd.USB_USB_STAT_IN_RESUME).bump Reg.USB_RWAKE_CNT

theorem State.handOver_usb (s : State) : s.handOver.usb = s.usb.handOver := rfl

theorem State.handOver_clk (s : State) : s.handOver.clk = s.clk := rfl

theorem State.handOver_resume (s : State) : s.handOver.flag Fd.USB_USB_STAT_IN_RESUME = true := by
  simp [State.handOver, State.flag, State.fld, bits_putBits_same]

theorem State.handOver_count (s : State) : s.handOver.rd Reg.USB_RWAKE_CNT =
    BitVec.ofNat 32 (min ((s.rd Reg.USB_RWAKE_CNT).toNat + 1) 0xFFFFFFFF) := by
  simp [State.handOver]

theorem State.handOver_mem (s : State) : s.handOver.mem = s.mem := rfl

section
variable (hs : s.suspended = true) (hk : s.usb.hostK = false)
include hs hk

theorem exec_remoteWakeRequest_fn : exec (.remoteWakeRequest none) s =
    .next ((s.on Fd.USB_WAKE_SRC_FN_REMOTE).setUsb { s.usb with wakeFn := true }) := by
  refine congrArg Host.Outcome.next ((if_neg ?_).trans (if_neg ?_))
  · simp [show s.flag Fd.USB_USB_STAT_SUSPENDED = true from hs]
  · simp [hk]

theorem exec_remoteWakeRequest_ds {n : Fin 4} (hd : s.flag (Fd.USB_DS_STAT_SUSPEND n) = true) :
    exec (.remoteWakeRequest (some n)) s =
      .next ((s.on ⟨Reg.USB_WAKE_SRC, 3 + n, 1⟩).setUsb { s.usb with wakeDs := s.usb.wakeDs ||| BitVec.ofNat 4 (2 ^ n.val) }) := by
  refine congrArg Host.Outcome.next ((if_neg ?_).trans (if_neg ?_))
  · simp [show s.flag Fd.USB_USB_STAT_SUSPENDED = true from hs, hd]
  · simp [hk]

/-- The function's wake is signalled and handed over to the host. -/
theorem exec_remoteWakeSignal (hw : s.usb.wakeFn = true) (hd : s.usb.wakeDs = 0#4) (ha : s.flag Fd.USB_USB_STAT_RWAKE_ARMED = true) :
    exec .remoteWakeSignal s = .next s.wakeTime.handOver := by
  have hmay : s.maySignal = true := by simp [State.maySignal, hs, hk, hw, ha]
  have hds : ¬ (s.maySignal && s.usb.wakeDs != 0#4) = true := by simp [hd]
  exact congrArg Host.Outcome.next ((if_neg hds).trans (if_pos hmay))

end

theorem exec_deviceRemoteWakeup (hc : s.connected = true) (on : Bool) :
    exec (.deviceRemoteWakeup on) s = .next (s.setFlag Fd.USB_USB_STAT_RWAKE_ARMED on) :=
  congrArg Host.Outcome.next (if_pos hc)

/-! ### Commands and events of a downstream port (R272 to R275) -/

theorem JournalKept.portChange {n : Nat} {c : PortChange} (h : JournalKept l s t) : JournalKept l s (t.portChange n c) := h

@[simp] theorem State.portChange_rd (s : State) (n : Nat) (c : PortChange) (a : Nat) : (s.portChange n c).rd a = s.rd a :=
  s.setUsb_rd _ a

theorem State.portChange_mem (s : State) (n : Nat) (c : PortChange) : (n, c) ∈ (s.portChange n c).usb.changes := List.mem_cons_self

section
variable {n : Fin 4}

section
variable (hc : s.connected = true)
include hc

theorem exec_setPortPower (hm : s.mode ≠ .recovery) (hp : s.flag (Fd.USB_DS_STAT_POWER n) = false) :
    exec (.setPortPower n.castSucc) s = .next (((s.on (Fd.USB_DS_STAT_POWER n)).off (Fd.USB_DS_STAT_OVER_CURRENT n)).arm (.ocBlank n)
      (s.fld Fd.USB_USB_CTL_OC_BLANK * msPs)) := by
  refine congrArg Host.Outcome.next ((if_neg ?_).trans ((if_neg ?_).trans (if_neg ?_)))
  · simp [hc]
  · exact Nat.ne_of_lt n.isLt
  · simp [hm, hp]

theorem exec_clearPortPower : exec (.clearPortPower n.castSucc) s = .next (s.portOff n) := by
  refine congrArg Host.Outcome.next ((if_neg ?_).trans (if_neg ?_))
  · simp [hc]
  · exact Nat.ne_of_lt n.isLt

variable (hp : s.flag (Fd.USB_DS_STAT_POWER n) = true)
include hp

theorem exec_portReset (hd : s.flag (Fd.USB_DS_STAT_CONNECT n) = true) : exec (.portReset n) s =
    .next (((s.on (Fd.USB_DS_STAT_RESET n)).off (Fd.USB_DS_STAT_ENABLE n)).arm (.portReset n) (12 * msPs)) :=
  congrArg Host.Outcome.next (if_pos (by rw [hc, hp, hd]; rfl))

/-- The device of the port comes or goes, and a reset of the port ends (R274). -/
def State.portConnect (n : Nat) (attached : Bool) (s : State) : State :=
  (((s.setFlag (Fd.USB_DS_STAT_CONNECT n) attached).off (Fd.USB_DS_STAT_RESET n)).cancel (.portReset n)).portChange n .connection

/-- A port without a device is neither enabled nor suspended, and shows no speed. -/
def State.portEmpty (n : Nat) (s : State) : State :=
  ((s.off (Fd.USB_DS_STAT_ENABLE n)).off (Fd.USB_DS_STAT_SUSPEND n)).setFld (Fd.USB_DS_STAT_SPEED n) 0

theorem exec_portConnectionChange (a : Bool) : exec (.portConnectionChange n a) s =
    .next (if a then s.portConnect n a else (s.portConnect n a).portEmpty n) :=
  congrArg Host.Outcome.next (if_pos (by rw [hc, hp]; rfl))

end

theorem State.portConnect_flag (s : State) (n : Nat) (a : Bool) :
    (if a then s.portConnect n a else (s.portConnect n a).portEmpty n).flag (Fd.USB_DS_STAT_CONNECT n) = a := by
  cases a <;>
    simp [State.portConnect, State.portEmpty, State.flag, State.fld, bits_putBits_same, bits_putBits_ne]

theorem State.portConnect_changes (s : State) (n : Nat) (a : Bool) :
    (n, PortChange.connection) ∈ (if a then s.portConnect n a else (s.portConnect n a).portEmpty n).usb.changes := by
  cases a <;> exact State.portChange_mem _ _ _

theorem State.portConnect_kept (s : State) (n : Nat) (a : Bool) :
    JournalKept [Reg.USB_DS_STAT n] s (if a then s.portConnect n a else (s.portConnect n a).portEmpty n) := by
  have h : JournalKept [Reg.USB_DS_STAT n] s (s.portConnect n a) :=
    (((JournalKept.refl _ s).setFld (by simp)).setFld (by simp)).cancel.portChange
  exact .ite h (((h.setFld (by simp)).setFld (by simp)).setFld (by simp))

/-- The reset of a port is over: it is enabled at the speed found (R274). -/
def State.portEnabled (n speed : Nat) (s : State) : State :=
  (((s.off (Fd.USB_DS_STAT_RESET n)).on (Fd.USB_DS_STAT_ENABLE n)).setFld (Fd.USB_DS_STAT_SPEED n) speed).portChange n .reset

theorem exec_portResetEnd (ha : s.armed (.portReset n) = true) (v : Fin 3) :
    exec (.portResetEnd n v) s = .next ((s.expire (.portReset n)).portEnabled n v) :=
  congrArg Host.Outcome.next (if_pos ha)

theorem State.portEnabled_stat (s : State) (n : Nat) (v : Fin 3) : (s.portEnabled n v).flag (Fd.USB_DS_STAT_RESET n) = false ∧
    (s.portEnabled n v).flag (Fd.USB_DS_STAT_ENABLE n) = true ∧ (s.portEnabled n v).fld (Fd.USB_DS_STAT_SPEED n) = v := by
  have hv : v.val % 4 = v := Nat.mod_eq_of_lt (Nat.lt_succ_of_lt v.isLt)
  simp [State.portEnabled, State.flag, State.fld, bits_putBits_same, bits_putBits_ne, hv]

/-- The switch of a port has found over-current: the port is off, both bits say so, and it counts (R273). -/
def State.portTrips (n : Nat) (s : State) : State :=
  ((((s.portOff n).on (Fd.USB_DS_STAT_OVER_CURRENT n)).on (Fd.USB_DS_STAT_OC_SEEN n)).portChange n .overCurrent).bump Reg.USB_OC_CNT

theorem exec_overCurrent (hp : s.flag (Fd.USB_DS_STAT_POWER n) = true) (hl : s.live (.ocBlank n) = false) :
    exec (.overCurrent n) s = .next ((s.portTrips n).stationEvent 0x04 (n.val + 1)) := by
  refine congrArg Host.Outcome.next (if_neg ?_)
  simp [hp, hl]

theorem State.portTrips_stat (s : State) (n : Fin 4) : (s.portTrips n).flag (Fd.USB_DS_STAT_POWER n) = false ∧
    (s.portTrips n).flag (Fd.USB_DS_STAT_OVER_CURRENT n) = true ∧ (s.portTrips n).flag (Fd.USB_DS_STAT_OC_SEEN n) = true := by
  have hoff : bits ((s.portOff n).rd (Reg.USB_DS_STAT n)) 5 1 = 0 := by
    simpa [State.flag, State.fld] using s.portOff_flag n (show 5 < 8 by decide)
  have hne : ¬ Reg.USB_DS_STAT n = Reg.USB_OC_CNT := (dsStat_ne (.inr (by decide))).symm
  simp [State.portTrips, State.flag, State.fld, bits_putBits_same, bits_putBits_ne, hne, hoff]

theorem State.portTrips_count (s : State) (n : Fin 4) : (s.portTrips n).rd Reg.USB_OC_CNT =
    BitVec.ofNat 32 (min ((s.rd Reg.USB_OC_CNT).toNat + 1) 0xFFFFFFFF) := by
  have hne : ¬ Reg.USB_OC_CNT = Reg.USB_DS_STAT n := dsStat_ne (.inr (by decide))
  simp [State.portTrips, State.portOff, hne]

/-- A device that goes on past the end of a frame loses its port (R275). -/
def State.portBabbles (n : Nat) (s : State) : State :=
  (((s.off (Fd.USB_DS_STAT_ENABLE n)).on (Fd.USB_DS_STAT_PORT_BABBLE n)).portChange n .enable).bump Reg.USB_BABBLE_CNT

theorem exec_babble (he : s.flag (Fd.USB_DS_STAT_ENABLE n) = true) : exec (.babble n) s = .next (s.portBabbles n) :=
  congrArg Host.Outcome.next (if_pos he)

theorem State.portBabbles_stat (s : State) (n : Fin 4) : (s.portBabbles n).flag (Fd.USB_DS_STAT_ENABLE n) = false ∧
    (s.portBabbles n).flag (Fd.USB_DS_STAT_PORT_BABBLE n) = true := by
  have hne : ¬ Reg.USB_DS_STAT n = Reg.USB_BABBLE_CNT := (dsStat_ne (.inr (by decide))).symm
  simp [State.portBabbles, State.flag, State.fld, bits_putBits_same, bits_putBits_ne, hne]

theorem State.portBabbles_kept (s : State) (n : Nat) :
    JournalKept [Reg.USB_DS_STAT n, Reg.USB_BABBLE_CNT] s (s.portBabbles n) :=
  (((JournalKept.refl _ s).setFld (by simp)).setFld (by simp)).portChange.wr (by simp)

end

/-! ### Requests to the hub (R272 to R276) -/

section
variable (hc : s.connected = true) (hs : s.suspended = false) {r : Ep0Request}
include hc hs

theorem exec_hubRequest_answered {b : List Byte} (h : s.hubRequest r = some (b, t)) :
    exec (.configChange true r true) s = .next (t.emit (.hubEp0 (some b))) := by
  refine congrArg Host.Outcome.next ((if_pos rfl).trans ((if_neg ?_).trans ?_))
  · simp [hc, hs]
  · rw [h]

theorem exec_hubRequest_stalled (h : s.hubRequest r = none) :
    exec (.configChange true r true) s = .next (s.emit (.hubEp0 none)) := by
  refine congrArg Host.Outcome.next ((if_pos rfl).trans ((if_neg ?_).trans ?_))
  · simp [hc, hs]
  · rw [h]

end

theorem hubDescriptor_take {k : Nat} (h : 9 ≤ k) : hubDescriptor.take k = [9, 0x29, 5, 0x0D, 0x00, 10, 0, 0x20, 0xFF] :=
  List.take_of_length_le h

end Sys2Proof.Machine
end

section
open Sys2Proof.Machine

/-- Settles O36: each command and event by what it does once its guard holds. -/
theorem usbBusAndPorts : Obligations.UsbBusAndPorts := by
  unfold Obligations.UsbBusAndPorts
  refine ⟨fun s hc he hm => ?_, fun s => ?_, fun s hc => ?_, fun s hc hch => ⟨?_, exec_chirpTimeout hc hch⟩, fun s hc hs => ?_,
    fun s hs hm he => ?_, fun s h => ?_, fun s n hs hk => ⟨?_, fun hd => ?_⟩, fun s hs hw hd ha hk => ?_, fun s on hc => ?_,
    fun s n hc => ⟨fun hm hp => ?_, ?_, fun hp a => ?_, fun hp hd => ?_⟩, fun s n v ha => ?_, fun s n hp hl => ?_, fun s n he => ?_,
    fun s n c k hc hs => ⟨fun hk => ?_, ?_, ?_, ?_⟩⟩
  · obtain ⟨hconn, hspeed, hvbus⟩ := s.connect_stat
    exact ⟨_, exec_vbusPresent hc he hm, hconn, hspeed, hvbus,
      (((OnlyRegs.refl _ s).setFld (by simp)).setFld (by simp)).setFld (by simp)⟩
  · refine ⟨_, exec_vbusLoss s, State.disconnect_flag _ (by decide), ?_, State.disconnect_flag _ (by decide), rfl, ?_,
      SameBytes.of_mem ((State.disconnect_mem _).trans s.dropVbus_mem)⟩
    · rw [State.disconnect_vbus]
      exact State.flag_off_same _ (by simp)
    · rw [State.disconnect_cpls]
      exact List.all_eq_true.mpr fun _ hc => (List.mem_filter.mp hc).2
  · obtain ⟨hconn, hsusp, haddr, hconf, hspeed⟩ := s.busReset_stat
    have husb := s.atReset_usb
    exact ⟨_, exec_busReset hc, hconn.trans hc, hsusp, haddr, hconf, hspeed, congrArg Usb.hubAddress husb, congrArg Usb.hubConf husb,
      congrArg Usb.changes husb, congrArg Usb.chirping husb, s.busReset_event, s.busReset_count, s.atReset_kept.same.2⟩
  · refine ⟨_, exec_highSpeedEntry hc hch, State.fld_setFld_fits s (by simp) (by simp), rfl, ?_⟩
    exact ((JournalKept.refl _ s).setFld (by simp)).setUsb.same
  · obtain ⟨hsusp, hevent⟩ := s.atSuspend_flags
    obtain ⟨hr, hsame⟩ := s.atSuspend.suspendPorts_onlyRegs
    refine ⟨_, exec_suspend hc hs, (State.flag_congr (hr _ (by decide))).trans hsusp, (State.flag_congr (hr _ (by decide))).trans hevent,
      ?_, SameBytes.of_mem ?_⟩ <;> rw [hsame] <;> rfl
  · obtain ⟨hresume, hsource⟩ := s.recordResume_flags
    exact ⟨_, exec_hostResume hs hm he, hresume, hsource, rfl, rfl, rfl, s.recordResume_onlyRegs.kept.setUsb.same⟩
  · obtain ⟨hsusp, hresume, hevent⟩ := s.endResume_flags
    obtain ⟨hr, hsame⟩ := s.endResume.resumePorts_onlyRegs
    refine ⟨_, exec_resumeEnd h, (State.flag_congr (hr _ (by decide))).trans hsusp, (State.flag_congr (hr _ (by decide))).trans hresume,
      (State.flag_congr (hr _ (by decide))).trans hevent, ?_, SameBytes.of_mem ?_⟩ <;> rw [hsame] <;> rfl
  · refine ⟨_, exec_remoteWakeRequest_fn hs hk, rfl, s.flag_on_same (by simp) (by simp), ?_⟩
    exact ((JournalKept.refl _ s).setFld (by simp)).setUsb.same
  · refine ⟨_, exec_remoteWakeRequest_ds hs hk hd, ?_, ((JournalKept.refl _ s).setFld (by simp)).setUsb.same.1⟩
    simp only [State.setUsb_usb, BitVec.getLsbD_or, BitVec.getLsbD_ofNat, n.isLt, Nat.testBit_two_pow_self, decide_true, Bool.and_self,
      Bool.or_true]
  · obtain ⟨hr, hm, -⟩ := s.wakeTime_kept
    have hcount := s.wakeTime.handOver_count
    rw [hr _ (by simp)] at hcount
    have husb := s.wakeTime.handOver_usb
    exact ⟨_, exec_remoteWakeSignal hs hk hw hd ha, congrArg Usb.wakeFn husb, s.wakeTime.handOver_resume, congrArg Usb.hostK husb,
      s.wakeTime_clk.trans_eq s.wakeTime.handOver_clk.symm, hcount, SameBytes.of_mem (s.wakeTime.handOver_mem.trans hm)⟩
  · refine ⟨_, exec_deviceRemoteWakeup hc on, ?_, (OnlyRegs.refl _ s).setFld (by simp)⟩
    cases on <;> simp [State.flag, State.fld, bits_putBits_same]
  · refine ⟨_, exec_setPortPower hc hm hp, ?_, State.flag_off_same _ (by simp), by simp [State.deadline_arm], ?_⟩
    · exact (State.flag_setFld_ne _ 0 (by simp)).trans (s.flag_on_same (by simp) (by simp))
    · exact (((JournalKept.refl _ s).setFld (by simp)).setFld (by simp)).arm.same
  · exact ⟨_, exec_clearPortPower hc, s.portOff_flag n (by decide), s.portOff_flag n (by decide), s.portOff_flag n (by decide),
      ((JournalKept.refl _ s).portOff (by simp)).same⟩
  · exact ⟨_, exec_portConnectionChange hc hp a, s.portConnect_flag n a, s.portConnect_changes n a, (s.portConnect_kept n a).same.1⟩
  · refine ⟨_, exec_portReset hc hp hd, ?_, State.flag_off_same _ (by simp), by simp [State.deadline_arm], ?_⟩
    · exact (State.flag_setFld_ne _ 0 (by simp)).trans (s.flag_on_same (by simp) (by simp))
    · exact (((JournalKept.refl _ s).setFld (by simp)).setFld (by simp)).arm.same
  · obtain ⟨hreset, henable, hspeed⟩ := (s.expire (.portReset n)).portEnabled_stat n v
    exact ⟨_, exec_portResetEnd ha v, hreset, henable, hspeed,
      ((((JournalKept.refl _ s).expire.setFld (by simp)).setFld (by simp)).setFld (by simp)).portChange.same⟩
  · obtain ⟨hpower, hoc, hseen⟩ := s.portTrips_stat n
    obtain ⟨hevent, hmem, -⟩ := (s.portTrips n).stationEvent_kept 0x04 (n.val + 1)
    have hstat (f : Fld) (hf : f.reg = Reg.USB_DS_STAT n) :
        ((s.portTrips n).stationEvent 0x04 (n.val + 1)).flag f = (s.portTrips n).flag f :=
      State.flag_congr (hevent _ (hf ▸ dsStat_not_mem_stationRegs n))
    refine ⟨_, exec_overCurrent hp hl, (hstat _ rfl).trans hpower, (hstat _ rfl).trans hoc, (hstat _ rfl).trans hseen,
      (hevent _ (by decide)).trans (s.portTrips_count n), SameBytes.of_mem (hmem.trans rfl)⟩
  · obtain ⟨henable, hbabble⟩ := s.portBabbles_stat n
    exact ⟨_, exec_babble he, henable, hbabble, (s.portBabbles_kept n).same⟩
  · refine exec_hubRequest_answered hc hs (b := [9, 0x29, 5, 0x0D, 0x00, 10, 0, 0x20, 0xFF]) ?_
    rw [← hubDescriptor_take hk]
    rfl
  · exact exec_hubRequest_answered hc hs rfl
  · refine ⟨_, exec_hubRequest_answered hc hs rfl, ?_, (JournalKept.refl _ s).setUsb.emit.same⟩
    simp
  · exact exec_hubRequest_stalled hc hs rfl

end

section
/-!
SUPPORT. The station function (11 R278 to R286): requests on EP0, the packets of its endpoints, the tunnel, vendor requests.
-/

namespace Sys2Proof.Machine

variable {s t : State} {l : List Nat}

/-! ### Requests on EP0 (R278, R285, R286) -/

section
variable (hu : s.fnUp = true) (ho : s.usb.ctrlOpen = false)
include hu ho

theorem State.vendor_done (f : State → State) : s.vendor true f = f s := by
  simp [State.vendor, hu, State.ctrlAbort_closed ho]

theorem State.vendor_cut (f : State → State) : s.vendor false f = s.setUsb { s.usb with ctrlOpen := true } := by
  simp [State.vendor, hu, State.ctrlAbort_closed ho]

variable {r : Ep0Request}

theorem exec_fnRequest_answered {b : List Byte} (h : s.fnRequest r = some (b, t)) :
    exec (.configChange false r true) s = .next (t.emit (.usb 0 b)) := by
  refine congrArg Host.Outcome.next ((if_neg Bool.false_ne_true).trans ((State.vendor_done hu ho _).trans ?_))
  rw [h]

theorem exec_fnRequest_stalled (h : s.fnRequest r = none) : exec (.configChange false r true) s = .next (s.emit .usbStall) := by
  refine congrArg Host.Outcome.next ((if_neg Bool.false_ne_true).trans ((State.vendor_done hu ho _).trans ?_))
  rw [h]

theorem exec_fnRequest_cut : exec (.configChange false r false) s = .next (s.setUsb { s.usb with ctrlOpen := true }) :=
  congrArg Host.Outcome.next ((if_neg Bool.false_ne_true).trans (State.vendor_cut hu ho _))

end

theorem State.emit_flag (s : State) (o : Out) (f : Fld) : (s.emit o).flag f = s.flag f := rfl

/-- A new configuration or setting: the endpoints start afresh, and EVT says so. -/
def State.fnChanged (conf : Bool) (alt : Nat) (s : State) : State :=
  ((s.fnEndpoints.setFlag Fd.USB_USB_STAT_CONFIGURED conf).setFld Fd.USB_USB_STAT_ALT alt).on Fd.USB_EVT_CONFIG_CHG

theorem State.fnChanged_kept (s : State) (conf : Bool) (alt : Nat) :
    JournalKept [Reg.USB_USB_STAT, Reg.USB_EVT, Reg.USB_TUN_DROP] s (s.fnChanged conf alt) :=
  ((((JournalKept.refl _ s).fnEndpoints (by simp)).setFld (by simp)).setFld (by simp)).setFld (by simp)

theorem State.fnChanged_stat (s : State) (conf : Bool) {alt : Nat} (h : alt < 4) :
    (s.fnChanged conf alt).flag Fd.USB_USB_STAT_CONFIGURED = conf ∧ (s.fnChanged conf alt).fld Fd.USB_USB_STAT_ALT = alt ∧
    (s.fnChanged conf alt).flag Fd.USB_EVT_CONFIG_CHG = true := by
  cases conf <;>
    simp [State.fnChanged, State.flag, State.fld, bits_putBits_same, bits_putBits_ne, Nat.mod_eq_of_lt h]

theorem State.fnRequest_setConfiguration {v : BitVec 8} (h : v.toNat ≤ 1) :
    s.fnRequest (.setConfiguration v) = some ([], s.fnChanged (v == 1#8) 0) := if_neg (by omega)

/-- The settings offered: at high speed and outside Recovery 0, 1 and 2, else 0 alone (R278, R287). -/
def State.settings (s : State) : Nat := if s.highSpeed && s.mode != .recovery then 2 else 0

theorem State.fnRequest_setInterface {alt : BitVec 8} (hconf : s.flag Fd.USB_USB_STAT_CONFIGURED = true)
    (h : alt.toNat ≤ s.settings) : s.fnRequest (.setInterface 0#8 alt) = some ([], s.fnChanged true alt.toNat) := by
  refine if_neg ?_
  rintro (hf | hifc | hlt)
  · exact absurd hf (by simp [hconf])
  · exact hifc rfl
  · exact Nat.not_lt.mpr h hlt

theorem State.fnRequest_notOffered {alt : BitVec 8} (h : s.settings < alt.toNat) : s.fnRequest (.setInterface 0#8 alt) = none :=
  if_pos (.inr (.inr h))

theorem State.settings_le (s : State) : s.settings ≤ 2 := by
  unfold State.settings
  split <;> omega

theorem State.settings_all (hh : s.highSpeed = true) (hm : s.mode ≠ .recovery) : s.settings = 2 := by
  simp [State.settings, hh, hm]

theorem State.settings_zero (h : s.highSpeed = false ∨ s.mode = .recovery) : s.settings = 0 := by
  rcases h with h | h <;> simp [State.settings, h]

/-! ### EP1: the journal stream (R279, R280) -/

/-- The first token of a microframe starts the count of its packets afresh. -/
def State.microframe (first : Bool) (s : State) : State := s.setUsb { s.usb with sent := if first then 0 else s.usb.sent }

theorem State.microframe_streaming (first : Bool) (s : State) : (s.microframe first).streaming = s.streaming := rfl

/-- The packets that the setting allows in one microframe. -/
def State.streamMax (s : State) : Nat := if s.fld Fd.USB_USB_STAT_ALT = 2 then 3 else 1

/-- The records that the next packet holds. -/
def State.streamCount (s : State) : Nat := min 64 (s.wrTotal - s.rdPos 2)

/-- Their bytes. -/
def State.streamBytes (s : State) : List Byte :=
  (List.range s.streamCount).flatMap fun i => s.readBytes (s.recAddr (s.rdPos 2 + i)) 16

/-- The packet leaves, and RD[2] moves on past it. -/
def State.streamPacket (s : State) : State :=
  ((s.setUsb { s.usb with sent := s.usb.sent + 1 }).wr64 (Reg.RD_RD_POS_LO 2) (Reg.RD_RD_POS_HI 2) (s.rdPos 2 + s.streamCount)).emit
    (.usb 1 s.streamBytes)

section
variable (hi : s.isoReady = true)
include hi

theorem exec_journalStreamPacket (first ready : Bool) : exec (.journalStreamPacket ⟨first, ready⟩) s =
    .next (if !(s.microframe first).streaming || !ready then ((s.microframe first).bump Reg.USB_MISSED_EP1).emit (.usb 1 [])
      else if (s.microframe first).streamMax ≤ (s.microframe first).usb.sent then s.microframe first
      else (s.microframe first).streamPacket) := by
  refine congrArg Host.Outcome.next ((if_neg ?_).trans ?_)
  · simp [hi]
  · cases first <;> rfl

theorem exec_journalStreamPacket_missed {ready : Bool} (first : Bool) (h : s.streaming = false ∨ ready = false) :
    exec (.journalStreamPacket ⟨first, ready⟩) s = .next (((s.microframe first).bump Reg.USB_MISSED_EP1).emit (.usb 1 [])) := by
  rw [exec_journalStreamPacket hi, s.microframe_streaming]
  rcases h with h | h <;> simp [h]

variable (hs : s.streaming = true)
include hs

theorem exec_journalStreamPacket_sent {first : Bool} (h : (if first then 0 else s.usb.sent) < s.streamMax) :
    exec (.journalStreamPacket ⟨first, true⟩) s = .next (s.microframe first).streamPacket := by
  have hmore : ¬ (s.microframe first).streamMax ≤ (s.microframe first).usb.sent := Nat.not_le.mpr h
  rw [exec_journalStreamPacket hi, s.microframe_streaming, hs, if_neg hmore]
  rfl

theorem exec_journalStreamPacket_idle (h : s.streamMax ≤ s.usb.sent) : exec (.journalStreamPacket ⟨false, true⟩) s = .next s := by
  have hfull : (s.microframe false).streamMax ≤ (s.microframe false).usb.sent := h
  rw [exec_journalStreamPacket hi, s.microframe_streaming, hs, if_pos hfull]
  rfl

end

theorem State.streamBytes_length (s : State) : s.streamBytes.length = 16 * s.streamCount := by
  simp [State.streamBytes, State.readBytes, List.length_flatMap, Nat.mul_comm]

theorem State.streamPacket_rdPos (h : s.rdPos 2 ≤ s.wrTotal) : s.streamPacket.rdPos 2 = s.rdPos 2 + s.streamCount := by
  refine State.rd64_wr64 _ (by decide) ?_
  have hlt : s.wrTotal < 2 ^ 64 := s.rd64_lt _ _
  have hcount : s.streamCount ≤ s.wrTotal - s.rdPos 2 := Nat.min_le_right _ _
  omega

theorem State.streamPacket_kept (s : State) : JournalKept [Reg.RD_RD_POS_LO 2, Reg.RD_RD_POS_HI 2] s s.streamPacket :=
  (((JournalKept.refl _ s).setUsb.wr (by simp)).wr (by simp)).emit

/-! ### EP5: the snapshot (R279, R281) -/

theorem fitRecords_length (room : Nat) (l : List (List Byte)) : (fitRecords room l).1.length ≤ room := by
  induction l generalizing room with
  | nil => exact Nat.zero_le _
  | cons r l ih =>
    simp only [fitRecords]
    split
    · have := ih (room - r.length)
      simp only [List.length_append]
      omega
    · exact Nat.zero_le _

section
variable (hi : s.isoReady = true) (hm : s.mode ≠ .passThrough)
include hi hm

theorem exec_snapshotPacket_missed {r : Bool} (h : s.usb.snap = none ∨ r = false) :
    exec (.snapshotPacket r) s = .next ((s.bump Reg.USB_MISSED_EP5).emit (.usb 5 [])) := by
  refine congrArg Host.Outcome.next ((if_neg ?_).trans ((if_neg hm).trans ?_))
  · simp [hi]
  · cases hs : s.usb.snap with
    | none => rfl
    | some recs =>
      obtain rfl : r = false := h.resolve_left (by simp [hs])
      rfl

/-- What a packet of the snapshot holds behind SWAP and PART: whether it is the last one, and whole entry records. -/
def snapshotBody (recs : List (List Byte)) : List Byte :=
  [if (fitRecords 1016 recs).2.isEmpty then 1#8 else 0#8, 0#8] ++ (fitRecords 1016 recs).1

omit hi hm in
theorem snapshotBody_length (recs : List (List Byte)) : (snapshotBody recs).length ≤ 1018 := by
  have := fitRecords_length 1016 recs
  simp only [snapshotBody, List.length_append, List.length_cons, List.length_nil]
  omega

/-- The part leaves; the records that did not fit remain for the next one. -/
def State.snapshotPart (recs : List (List Byte)) (s : State) : State :=
  (s.emit (.usb 5 (leBytes 4 s.usb.swaps ++ leBytes 2 s.usb.part ++ snapshotBody recs))).setUsb { s.usb with
    part := s.usb.part + 1, snap := if (fitRecords 1016 recs).2.isEmpty then none else some (fitRecords 1016 recs).2 }

theorem exec_snapshotPacket_sent {recs : List (List Byte)} (hs : s.usb.snap = some recs) :
    exec (.snapshotPacket true) s = .next (s.snapshotPart recs) := by
  refine congrArg Host.Outcome.next ((if_neg ?_).trans ((if_neg hm).trans ?_))
  · simp [hi]
  · simp only [hs, State.snapshotPart, snapshotBody, List.append_assoc]

end

/-! ### EP2 and EP4: events and completions (R279, R282 to R284) -/

section
variable (hr : s.fnReady = true)
include hr

theorem exec_eventPacket_none (h : s.usb.events = []) : exec .eventPacket s = .next (s.emit (.usbNak 2)) := by
  refine congrArg Host.Outcome.next ((if_neg ?_).trans ?_)
  · simp [hr]
  · rw [h]

theorem exec_eventPacket_some (h : s.usb.events ≠ []) : exec .eventPacket s =
    .next ((s.emit (.usb 2 ((s.usb.events.take 8).flatMap StEvent.encode))).setUsb { s.usb with events := s.usb.events.drop 8 }) := by
  refine congrArg Host.Outcome.next ((if_neg ?_).trans ?_)
  · simp [hr]
  · cases he : s.usb.events with
    | nil => exact absurd he h
    | cons e l => rfl

theorem exec_tunnelCompletion_rest (h : s.usb.ep4 ≠ []) : exec .tunnelCompletion s = .next (s.sendEp4 s.usb.ep4) := by
  refine congrArg Host.Outcome.next ((if_neg ?_).trans (if_pos ?_))
  · simp [hr]
  · simp [h]

section
variable (he : s.usb.ep4 = [])
include he

theorem exec_tunnelCompletion_none (h : (s.txn.cpls.find? fun c => c.init == 2) = none) :
    exec .tunnelCompletion s = .next (s.emit (.usbNak 4)) := by
  refine congrArg Host.Outcome.next ((if_neg ?_).trans ((if_neg ?_).trans ?_))
  · simp [hr]
  · simp [he]
  · rw [h]

/-- A completion leaves the list of those that wait. -/
def State.takeCpl (c : MsgCpl) (s : State) : State := { s with txn := { s.txn with cpls := s.txn.cpls.erase c } }

theorem exec_tunnelCompletion_next {c : MsgCpl} (h : (s.txn.cpls.find? fun c => c.init == 2) = some c) :
    exec .tunnelCompletion s = .next ((s.takeCpl c).sendEp4 c.encode) := by
  refine congrArg Host.Outcome.next ((if_neg ?_).trans ((if_neg ?_).trans ?_))
  · simp [hr]
  · simp [he]
  · rw [h]
    rfl

end

end

theorem JournalKept.takeCpl {c : MsgCpl} (h : JournalKept l s t) : JournalKept l s (t.takeCpl c) := h

theorem JournalKept.sendEp4 {b : List Byte} (h : JournalKept l s t) : JournalKept l s (t.sendEp4 b) := h

/-! ### EP3: request messages (R279, R283) -/

theorem State.tunnelParse_incomplete {b : List Byte} (h : b.length < 12 ∨ b.length < 12 + leVal ((b.drop 8).take 2)) (n : Nat)
    (s : State) : s.tunnelParse n b = (b, s) := by
  cases n with
  | zero => rfl
  | succ n => exact if_pos h

theorem leVal_take_one (b : List Byte) : leVal (b.take 1) = (b.headD 0#8).toNat := by
  cases b <;> simp [leVal]

/-- One request message and nothing behind it. -/
theorem State.tunnelParse_request {b : List Byte} (h12 : 12 ≤ b.length) (hlen : b.length = 12 + leVal ((b.drop 8).take 2))
    (h4 : b.length % 4 = 0) (hty : b.headD 0#8 = 1#8) (s : State) : s.tunnelParse b.length b = ([], s.issueMsg 2 b) := by
  obtain ⟨n, hn⟩ : ∃ n, b.length = n + 1 := ⟨b.length - 1, by omega⟩
  have hmore : ¬ (b.length < 12 ∨ b.length < 12 + leVal ((b.drop 8).take 2)) := by omega
  have hround : (b.length + 3) / 4 * 4 = b.length := by omega
  rw [hn, State.tunnelParse, if_neg hmore, leVal_take_one, hty, ← hlen, hround, List.take_length, List.drop_length]
  exact State.tunnelParse_incomplete (.inl (by simp)) n _

section
variable {b : List Byte}

theorem State.bulkMax_ge (s : State) : 64 ≤ s.bulkMax := by
  unfold State.bulkMax
  split <;> omega

/-- A short packet ends the transfer. -/
theorem State.tunnelPacket_short (h : b.length < s.bulkMax) {rest : List Byte}
    (hp : s.tunnelParse (s.usb.ep3.length + b.length) (s.usb.ep3 ++ b) = (rest, t)) :
    s.tunnelPacket b = (t.setUsb { t.usb with ep3 := [] }).onlyIf (!rest.isEmpty) (·.bump Reg.USB_TUN_MSG_BAD) := by
  simp only [State.tunnelPacket, hp, h, if_true]

theorem State.tunnelPacket_full (h : ¬ b.length < s.bulkMax) {rest : List Byte}
    (hp : s.tunnelParse (s.usb.ep3.length + b.length) (s.usb.ep3 ++ b) = (rest, t)) :
    s.tunnelPacket b = t.setUsb { t.usb with ep3 := rest } := by
  simp only [State.tunnelPacket, hp, h, if_false]

end

/-- At high speed a packet taken is answered NYET. -/
def State.answerOut (s : State) : State := if s.highSpeed then s.emit (.usbNyet 3) else s

theorem JournalKept.answerOut (h : JournalKept l s t) : JournalKept l s t.answerOut := .ite h.emit h

theorem State.answerOut_ep3 (s : State) : s.answerOut.usb.ep3 = s.usb.ep3 := by
  unfold State.answerOut
  split <;> rfl

theorem State.answerOut_bulkMax (s : State) : s.answerOut.bulkMax = s.bulkMax := by
  unfold State.answerOut
  split <;> rfl

section
variable (hr : s.fnReady = true) {b : List Byte}
include hr

theorem exec_tunnelMessage_full : exec (.tunnelMessage ⟨false, b⟩) s = .next (s.emit (.usbNak 3)) := by
  refine congrArg Host.Outcome.next ((if_neg ?_).trans (if_pos rfl))
  simp [hr]

theorem exec_tunnelMessage_taken : exec (.tunnelMessage ⟨true, b⟩) s = .next (s.answerOut.tunnelPacket b) := by
  refine congrArg Host.Outcome.next ((if_neg ?_).trans (if_neg Bool.false_ne_true))
  simp [hr]

end

section
variable (hr : s.fnReady = true) {b : List Byte} (he : s.usb.ep3 = [])
include hr he

/-- A packet that makes no whole message and ends the transfer. -/
theorem exec_tunnelMessage_broken (h0 : 0 < b.length) (h12 : b.length < 12) : exec (.tunnelMessage ⟨true, b⟩) s =
    .next ((s.answerOut.setUsb { s.answerOut.usb with ep3 := [] }).bump Reg.USB_TUN_MSG_BAD) := by
  have hshort : b.length < s.answerOut.bulkMax := by
    have := s.bulkMax_ge
    rw [s.answerOut_bulkMax]
    omega
  have hparse : s.answerOut.tunnelParse (s.answerOut.usb.ep3.length + b.length) (s.answerOut.usb.ep3 ++ b) = (b, s.answerOut) := by
    rw [s.answerOut_ep3, he, List.nil_append]
    exact State.tunnelParse_incomplete (.inl h12) _ _
  have hsome : (!b.isEmpty) = true := by simpa using List.ne_nil_of_length_pos h0
  rw [exec_tunnelMessage_taken hr, State.tunnelPacket_short hshort hparse, hsome, State.onlyIf_true]

/-- A packet of a message that goes on in the next one. -/
theorem exec_tunnelMessage_kept (hb : b.length = s.bulkMax) (hlen : b.length < 12 + leVal ((b.drop 8).take 2)) :
    exec (.tunnelMessage ⟨true, b⟩) s = .next (s.answerOut.setUsb { s.answerOut.usb with ep3 := b }) := by
  have hfull : ¬ b.length < s.answerOut.bulkMax := by
    rw [s.answerOut_bulkMax]
    omega
  have hparse : s.answerOut.tunnelParse (s.answerOut.usb.ep3.length + b.length) (s.answerOut.usb.ep3 ++ b) = (b, s.answerOut) := by
    rw [s.answerOut_ep3, he, List.nil_append]
    exact State.tunnelParse_incomplete (.inr hlen) _ _
  rw [exec_tunnelMessage_taken hr, State.tunnelPacket_full hfull hparse]

/-- A packet that holds one request message: it is issued for INIT 2. -/
theorem exec_tunnelMessage_request (h12 : 12 ≤ b.length) (hb : b.length < s.bulkMax)
    (hlen : b.length = 12 + leVal ((b.drop 8).take 2)) (h4 : b.length % 4 = 0) (hty : b.headD 0#8 = 1#8) :
    exec (.tunnelMessage ⟨true, b⟩) s =
      .next ((s.answerOut.issueMsg 2 b).setUsb { (s.answerOut.issueMsg 2 b).usb with ep3 := [] }) := by
  have hshort : b.length < s.answerOut.bulkMax := by rwa [s.answerOut_bulkMax]
  have hparse : s.answerOut.tunnelParse (s.answerOut.usb.ep3.length + b.length) (s.answerOut.usb.ep3 ++ b) =
      ([], s.answerOut.issueMsg 2 b) := by
    rw [s.answerOut_ep3, he, List.nil_append, List.length_nil, Nat.zero_add]
    exact State.tunnelParse_request h12 hlen h4 hty _
  rw [exec_tunnelMessage_taken hr, State.tunnelPacket_short hshort hparse]
  rfl

end

/-! ### Vendor requests: the start of the stream and IMG_SEL (R280, R286, 07 R189) -/

/-- The stream is on, and RD[2] stands at `v`. -/
def State.streamFrom (v : Nat) (s : State) : State := (s.on Fd.USB_JSTREAM_EN).wr64 (Reg.RD_RD_POS_LO 2) (Reg.RD_RD_POS_HI 2) v

theorem State.streamFrom_onlyRegs (s : State) (v : Nat) :
    OnlyRegs [Reg.RD_RD_POS_LO 2, Reg.RD_RD_POS_HI 2, Reg.USB_JSTREAM, Reg.JRN_EVT] s (s.streamFrom v) :=
  (((OnlyRegs.refl _ s).setFld (by simp)).wr (by simp)).wr (by simp)

theorem State.streamFrom_streaming (s : State) (v : Nat) : (s.streamFrom v).streaming = true := by
  obtain ⟨hr, -⟩ := (s.on Fd.USB_JSTREAM_EN).wr64_onlyRegs (Reg.RD_RD_POS_LO 2) (Reg.RD_RD_POS_HI 2) v
  exact (State.flag_congr (hr _ (by decide))).trans (s.flag_on_same (by simp) (by simp))

theorem State.streamFrom_rdPos (s : State) {v : Nat} (hv : v < 2 ^ 64) : (s.streamFrom v).rdPos 2 = v :=
  State.rd64_wr64 _ (by decide) hv

theorem State.streamFrom_journal (s : State) (v : Nat) :
    (s.streamFrom v).wrTotal = s.wrTotal ∧ (s.streamFrom v).jrnCap = s.jrnCap := by
  obtain ⟨hr, -⟩ := s.streamFrom_onlyRegs v
  exact ⟨State.rd64_congr (hr _ (by decide)) (hr _ (by decide)), congrArg BitVec.toNat (hr _ (by decide))⟩

/-- The reader is overrun where what it has yet to read no longer fits. -/
theorem State.streamFrom_overrun (s : State) {v : Nat} (hv : v < 2 ^ 64) :
    (s.streamFrom v).overrun 2 = decide (s.jrnCap < s.wrTotal - v) := by
  obtain ⟨htotal, hcap⟩ := s.streamFrom_journal v
  rw [State.overrun, State.behind, htotal, hcap, s.streamFrom_rdPos hv]

/-- The start of the stream at `v`: the reader notes its new position as one that had read everything before. -/
def State.jstreamStart (v : Nat) (s : State) : State := (s.streamFrom v).noteReader 2 (s.streamFrom s.wrTotal)

theorem State.jstreamStart_kept (s : State) (v : Nat) :
    JournalKept (noteRegs 2 ++ movedRegs) (s.streamFrom v) (s.jstreamStart v) := State.noteReader_kept 2 _ _

theorem State.jstreamStart_mem (s : State) (v : Nat) : (s.jstreamStart v).mem = s.mem := by
  obtain ⟨-, hm, -⟩ := s.jstreamStart_kept v
  exact hm

theorem State.jstreamStart_streaming (s : State) (v : Nat) : (s.jstreamStart v).streaming = true := by
  obtain ⟨hr, -⟩ := s.jstreamStart_kept v
  exact (State.flag_congr (hr _ (by decide))).trans (s.streamFrom_streaming v)

section
variable {v : Nat} (hv : v ≤ s.wrTotal)
include hv

theorem State.jstreamStart_overrun (h : s.jrnCap < s.wrTotal - v) : (s.jstreamStart v).rdPos 2 = s.wrTotal - s.jrnCap := by
  obtain ⟨htotal, hcap⟩ := s.streamFrom_journal v
  have hlt : s.wrTotal < 2 ^ 64 := s.rd64_lt _ _
  have hnew : (s.streamFrom v).overrun 2 = true := by rw [s.streamFrom_overrun (by omega), decide_eq_true h]
  have hold : (s.streamFrom s.wrTotal).overrun 2 = false := by simp [s.streamFrom_overrun hlt]
  rw [← htotal, ← hcap]
  exact State.noteReader_moves hnew hold (s.streamFrom_streaming v)

theorem State.jstreamStart_fits (h : s.wrTotal - v ≤ s.jrnCap) :
    s.jstreamStart v = (s.streamFrom v).noteLevel 2 (s.streamFrom s.wrTotal) := by
  have hlt : s.wrTotal < 2 ^ 64 := s.rd64_lt _ _
  have hnew : (s.streamFrom v).overrun 2 = false := by simp [s.streamFrom_overrun (show v < 2 ^ 64 by omega), h]
  rw [State.jstreamStart, State.noteReader_eq, hnew]
  rfl

theorem State.jstreamStart_rdPos :
    (s.jstreamStart v).rdPos 2 = if s.jrnCap < s.wrTotal - v then s.wrTotal - s.jrnCap else v := by
  split
  · next h => exact State.jstreamStart_overrun hv h
  · next h =>
    have hlt : s.wrTotal < 2 ^ 64 := s.rd64_lt _ _
    obtain ⟨-, hpos, -⟩ := ((s.streamFrom v).noteLevel_onlyRegs 2 (s.streamFrom s.wrTotal)).reader_congr 2
    rw [State.jstreamStart_fits hv (by omega), hpos, s.streamFrom_rdPos (by omega)]

theorem State.jstreamStart_onlyRegs (h : s.wrTotal - v ≤ s.jrnCap) :
    OnlyRegs [Reg.RD_RD_POS_LO 2, Reg.RD_RD_POS_HI 2, Reg.USB_JSTREAM, Reg.JRN_EVT] s (s.jstreamStart v) := by
  rw [State.jstreamStart_fits hv h]
  exact (s.streamFrom_onlyRegs v).noteLevel (by simp)

end

section
variable (hu : s.fnUp = true) (ho : s.usb.ctrlOpen = false) {pos : BitVec 64}
include hu ho

theorem exec_jstreamStart_beyond (h : s.wrTotal < pos.toNat) : exec (.jstreamStart pos true) s = .next (s.emit .usbStall) :=
  congrArg Host.Outcome.next ((State.vendor_done hu ho _).trans (if_pos h))

theorem exec_jstreamStart (h : pos.toNat ≤ s.wrTotal) : exec (.jstreamStart pos true) s = .next (s.jstreamStart pos.toNat) :=
  congrArg Host.Outcome.next ((State.vendor_done hu ho _).trans (if_neg (Nat.not_lt.mpr h)))

end

end Sys2Proof.Machine
end

section
open Sys2Proof.Machine

/-- Settles O37: each request and each token by what it does once its guard holds. -/
theorem stationFunction : Obligations.StationFunction := by
  unfold Obligations.StationFunction
  refine ⟨fun s hu ho => ⟨fun a => ?_, fun v hv => ?_, fun alt hconf => ⟨fun h => ?_, fun h => ?_⟩, exec_fnRequest_stalled hu ho rfl,
      fun r => exec_fnRequest_cut hu ho⟩,
    fun s ho => ?_, fun s first ready hi => ⟨fun h => ?_, fun hs hg hp => ?_, fun hs hf hg => ?_⟩,
    fun s hi hm => ⟨fun r => exec_snapshotPacket_missed hi hm, fun recs hs => ?_⟩,
    fun s hr => ⟨exec_eventPacket_none hr, fun he => ?_, exec_tunnelCompletion_none hr, fun c he hc => ?_, fun he => ?_⟩,
    fun s b hr => ⟨exec_tunnelMessage_full hr, fun he h0 h12 => ?_, fun he hb hlen => ?_, fun he h12 hb hlen h4 hty => ?_⟩,
    fun s pos sel lvl hu ho => ⟨?_, exec_jstreamStart_beyond hu ho, fun hp => ?_, ?_, ?_, ?_, ?_, ?_⟩⟩
  · exact ⟨_, exec_fnRequest_answered hu ho rfl, State.fld_setFld_fits s (by simp) a.isLt,
      ((JournalKept.refl _ s).setFld (by simp)).emit.same⟩
  · obtain ⟨hconf, halt, hevent⟩ := s.fnChanged_stat (v == 1#8) (show 0 < 4 by decide)
    exact ⟨_, exec_fnRequest_answered hu ho (State.fnRequest_setConfiguration hv), (State.emit_flag _ _ _).trans hconf,
      (State.emit_fld _ _ _).trans halt, (State.emit_flag _ _ _).trans hevent, rfl,
      (s.fnChanged_kept _ _).emit.same⟩
  · have hoffered : alt.toNat ≤ s.settings := by
      rcases h with rfl | ⟨h2, hh, hm⟩
      · exact Nat.zero_le _
      · rw [State.settings_all hh hm]
        exact h2
    obtain ⟨hc, halt, hevent⟩ := s.fnChanged_stat true (show alt.toNat < 4 from (hoffered.trans s.settings_le).trans_lt (by decide))
    exact ⟨_, exec_fnRequest_answered hu ho (State.fnRequest_setInterface hconf hoffered), (State.emit_flag _ _ _).trans hc,
      (State.emit_fld _ _ _).trans halt, (State.emit_flag _ _ _).trans hevent,
      (s.fnChanged_kept _ _).emit.same⟩
  · refine exec_fnRequest_stalled hu ho (State.fnRequest_notOffered ?_)
    rcases h with h2 | ⟨h0, h⟩
    · exact s.settings_le.trans_lt h2
    · rw [State.settings_zero h]
      exact Nat.pos_of_ne_zero fun h => h0 (BitVec.eq_of_toNat_eq h)
  · rw [State.ctrlAbort_open ho]
    exact ⟨rfl, State.flag_on_same _ (by simp) (by simp), by simp⟩
  · exact ⟨_, exec_journalStreamPacket_missed hi first h, rfl, by simp [State.microframe],
      ((JournalKept.refl _ s).setUsb.wr (by simp)).emit.same⟩
  · exact ⟨_, _, exec_journalStreamPacket_sent hi hs hg, rfl, (s.microframe first).streamBytes_length,
      (s.microframe first).streamPacket_rdPos hp, rfl, (s.microframe first).streamPacket_kept.same⟩
  · rw [hf]
    exact exec_journalStreamPacket_idle hi hs hg
  · exact ⟨_, _, exec_snapshotPacket_sent hi hm hs, rfl, rfl, snapshotBody_length recs, (JournalKept.refl _ s).emit.setUsb.same⟩
  · exact ⟨_, exec_eventPacket_some hr he, rfl, rfl, (JournalKept.refl _ s).emit.setUsb.same⟩
  · exact ⟨_, exec_tunnelCompletion_next hr he hc, rfl, rfl, rfl, (JournalKept.refl _ s).takeCpl.sendEp4.same⟩
  · exact ⟨_, exec_tunnelCompletion_rest hr he, rfl, rfl, rfl, (JournalKept.refl _ s).sendEp4.same⟩
  · refine ⟨_, exec_tunnelMessage_broken hr he h0 h12, rfl, ?_, ((JournalKept.refl _ s).answerOut.setUsb.wr (by simp)).same⟩
    have hcount : s.answerOut.rd Reg.USB_TUN_MSG_BAD = s.rd Reg.USB_TUN_MSG_BAD := (JournalKept.refl [] s).answerOut.1 _ (by simp)
    simp [hcount]
  · exact ⟨_, exec_tunnelMessage_kept hr he hb hlen, rfl, (JournalKept.refl _ s).answerOut.setUsb.same⟩
  · exact exec_tunnelMessage_request hr he h12 hb hlen h4 hty
  · exact congrArg Host.Outcome.next (State.vendor_done hu ho _)
  · exact ⟨_, exec_jstreamStart hu ho hp, s.jstreamStart_streaming _, SameBytes.of_mem (s.jstreamStart_mem _),
      State.jstreamStart_rdPos hp, State.jstreamStart_onlyRegs hp⟩
  · exact ⟨_, congrArg Host.Outcome.next (State.vendor_done hu ho _), s.flag_off_same (by simp), (OnlyRegs.refl _ s).setFld (by simp)⟩
  · exact congrArg Host.Outcome.next (State.vendor_done hu ho _)
  · exact ⟨_, congrArg Host.Outcome.next (State.vendor_done hu ho _), State.rd64_wr64 s (by decide) sel.isLt, s.wr64_onlyRegs _ _ _⟩
  · exact congrArg Host.Outcome.next (State.vendor_done hu ho _)
  · exact congrArg Host.Outcome.next (State.vendor_cut hu ho _)

end

section
/-!
SUPPORT. ROM's choice of a slot, and the start of ROM: what choosing reads, and what the choice leaves in BOOT_STAT.
-/

namespace Sys2Proof.Machine

variable {s : State} {v : Slots} {k : Nat} {fb : Bool}

/-! ### The choice (16 R398) -/

theorem State.bootable_iff {k : Nat} {signed : Bool} : s.bootable k signed = true ↔
    (s.manifestAt (fwSlot k)).wellFormed 1 = true ∧ (s.manifestAt (fwSlot k)).sigKind = 0 ∧
      (s.manifestAt (fwSlot k)).target = 0x4160 ∧ s.fusedEpoch ≤ (s.manifestAt (fwSlot k)).epoch ∧ signed = true := by
  simp [State.bootable, and_assoc]

theorem State.chooseSlot_service (h : s.flag Fd.SYS_STRAP_SVC = false) : s.chooseSlot v = none := by
  simp [State.chooseSlot, h]

theorem State.chooseSlot_noneBootable (ha : s.bootable 0 v.okA = false) (hb : s.bootable 1 v.okB = false) : s.chooseSlot v = none := by
  simp [State.chooseSlot, ha, hb]

theorem State.chooseSlot_failed (h : 4 ≤ s.fld Fd.SYS_BOOT_STAT_FAIL_RUN) : s.chooseSlot v = none := by
  simp [State.chooseSlot, h]

section
variable (hs : s.flag Fd.SYS_STRAP_SVC = true) (hr : s.fld Fd.SYS_BOOT_STAT_FAIL_RUN < 4)
include hs hr

theorem State.chooseSlot_onlyFirst (ha : s.bootable 0 v.okA = true) (hb : s.bootable 1 v.okB = false) :
    s.chooseSlot v = some (0, false) := by
  simp [State.chooseSlot, hs, ha, hb, hr]

theorem State.chooseSlot_onlySecond (ha : s.bootable 0 v.okA = false) (hb : s.bootable 1 v.okB = true) :
    s.chooseSlot v = some (1, false) := by
  simp [State.chooseSlot, hs, ha, hb, hr]

theorem State.chooseSlot_best (ha : s.bootable 0 v.okA = true) (hb : s.bootable 1 v.okB = true)
    (h2 : s.fld Fd.SYS_BOOT_STAT_FAIL_RUN < 2) : s.chooseSlot v =
      some (if (s.manifestAt (fwSlot 0)).version < (s.manifestAt (fwSlot 1)).version then 1 else 0, false) := by
  have h23 : ¬ (s.fld Fd.SYS_BOOT_STAT_FAIL_RUN = 2 ∨ s.fld Fd.SYS_BOOT_STAT_FAIL_RUN = 3) := by omega
  simp [State.chooseSlot, hs, ha, hb, hr, h23]

theorem State.chooseSlot_other (ha : s.bootable 0 v.okA = true) (hb : s.bootable 1 v.okB = true)
    (h2 : 2 ≤ s.fld Fd.SYS_BOOT_STAT_FAIL_RUN) : s.chooseSlot v =
      some (if (s.manifestAt (fwSlot 0)).version < (s.manifestAt (fwSlot 1)).version then 0 else 1, true) := by
  have h23 : s.fld Fd.SYS_BOOT_STAT_FAIL_RUN = 2 ∨ s.fld Fd.SYS_BOOT_STAT_FAIL_RUN = 3 := by omega
  have hother (c : Prop) [Decidable c] : 1 - (if c then 1 else 0) = if c then 0 else 1 := by split <;> rfl
  simp [State.chooseSlot, hs, ha, hb, hr, h23, hother]

end

/-- A slot number is one bit. -/
theorem State.chooseSlot_lt (h : s.chooseSlot v = some (k, fb)) : k < 2 := by
  simp only [State.chooseSlot] at h
  grind

/-! ### The start of ROM (16 R397, R398) -/

/-- What ROM records of the boot header and the slots. -/
def State.noteSlots (v : Slots) (s : State) : State :=
  let s := s.setFlag Fd.SYS_BOOT_STAT_HDR_DEFAULT (!s.headerValid)
  let s := (s.setFlag Fd.SYS_BOOT_STAT_SLOT0_OK (s.bootable 0 v.okA)).setFlag Fd.SYS_BOOT_STAT_SLOT1_OK (s.bootable 1 v.okB)
  { s with boot := { s.boot with slots := v } }

/-- A record of BOOT_STAT that leaves FAIL_RUN. -/
theorem State.noteSlots_fld {f : Fld} (hf : f.reg ≠ Reg.SYS_BOOT_STAT ∨ f = Fd.SYS_BOOT_STAT_FAIL_RUN) : (s.noteSlots v).fld f = s.fld f := by
  have hset {g : Fld} (t : State) (n : Nat) (hg : g ∈ [Fd.SYS_BOOT_STAT_HDR_DEFAULT, Fd.SYS_BOOT_STAT_SLOT0_OK, Fd.SYS_BOOT_STAT_SLOT1_OK]) :
      (t.setFld g n).fld f = t.fld f := by
    refine State.fld_setFld_ne _ _ _ _ ?_
    rcases hf with hf | rfl
    · left
      fin_cases hg <;> exact hf
    · fin_cases hg <;> simp
  calc
    _ = _ := hset _ _ (by simp)
    _ = _ := hset _ _ (by simp)
    _ = _ := hset _ _ (by simp)

theorem State.noteSlots_bootable (k : Nat) (b : Bool) : (s.noteSlots v).bootable k b = s.bootable k b := by
  have h : (s.noteSlots v).fusedEpoch = s.fusedEpoch := State.noteSlots_fld (.inl (by simp))
  simp only [State.bootable, h]
  rfl

/-- What ROM records does not change its choice. -/
theorem State.noteSlots_chooseSlot : (s.noteSlots v).chooseSlot v = s.chooseSlot v := by
  have hs : (s.noteSlots v).flag Fd.SYS_STRAP_SVC = s.flag Fd.SYS_STRAP_SVC :=
    congrArg (· != 0) (State.noteSlots_fld (.inl (by simp)))
  have hr : (s.noteSlots v).fld Fd.SYS_BOOT_STAT_FAIL_RUN = s.fld Fd.SYS_BOOT_STAT_FAIL_RUN := State.noteSlots_fld (.inr rfl)
  simp only [State.chooseSlot, State.noteSlots_bootable, hs, hr]
  rfl

theorem State.romStart_eq : s.romStart v = match s.chooseSlot v with
    | none =>
      (State.changeMode .recovery
        { (s.noteSlots v).off Fd.SYS_BOOT_STAT_SLOT_FALLBACK with boot := { (s.noteSlots v).boot with rom := false } }).pinsOff.resumeSession
    | some (k, fb) =>
      let t := ((s.noteSlots v).setFld Fd.SYS_BOOT_STAT_SLOT k).setFlag Fd.SYS_BOOT_STAT_SLOT_FALLBACK fb
      { t with boot := { t.boot with rom := true } } := by
  rw [← State.noteSlots_chooseSlot]
  rfl

theorem State.romStart_recovery (h : s.chooseSlot v = none) :
    ∃ u : State, u.boot.rom = false ∧ s.romStart v = (u.changeMode .recovery).pinsOff.resumeSession := by
  rw [State.romStart_eq, h]
  exact ⟨_, rfl, rfl⟩

theorem State.romStart_slot (h : s.chooseSlot v = some (k, fb)) : (s.romStart v).fld Fd.SYS_BOOT_STAT_SLOT = k ∧
    (s.romStart v).flag Fd.SYS_BOOT_STAT_SLOT_FALLBACK = fb ∧ (s.romStart v).boot.rom = true := by
  rw [State.romStart_eq, h]
  refine ⟨?_, ?_, rfl⟩
  · refine (State.fld_setFld_ne _ _ _ _ (by simp)).trans ((State.fld_setFld_same _ _ _ (by simp)).trans ?_)
    exact Nat.mod_eq_of_lt (State.chooseSlot_lt h)
  · refine (congrArg (· != 0) (State.fld_setFld_same _ _ _ (by simp))).trans ?_
    cases fb <;> rfl

end Sys2Proof.Machine
end

section
open Sys2Proof.Machine

/-- Settles O1: a step is defined by the front of the queue. -/
theorem stepRunsTheFrontCommand : Obligations.StepRunsTheFrontCommand := fun _ _ _ => rfl

/-- Settles O3: after reset nothing is listed, so every register is at its default. -/
theorem resetValues : Obligations.ResetValues :=
  ⟨fun _ => rfl, by decide, by decide, by decide, by decide, by decide, by decide, by decide, rfl, rfl, rfl⟩

/-- Settles O6: the choice by FAIL_RUN and the two verdicts; ROM's start records it in SLOT and SLOT_FALLBACK. -/
theorem romChoosesASlot : Obligations.RomChoosesASlot := by
  unfold Obligations.RomChoosesASlot
  intro s v
  refine ⟨State.chooseSlot_service, State.chooseSlot_noneBootable, State.chooseSlot_failed, fun hs hr => ⟨?_, ?_, ?_, ?_⟩,
    State.bootable_iff, State.romStart_recovery, fun k fb => State.romStart_slot⟩
  · exact State.chooseSlot_onlyFirst hs hr
  · exact State.chooseSlot_onlySecond hs hr
  · exact State.chooseSlot_best hs hr
  · exact State.chooseSlot_other hs hr

end

section
/-!
SUPPORT. TARGET DROWSE where R411 shuts it out.
-/

namespace Sys2Proof.Machine

variable {s : State}

/-- What R411 names shuts Drowse out. -/
theorem State.drowseAllowed_eq_false
    (h : (s.mode ≠ .isolated ∧ s.mode ≠ .seamless ∧ s.mode ≠ .split) ∨ s.flag Fd.TWIN_TWIN_CFG_EN = true ∨
      s.fld Fd.WARDEN_RING_CTL_ROLE ≠ 0 ∨
      (∃ n, n < 32 ∧ s.flag (Fd.CYC_STR_CFG_EN n) = true ∧ s.fld (Fd.CYC_STR_CFG_ROLE n) ≠ 0) ∨
      s.fld Fd.UPD_UPD_STAT_STATE = 5 ∨ (s.flag Fd.USB_USB_STAT_VBUS = true ∧ s.flag Fd.USB_USB_STAT_SUSPENDED = false)) :
    s.drowseAllowed = false := by
  rcases h with ⟨h2, h3, h4⟩ | h | h | ⟨n, hn, he, hr⟩ | h | ⟨hv, hs⟩
  · simp [State.drowseAllowed, State.onRing, h2, h3, h4]
  · simp [State.drowseAllowed, State.twinEn, h]
  · simp [State.drowseAllowed, h]
  · have hall : (List.range 32).all (fun t => !s.flag (Fd.CYC_STR_CFG_EN t) || s.fld (Fd.CYC_STR_CFG_ROLE t) == 0) = false := by
      rw [List.all_eq_false]
      exact ⟨n, List.mem_range.mpr hn, by simp [he, hr]⟩
    simp [State.drowseAllowed, hall]
  · simp [State.drowseAllowed, h]
  · simp [State.drowseAllowed, State.suspended, hv, hs]

theorem State.sysCommand_runs (f : State → Res) (h : s.runs = true) : s.sysCommand f = answer (f s) := by
  obtain ⟨hk, hm⟩ := State.runs_iff.mp h
  simp [State.sysCommand, hk, hm]

theorem State.modeCtl_drowseRefused (he : s.flag Fd.SYS_MODE_STAT_ENTERING = false) (hw : s.flag Fd.SYS_MODE_STAT_WAKING = false)
    (ha : s.flag Fd.SYS_MODE_STAT_ACTIVATING = false) (hd : s.drowseAllowed = false) : s.modeCtl 3 false = refuseMode s := by
  simp [State.modeCtl, he, hw, ha, State.target, hd]

end Sys2Proof.Machine
end

section
open Sys2Proof.Machine

/-- Settles O54: with SAFE_HOLD or without, the refusal counts in WRONG_MODE_CNT alone. -/
theorem drowseRefusals : Obligations.DrowseRefusals := by
  unfold Obligations.DrowseRefusals
  intro s hr he hw ha h
  have hexec : exec (.targetDrowse false) s = .next (answer (refuseMode s)) := by
    rw [← State.modeCtl_drowseRefused he hw ha (State.drowseAllowed_eq_false h), ← State.sysCommand_runs _ hr]
    rfl
  exact ⟨_, hexec, rfl, ((OnlyRegs.refl _ s).wr (by simp)).answer⟩

end

section
/-!
SUPPORT. REGISTER_WRITE of TWIN_CFG by the control processor.
-/

namespace Sys2Proof.Machine

variable {s : State} {w : Word}

/-! ### The rule of the register (14 R371) -/

theorem State.twinCfg_outsideLoad (h : s.applying = false) : s.twinCfg w = refuse .wrongMode s := by
  simp [State.twinCfg, h]

theorem State.twinCfg_outOfRange (h : s.applying = true)
    (hw : bits w 16 8 = 0 ∨ bits w 8 8 = 0 ∨ bits w 0 8 = 0 ∨ 60 < bits w 0 8) : s.twinCfg w = refuse .badRequest s := by
  simp [State.twinCfg, h, hw]

theorem State.twinCfg_inRange (h : s.applying = true)
    (hw : ¬ (bits w 16 8 = 0 ∨ bits w 8 8 = 0 ∨ bits w 0 8 = 0 ∨ 60 < bits w 0 8)) :
    s.twinCfg w = (.ok, s.wr Reg.TWIN_TWIN_CFG (w &&& 0xC0FFFFFF#32)) := by
  simp [State.twinCfg, h, hw]

/-! ### The way of a write to the register -/

/-- TWIN_CFG is not mirrored over the tether, so its write is what its rule says. -/
theorem State.writeReg_twinCfg (hl : s.loadRefuses = false) : s.writeReg Reg.TWIN_TWIN_CFG w none = s.twinCfg w := by
  have hu : s.unitDown (0x3000000000 + Reg.TWIN_TWIN_CFG) = false := rfl
  have hr : s.ruledWrite Reg.TWIN_TWIN_CFG w none = some (s.twinCfg w) := rfl
  have hs : shadowed (0x3000000000 + Reg.TWIN_TWIN_CFG) = false := by decide
  simp [State.writeReg, hu, hl, hr, State.sendDelta, hs]

theorem State.writeRow_twinCfg (hl : s.loadRefuses = false) :
    s.writeRow Reg.TWIN_TWIN_CFG (leBytes 4 w.toNat) none = s.twinCfg w := by
  have hc : rowCheck Reg.TWIN_TWIN_CFG 4 blockAt = .ok := by decide
  have hwide : s.wideWrite Reg.TWIN_TWIN_CFG (leBytes 4 w.toNat) = none := by
    simp [State.wideWrite, leBytes_length, Reg.TWIN_TWIN_CFG]
  have hcm : commits Reg.TWIN_TWIN_CFG = false := by decide
  simp only [State.writeRow, leBytes_length, hc, hwide, wordsLe_leBytes, State.writeRegs, State.writeReg_twinCfg hl, hcm]
  generalize s.twinCfg w = r
  obtain ⟨st, t⟩ := r
  cases st <;> rfl

/-- The firmware of this package writes in Load with its rights and elsewhere without them; a write of one register is then answered. -/
theorem State.registerWrite_twinCfg {st : Status} {a : Nat} {v : Word} (hr : s.runs = true)
    (hc : (s.asFirmware (s.mode == .load)).twinCfg w = (st, (s.asFirmware (s.mode == .load)).wr a v)) :
    s.registerWrite 0 0x3000100000 (leBytes 4 w.toNat) = answer (st, s.wr a v) := by
  have hl : (s.asFirmware (s.mode == .load)).loadRefuses = false := by
    simp [State.loadRefuses, State.asFirmware]
  have hrow : (s.asFirmware (0 == 0 && s.mode == .load)).writeRow (0x3000100000 - 0x3000000000) (leBytes 4 w.toNat) none =
      (st, (s.asFirmware (s.mode == .load)).wr a v) := (State.writeRow_twinCfg hl).trans hc
  have hback : ((s.asFirmware (s.mode == .load)).wr a v).asFirmware s.boot.applying = s.wr a v := rfl
  rw [State.registerWrite_row 0 _ _ hr (by decide) (by decide), hrow]
  simp [hback, answer]

theorem State.answer_wr_onlyRegsOut (st : Status) (a : Nat) (v : Word) : OnlyRegsOut [a] s (answer (st, s.wr a v)) :=
  ((OnlyRegs.refl _ s).wr (by simp)).answer

end Sys2Proof.Machine
end

section
open Sys2Proof Sys2Proof.Machine

/-- Settles O48: the write meets the register's own rule, which admits the firmware in Load alone. -/
theorem twinConfiguration : Obligations.TwinConfiguration := by
  unfold Obligations.TwinConfiguration
  intro s w hr _
  have settle {st : Status} {a : Nat} {v : Word}
      (hc : (s.asFirmware (s.mode == .load)).twinCfg w = (st, (s.asFirmware (s.mode == .load)).wr a v)) :
      exec (.registerWrite 0 0x3000100000#40 (leBytes 4 w.toNat)) s = .next (answer (st, s.wr a v)) :=
    congrArg Host.Outcome.next (State.registerWrite_twinCfg hr hc)
  have hap : (s.asFirmware (s.mode == .load)).applying = (s.mode == .load) := by simp [State.applying, State.asFirmware]
  refine ⟨fun hm => ?_, fun hm hbad => ?_, fun hm hok => ?_⟩
  · refine ⟨_, settle (State.twinCfg_outsideLoad ?_), rfl, State.answer_wr_onlyRegsOut _ _ _⟩
    simpa [hap] using hm
  · refine ⟨_, settle (State.twinCfg_outOfRange ?_ hbad), rfl, State.answer_wr_onlyRegsOut _ _ _⟩
    simpa [hap] using hm
  · refine ⟨_, settle (State.twinCfg_inRange ?_ hok), rfl, s.rd_wr_same _ _, State.answer_wr_onlyRegsOut _ _ _⟩
    simpa [hap] using hm

end

section
/-!
SUPPORT. The start of a picot: the word that enables it, the first pulse of its series, and what the start leaves in its registers.
-/

namespace Sys2Proof.Machine

variable {s t : State} {w : Word} {i : Nat}

/-- A one-bit field is a bit of its register. -/
theorem State.flag_bit (s : State) (a n : Nat) : s.flag ⟨a, n, 1⟩ = (s.rd a).getLsbD n := by
  rw [State.flag, State.fld, bits_one]
  cases (s.rd a).getLsbD n <;> rfl

/-! ### The word of PIC_CTL (12 R311) -/

/-- What setting EN with `w` loads into PIC_CTL. -/
def enabling (w : Word) : Word := (w ||| 0x80000000#32) &&& 0xFC0000FF#32

theorem enabling_en (w : Word) : (enabling w).getLsbD 31 = true := by simp [enabling]

theorem enabling_mode (w : Word) : (enabling w).getLsbD 30 = w.getLsbD 30 := by simp [enabling]

theorem enabling_pinEn (w : Word) : (enabling w).getLsbD 28 = w.getLsbD 28 := by simp [enabling]

theorem enabling_pin (w : Word) : bits (enabling w) 0 8 = bits w 0 8 := by
  simp only [bits, enabling]
  congr 1
  ext j hj
  have hlow : ∀ j < 8, (0x80000000#32).getLsbD j = false ∧ (0xFC0000FF#32).getLsbD j = true := by decide
  simp [hlow j hj]

/-! ### The output level -/

/-- The output level shows in LEVEL and at the pin only. -/
theorem State.picLevel_rd (s : State) (i : Nat) (b : Bool) (a : Nat) : (s.picLevel i b).rd a =
    (s.setFlag (Fd.PIC_PIC_STAT_LEVEL i) (b != s.flag (Fd.PIC_PIC_CTL_POL i))).rd a := by
  simp only [State.picLevel]
  split <;> rfl

theorem State.picLevel_rd_ne (s : State) (b : Bool) {a : Nat} (h : a ≠ Reg.PIC_PIC_STAT i) : (s.picLevel i b).rd a = s.rd a :=
  (s.picLevel_rd i b a).trans (s.rd_wr_ne _ h)

theorem State.picLevel_runs (s : State) (i : Nat) (b : Bool) : (s.picLevel i b).picRuns i = s.picRuns i :=
  (State.flag_congr (s.picLevel_rd i b _)).trans (State.flag_setFld_ne s _ (.inr (by simp)))

theorem State.picLevel_pic (s : State) (i j : Nat) (b : Bool) : (s.picLevel i b).pic j = s.pic j := by
  simp only [State.picLevel]
  split <;> rfl

theorem State.pic_setPic_same (s : State) (i : Nat) (v : PicState) : (s.setPic i v).pic i = v := Tab.get_set_same _ _ _ _

/-! ### The first pulse (12 R311) -/

/-- The pulse with which a series begins: the first that is far enough ahead, or the only one. -/
def State.firstPulse (s : State) (i : Nat) : Nat :=
  if s.picPeriodic i then
    let start := s.rd64 (Reg.PIC_START_LO i) (Reg.PIC_START_HI i)
    if s.now + 1000 ≤ start then 0 else ((s.now + 1000 - start) * 65536 + s.picP i - 1) / max 1 (s.picP i)
  else 0

theorem State.picStart_eq (s : State) (i : Nat) : s.picStart i =
    (((s.wr (Reg.PIC_FIRED i) 0#32).setPic i { k := s.firstPulse i }).on (Fd.PIC_PIC_STAT_RUNNING i)).picLevel i false := rfl

theorem State.picStart_runs (s : State) (i : Nat) : (s.picStart i).picRuns i = true := by
  rw [s.picStart_eq, State.picLevel_runs]
  exact State.flag_on_same _ (by simp) (by simp)

theorem State.picStart_pic (s : State) (i : Nat) : (s.picStart i).pic i = { k := s.firstPulse i } := by
  rw [s.picStart_eq, State.picLevel_pic]
  exact State.pic_setPic_same _ _ _

theorem State.picStart_fired (s : State) (i : Nat) : (s.picStart i).rd (Reg.PIC_FIRED i) = 0#32 := by
  rw [s.picStart_eq, State.picLevel_rd_ne _ _ (by simp)]
  exact (State.rd_setFld_ne _ _ _ (by simp)).trans (s.rd_wr_same _ _)

theorem State.picStart_ctl (s : State) (i : Nat) : (s.picStart i).rd (Reg.PIC_PIC_CTL i) = s.rd (Reg.PIC_PIC_CTL i) := by
  rw [s.picStart_eq, State.picLevel_rd_ne _ _ (by simp)]
  exact (State.rd_setFld_ne _ _ _ (by simp)).trans (s.rd_wr_ne _ (by simp))

/-- A quotient rounded up is the least number of periods that reach a distance. -/
theorem periods_le_iff {d p j : Nat} (hp : 0 < p) : (d + p - 1) / max 1 p ≤ j ↔ d ≤ j * p := by
  rw [max_eq_right hp, ← Nat.ceilDiv_eq_add_pred_div, ceilDiv_le_iff_le_mul hp, Nat.mul_comm]

/-- A pulse reaches now + 1 µs exactly if it is the first or a later one. -/
theorem State.firstPulse_le_iff (hm : s.picPeriodic i = true) (hp : 0 < s.picP i) (j : Nat) : s.firstPulse i ≤ j ↔
    (s.now + 1000) * 65536 ≤ s.rd64 (Reg.PIC_START_LO i) (Reg.PIC_START_HI i) * 65536 + j * s.picP i := by
  simp only [State.firstPulse, hm, if_true]
  split
  · generalize j * s.picP i = n
    omega
  · rw [periods_le_iff hp]
    omega

/-- Two states with the same registers of a picot and the same time begin its series with the same pulse. -/
theorem State.firstPulse_congr (hr : ∀ a, 0xE0800 ≤ a → t.rd a = s.rd a) (hn : t.ctr = s.ctr) : t.firstPulse i = s.firstPulse i := by
  have hperiodic : t.picPeriodic i = s.picPeriodic i := State.flag_congr (x := Fd.PIC_PIC_CTL_MODE i) (hr _ (Nat.le_add_right _ _))
  have hstart : t.rd64 (Reg.PIC_START_LO i) (Reg.PIC_START_HI i) = s.rd64 (Reg.PIC_START_LO i) (Reg.PIC_START_HI i) := by
    exact State.rd64_congr (hr _ (by dsimp only [Reg.PIC_START_LO]; omega)) (hr _ (by dsimp only [Reg.PIC_START_HI]; omega))
  have hperiod : t.picP i = s.picP i := by
    rw [State.picP, hr _ (by dsimp only [Reg.PIC_PERIOD_NS]; omega),
      State.fld_congr (x := Fd.PIC_PERIOD_FRAC_FRAC i) (hr _ (by dsimp only [Reg.PIC_PERIOD_FRAC]; omega)), State.picP]
  have hnow : t.now = s.now := congrArg (· / 2 ^ 32) hn
  rw [State.firstPulse, hperiodic, hstart, hperiod, hnow, State.firstPulse]

/-! ### A write that sets EN -/

theorem State.picOk_iff {v : Word} : s.picOk i v = true ↔
    ¬ ((s.rd (Reg.PIC_WIDTH i)).toNat < 16 ∨
      (v.getLsbD 30 = true ∧ s.picP i < ((s.rd (Reg.PIC_WIDTH i)).toNat + 16) * 65536) ∨
      (v.getLsbD 30 = false ∧ s.rd64 (Reg.PIC_START_LO i) (Reg.PIC_START_HI i) < s.now + 1000)) := by
  simp only [State.picOk, Bool.and_eq_true, decide_eq_true_eq]
  cases v.getLsbD 30 <;> simp

/-- What setting EN starts: the word in PIC_CTL and the series. -/
def State.picGo (i : Nat) (w : Word) (s : State) : State := (s.wr (Reg.PIC_PIC_CTL i) (enabling w)).picStart i

theorem State.picGo_enabled (s : State) (i : Nat) (w : Word) : (s.picGo i w).flag (Fd.PIC_PIC_CTL_EN i) = true := by
  rw [State.picGo, State.flag_congr (x := Fd.PIC_PIC_CTL_EN i) (State.picStart_ctl _ i)]
  rw [State.flag_bit, State.rd_wr_same, enabling_en]

section
variable {x v : Word} (ha : s.asleepOrLoading = false) (hl : s.applying = false) (he : s.flag (Fd.PIC_PIC_CTL_EN i) = false)
  (hx : x &&& 0xFC0000FF#32 = v) (hv : v.getLsbD 31 = true)
include ha hl he hx hv

/-- A write of PIC_CTL that sets EN with settings that R311 does not allow. -/
theorem State.picCtl_refused (h : s.picOk i v = false) : s.picCtl i x = refuse .badRequest s := by
  have hwas : (s.rd (Reg.PIC_PIC_CTL i)).getLsbD 31 = false := (State.flag_bit s _ 31).symm.trans he
  rw [State.picCtl, hx, ha, hwas, hv, hl, h]
  rfl

/-- Settings in order and no pin asked for. -/
theorem State.picCtl_noPin (h : s.picOk i v = true) (hp : v.getLsbD 28 = false) :
    s.picCtl i x = (.ok, (s.wr (Reg.PIC_PIC_CTL i) v).picStart i) := by
  have hwas : (s.rd (Reg.PIC_PIC_CTL i)).getLsbD 31 = false := (State.flag_bit s _ 31).symm.trans he
  rw [State.picCtl, hx, ha, hwas, hv, hl, h, hp]
  rfl

/-- Settings in order and a pin that nobody owns. -/
theorem State.picCtl_freePin (h : s.picOk i v = true) (hp : v.getLsbD 28 = true) (ho : s.fld (Fd.PIN_STAT_OWNER (bits v 0 8)) = 0) :
    s.picCtl i x = (.ok, ((s.own (.picot i) (bits v 0 8)).wr (Reg.PIC_PIC_CTL i) v).picStart i) := by
  have hwas : (s.rd (Reg.PIC_PIC_CTL i)).getLsbD 31 = false := (State.flag_bit s _ 31).symm.trans he
  rw [State.picCtl, hx, ha, hwas, hv, hl, h, hp, State.claim_free _ hl ho]
  exact congrArg (Prod.mk Status.ok) (State.onlyIf_true _ _)

/-- Settings in order: the series starts, after the claim of a pin if one is asked for. -/
theorem State.picCtl_starts (h : s.picOk i v = true) (hp : v.getLsbD 28 = true → s.fld (Fd.PIN_STAT_OWNER (bits v 0 8)) = 0) :
    ∃ t : State, s.picCtl i x = (.ok, (t.wr (Reg.PIC_PIC_CTL i) v).picStart i) ∧ (∀ a, 0xE0800 ≤ a → t.rd a = s.rd a) ∧
      t.ctr = s.ctr := by
  cases hw : v.getLsbD 28 with
  | false => exact ⟨s, State.picCtl_noPin ha hl he hx hv h hw, fun _ _ => rfl, rfl⟩
  | true =>
    refine ⟨_, State.picCtl_freePin ha hl he hx hv h hw (hp hw), fun a hia => ?_, rfl⟩
    have hpin : bits v 0 8 < 2 ^ 8 := BitVec.isLt _
    have hne : a ≠ Reg.PIN_STAT (bits v 0 8) := by
      dsimp only [Reg.PIN_STAT]
      omega
    exact (State.rd_setFld_ne _ _ _ hne).trans (State.rd_setFld_ne _ _ _ hne)

end

theorem exec_picotEnable {i : Fin 16} (h : s.takes none = true) :
    exec (.picotEnable i w) s = .next (answer (s.picCtl i (w ||| 0x80000000#32))) :=
  congrArg Host.Outcome.next (State.command_takes none _ h)

/-- The first pulse of the series that a write starts. -/
theorem State.picGo_pic (hr : ∀ a, 0xE0800 ≤ a → t.rd a = s.rd a) (hn : t.ctr = s.ctr) :
    (t.picGo i w).pic i = { k := (s.wr (Reg.PIC_PIC_CTL i) (enabling w)).firstPulse i } := by
  rw [State.picGo, State.picStart_pic, State.firstPulse_congr (s := s.wr (Reg.PIC_PIC_CTL i) (enabling w)) (fun a ha => ?_) (by simp [hn])]
  simp only [State.rd_wr, hr a ha]

/-- The mode that the word names is the mode of the series. -/
theorem State.wr_enabling_periodic (s : State) (i : Nat) (w : Word) :
    (s.wr (Reg.PIC_PIC_CTL i) (enabling w)).picPeriodic i = w.getLsbD 30 := by
  rw [State.picPeriodic, State.flag_bit, State.rd_wr_same, enabling_mode]

theorem State.wr_enabling_firstPulse_le_iff (hw : w.getLsbD 30 = true) (hp : 0 < s.picP i) (j : Nat) :
    (s.wr (Reg.PIC_PIC_CTL i) (enabling w)).firstPulse i ≤ j ↔
      (s.now + 1000) * 65536 ≤ s.rd64 (Reg.PIC_START_LO i) (Reg.PIC_START_HI i) * 65536 + j * s.picP i := by
  have hkeep {a : Nat} (ha : a ≠ Reg.PIC_PIC_CTL i) : (s.wr (Reg.PIC_PIC_CTL i) (enabling w)).rd a = s.rd a := s.rd_wr_ne _ ha
  have hperiod : (s.wr (Reg.PIC_PIC_CTL i) (enabling w)).picP i = s.picP i := by
    simp only [State.picP, State.fld]
    rw [hkeep (by simp), hkeep (by simp)]
  have hstart : (s.wr (Reg.PIC_PIC_CTL i) (enabling w)).rd64 (Reg.PIC_START_LO i) (Reg.PIC_START_HI i) =
      s.rd64 (Reg.PIC_START_LO i) (Reg.PIC_START_HI i) :=
     State.rd64_congr (hkeep (by simp)) (hkeep (by simp))
  have h := State.firstPulse_le_iff ((s.wr_enabling_periodic i w).trans hw) (by rw [hperiod]; exact hp) j
  rwa [hperiod, hstart] at h

end Sys2Proof.Machine
end

section
open Sys2Proof.Machine

/-- Settles O40: a refused setting by the rule of EN; else the first pulse is the least that reaches now + 1 µs. -/
theorem picotStart : Obligations.PicotStart := by
  unfold Obligations.PicotStart
  refine ⟨fun s i w ht hm ha he => ⟨fun hbad => ?_, fun hok hpin => ?_⟩, fun s u i k hstart hperiod => ?_⟩
  · have hno : s.picOk i (enabling w) = false := by
      rw [← Bool.not_eq_true, State.picOk_iff, not_not, enabling_mode]
      exact hbad
    rw [exec_picotEnable ht, State.picCtl_refused ha (by simp [State.applying, hm]) he rfl (enabling_en w) hno]
  · have hyes : s.picOk i (enabling w) = true := by
      rw [State.picOk_iff, enabling_mode]
      exact hok
    obtain ⟨t, hgo, hr, hn⟩ := State.picCtl_starts ha (by simp [State.applying, hm]) he (v := enabling w) rfl (enabling_en w) hyes
      (fun hw => by rw [enabling_pin]; exact hpin (enabling_pinEn w ▸ hw))
    have hexec := (exec_picotEnable ht).trans (congrArg (Host.Outcome.next <| answer ·) hgo)
    have hpic : (answer (.ok, t.picGo i w)).pic i = _ := State.picGo_pic hr hn
    rw [← State.picGo] at hexec
    refine ⟨_, hexec, State.picStart_runs _ _, t.picGo_enabled i w, rfl, State.picStart_fired _ _, ?_, ?_, fun hw => ?_, fun hw => ?_⟩
    · rw [hpic]
    · rw [hpic]
    · rw [hpic, State.firstPulse, State.wr_enabling_periodic, hw]
      rfl
    · have hp : 0 < s.picP i := by
        have hfits := not_lt.mp fun h => hok (.inr (.inl ⟨hw, h⟩))
        exact Nat.lt_of_lt_of_le (by positivity) hfits
      rw [hpic]
      refine ⟨(State.wr_enabling_firstPulse_le_iff hw hp _).mp le_rfl, fun j hj => ?_⟩
      exact Nat.lt_of_not_le fun h => Nat.not_le_of_lt hj ((State.wr_enabling_firstPulse_le_iff hw hp j).mpr h)
  · rw [State.picAt, State.picAt, hstart, hperiod]

end

section
/-!
SUPPORT. The time unit: which registers and which bits of TIME_STAT an operation on the servo and on the choice of a domain can
change, that none of them moves the counter or the clock, and that a steered INCREMENT stays within its limits.
-/

namespace Sys2Proof.Machine

variable {s t u : State} {up dn l : List Nat} {d i : Nat}

/-! ### INCREMENT (12 R291) -/

theorem State.increment_setIncr {v : Nat} (s : State) (hv : v < 2 ^ 40) : (s.setIncr v).increment = v := by
  have hns : (s.setIncr v).fld Fd.TIME_INCR_NS_NS = v / 2 ^ 32 := by
    simp only [State.fld, State.setIncr, State.rd_wr_same, bits, BitVec.extractLsb'_toNat, BitVec.toNat_ofNat]
    omega
  have hfrac : (s.setIncr v).rd Reg.TIME_INCR_FRAC = BitVec.ofNat 32 v :=
    (State.rd_wr_ne _ _ (by decide)).trans (s.rd_wr_same _ _)
  rw [State.increment, hns, hfrac, BitVec.toNat_ofNat]
  omega

theorem State.increment_congr (hf : t.rd Reg.TIME_INCR_FRAC = s.rd Reg.TIME_INCR_FRAC)
    (hn : t.rd Reg.TIME_INCR_NS = s.rd Reg.TIME_INCR_NS) : t.increment = s.increment := by
  rw [State.increment, State.fld_congr (x := Fd.TIME_INCR_NS_NS) hn, hf, State.increment]

/-- INCREMENT lies within 1,000 ppm of nominal. -/
def State.nearNominal (s : State) : Prop := incrLo ≤ s.increment ∧ s.increment ≤ incrHi

/-- The servo loads a value within the limits; beside its free values and its frequency term it changes nothing else. -/
theorem State.steer_eq (s : State) : ∃ (u : State) (v : Nat), incrLo ≤ v ∧ v ≤ incrHi ∧ s.steer = u.setIncr v ∧ u.regs = s.regs ∧
    u.ctr = s.ctr ∧ u.clk = s.clk ∧ u.tim.slew = s.tim.slew := by
  have hclamp (x : Int) : incrLo ≤ (max (incrLo : Int) (min incrHi x)).toNat ∧ (max (incrLo : Int) (min incrHi x)).toNat ≤ incrHi := by
    simp only [incrLo, incrHi]
    omega
  obtain ⟨hlo, hhi⟩ := hclamp _
  exact ⟨_, _, hlo, hhi, rfl, rfl, rfl, rfl, rfl⟩

theorem incrHi_lt : incrHi < 2 ^ 40 := by decide

theorem State.steer_nearNominal (s : State) : s.steer.nearNominal := by
  obtain ⟨u, v, hlo, hhi, he, -⟩ := s.steer_eq
  rw [he, State.nearNominal, u.increment_setIncr (Nat.lt_of_le_of_lt hhi incrHi_lt)]
  exact ⟨hlo, hhi⟩

theorem State.steer_slew (s : State) : s.steer.tim.slew = s.tim.slew := by
  obtain ⟨u, v, -, -, he, -, -, -, hs⟩ := s.steer_eq
  rw [he, ← hs]
  rfl

/-! ### TIME_STAT and the registers beside it -/

/-- Bit `i` of TIME_STAT. -/
abbrev statFld (i : Nat) : Fld := ⟨Reg.TIME_TIME_STAT, i, 1⟩

theorem State.flag_setFld_stat {s : State} {i : Nat} (v : Nat) (hi : i < 32) : (s.setFld (statFld i) v).flag (statFld i) = (v % 2 == 1) := by
  rw [State.flag, s.fld_setFld_same (statFld i) v (Nat.succ_le_of_lt hi)]
  change (v % 2 != 0) = (v % 2 == 1)
  have h : v % 2 = 0 ∨ v % 2 = 1 := by omega
  rcases h with h | h <;> rw [h] <;> rfl

theorem State.flag_setFld_stat_ne {s : State} {i j : Nat} (v : Nat) (hij : j ≠ i) :
    (s.setFld (statFld i) v).flag (statFld j) = s.flag (statFld j) := by
  by_cases hj : j < 32
  · exact State.flag_setFld_ne _ _ (.inr ⟨by dsimp only [statFld]; omega, Nat.succ_le_of_lt hj⟩)
  · rw [State.flag_bit, State.flag_bit, BitVec.getLsbD_of_ge _ _ (by omega), BitVec.getLsbD_of_ge _ _ (by omega)]

/-- From `s` to `t` counter and clock stand, of TIME_STAT only bits of `up` rise and only bits of `dn` fall, beside it only registers
of `l` change, and an INCREMENT within its limits stays within them. -/
structure Tuned (up dn l : List Nat) (s t : State) : Prop where
  ctr : t.ctr = s.ctr
  clk : t.clk = s.clk
  regs : SameRegs (Reg.TIME_TIME_STAT :: l) s t
  rise : ∀ i, i ∉ up → t.flag (statFld i) = true → s.flag (statFld i) = true
  fall : ∀ i, i ∉ dn → s.flag (statFld i) = true → t.flag (statFld i) = true
  incr : s.nearNominal → t.nearNominal

namespace Tuned

theorem refl (up dn l : List Nat) (s : State) : Tuned up dn l s s := ⟨rfl, rfl, fun _ _ => rfl, fun _ _ h => h, fun _ _ h => h, id⟩

theorem flag_eq (h : Tuned up dn l s t) (hu : i ∉ up) (hd : i ∉ dn) : t.flag (statFld i) = s.flag (statFld i) := by
  rw [Bool.eq_iff_iff]
  exact ⟨h.rise i hu, h.fall i hd⟩

theorem flag_false (h : Tuned up dn l s t) (hu : i ∉ up) (hs : s.flag (statFld i) = false) : t.flag (statFld i) = false := by
  rw [← Bool.not_eq_true] at hs ⊢
  exact fun ht => hs (h.rise i hu ht)

theorem sel_eq (h : Tuned up dn l s t) (hu : 5 ∉ up) (hd : 5 ∉ dn) : t.sel = s.sel := by
  have hsel (x : State) : x.sel = (x.flag (statFld 5)).toNat := by
    rw [State.flag_bit]
    exact bits_one _ 5
  rw [hsel, h.flag_eq hu hd, ← hsel]

theorem rd_eq (h : Tuned up dn l s t) {a : Nat} (ha : a ≠ Reg.TIME_TIME_STAT) (hl : a ∉ l) : t.rd a = s.rd a :=
  h.regs a (by simp [ha, hl])

theorem increment_eq (h : Tuned up dn l s t) (hf : Reg.TIME_INCR_FRAC ∉ l) (hn : Reg.TIME_INCR_NS ∉ l) : t.increment = s.increment :=
  State.increment_congr (h.rd_eq (by decide) hf) (h.rd_eq (by decide) hn)

theorem jumpLimit_eq (h : Tuned up dn l s t) (hl : Reg.TIME_JUMP_THRESHOLD ∉ l) : t.jumpLimit = s.jumpLimit :=
  congrArg (· * 65536) (State.fld_congr (x := Fd.TIME_JUMP_THRESHOLD_TIME) (h.rd_eq (by decide) hl))

theorem gmEn_eq (h : Tuned up dn l s t) (hl : Reg.DOM_GM_CFG d ∉ l) : t.flag (Fd.DOM_GM_CFG_GM_EN d) = s.flag (Fd.DOM_GM_CFG_GM_EN d) :=
  State.flag_congr (x := Fd.DOM_GM_CFG_GM_EN d) (h.rd_eq (by dsimp only [Reg.DOM_GM_CFG, Reg.TIME_TIME_STAT]; omega) hl)

theorem ofs_eq (h : Tuned up dn l s t) (hl : Reg.DOM_OFS d ∉ l) : t.ofs d = s.ofs d := by
  rw [State.ofs, h.rd_eq (by dsimp only [Reg.DOM_OFS, Reg.TIME_TIME_STAT]; omega) hl, State.ofs]

/-- An update outside the registers, the counter and the clock. -/
theorem same (h : Tuned up dn l s t) (hr : u.regs = t.regs) (hctr : u.ctr = t.ctr) (hclk : u.clk = t.clk) : Tuned up dn l s u := by
  have hrd (a : Nat) : u.rd a = t.rd a := State.rd_congr hr a
  have hflag (i : Nat) : u.flag (statFld i) = t.flag (statFld i) := State.flag_congr (hrd _)
  refine ⟨hctr.trans h.ctr, hclk.trans h.clk, fun a ha => (hrd a).trans (h.regs a ha), fun i hi => hflag i ▸ h.rise i hi,
    fun i hi => hflag i ▸ h.fall i hi, fun hs => ?_⟩
  rw [State.nearNominal, State.increment_congr (hrd _) (hrd _)]
  exact h.incr hs

theorem wr {a : Nat} {v : Word} (h : Tuned up dn l s t) (ha : a ∈ l)
    (hn : a ∉ [Reg.TIME_TIME_STAT, Reg.TIME_INCR_FRAC, Reg.TIME_INCR_NS]) : Tuned up dn l s (t.wr a v) := by
  simp only [List.mem_cons, List.not_mem_nil, or_false, not_or] at hn
  obtain ⟨hstat, hfrac, hns⟩ := hn
  have hflag (i : Nat) : (t.wr a v).flag (statFld i) = t.flag (statFld i) := State.flag_congr (t.rd_wr_ne v (Ne.symm hstat))
  refine ⟨h.ctr, h.clk, fun x hx => ?_, fun i hi => hflag i ▸ h.rise i hi, fun i hi => hflag i ▸ h.fall i hi, fun hs => ?_⟩
  · rw [t.rd_wr_ne v (fun hxa : x = a => hx (List.mem_cons_of_mem _ (hxa ▸ ha))), h.regs x hx]
  · rw [State.nearNominal, State.increment_congr (t.rd_wr_ne v (Ne.symm hfrac)) (t.rd_wr_ne v (Ne.symm hns))]
    exact h.incr hs

theorem bump {a : Nat} (h : Tuned up dn l s t) (ha : a ∈ l)
    (hn : a ∉ [Reg.TIME_TIME_STAT, Reg.TIME_INCR_FRAC, Reg.TIME_INCR_NS]) : Tuned up dn l s (t.bump a) := h.wr ha hn

theorem setStat {v : Nat} (h : Tuned up dn l s t) (hi : i < 32) (hu : v % 2 = 1 → i ∈ up) (hd : v % 2 = 0 → i ∈ dn) :
    Tuned up dn l s (t.setFld (statFld i) v) := by
  have hrd {a : Nat} (ha : a ≠ Reg.TIME_TIME_STAT) : (t.setFld (statFld i) v).rd a = t.rd a := t.rd_wr_ne _ ha
  refine ⟨h.ctr, h.clk, fun a ha => ?_, fun j hj hset => ?_, fun j hj hset => ?_, fun hs => ?_⟩
  · rw [hrd (fun hx => ha (hx ▸ List.mem_cons_self)), h.regs a ha]
  · by_cases hij : j = i
    · subst hij
      rw [State.flag_setFld_stat v hi, beq_iff_eq] at hset
      exact absurd (hu hset) hj
    · exact h.rise j hj (State.flag_setFld_stat_ne v hij ▸ hset)
  · by_cases hij : j = i
    · subst hij
      rw [State.flag_setFld_stat v hi, beq_iff_eq]
      by_contra hv
      exact hj (hd (by omega))
    · rw [State.flag_setFld_stat_ne v hij]
      exact h.fall j hj hset
  · rw [State.nearNominal, State.increment_congr (hrd (by decide)) (hrd (by decide))]
    exact h.incr hs

theorem on (h : Tuned up dn l s t) (hi : i < 32) (hu : i ∈ up) : Tuned up dn l s (t.on (statFld i)) :=
  h.setStat hi (fun _ => hu) nofun

theorem off (h : Tuned up dn l s t) (hi : i < 32) (hd : i ∈ dn) : Tuned up dn l s (t.off (statFld i)) :=
  h.setStat hi nofun fun _ => hd

theorem setFlag {b : Bool} (h : Tuned up dn l s t) (hi : i < 32) (hu : i ∈ up) (hd : i ∈ dn) : Tuned up dn l s (t.setFlag (statFld i) b) :=
  h.setStat hi (fun _ => hu) fun _ => hd

theorem ite {c : Prop} [Decidable c] (ht : Tuned up dn l s t) (hu : Tuned up dn l s u) : Tuned up dn l s (if c then t else u) := by
  split
  · exact ht
  · exact hu

theorem onlyIf {b : Bool} {f : State → State} (h : Tuned up dn l s t) (hf : ∀ u, Tuned up dn l s u → Tuned up dn l s (f u)) :
    Tuned up dn l s (t.onlyIf b f) := by
  cases b
  · exact h
  · exact hf t h

theorem forEach {β : Type} {m : List β} {f : β → State → State} (h : Tuned up dn l s t)
    (hf : ∀ b ∈ m, ∀ u, Tuned up dn l s u → Tuned up dn l s (f b u)) : Tuned up dn l s (t.forEach m f) :=
  State.forEach_induct _ m f t h hf

theorem setTim {v : TimeState} (h : Tuned up dn l s t) : Tuned up dn l s (t.setTim v) := h.same rfl rfl rfl

theorem setDom {v : DomainState} (h : Tuned up dn l s t) : Tuned up dn l s (t.setDom d v) := h.same rfl rfl rfl

theorem arm {x : Timer} {n : Nat} (h : Tuned up dn l s t) : Tuned up dn l s (t.arm x n) := h.same rfl rfl rfl

/-- A system record is put into its FIFO, or its loss is counted. -/
theorem sysRec {c n : Nat} (h : Tuned up dn l s t) (hl : Reg.JRN_LOST_TOTAL ∈ l) : Tuned up dn l s (t.sysRec c n) := by
  rw [State.sysRec]
  by_cases hroom : (Tab.get [] t.fifos 363).length < fifoCap 363
  · rw [State.pushRec, if_pos hroom]
    exact h.same rfl rfl rfl
  · rw [State.pushRec_full (by omega), show lostCounter 363 = none from rfl]
    exact bump (t := { t with fifoLost := 363 :: t.fifoLost.filter (· != 363) }) (h.same rfl rfl rfl) hl (by decide)

theorem jumpRec {step persist : Bool} {n : Nat} {c : Int} (h : Tuned up dn l s t) (hl : Reg.JRN_LOST_TOTAL ∈ l) :
    Tuned up dn l s (t.jumpRec step persist n c) := (h.sysRec hl).setTim

theorem steer (h : Tuned up dn l s t) (hf : Reg.TIME_INCR_FRAC ∈ l) (hn : Reg.TIME_INCR_NS ∈ l) : Tuned up dn l s t.steer := by
  obtain ⟨u, v, -, -, he, hregs, hctr, hclk, -⟩ := t.steer_eq
  have hrd {a : Nat} (hfa : a ≠ Reg.TIME_INCR_FRAC) (hna : a ≠ Reg.TIME_INCR_NS) : t.steer.rd a = t.rd a := by
    rw [he, State.setIncr, State.rd_wr_ne _ _ hna, State.rd_wr_ne _ _ hfa, State.rd_congr hregs]
  have hflag (i : Nat) : t.steer.flag (statFld i) = t.flag (statFld i) := State.flag_congr (x := statFld i) (hrd (by simp) (by simp))
  refine ⟨?_, ?_, fun a ha => ?_, fun i hi => hflag i ▸ h.rise i hi, fun i hi => hflag i ▸ h.fall i hi, fun _ => t.steer_nearNominal⟩
  · rw [he, ← h.ctr, ← hctr]
    rfl
  · rw [he, ← h.clk, ← hclk]
    rfl
  · rw [hrd (a := a) (fun hx => ha (hx ▸ List.mem_cons_of_mem _ hf)) (fun hx => ha (hx ▸ List.mem_cons_of_mem _ hn)), h.regs a ha]

end Tuned

end Sys2Proof.Machine
end

section
/-!
SUPPORT. The choice of a domain and the corrections of the time counter, by what each operation can change.
-/

namespace Sys2Proof.Machine

variable {s t : State} {up dn l : List Nat} {d : Nat} {θ : Int}

/-! ### The choice of a domain (12 R303, R304) -/

/-- Room for what a change of the selection touches: SEL, SLEWING, HOLDOVER and JUMP_REFUSED, the locks, the counters of both
outcomes, the count of lost records and INCREMENT. -/
structure Selects (up dn l : List Nat) : Prop where
  up : [5, 6, 7, 8] ⊆ up
  dn : [0, 1, 5, 6, 7] ⊆ dn
  regs : [Reg.TIME_SWITCH_CNT, Reg.TIME_JUMP_REFUSED_CNT, Reg.JRN_LOST_TOTAL, Reg.TIME_INCR_FRAC, Reg.TIME_INCR_NS] ⊆ l

theorem State.sel_eq (s : State) : s.sel = (s.flag (statFld 5)).toNat := by
  rw [State.flag_bit]
  exact bits_one _ 5

theorem State.sel_lt (s : State) : s.sel < 2 := by
  rw [s.sel_eq]
  exact Bool.toNat_lt _

/-! ### An accepted Sync (12 R303) -/

/-- The registers of the domains lie above TIME_STAT and INCR. -/
theorem domReg_apart {a : Nat} (h : 0xE0040 ≤ a) : a ∉ [Reg.TIME_TIME_STAT, Reg.TIME_INCR_FRAC, Reg.TIME_INCR_NS] := by
  simp only [List.mem_cons, List.not_mem_nil, or_false, Reg.TIME_TIME_STAT, Reg.TIME_INCR_FRAC, Reg.TIME_INCR_NS]
  omega

/-- Presence, the run inside LOCK_WINDOW and the offset of an accepted Sync. -/
def State.takeOffset (d : Nat) (θ res : Int) (s : State) : State :=
  let w := s.fld Fd.TIME_SERVO_CFG_LOCK_WINDOW * 65536
  let s := (s.bump (if d = 0 then Reg.TIME_SYNC_RX_A else Reg.TIME_SYNC_RX_B)).on (presentFld d)
  let s := s.arm (.syncLoss d) (s.fld (Fd.DOM_DOM_CFG_SYNC_LOSS d) * msPs)
  let run := if res.natAbs ≤ w then (s.dom d).run + 1 else 0
  (s.setDom d { s.dom d with run, tracked := true }).wr (Reg.DOM_OFS d) (ofsWord θ)

/-- What an accepted Sync loads: its offset and the rate, a free value. -/
def State.takeSync (d : Nat) (θ res : Int) (s : State) : State :=
  let u := s.takeOffset d θ res
  u.useFree.2.wr (Reg.DOM_RATE d) (Config.freeWord u.freeCtr)

/-- The servo follows the Syncs of the selected domain. -/
def State.followSync (d : Nat) (s : State) : State :=
  if d = s.sel ∧ s.flag Fd.TIME_TIME_CTL_SERVO_EN = true then (s.setTim { s.tim with refused := none }).steer else s

/-- The lock after a residual, and the selection after it. -/
def State.judgeSync (d w run : Nat) (res : Int) (s : State) : State :=
  let s := if 4 * w < res.natAbs then s.setLock d false else if 8 ≤ run then s.setLock d true else s
  s.onlyIf (d != s.sel) State.reconsider

theorem State.acceptSync_eq (s : State) (d : Nat) (θ res : Int) :
    ∃ w run, s.acceptSync d θ res = ((s.takeSync d θ res).followSync d).judgeSync d w run res := ⟨_, _, rfl⟩

namespace Tuned

theorem noteHoldover (h : Tuned up dn l s t) (hu : 7 ∈ up) (hd : 7 ∈ dn) : Tuned up dn l s t.noteHoldover :=
  h.setFlag (by decide) hu hd

theorem refuseJump (h : Tuned up dn l s t) (hu : 8 ∈ up) (hl : Reg.TIME_JUMP_REFUSED_CNT ∈ l) : Tuned up dn l s t.refuseJump :=
  (h.on (by decide) hu).bump hl (by decide)

theorem unlock (h : Tuned up dn l s t) (hd : d ∈ dn) (hlt : d < 2) : Tuned up dn l s (t.unlock d) :=
  .ite h (h.off (by omega) hd).setDom

/-- What follows the count of a switch: the old slew is over, a new one may begin. -/
theorem switched {v : TimeState} {o : Int} (h : Tuned up dn l s t) (hu : 6 ∈ up) (hd : [6, 7] ⊆ dn)
    (hf : Reg.TIME_INCR_FRAC ∈ l) (hn : Reg.TIME_INCR_NS ∈ l) :
    let u := ((t.off Fd.TIME_TIME_STAT_HOLDOVER).setTim v).off Fd.TIME_TIME_STAT_SLEWING
    Tuned up dn l s (if o = 0 then u else ((u.setTim { u.tim with slew := some (u.clk, o) }).on Fd.TIME_TIME_STAT_SLEWING).steer) := by
  have hu' := ((h.off (i := 7) (by decide) (hd (by simp))).setTim (v := v)).off (i := 6) (by decide) (hd (by simp))
  exact .ite hu' ((hu'.setTim.on (by decide) hu).steer hf hn)

theorem takeSync {res : Int} (h : Tuned up dn l s t) (hp : 2 + d ∈ up) (hlt : d < 2)
    (hl : [Reg.TIME_SYNC_RX_A, Reg.TIME_SYNC_RX_B, Reg.DOM_OFS d, Reg.DOM_RATE d] ⊆ l) : Tuned up dn l s (t.takeSync d θ res) := by
  have hrx : Tuned up dn l s (t.bump (if d = 0 then Reg.TIME_SYNC_RX_A else Reg.TIME_SYNC_RX_B)) :=
    h.bump (hl (by split <;> simp)) (by split <;> decide)
  have hofs : Tuned up dn l s (t.takeOffset d θ res) :=
    (hrx.on (i := 2 + d) (by omega) hp).arm.setDom.wr (hl (by simp)) (domReg_apart (by simp only [Reg.DOM_OFS]; omega))
  exact wr (t := (t.takeOffset d θ res).useFree.2) (hofs.same rfl rfl rfl) (hl (by simp))
    (domReg_apart (by simp only [Reg.DOM_RATE]; omega))

theorem followSync (h : Tuned up dn l s t) (hf : Reg.TIME_INCR_FRAC ∈ l) (hn : Reg.TIME_INCR_NS ∈ l) : Tuned up dn l s (t.followSync d) :=
  .ite (h.setTim.steer hf hn) h

section
variable (hc : Selects up dn l)
include hc

theorem switchTo (h : Tuned up dn l s t) : Tuned up dn l s (t.switchTo d) :=
  switched (((h.setStat (i := 5) (by decide) (fun _ => hc.up (by simp)) (fun _ => hc.dn (by simp))).bump (hc.regs (by simp)) (by decide)))
    (hc.up (by simp)) (fun _ hi => hc.dn (by simp at hi ⊢; omega)) (hc.regs (by simp)) (hc.regs (by simp))

theorem trySwitch (h : Tuned up dn l s t) : Tuned up dn l s (t.trySwitch d) := by
  have h7u : 7 ∈ up := hc.up (by simp)
  have h7d : 7 ∈ dn := hc.dn (by simp)
  refine .ite ((h.switchTo hc).noteHoldover h7u h7d) (.noteHoldover (.unlock ?_ (hc.dn ?_) t.sel_lt) h7u h7d)
  · exact (h.refuseJump (hc.up (by simp)) (hc.regs (by simp))).jumpRec (hc.regs (by simp))
  · have hlt := t.sel_lt
    simp only [List.mem_cons]
    omega

theorem reselect (h : Tuned up dn l s t) : Tuned up dn l s t.reselect :=
  .ite (h.trySwitch hc) (h.noteHoldover (hc.up (by simp)) (hc.dn (by simp)))

theorem reconsider (h : Tuned up dn l s t) : Tuned up dn l s t.reconsider :=
  .ite (h.reselect hc) (h.noteHoldover (hc.up (by simp)) (hc.dn (by simp)))

theorem setLock {b : Bool} (h : Tuned up dn l s t) (hlt : d < 2) (hu : b = true ∨ t.flag (Fd.DOM_GM_CFG_GM_EN d) = true → d ∈ up) :
    Tuned up dn l s (t.setLock d b) := by
  have hdn : d ∈ dn := hc.dn (by simp only [List.mem_cons]; omega)
  have hset : Tuned up dn l s (t.setFlag (lockFld d) (b || t.flag (Fd.DOM_GM_CFG_GM_EN d))) := by
    refine h.setStat (i := d) (by omega) (fun hb => hu ?_) fun _ => hdn
    rw [← Bool.or_eq_true]
    by_contra hno
    rw [Bool.not_eq_true] at hno
    simp [hno] at hb
  exact .ite h (have hs := Tuned.ite hset.setDom hset.setDom
    .ite (hs.reselect hc) hs)

theorem judgeSync {w run : Nat} {res : Int} (h : Tuned up dn l s t) (hlt : d < 2) (hu : d ∈ up) :
    Tuned up dn l s (t.judgeSync d w run res) :=
  have hlock := Tuned.ite (h.setLock hc hlt fun _ => hu) (.ite (h.setLock hc hlt fun _ => hu) h)
  hlock.onlyIf fun _ hx => hx.reconsider hc

end

end Tuned

end Sys2Proof.Machine
end

section
/-!
SUPPORT. The events of the time unit, each by the state it builds and what the rest of it leaves of that state.
-/

namespace Sys2Proof.Machine

variable {s t : State} {d p : Nat} {θ : Int}

/-! ### Which domain is locked and selected -/

theorem State.selLocked_of (s : State) (h : s.domLocked s.sel = false) : s.selLocked = false := by
  rw [State.selLocked]
  cases hsel : s.flag Fd.TIME_TIME_STAT_SEL with
  | true =>
    rw [State.sel_eq, show s.flag (statFld 5) = true from hsel] at h
    have hb : s.flag Fd.TIME_TIME_STAT_LOCK_B = false := h
    simp [hb]
  | false =>
    rw [State.sel_eq, show s.flag (statFld 5) = false from hsel] at h
    have ha : s.flag Fd.TIME_TIME_STAT_LOCK_A = false := h
    simp [ha]

/-- The room that a change of the selection needs, and no more. -/
def selUp : List Nat := [5, 6, 7, 8]
def selDn : List Nat := [0, 1, 5, 6, 7]
def selRegs : List Nat :=
  [Reg.TIME_SWITCH_CNT, Reg.TIME_JUMP_REFUSED_CNT, Reg.JRN_LOST_TOTAL, Reg.TIME_INCR_FRAC, Reg.TIME_INCR_NS]

theorem selects_sel : Selects selUp selDn selRegs := ⟨List.Subset.refl _, List.Subset.refl _, List.Subset.refl _⟩

/-- The lock of a domain that is not this grandmaster's, dropped. -/
def State.dropLock (d : Nat) (s : State) : State :=
  let s := s.off (lockFld d)
  s.setDom d { s.dom d with run := 0 }

theorem State.dropLock_tuned (s : State) (hd : d < 2) : Tuned [] [d] [] s (s.dropLock d) :=
  ((Tuned.refl _ _ _ s).off (i := d) (by omega) (by simp)).setDom

theorem State.dropLock_locked (s : State) (hd : d < 2) : (s.dropLock d).domLocked d = false :=
  State.flag_setFld_stat (i := d) 0 (by omega)

theorem State.setLock_false (hg : s.flag (Fd.DOM_GM_CFG_GM_EN d) = false) : s.setLock d false =
    if s.domLocked d = false then s
    else if d = (s.dropLock d).sel ∨ (s.dropLock d).selLocked = false then (s.dropLock d).reselect else s.dropLock d := by
  rw [State.setLock, hg]
  rfl

theorem State.setLock_tuned (s : State) (hd : d < 2) (hg : s.flag (Fd.DOM_GM_CFG_GM_EN d) = false) :
    Tuned selUp selDn selRegs s (s.setLock d false) :=
  (Tuned.refl _ _ _ s).setLock selects_sel hd (by simp [hg])

/-- A lock that is dropped stays so: nothing that follows locks a domain. -/
theorem State.setLock_unlocks (hd : d < 2) (hg : s.flag (Fd.DOM_GM_CFG_GM_EN d) = false) : (s.setLock d false).domLocked d = false := by
  have hup : d ∉ selUp := by simp only [selUp, List.mem_cons, List.not_mem_nil, or_false]; omega
  rw [State.setLock_false hg]
  split
  · assumption
  · split
    · exact ((Tuned.refl _ _ _ _).reselect selects_sel).flag_false hup (s.dropLock_locked hd)
    · exact s.dropLock_locked hd

/-- With no other domain locked the selection stays. -/
theorem State.setLock_alone (hd : d < 2) (hg : s.flag (Fd.DOM_GM_CFG_GM_EN d) = false) (hs : s.sel = d)
    (ho : s.domLocked (1 - d) = false) : Tuned [7] [d, 7] [] s (s.setLock d false) := by
  have hdrop : Tuned [7] [d, 7] [] s (s.dropLock d) := ((Tuned.refl _ _ _ s).off (i := d) (by omega) (by simp)).setDom
  have hsel : (s.dropLock d).sel = d := ((s.dropLock_tuned hd).sel_eq (by simp) (by simp; omega)).trans hs
  have hother : (s.dropLock d).domLocked (1 - d) = false := (s.dropLock_tuned hd).flag_false (by simp) ho
  have hstay : (s.dropLock d).reselect = (s.dropLock d).noteHoldover := by
    rw [State.reselect, hsel, hother, Bool.and_false]
    rfl
  rw [State.setLock_false hg]
  refine .ite (.refl _ _ _ s) (.ite ?_ hdrop)
  rw [hstay]
  exact hdrop.noteHoldover (by simp) (by simp)

/-! ### A switch (12 R304) -/

theorem State.trySwitch_near (h : (s.ofs d).natAbs ≤ s.jumpLimit) : s.trySwitch d = (s.switchTo d).noteHoldover := if_pos h

/-- A domain within JUMP_THRESHOLD is selected, and the switch counts. -/
theorem State.trySwitch_selects (hd : d < 2) (h : (s.ofs d).natAbs ≤ s.jumpLimit) : (s.trySwitch d).sel = d ∧
    (s.trySwitch d).ctr = s.ctr ∧ (s.trySwitch d).clk = s.clk ∧
    (s.trySwitch d).rd Reg.TIME_SWITCH_CNT = BitVec.ofNat 32 (min ((s.rd Reg.TIME_SWITCH_CNT).toNat + 1) 0xFFFFFFFF) := by
  have hrest : Tuned [6, 7] [6, 7] [Reg.TIME_INCR_FRAC, Reg.TIME_INCR_NS]
      ((s.setFld Fd.TIME_TIME_STAT_SEL d).bump Reg.TIME_SWITCH_CNT) (s.trySwitch d) := by
    rw [State.trySwitch_near h]
    exact ((Tuned.refl _ _ _ _).switched (by simp) (by simp) (by simp) (by simp)).noteHoldover (by simp) (by simp)
  refine ⟨(hrest.sel_eq (by decide) (by decide)).trans ?_, hrest.ctr, hrest.clk, (hrest.rd_eq (by decide) (by decide)).trans ?_⟩
  · have hset : ((s.setFld Fd.TIME_TIME_STAT_SEL d).bump Reg.TIME_SWITCH_CNT).sel = (s.setFld Fd.TIME_TIME_STAT_SEL d).sel :=
      State.fld_congr (x := Fd.TIME_TIME_STAT_SEL) (State.rd_wr_ne _ _ (by decide))
    rw [hset, State.sel, State.fld_setFld_same _ _ _ (by simp)]
    exact Nat.mod_eq_of_lt hd
  · rw [State.rd_bump, if_pos rfl, s.rd_setFld_ne _ _ (by decide)]

/-- The loss of the selected domain's lock selects a locked other one. -/
theorem State.setLock_switches (hd : d < 2) (hg : s.flag (Fd.DOM_GM_CFG_GM_EN d) = false) (hs : s.sel = d) (hl : s.domLocked d = true)
    (ho : s.domLocked (1 - d) = true) (h : (s.ofs (1 - d)).natAbs ≤ s.jumpLimit) : (s.setLock d false).sel = 1 - d ∧
    (s.setLock d false).ctr = s.ctr ∧
    (s.setLock d false).rd Reg.TIME_SWITCH_CNT = BitVec.ofNat 32 (min ((s.rd Reg.TIME_SWITCH_CNT).toNat + 1) 0xFFFFFFFF) := by
  have hdrop := s.dropLock_tuned hd
  have hsel : (s.dropLock d).sel = d := (hdrop.sel_eq (by simp) (by simp; omega)).trans hs
  have hother : (s.dropLock d).domLocked (1 - d) = true := hdrop.fall _ (by simp; omega) ho
  have hno : (s.dropLock d).selLocked = false := State.selLocked_of _ (by rw [hsel]; exact s.dropLock_locked hd)
  have hgo : s.setLock d false = (s.dropLock d).trySwitch (1 - d) := by
    rw [State.setLock_false hg, if_neg (by simp [hl]), if_pos (.inl hsel.symm), State.reselect, hno, hsel, hother]
    rfl
  have hnear : ((s.dropLock d).ofs (1 - d)).natAbs ≤ (s.dropLock d).jumpLimit := by
    rw [hdrop.ofs_eq (by simp), hdrop.jumpLimit_eq (by simp)]
    exact h
  obtain ⟨h1, h2, -, h4⟩ := State.trySwitch_selects (by omega) hnear
  rw [hgo]
  exact ⟨h1, h2.trans hdrop.ctr, by rw [h4, hdrop.rd_eq (by decide) (by simp)]⟩

/-! ### A Sync offset (12 R302, R305, R307) -/

/-- A refused offset before the loss of the lock. -/
def State.refuseOffset (d : Nat) (θ : Int) (s : State) : State :=
  let s := s.refuseJump
  let s := s.setTim { s.tim with refused := some (((s.tim.refused.map (·.1)).getD s.clk), -θ) }
  let due := match s.tim.recAt with
    | none => true
    | some t => decide (t + secPs ≤ s.clk)
  let s := s.onlyIf due (State.jumpRec false false d (-θ))
  s.setDom d { s.dom d with run := 0 }

theorem State.refuseOffset_tuned (s : State) (d : Nat) (θ : Int) : Tuned [] [] [Reg.JRN_LOST_TOTAL] s.refuseJump (s.refuseOffset d θ) :=
  ((Tuned.refl _ _ _ _).setTim.onlyIf fun _ h => h.jumpRec (by simp)).setDom

theorem State.refuseJump_tuned (s : State) : Tuned [8] [] [Reg.TIME_JUMP_REFUSED_CNT] s s.refuseJump :=
  (Tuned.refl _ _ _ s).refuseJump (by simp) (by simp)

theorem State.refuseJump_flag (s : State) : s.refuseJump.flag (statFld 8) = true :=
  (State.flag_congr (x := statFld 8) (State.rd_wr_ne _ _ (by decide))).trans (State.flag_setFld_stat 1 (by decide))

theorem State.refuseJump_cnt (s : State) : s.refuseJump.rd Reg.TIME_JUMP_REFUSED_CNT =
    BitVec.ofNat 32 (min ((s.rd Reg.TIME_JUMP_REFUSED_CNT).toNat + 1) 0xFFFFFFFF) := by
  rw [State.refuseJump, State.rd_bump, if_pos rfl, State.on, s.rd_setFld_ne _ _ (by decide)]

section
variable (hg : s.flag (Fd.DOM_GM_CFG_GM_EN d) = false) (hs : s.sel = d) (he : s.flag Fd.TIME_TIME_CTL_SERVO_EN = true)
include hg hs he

theorem State.offset_refused (hi : s.flag Fd.TIME_TIME_STAT_INITIAL = false) (hj : s.jumpLimit < θ.natAbs)
    (ha : s.flag Fd.TIME_TIME_STAT_STEP_ARMED = false) : s.offset d θ = (s.refuseOffset d θ).setLock d false := by
  rw [State.offset, if_neg (by simp [hg]), if_pos ⟨hs.symm, he⟩, if_neg (by simp [hi, ha]), if_pos hj]
  rfl

theorem State.offset_steps (h : s.flag Fd.TIME_TIME_STAT_INITIAL = true ∨
    (s.jumpLimit < θ.natAbs ∧ s.flag Fd.TIME_TIME_STAT_STEP_ARMED = true)) : s.offset d θ = (s.step9 d (-θ)).acceptSync d 0 θ := by
  rw [State.offset, if_neg (by simp [hg]), if_pos ⟨hs.symm, he⟩, if_pos h]

theorem State.offset_accepted (hi : s.flag Fd.TIME_TIME_STAT_INITIAL = false) (hj : θ.natAbs ≤ s.jumpLimit) :
    s.offset d θ = s.acceptSync d θ (θ - s.slewLeft) := by
  have hno : ¬ s.jumpLimit < θ.natAbs := Nat.not_lt.mpr hj
  rw [State.offset, if_neg (by simp [hg]), if_pos ⟨hs.symm, he⟩, if_neg (by simp [hi, hno]), if_neg hno]

end

end Sys2Proof.Machine
end

section
/-!
SUPPORT. Steps and loads of the counter, accepted Syncs, and the commands of the time unit.
-/

namespace Sys2Proof.Machine

variable {s t : State} {up dn l : List Nat} {d i : Nat} {θ : Int}

/-! ### Picots under a load of the counter (12 R308, R315) -/

/-- The registers of the picots that a load of the counter may change. -/
def picRegs : List Nat := (List.range 16).flatMap fun i => [Reg.PIC_PIC_STAT i, Reg.PIC_SKIP i]

theorem picRegs_sub (hi : i ∈ List.range 16) : [Reg.PIC_PIC_STAT i, Reg.PIC_SKIP i] ⊆ picRegs :=
  fun _ ha => List.mem_flatMap.mpr ⟨i, hi, ha⟩

namespace Tuned

theorem setPic {v : PicState} (h : Tuned up dn l s t) : Tuned up dn l s (t.setPic i v) := h.same rfl rfl rfl

section
variable (hl : [Reg.PIC_PIC_STAT i, Reg.PIC_SKIP i] ⊆ l)
include hl

theorem picStat {f : Fld} {v : Nat} (h : Tuned up dn l s t) (hf : f.reg = Reg.PIC_PIC_STAT i) : Tuned up dn l s (t.setFld f v) := by
  rw [State.setFld, hf]
  exact h.wr (hl (by simp)) (domReg_apart (by simp only [Reg.PIC_PIC_STAT]; omega))

theorem picLevel {b : Bool} (h : Tuned up dn l s t) : Tuned up dn l s (t.picLevel i b) :=
  have hs : Tuned up dn l s (t.setFlag (Fd.PIC_PIC_STAT_LEVEL i) (b != t.flag (Fd.PIC_PIC_CTL_POL i))) := h.picStat hl rfl
  .ite (hs.same rfl rfl rfl) hs

theorem picDone (h : Tuned up dn l s t) : Tuned up dn l s (t.picDone i) :=
  have hs : Tuned up dn l s (t.off (Fd.PIC_PIC_STAT_RUNNING i)) := h.picStat hl rfl
  .ite (hs.picStat (f := Fd.PIC_PIC_STAT_DONE i) hl rfl) h

theorem picSkip {n : Nat} (h : Tuned up dn l s t) : Tuned up dn l s (t.picSkip i n) := by
  refine .ite h (.picDone hl (.wr h.setPic (hl (by simp)) (domReg_apart ?_)))
  simp only [Reg.PIC_SKIP]
  omega

theorem picStep (h : Tuned up dn l s t) : Tuned up dn l s (t.picStep i) :=
  .ite h (have hs := Tuned.ite ((h.picLevel hl).setPic.picDone hl) h
    .ite hs (.ite hs (hs.picSkip hl)))

end

end Tuned

/-- A load of the counter sets it, and carries the picots over. -/
theorem State.loadCtr_tuned (s : State) (v : Nat) : Tuned [] [] picRegs { s with ctr := v % 2 ^ 96 } (s.loadCtr v) :=
  (Tuned.refl _ _ _ _).forEach fun _ hi _ hu => hu.picStep (picRegs_sub hi)

theorem stepCnt_notMem_picRegs : Reg.TIME_STEP_CNT ∉ picRegs := by decide

theorem State.loadCtr_now (s : State) {v : Nat} (hv : v < 2 ^ 64) : (s.loadCtr (v * 2 ^ 32)).now = v := by
  rw [State.now, (s.loadCtr_tuned _).ctr]
  change v * 2 ^ 32 % 2 ^ 96 / 2 ^ 32 = v
  omega

theorem State.loadCtr_rd (s : State) (v : Nat) {a : Nat} (ha : a ≠ Reg.TIME_TIME_STAT) (hp : a ∉ picRegs) :
    (s.loadCtr v).rd a = s.rd a := by
  rw [(s.loadCtr_tuned v).rd_eq ha hp]
  exact State.rd_congr rfl a

theorem State.loadCtr_flag (s : State) (v i : Nat) : (s.loadCtr v).flag (statFld i) = s.flag (statFld i) := by
  rw [(s.loadCtr_tuned v).flag_eq (by simp) (by simp)]
  exact State.flag_congr (State.rd_congr rfl _)

/-! ### A step (12 R307) -/

/-- The marks of a step. -/
def State.markStep (s : State) : State :=
  (((s.off Fd.TIME_TIME_STAT_STEP_ARMED).off Fd.TIME_TIME_STAT_JUMP_PERSIST).off Fd.TIME_TIME_STAT_INITIAL |>.on
    Fd.TIME_TIME_STAT_STEPPED).bump Reg.TIME_STEP_CNT

/-- What a step leaves in TIME_STAT. -/
structure Stepped (s : State) : Prop where
  initial : s.flag Fd.TIME_TIME_STAT_INITIAL = false
  armed : s.flag Fd.TIME_TIME_STAT_STEP_ARMED = false
  stepped : s.flag Fd.TIME_TIME_STAT_STEPPED = true

theorem State.markStep_stepped (s : State) : Stepped s.markStep := by
  have harm : Tuned [12] [9, 11] [Reg.TIME_STEP_CNT] (s.off (statFld 10)) s.markStep :=
    ((((Tuned.refl _ _ _ _).off (i := 9) (by decide) (by simp)).off (i := 11) (by decide) (by simp)).on (i := 12) (by decide)
      (by simp)).bump (by simp) (by decide)
  have hinit : Tuned [12] [] [Reg.TIME_STEP_CNT] (((s.off (statFld 10)).off (statFld 9)).off (statFld 11)) s.markStep :=
    ((Tuned.refl _ _ _ _).on (i := 12) (by decide) (by simp)).bump (by simp) (by decide)
  have hstep : Tuned [] [] [Reg.TIME_STEP_CNT] ((((s.off (statFld 10)).off (statFld 9)).off (statFld 11)).on (statFld 12)) s.markStep :=
    (Tuned.refl _ _ _ _).bump (by simp) (by decide)
  exact ⟨hinit.flag_false (by simp) (State.flag_setFld_stat 0 (by decide)),
    harm.flag_false (by simp) (State.flag_setFld_stat 0 (by decide)), hstep.fall _ (by simp) (State.flag_setFld_stat 1 (by decide))⟩

theorem Stepped.tuned (hs : Stepped s) (h : Tuned up dn l s t) (hu : 11 ∉ up ∧ 10 ∉ up) (hd : 12 ∉ dn) : Stepped t :=
  ⟨h.flag_false hu.1 hs.initial, h.flag_false hu.2 hs.armed, h.fall _ hd hs.stepped⟩

/-- A step before its marks: the offsets of the domains move, and the counter takes the correction. -/
def State.takeStep (c : Int) (s : State) : State :=
  let s := s.forEach [0, 1] fun e t => if t.flag (Fd.DOM_GM_CFG_GM_EN e) then t else t.wr (Reg.DOM_OFS e) (ofsWord (t.ofs e + c))
  s.loadCtr (((s.ctr : Int) + c * 65536) % 2 ^ 96).toNat

theorem State.takeStep_ctr (s : State) (c : Int) : (s.takeStep c).ctr = (((s.ctr : Int) + c * 65536) % 2 ^ 96).toNat := by
  have hofs : (s.forEach [0, 1] fun e t =>
      if t.flag (Fd.DOM_GM_CFG_GM_EN e) then t else t.wr (Reg.DOM_OFS e) (ofsWord (t.ofs e + c))).ctr = s.ctr := by
    refine State.forEach_induct (·.ctr = s.ctr) _ _ _ rfl fun e _ t ht => ?_
    split
    · exact ht
    · exact ht
  rw [State.takeStep, (State.loadCtr_tuned _ _).ctr, hofs]
  change (((s.ctr : Int) + c * 65536) % 2 ^ 96).toNat % 2 ^ 96 = _
  omega

theorem State.step9_tuned (s : State) (d : Nat) (c : Int) :
    Tuned [] [6] [Reg.JRN_LOST_TOTAL] (s.takeStep c).markStep (s.step9 d c) :=
  ((Tuned.refl _ _ _ _).off (i := 6) (by decide) (by simp)).setTim.jumpRec (by simp)

theorem State.markStep_ctr (s : State) : s.markStep.ctr = s.ctr := rfl

/-! ### An accepted Sync (12 R303) -/

theorem State.takeSync_ofs (s : State) (d : Nat) (θ res : Int) : (s.takeSync d θ res).rd (Reg.DOM_OFS d) = ofsWord θ := by
  have hne : Reg.DOM_OFS d ≠ Reg.DOM_RATE d := by simp only [Reg.DOM_OFS, Reg.DOM_RATE]; omega
  rw [State.takeSync, State.rd_wr_ne _ _ hne]
  exact State.rd_wr_same _ _ _

theorem State.takeSync_present (s : State) (θ res : Int) (hd : d < 2) : (s.takeSync d θ res).flag (presentFld d) = true := by
  have hon : Tuned [] [] [Reg.DOM_OFS d, Reg.DOM_RATE d]
      ((s.bump (if d = 0 then Reg.TIME_SYNC_RX_A else Reg.TIME_SYNC_RX_B)).on (statFld (2 + d))) (s.takeSync d θ res) := by
    have hofs : Tuned [] [] [Reg.DOM_OFS d, Reg.DOM_RATE d]
        ((s.bump (if d = 0 then Reg.TIME_SYNC_RX_A else Reg.TIME_SYNC_RX_B)).on (statFld (2 + d))) (s.takeOffset d θ res) :=
      (Tuned.refl _ _ _ _).arm.setDom.wr (by simp) (domReg_apart (by simp only [Reg.DOM_OFS]; omega))
    exact Tuned.wr (t := (s.takeOffset d θ res).useFree.2) (hofs.same rfl rfl rfl) (by simp)
      (domReg_apart (by simp only [Reg.DOM_RATE]; omega))
  exact hon.fall _ (by simp) (State.flag_setFld_stat 1 (by omega))

theorem ofs_notMem_selRegs (d : Nat) : Reg.DOM_OFS d ∉ selRegs := by
  simp only [selRegs, List.mem_cons, List.not_mem_nil, or_false, Reg.DOM_OFS, Reg.TIME_SWITCH_CNT, Reg.TIME_JUMP_REFUSED_CNT,
    Reg.JRN_LOST_TOTAL, Reg.TIME_INCR_FRAC, Reg.TIME_INCR_NS]
  omega

/-- Room for what judging a Sync touches: that of a selection, and the lock. -/
theorem selects_judge : Selects ([0, 1] ++ selUp) selDn selRegs :=
  ⟨List.subset_append_right _ _, List.Subset.refl _, List.Subset.refl _⟩

theorem State.judgeSync_tuned (s : State) (w run : Nat) (res : Int) (hd : d < 2) :
    Tuned ([0, 1] ++ selUp) selDn selRegs s (s.judgeSync d w run res) :=
  (Tuned.refl _ _ _ _).judgeSync selects_judge hd (by simp; omega)

/-- What an accepted Sync leaves of the state in which it has been taken. -/
theorem State.acceptSync_tuned (s : State) (θ res : Int) (hd : d < 2) :
    Tuned ([0, 1] ++ selUp) selDn selRegs (s.takeSync d θ res) (s.acceptSync d θ res) := by
  obtain ⟨w, run, h⟩ := s.acceptSync_eq d θ res
  rw [h]
  exact ((Tuned.refl _ _ _ _).followSync (by simp [selRegs]) (by simp [selRegs])).judgeSync selects_judge hd (by simp; omega)

theorem State.takeSync_tuned (s : State) (θ res : Int) (hd : d < 2) :
    Tuned [2 + d] [] [Reg.TIME_SYNC_RX_A, Reg.TIME_SYNC_RX_B, Reg.DOM_OFS d, Reg.DOM_RATE d] s (s.takeSync d θ res) :=
  (Tuned.refl _ _ _ _).takeSync (by simp) hd (List.Subset.refl _)

/-- A Sync that the servo follows brings INCREMENT within its limits. -/
theorem State.acceptSync_nearNominal (θ res : Int) (hd : d < 2) (hs : s.sel = d) (he : s.flag Fd.TIME_TIME_CTL_SERVO_EN = true) :
    (s.acceptSync d θ res).nearNominal := by
  have htake := s.takeSync_tuned θ res hd
  have hsel : (s.takeSync d θ res).sel = d := (htake.sel_eq (by simp; omega) (by simp)).trans hs
  have hen : (s.takeSync d θ res).flag Fd.TIME_TIME_CTL_SERVO_EN = true := by
    rw [State.flag_congr (x := Fd.TIME_TIME_CTL_SERVO_EN) (htake.rd_eq (by decide) ?_), he]
    simp only [List.mem_cons, List.not_mem_nil, or_false, Reg.TIME_TIME_CTL, Reg.TIME_SYNC_RX_A, Reg.TIME_SYNC_RX_B, Reg.DOM_OFS,
      Reg.DOM_RATE]
    omega
  have hfollow : ((s.takeSync d θ res).followSync d).nearNominal := by
    rw [State.followSync, if_pos ⟨hsel.symm, hen⟩]
    exact State.steer_nearNominal _
  obtain ⟨w, run, h⟩ := s.acceptSync_eq d θ res
  rw [h]
  exact (State.judgeSync_tuned _ w run res hd).incr hfollow

/-! ### Commands (12 R291, R292, R307) -/

theorem exec_acceptStep (h : s.takes none = true) : exec .acceptStep s = .next (answer (s.timeCmd 1#32)) :=
  congrArg Host.Outcome.next (State.command_takes none _ h)

theorem exec_disarm (h : s.takes none = true) : exec .disarm s = .next (answer (s.timeCmd 2#32)) :=
  congrArg Host.Outcome.next (State.command_takes none _ h)

theorem exec_timeSet {v : BitVec 64} (h : s.takes none = true) : exec (.timeSet v) s = .next (answer (s.setTime v.toNat)) :=
  congrArg Host.Outcome.next (State.command_takes none _ h)

theorem exec_incrWrite {v : BitVec 40} (h : s.takes none = true) : exec (.incrWrite v) s = .next (answer (s.writeIncr v.toNat)) :=
  congrArg Host.Outcome.next (State.command_takes none _ h)

theorem State.timeCmd_drowse {w : Word} (h : s.mode = .drowse) : s.timeCmd w = wrongMode s := if_pos h

theorem State.timeCmd_accept (h : s.mode ≠ .drowse) : s.timeCmd 1#32 = (.ok, s.on Fd.TIME_TIME_STAT_STEP_ARMED) := if_neg h

theorem State.timeCmd_disarm (h : s.mode ≠ .drowse) : s.timeCmd 2#32 = (.ok, s.off Fd.TIME_TIME_STAT_STEP_ARMED) := if_neg h

section
variable {v : Nat} {c : Int} (he : s.flag Fd.TIME_TIME_CTL_SERVO_EN = false)

section
variable (hc : ((v : Int) - s.now) * 65536 = c)
include he hc

theorem State.setTime_near (h : c.natAbs ≤ s.jumpLimit) : s.setTime v =
    (.ok, (s.loadCtr (v * 2 ^ 32)).onlyIf (s.flag Fd.TIME_TIME_STAT_INITIAL) State.initialSet) := by
  rw [State.setTime, hc, if_neg (by simp [he]), if_pos h]

theorem State.setTime_steps (h : s.jumpLimit < c.natAbs)
    (ha : s.flag Fd.TIME_TIME_STAT_INITIAL = true ∨ s.flag Fd.TIME_TIME_STAT_STEP_ARMED = true) :
    s.setTime v = (.ok, (s.loadCtr (v * 2 ^ 32)).step9Note s.sel c) := by
  rw [State.setTime, hc, if_neg (by simp [he]), if_neg (Nat.not_le.mpr h), if_pos (by simpa using ha)]

theorem State.setTime_refused (h : s.jumpLimit < c.natAbs)
    (hi : s.flag Fd.TIME_TIME_STAT_INITIAL = false) (ha : s.flag Fd.TIME_TIME_STAT_STEP_ARMED = false) :
    s.setTime v = wrongMode ((s.refuseJump).jumpRec false false s.sel c) := by
  rw [State.setTime, hc, if_neg (by simp [he]), if_neg (Nat.not_le.mpr h), if_neg (by simp [hi, ha]), refuse]

end

include he

theorem State.writeIncr_outside (h : v < incrLo ∨ incrHi < v) : s.writeIncr v = refuse .badRequest s := by
  rw [State.writeIncr, if_neg (by simp [he]), if_pos h]

theorem State.writeIncr_within (hlo : incrLo ≤ v) (hhi : v ≤ incrHi) : s.writeIncr v = (.ok, s.setIncr v) := by
  rw [State.writeIncr, if_neg (by simp [he]), if_neg (not_or.mpr ⟨Nat.not_lt.mpr hlo, Nat.not_lt.mpr hhi⟩)]

end

theorem State.writeIncr_servo {v : Nat} (he : s.flag Fd.TIME_TIME_CTL_SERVO_EN = true) : s.writeIncr v = wrongMode s := if_pos he

theorem State.step9Note_tuned (s : State) (d : Nat) (c : Int) : Tuned [] [] [Reg.JRN_LOST_TOTAL]
    (s.setTim { s.tim with clearAt := if s.flag Fd.TIME_TIME_STAT_INITIAL then s.now else s.tim.clearAt }).markStep (s.step9Note d c) :=
  (Tuned.refl _ _ _ _).jumpRec (by simp)

/-! ### NOW_LO and what it latches (12 R292) -/

theorem Tab.lookup_insert_ne {α : Type} {m : List (Nat × α)} {a b : Nat} (v : α) (h : b ≠ a) :
    (Tab.insert m a v).lookup b = m.lookup b := by
  have hb : (b == a) = false := by simpa using h
  induction m with
  | nil => simp [Tab.insert, List.lookup, hb]
  | cons e m ih =>
    simp only [Tab.insert]
    split
    · simp [List.lookup, hb]
    · simp only [List.lookup, ih]

theorem Tab.lookup_erase_ne {α : Type} (m : List (Nat × α)) {a b : Nat} (h : b ≠ a) : (Tab.erase m a).lookup b = m.lookup b := by
  induction m with
  | nil => rfl
  | cons e m ih =>
    by_cases he : e.1 = a
    · have hb : (b == a) = false := by simpa using h
      simpa [Tab.erase, he, List.lookup, hb] using ih
    · have hkeep : Tab.erase (e :: m) a = e :: Tab.erase m a := by simp [Tab.erase, he]
      simp only [hkeep, List.lookup, ih]

theorem State.latchNow_hi (s : State) : s.latchNow.latches.lookup Reg.TIME_NOW_HI = some (BitVec.ofNat 32 (s.now / 2 ^ 32)) := by
  have hne : Reg.TIME_NOW_HI ≠ Reg.TIME_NOW_FRAC := by decide
  rw [State.latchNow, Tab.lookup_insert_ne _ hne, Tab.lookup_erase_ne _ hne, Tab.lookup_insert _ Tab.erase_ne]

theorem State.latchNow_frac (s : State) : s.latchNow.latches.lookup Reg.TIME_NOW_FRAC = some (BitVec.ofNat 32 s.ctr) :=
  Tab.lookup_insert _ Tab.erase_ne

theorem State.query_runs (f : State → Status × List Byte × State) (h : s.runs = true) :
    s.query none f = (f s).2.2.emit (.data (f s).1 (f s).2.1) := by
  obtain ⟨hk, hm⟩ := State.runs_iff.mp h
  simp [State.query, hk, hm]

theorem State.takes_runs {u : Option ResetUnit} (h : s.takes u = true) : s.runs = true := by
  simp only [State.takes, Bool.and_eq_true] at h
  exact h.1.1

theorem exec_nowLoRead (h : s.takes none = true) :
    exec .nowLoRead s = .next (s.latchNow.emit (.data .ok (leBytes 4 s.now))) :=
  congrArg Host.Outcome.next (State.query_runs _ (State.takes_runs h))

/-! ### Events (12 R303 to R306) -/

theorem exec_syncLoss {d : Fin 2} (hg : s.flag (Fd.DOM_GM_CFG_GM_EN d.val) = false) (ha : s.armed (.syncLoss d.val) = true) :
    exec (.syncLoss d) s = .next (((s.expire (.syncLoss d.val)).off (presentFld d.val)).setLock d.val false) := by
  change Host.Outcome.next _ = _
  rw [if_neg (by simp [hg]), State.expiry, if_pos ha]

theorem exec_domainRevert (hr : s.flag Fd.TIME_TIME_CTL_REVERT = true) (hs : s.sel ≠ s.fld Fd.TIME_TIME_CTL_PREFER)
    (hl : s.domLocked (s.fld Fd.TIME_TIME_CTL_PREFER) = true) : exec .domainRevert s =
      .next ((s.advance ((s.dom (s.fld Fd.TIME_TIME_CTL_PREFER)).lockedAt + 10 * secPs - s.clk)).trySwitch
        (s.fld Fd.TIME_TIME_CTL_PREFER)) := by
  refine congrArg Host.Outcome.next (if_pos ?_)
  simp [hr, hs, hl]

/-- The end of a slew, once its time has passed. -/
def State.endSlew (s : State) : State := ((s.setTim { s.tim with slew := none }).off Fd.TIME_TIME_STAT_SLEWING).steer

theorem exec_slewComplete {x : Nat × Int} (h : s.tim.slew = some x) : ∃ n, exec .slewComplete s = .next (s.advance n).endSlew := by
  change ∃ n, execSlewComplete s = _
  rw [execSlewComplete, h]
  exact ⟨_, rfl⟩

/-- Ten seconds of refusals: the flag, the record, and the selection without the domain. -/
def State.persist (c : Int) (s : State) : State :=
  let s := s.on Fd.TIME_TIME_STAT_JUMP_PERSIST
  (s.jumpRec false true s.sel c).reselect

theorem exec_jumpPersist {a : Nat} {c : Int} (h : s.tim.refused = some (a, c)) (hp : s.flag Fd.TIME_TIME_STAT_JUMP_PERSIST = false) :
    exec .jumpPersist s = .next ((s.advance (a + 10 * secPs - s.clk)).persist c) := by
  change execJumpPersist s = _
  rw [execJumpPersist, h]
  exact congrArg Host.Outcome.next (if_neg (by simp [hp]))

theorem State.advance_near {n : Nat} (h : (s.ofs d).natAbs ≤ s.jumpLimit) : ((s.advance n).ofs d).natAbs ≤ (s.advance n).jumpLimit := by
  have hrd (a : Nat) : (s.advance n).rd a = s.rd a := State.rd_congr rfl a
  rw [State.ofs, State.jumpLimit, hrd, State.fld_congr (x := Fd.TIME_JUMP_THRESHOLD_TIME) (hrd _)]
  exact h

theorem State.advance_sel (s : State) (n : Nat) : (s.advance n).sel = s.sel := State.fld_congr (State.rd_congr rfl _)

theorem State.advance_tenSeconds (s : State) (a : Nat) : (s.advance (a + 10 * secPs - s.clk)).clk = max s.clk (a + 10000000000000) := by
  simp only [State.advance, secPs, msPs, usPs]
  omega

/-! ### What each correction leaves behind -/

theorem State.now_congr (h : t.ctr = s.ctr) : t.now = s.now := by rw [State.now, h, State.now]

section
variable (hd : d < 2) (hg : s.flag (Fd.DOM_GM_CFG_GM_EN d) = false) (hs : s.sel = d) (he : s.flag Fd.TIME_TIME_CTL_SERVO_EN = true)
include hd hg hs he

/-- A refused offset: the counter stands; with no locked other domain INCREMENT stands too, and the refusal counts once. -/
theorem State.offset_refused_keeps (hi : s.flag Fd.TIME_TIME_STAT_INITIAL = false) (hj : s.jumpLimit < θ.natAbs)
    (ha : s.flag Fd.TIME_TIME_STAT_STEP_ARMED = false) :
    (s.offset d θ).ctr = s.ctr ∧ (s.offset d θ).flag Fd.TIME_TIME_STAT_JUMP_REFUSED = true ∧ (s.offset d θ).domLocked d = false ∧
      (s.domLocked (1 - d) = false → (s.offset d θ).increment = s.increment ∧ (s.offset d θ).rd Reg.TIME_JUMP_REFUSED_CNT =
        BitVec.ofNat 32 (min ((s.rd Reg.TIME_JUMP_REFUSED_CNT).toNat + 1) 0xFFFFFFFF)) := by
  have hpre := s.refuseOffset_tuned d θ
  have hrefuse := s.refuseJump_tuned
  have hreg : Reg.DOM_GM_CFG d ∉ [Reg.JRN_LOST_TOTAL, Reg.TIME_JUMP_REFUSED_CNT] := by
    simp only [List.mem_cons, List.not_mem_nil, or_false, Reg.DOM_GM_CFG, Reg.JRN_LOST_TOTAL, Reg.TIME_JUMP_REFUSED_CNT]
    omega
  have hg' : (s.refuseOffset d θ).flag (Fd.DOM_GM_CFG_GM_EN d) = false := by
    rw [hpre.gmEn_eq (by simp_all), hrefuse.gmEn_eq (by simp_all), hg]
  have hlock := (s.refuseOffset d θ).setLock_tuned hd hg'
  rw [State.offset_refused hg hs he hi hj ha]
  refine ⟨?_, ?_, State.setLock_unlocks hd hg', fun hother => ?_⟩
  · rw [hlock.ctr, hpre.ctr, hrefuse.ctr]
  · exact hlock.fall 8 (by decide) (hpre.fall 8 (by simp) s.refuseJump_flag)
  · have hs' : (s.refuseOffset d θ).sel = d := by
      rw [hpre.sel_eq (by simp) (by simp), hrefuse.sel_eq (by simp) (by simp), hs]
    have hother' : (s.refuseOffset d θ).domLocked (1 - d) = false :=
      hpre.flag_false (by simp) (hrefuse.flag_false (by simp; omega) hother)
    have halone := State.setLock_alone hd hg' hs' hother'
    refine ⟨?_, ?_⟩
    · rw [halone.increment_eq (by simp) (by simp), hpre.increment_eq (by decide) (by decide),
        hrefuse.increment_eq (by decide) (by decide)]
    · rw [halone.rd_eq (by decide) (by simp), hpre.rd_eq (by decide) (by decide), s.refuseJump_cnt]

/-- A step: the counter takes the offset at once. -/
theorem State.offset_steps_ctr (h : s.flag Fd.TIME_TIME_STAT_INITIAL = true ∨
    (s.jumpLimit < θ.natAbs ∧ s.flag Fd.TIME_TIME_STAT_STEP_ARMED = true)) :
    (s.offset d θ).ctr = (((s.ctr : Int) - θ * 65536) % 2 ^ 96).toNat ∧ Stepped (s.offset d θ) := by
  have hacc := (s.step9 d (-θ)).acceptSync_tuned 0 θ hd
  have htake := (s.step9 d (-θ)).takeSync_tuned 0 θ hd
  have hstep := s.step9_tuned d (-θ)
  rw [State.offset_steps hg hs he h]
  refine ⟨?_, (((State.markStep_stepped _).tuned hstep (by simp) (by simp)).tuned htake (by simp; omega) (by simp)).tuned hacc
    (by decide) (by decide)⟩
  rw [hacc.ctr, htake.ctr, hstep.ctr, State.markStep_ctr, s.takeStep_ctr, Int.neg_mul, ← Int.sub_eq_add_neg]

/-- An offset within JUMP_THRESHOLD is recorded and followed. -/
theorem State.offset_accepted_follows (hi : s.flag Fd.TIME_TIME_STAT_INITIAL = false) (hj : θ.natAbs ≤ s.jumpLimit) :
    (s.offset d θ).ctr = s.ctr ∧ (s.offset d θ).rd (Reg.DOM_OFS d) = ofsWord θ ∧ (s.offset d θ).flag (presentFld d) = true ∧
      (s.offset d θ).nearNominal := by
  have hacc := s.acceptSync_tuned θ (θ - s.slewLeft) hd
  rw [State.offset_accepted hg hs he hi hj]
  refine ⟨?_, ?_, ?_, State.acceptSync_nearNominal θ _ hd hs he⟩
  · rw [hacc.ctr, (s.takeSync_tuned θ _ hd).ctr]
  · rw [hacc.rd_eq (by simp only [Reg.DOM_OFS, Reg.TIME_TIME_STAT]; omega) (ofs_notMem_selRegs d), State.takeSync_ofs]
  · exact hacc.fall _ (by simp [selDn]; omega) (s.takeSync_present θ _ hd)

end

/-- The loss of a domain's Syncs: presence and lock go, and a locked other domain within JUMP_THRESHOLD is selected. -/
theorem State.loseSync (hd : d < 2) (hg : s.flag (Fd.DOM_GM_CFG_GM_EN d) = false) :
    let t := (s.off (presentFld d)).setLock d false
    t.flag (presentFld d) = false ∧ t.domLocked d = false ∧
      (s.sel = d → s.domLocked d = true → s.domLocked (1 - d) = true → (s.ofs (1 - d)).natAbs ≤ s.jumpLimit →
        t.sel = 1 - d ∧ t.ctr = s.ctr ∧
        t.rd Reg.TIME_SWITCH_CNT = BitVec.ofNat 32 (min ((s.rd Reg.TIME_SWITCH_CNT).toNat + 1) 0xFFFFFFFF)) := by
  have hoff : Tuned [] [2 + d] [] s (s.off (presentFld d)) := (Tuned.refl _ _ _ s).off (i := 2 + d) (by omega) (by simp)
  have hg' : (s.off (presentFld d)).flag (Fd.DOM_GM_CFG_GM_EN d) = false := (hoff.gmEn_eq (by simp)).trans hg
  refine ⟨(State.setLock_tuned _ hd hg').flag_false (i := 2 + d) (by simp [selUp]; omega) (State.flag_setFld_stat 0 (by omega)),
    State.setLock_unlocks hd hg', fun hs hl ho hnear => ?_⟩
  have hbit {i : Nat} (hi : i < 2) : (s.off (presentFld d)).domLocked i = s.domLocked i := hoff.flag_eq (by simp) (by simp; omega)
  have hs' : (s.off (presentFld d)).sel = d := (hoff.sel_eq (by simp) (by simp; omega)).trans hs
  have hnear' : ((s.off (presentFld d)).ofs (1 - d)).natAbs ≤ (s.off (presentFld d)).jumpLimit := by
    rw [hoff.ofs_eq (by simp), hoff.jumpLimit_eq (by simp)]
    exact hnear
  obtain ⟨hsel, hctr, hcnt⟩ := State.setLock_switches hd hg' hs' ((hbit hd).trans hl) ((hbit (by omega)).trans ho) hnear'
  exact ⟨hsel, hctr.trans hoff.ctr, by rw [hcnt, hoff.rd_eq (by decide) (by simp)]⟩

theorem State.endSlew_done (s : State) : s.endSlew.tim.slew = none ∧ s.endSlew.flag Fd.TIME_TIME_STAT_SLEWING = false ∧
    s.endSlew.sel = s.sel := by
  have hoff : Tuned [] [6] [] s ((s.setTim { s.tim with slew := none }).off (statFld 6)) :=
    (Tuned.refl _ _ _ _).setTim.off (by decide) (by simp)
  have hend : Tuned [] [] [Reg.TIME_INCR_FRAC, Reg.TIME_INCR_NS] ((s.setTim { s.tim with slew := none }).off (statFld 6)) s.endSlew :=
    (Tuned.refl _ _ _ _).steer (by simp) (by simp)
  exact ⟨State.steer_slew _, hend.flag_false (by simp) (State.flag_setFld_stat 0 (by decide)),
    (hend.sel_eq (by simp) (by simp)).trans (hoff.sel_eq (by simp) (by simp))⟩

theorem State.persist_flag (s : State) (c : Int) : (s.persist c).flag Fd.TIME_TIME_STAT_JUMP_PERSIST = true ∧ (s.persist c).clk = s.clk := by
  have hrest : Tuned selUp selDn selRegs (s.on (statFld 9)) (s.persist c) :=
    ((Tuned.refl _ _ _ _).jumpRec (by simp [selRegs])).reselect selects_sel
  exact ⟨hrest.fall 9 (by decide) (State.flag_setFld_stat 1 (by decide)), hrest.clk⟩

theorem State.step9Note_done (s : State) (d : Nat) (c : Int) {v : Nat} (hv : s.now = v) :
    (s.step9Note d c).now = v ∧ Stepped (s.step9Note d c) := by
  have hnote := s.step9Note_tuned d c
  have hctr : (s.step9Note d c).ctr = s.ctr := hnote.ctr
  exact ⟨(State.now_congr hctr).trans hv, (State.markStep_stepped _).tuned hnote (by simp) (by simp)⟩

theorem State.initialSet_now {v : Nat} (hv : s.now = v) : s.initialSet.now = v := hv

theorem State.initialSet_flag (s : State) : s.initialSet.flag Fd.TIME_TIME_STAT_INITIAL = false :=
  State.flag_setFld_stat (i := 11) 0 (by decide)

theorem State.initialSet_flag_ne (s : State) (hi : i ≠ 11) : s.initialSet.flag (statFld i) = s.flag (statFld i) :=
  State.flag_setFld_stat_ne 0 hi

theorem State.initialSet_rd (s : State) {a : Nat} (ha : a ≠ Reg.TIME_TIME_STAT) : s.initialSet.rd a = s.rd a := State.rd_wr_ne _ _ ha

theorem State.refuseLoad_keeps (s : State) (c : Int) :
    let u := (wrongMode ((s.refuseJump).jumpRec false false s.sel c)).2
    u.ctr = s.ctr ∧ u.flag Fd.TIME_TIME_STAT_JUMP_REFUSED = true ∧ u.domLocked s.sel = s.domLocked s.sel := by
  have hrec : Tuned [] [] [Reg.JRN_LOST_TOTAL, Reg.TXN_WRONG_MODE_CNT] s.refuseJump
      (wrongMode ((s.refuseJump).jumpRec false false s.sel c)).2 := ((Tuned.refl _ _ _ _).jumpRec (by simp)).bump (by simp) (by decide)
  have hlt := s.sel_lt
  refine ⟨hrec.ctr.trans s.refuseJump_tuned.ctr, hrec.fall 8 (by simp) s.refuseJump_flag, ?_⟩
  exact (hrec.flag_eq (by simp) (by simp)).trans (s.refuseJump_tuned.flag_eq (by simp; omega) (by simp))

section
variable {v : Nat} {c : Int} (he : s.flag Fd.TIME_TIME_CTL_SERVO_EN = false) (hc : ((v : Int) - s.now) * 65536 = c)
include he hc

theorem State.setTime_steps_to (hv : v < 2 ^ 64) (h : s.jumpLimit < c.natAbs)
    (ha : s.flag Fd.TIME_TIME_STAT_INITIAL = true ∨ s.flag Fd.TIME_TIME_STAT_STEP_ARMED = true) :
    ∃ u : State, s.setTime v = (.ok, u) ∧ u.now = v ∧ Stepped u :=
  ⟨_, State.setTime_steps he hc h ha, State.step9Note_done _ _ _ (s.loadCtr_now hv)⟩

/-- A load within JUMP_THRESHOLD at INITIAL clears it, and is no step. -/
theorem State.setTime_initial (hv : v < 2 ^ 64) (h : c.natAbs ≤ s.jumpLimit) (hi : s.flag Fd.TIME_TIME_STAT_INITIAL = true) :
    ∃ u : State, s.setTime v = (.ok, u) ∧ u.now = v ∧ u.flag Fd.TIME_TIME_STAT_INITIAL = false ∧
      u.flag Fd.TIME_TIME_STAT_STEPPED = s.flag Fd.TIME_TIME_STAT_STEPPED ∧ u.rd Reg.TIME_STEP_CNT = s.rd Reg.TIME_STEP_CNT := by
  refine ⟨(s.loadCtr (v * 2 ^ 32)).initialSet, ?_, State.initialSet_now (s.loadCtr_now hv), State.initialSet_flag _, ?_, ?_⟩
  · rw [State.setTime_near he hc h, hi, State.onlyIf_true]
  · exact (State.initialSet_flag_ne _ (by decide)).trans (s.loadCtr_flag _ 12)
  · exact (State.initialSet_rd _ (by decide)).trans (s.loadCtr_rd _ (by decide) stepCnt_notMem_picRegs)

/-- A load beyond JUMP_THRESHOLD is refused, and the counter stands. -/
theorem State.setTime_refused_keeps (h : s.jumpLimit < c.natAbs) (hi : s.flag Fd.TIME_TIME_STAT_INITIAL = false)
    (ha : s.flag Fd.TIME_TIME_STAT_STEP_ARMED = false) :
    ∃ u : State, s.setTime v = (.wrongMode, u) ∧ u.ctr = s.ctr ∧ u.flag Fd.TIME_TIME_STAT_JUMP_REFUSED = true ∧
      u.domLocked s.sel = s.domLocked s.sel :=
  ⟨_, State.setTime_refused he hc h hi ha, s.refuseLoad_keeps c⟩

end

end Sys2Proof.Machine
end

section
open Sys2Proof Sys2Proof.Machine

/-- Settles O39: each correction by the state it builds; what follows keeps the counter and the bits of TIME_STAT that matter. -/
theorem timeCorrections : Obligations.TimeCorrections := by
  unfold Obligations.TimeCorrections
  refine ⟨fun s d θ hg hs he => ⟨State.offset_refused_keeps d.isLt hg hs he, fun h => ?_,
      State.offset_accepted_follows d.isLt hg hs he⟩, fun s d hg ha => ?_, fun s p hp hr hs hl ho => ?_,
    fun s x hx => ?_, fun s a c hx hp => ?_, fun s ht => ⟨fun hm => ⟨?_, ?_⟩, fun hm => ?_⟩,
    fun s v ht he => ⟨fun hj ha => ?_, fun hi hj => ?_, fun hi hj => ?_, fun hi hj ha => ?_⟩, fun s ht => ?_,
    fun s v ht => ⟨fun he => ?_, fun he hlo hhi => ?_, fun he hout => ?_⟩⟩
  · obtain ⟨hctr, hdone⟩ := State.offset_steps_ctr d.isLt hg hs he h
    exact ⟨hctr, hdone.initial, hdone.armed, hdone.stepped⟩
  · have hrd (a : Nat) := s.expire_rd (.syncLoss d.val) a
    obtain ⟨hpresent, hlock, hswitch⟩ :=
      State.loseSync (s := s.expire (.syncLoss d.val)) d.isLt ((State.flag_congr (hrd _)).trans hg)
    refine ⟨_, exec_syncLoss hg ha, hpresent, hlock, fun hs hl ho hnear => ?_⟩
    have hofs : (s.expire (.syncLoss d.val)).ofs (1 - d.val) = s.ofs (1 - d.val) := by rw [State.ofs, hrd, State.ofs]
    have hlimit : (s.expire (.syncLoss d.val)).jumpLimit = s.jumpLimit := congrArg (· * 65536) (State.fld_congr (hrd _))
    rw [← hrd]
    exact hswitch ((State.fld_congr (hrd _)).trans hs) ((State.flag_congr (hrd _)).trans hl) ((State.flag_congr (hrd _)).trans ho)
      (by rw [hofs, hlimit]; exact hnear)
  · subst hp
    have hlt : s.fld Fd.TIME_TIME_CTL_PREFER < 2 := BitVec.isLt _
    obtain ⟨hsel, -, hclk, -⟩ := State.trySwitch_selects
      (s := s.advance ((s.dom (s.fld Fd.TIME_TIME_CTL_PREFER)).lockedAt + 10 * secPs - s.clk)) hlt (State.advance_near ho)
    exact ⟨_, exec_domainRevert hr hs hl, hsel, hclk.trans (s.advance_tenSeconds _)⟩
  · obtain ⟨n, hexec⟩ := exec_slewComplete hx
    obtain ⟨hslew, hslewing, hsel⟩ := (s.advance n).endSlew_done
    exact ⟨_, hexec, hslew, hslewing, hsel.trans (s.advance_sel n)⟩
  · obtain ⟨hflag, hclk⟩ := (s.advance (a + 10 * secPs - s.clk)).persist_flag c
    exact ⟨_, exec_jumpPersist hx hp, hflag, hclk.trans (s.advance_tenSeconds a)⟩
  · rw [exec_acceptStep ht, State.timeCmd_accept hm]
  · rw [exec_disarm ht, State.timeCmd_disarm hm]
  · rw [exec_acceptStep ht, State.timeCmd_drowse hm]
  · obtain ⟨u, hu, hnow, hdone⟩ := State.setTime_steps_to he rfl v.isLt hj ha
    rw [exec_timeSet ht, hu]
    exact ⟨_, rfl, hnow, hdone.stepped, hdone.initial, rfl⟩
  · rw [exec_timeSet ht, State.setTime_near he rfl hj, hi, State.onlyIf_false]
  · obtain ⟨u, hu, hnow, hinitial, hstepped, hcnt⟩ := State.setTime_initial he rfl v.isLt hj hi
    rw [exec_timeSet ht, hu]
    exact ⟨_, rfl, hnow, hinitial, hstepped, hcnt⟩
  · obtain ⟨u, hu, hctr, hrefused, hlock⟩ := State.setTime_refused_keeps he rfl hj hi ha
    rw [exec_timeSet ht, hu]
    exact ⟨_, rfl, hctr, hrefused, hlock, rfl⟩
  · exact ⟨_, exec_nowLoRead ht, rfl, s.latchNow_hi, s.latchNow_frac, fun _ _ => rfl, fun _ => rfl⟩
  · rw [exec_incrWrite ht, State.writeIncr_servo he]
  · rw [exec_incrWrite ht, State.writeIncr_within he hlo hhi]
    exact ⟨_, rfl, s.increment_setIncr v.isLt, rfl, (((OnlyRegs.refl _ s).wr (by simp)).wr (by simp)).answer⟩
  · rw [exec_incrWrite ht, State.writeIncr_outside he hout]

end

section
/-!
SUPPORT. Branches of the power die: which fields of BR_STAT and which registers an operation can change, and what it leaves in the
branch's own state.
-/

namespace Sys2Proof.Machine

variable {s t u : State} {fs : List (Nat × Nat)} {l : List Nat} {n lo w v : Nat}

/-! ### What an operation on a branch can change -/

/-- The fields of BR_STAT by lowest bit and width: STATE, PG, RETRY_COUNT, TRIPPED and LAST_CAUSE. -/
def statSpans : List (Nat × Nat) := [(0, 3), (3, 1), (8, 8), (16, 1), (18, 2)]

/-- Two fields of BR_STAT share no bit. -/
theorem statSpans_apart : ∀ x ∈ statSpans, ∀ y ∈ statSpans, x ≠ y → y.1 + y.2 ≤ x.1 ∨ x.1 + x.2 ≤ y.1 := by decide

theorem statSpans_fit : ∀ x ∈ statSpans, x.1 + x.2 ≤ 32 := by decide

/-- From `s` to `t` memory and clock stand, of BR_STAT of branch `n` only the fields of `fs` change, and beside it only registers of
`l`. -/
structure BranchKept (fs : List (Nat × Nat)) (l : List Nat) (n : Nat) (s t : State) : Prop where
  regs : SameRegs (Reg.BR_BR_STAT n :: l) s t
  mem : t.mem = s.mem
  clk : t.clk = s.clk
  stat : ∀ x ∈ statSpans, x ∉ fs → t.fld ⟨Reg.BR_BR_STAT n, x.1, x.2⟩ = s.fld ⟨Reg.BR_BR_STAT n, x.1, x.2⟩

namespace BranchKept

theorem refl (fs : List (Nat × Nat)) (l : List Nat) (n : Nat) (s : State) : BranchKept fs l n s s :=
  ⟨fun _ _ => rfl, rfl, rfl, fun _ _ _ => rfl⟩

theorem rd_eq (h : BranchKept fs l n s t) {a : Nat} (ha : a ≠ Reg.BR_BR_STAT n) (hl : a ∉ l) : t.rd a = s.rd a :=
  h.regs a (by simp [ha, hl])

theorem fld_eq (h : BranchKept fs l n s t) (hx : (lo, w) ∈ statSpans) (hf : (lo, w) ∉ fs) :
    t.fld ⟨Reg.BR_BR_STAT n, lo, w⟩ = s.fld ⟨Reg.BR_BR_STAT n, lo, w⟩ := h.stat (lo, w) hx hf

theorem flag_eq (h : BranchKept fs l n s t) (hx : (lo, w) ∈ statSpans) (hf : (lo, w) ∉ fs) :
    t.flag ⟨Reg.BR_BR_STAT n, lo, w⟩ = s.flag ⟨Reg.BR_BR_STAT n, lo, w⟩ := congrArg (· != 0) (h.fld_eq hx hf)

theorem brState_eq (h : BranchKept fs l n s t) (hf : (0, 3) ∉ fs) : t.brState n = s.brState n := h.fld_eq (by decide) hf

theorem bytes (h : BranchKept fs l n s t) : SameBytes s t := SameBytes.of_mem h.mem

theorem mono {fs' : List (Nat × Nat)} {l' : List Nat} (h : BranchKept fs l n s t) (hf : fs ⊆ fs') (hl : l ⊆ l') :
    BranchKept fs' l' n s t :=
  ⟨fun a ha => h.regs a fun hx => ha (List.cons_subset_cons _ hl hx), h.mem, h.clk, fun x hx hno => h.stat x hx fun hin => hno (hf hin)⟩

theorem trans (h : BranchKept fs l n s t) (h' : BranchKept fs l n t u) : BranchKept fs l n s u :=
  ⟨fun a ha => (h'.regs a ha).trans (h.regs a ha), h'.mem.trans h.mem, h'.clk.trans h.clk,
    fun x hx hf => (h'.stat x hx hf).trans (h.stat x hx hf)⟩

/-- An update outside registers, memory and clock. -/
theorem same (h : BranchKept fs l n s t) (hr : u.regs = t.regs) (hm : u.mem = t.mem) (hc : u.clk = t.clk) : BranchKept fs l n s u :=
  ⟨fun a ha => (State.rd_congr hr a).trans (h.regs a ha), hm.trans h.mem, hc.trans h.clk,
    fun x hx hf => (State.fld_congr (State.rd_congr hr _)).trans (h.stat x hx hf)⟩

theorem wr {a : Nat} {x : Word} (h : BranchKept fs l n s t) (ha : a ∈ l) (hn : a ≠ Reg.BR_BR_STAT n) :
    BranchKept fs l n s (t.wr a x) := by
  refine ⟨fun b hb => ?_, h.mem, h.clk, fun y hy hf => (State.fld_congr (t.rd_wr_ne x hn.symm)).trans (h.stat y hy hf)⟩
  have hba : b ≠ a := fun hba => hb (hba ▸ List.mem_cons_of_mem _ ha)
  rw [t.rd_wr_ne x hba, h.regs b hb]

theorem bump {a : Nat} (h : BranchKept fs l n s t) (ha : a ∈ l) (hn : a ≠ Reg.BR_BR_STAT n) : BranchKept fs l n s (t.bump a) :=
  h.wr ha hn

theorem setStat (h : BranchKept fs l n s t) (hx : (lo, w) ∈ statSpans) (hf : (lo, w) ∈ fs) :
    BranchKept fs l n s (t.setFld ⟨Reg.BR_BR_STAT n, lo, w⟩ v) := by
  refine ⟨fun b hb => ?_, h.mem, h.clk, fun y hy hyf => ?_⟩
  · have hbn : b ≠ Reg.BR_BR_STAT n := fun hbn => hb (hbn ▸ List.mem_cons_self)
    rw [t.rd_setFld_ne _ _ hbn, h.regs b hb]
  · have hne : (lo, w) ≠ y := fun hxy => hyf (hxy ▸ hf)
    rw [t.fld_setFld_ne _ _ _ (.inr ⟨statSpans_apart _ hx _ hy hne, statSpans_fit _ hy⟩), h.stat y hy hyf]

theorem setBr {b : BrState} (h : BranchKept fs l n s t) : BranchKept fs l n s (t.setBr n b) := h.same rfl rfl rfl

theorem ite {c : Prop} [Decidable c] (ht : BranchKept fs l n s t) (hu : BranchKept fs l n s u) :
    BranchKept fs l n s (if c then t else u) := by
  split
  · exact ht
  · exact hu

theorem onlyIf {b : Bool} {f : State → State} (h : BranchKept fs l n s t) (hf : BranchKept fs l n s (f t)) :
    BranchKept fs l n s (t.onlyIf b f) := by
  cases b
  · exact h
  · exact hf

theorem evq_ne (n : Nat) : Reg.PWR_EVQ_LOST ≠ Reg.BR_BR_STAT n := by
  simp only [Reg.PWR_EVQ_LOST, Reg.BR_BR_STAT]
  omega

/-- An event enters the queue, or its loss is counted. -/
theorem powEvent {code path arg : Nat} {level : Bool} (h : BranchKept fs l n s t) (hl : Reg.PWR_EVQ_LOST ∈ l) :
    BranchKept fs l n s (t.powEvent code path level arg) :=
  .ite (h.same rfl rfl rfl) (same (t := t.bump Reg.PWR_EVQ_LOST) (h.bump hl (evq_ne n)) rfl rfl rfl)

end BranchKept

/-! ### The branch's own state -/

theorem State.br_setBr_same (s : State) (n : Nat) (b : BrState) : (s.setBr n b).br n = b := Tab.get_set_same _ _ _ _

theorem State.br_congr (h : t.pow.brs = s.pow.brs) (n : Nat) : t.br n = s.br n := congrArg (fun b => Tab.get ({} : BrState) b n) h

theorem State.powEvent_brs (s : State) (code path arg : Nat) (level : Bool) : (s.powEvent code path level arg).pow.brs = s.pow.brs := by
  simp only [State.powEvent]
  split <;> rfl

theorem State.powEvent_br (s : State) (code path arg : Nat) (level : Bool) (n : Nat) :
    (s.powEvent code path level arg).br n = s.br n := State.br_congr (s.powEvent_brs ..) n

theorem State.onlyIf_bump_br (s : State) (b : Bool) (a n : Nat) : (s.onlyIf b (·.bump a)).br n = s.br n := by cases b <;> rfl

/-! ### Limiting, power-good and the gate (13 R325, R331) -/

theorem State.endLimit_kept (s : State) (n : Nat) : BranchKept [] [Reg.PWR_EVQ_LOST] n s (s.endLimit n) := by
  simp only [State.endLimit]
  split
  · exact .refl _ _ n s
  · exact (BranchKept.refl _ _ n s).setBr.powEvent (by simp)

/-- The end of limiting holds the fault timer. -/
theorem State.endLimit_br {a : Nat} (h : (s.br n).limitAt = some a) : (s.endLimit n).br n =
    { s.br n with faultT := (s.br n).faultT + (s.clk - a), limitAt := none, idleAt := some s.clk } := by
  rw [State.endLimit, h]
  exact (State.powEvent_br _ _ _ _ _ n).trans (s.br_setBr_same n _)

theorem State.endLimit_limitAt (s : State) (n : Nat) : ((s.endLimit n).br n).limitAt = none := by
  cases h : (s.br n).limitAt with
  | none => rwa [State.endLimit, h]
  | some a => rw [State.endLimit_br h]

theorem State.pgFall_kept (s : State) (n : Nat) : BranchKept [(3, 1)] [Reg.BR_PG_LOSS_CNT n, Reg.PWR_EVQ_LOST] n s (s.pgFall n) :=
  .ite ((((BranchKept.refl _ _ n s).setStat (lo := 3) (by decide) (by simp)).bump (by simp) (by simp)).powEvent (by simp)) (.refl _ _ n s)

theorem State.pgFall_pg (s : State) (n : Nat) : (s.pgFall n).flag (Fd.BR_BR_STAT_PG n) = false := by
  cases h : s.flag (Fd.BR_BR_STAT_PG n) with
  | false => rw [State.pgFall, h, if_neg Bool.false_ne_true, h]
  | true =>
    rw [State.pgFall, h, if_pos rfl]
    have hrest : BranchKept [] [Reg.BR_PG_LOSS_CNT n, Reg.PWR_EVQ_LOST] n (s.off (Fd.BR_BR_STAT_PG n))
        (((s.off (Fd.BR_BR_STAT_PG n)).bump (Reg.BR_PG_LOSS_CNT n)).powEvent 0x3 (brPath n) false 0) :=
      ((BranchKept.refl _ _ n _).bump (by simp) (by simp)).powEvent (by simp)
    exact (hrest.flag_eq (by decide) (by simp)).trans (s.flag_off_same (by simp))

theorem State.pgFall_br (s : State) (n m : Nat) : (s.pgFall n).br m = s.br m := by
  simp only [State.pgFall]
  split
  · exact State.powEvent_br _ _ _ _ _ _
  · rfl

theorem State.gateOff_kept (s : State) (n : Nat) : BranchKept [(3, 1)] [Reg.BR_PG_LOSS_CNT n, Reg.PWR_EVQ_LOST] n s (s.gateOff n)   :=
  (((s.endLimit_kept n).mono (by simp) (by simp)).trans (State.pgFall_kept _ n)).setBr

theorem State.gateOff_pg (s : State) (n : Nat) : (s.gateOff n).flag (Fd.BR_BR_STAT_PG n) = false := State.pgFall_pg _ n

/-- With the gate off no time of the branch runs. -/
theorem State.gateOff_br (s : State) (n : Nat) : (s.gateOff n).br n =
    { (s.endLimit n).br n with startAt := none, offEnd := none, onAt := none, pgAt := none } := by
  rw [State.gateOff, State.br_setBr_same, State.pgFall_br]

/-! ### A trip (13 R327) -/

/-- A trip before the branch latches off or waits. -/
def State.noteTrip (n cause : Nat) (s : State) : State :=
  let s := (s.gateOff n).bump (Reg.BR_TRIP_CNT n)
  let s := s.onlyIf (cause == 1) (·.bump (Reg.BR_FAST_CNT n))
  let s := s.onlyIf (cause == 2) (·.bump (Reg.BR_START_CNT n))
  ((s.on (Fd.BR_BR_STAT_TRIPPED n)).setFld (Fd.BR_BR_STAT_LAST_CAUSE n) cause).powEvent 0x5 (brPath n) false cause

/-- The counters that a trip before its outcome may touch. -/
def tripRegs (n : Nat) : List Nat :=
  [Reg.BR_TRIP_CNT n, Reg.BR_FAST_CNT n, Reg.BR_START_CNT n, Reg.BR_PG_LOSS_CNT n, Reg.PWR_EVQ_LOST]

theorem State.trip_eq (s : State) (n c : Nat) : s.trip n c =
    let t := s.noteTrip n c
    if t.fld (Fd.BR_BR_STAT_RETRY_COUNT n) = t.fld (Fd.BR_BR_RETRY_RETRY_MAX n) ∧ t.fld (Fd.BR_BR_RETRY_RETRY_MAX n) ≠ 255 then
      ((t.setBrState n 5).bump (Reg.BR_LATCH_CNT n)).powEvent 0x6 (brPath n) false (t.fld (Fd.BR_BR_STAT_RETRY_COUNT n))
    else
      (t.setBrState n 4).setBr n { t.br n with
        offEnd := some (t.clk + t.faultTime n (c == 2) * t.fld (Fd.BR_BR_RETRY_DUTY_RATIO n)) } := rfl

/-- The state of a trip after its counters: what is left are TRIPPED, LAST_CAUSE and the event. -/
def State.countTrip (n c : Nat) (s : State) : State :=
  (((s.gateOff n).bump (Reg.BR_TRIP_CNT n)).onlyIf (c == 1) (·.bump (Reg.BR_FAST_CNT n))).onlyIf (c == 2) (·.bump (Reg.BR_START_CNT n))

section
variable (s : State) (n c : Nat)

theorem State.noteTrip_kept : BranchKept [(3, 1), (16, 1), (18, 2)] (tripRegs n) n s (s.noteTrip n c) := by
  have hgate := (s.gateOff_kept n).mono (fs' := [(3, 1), (16, 1), (18, 2)]) (l' := tripRegs n) (by simp) (by simp [tripRegs])
  have htrip := hgate.bump (a := Reg.BR_TRIP_CNT n) (by simp [tripRegs]) (by simp)
  have hfast := htrip.onlyIf (b := c == 1) (f := (·.bump (Reg.BR_FAST_CNT n))) (htrip.bump (by simp [tripRegs]) (by simp))
  have hstart := hfast.onlyIf (b := c == 2) (f := (·.bump (Reg.BR_START_CNT n))) (hfast.bump (by simp [tripRegs]) (by simp))
  exact ((hstart.setStat (lo := 16) (w := 1) (by decide) (by simp)).setStat (by decide) (by simp)).powEvent (by simp [tripRegs])

theorem State.noteTrip_br : (s.noteTrip n c).br n = (s.gateOff n).br n := by
  rw [State.noteTrip, State.powEvent_br]
  exact (State.onlyIf_bump_br _ _ _ n).trans (State.onlyIf_bump_br _ _ _ n)

theorem State.countTrip_noteTrip : BranchKept [(16, 1), (18, 2)] [Reg.PWR_EVQ_LOST] n (s.countTrip n c) (s.noteTrip n c) :=
  (((BranchKept.refl _ _ n _).setStat (lo := 16) (w := 1) (by decide) (by simp)).setStat (by decide) (by simp)).powEvent (by simp)

theorem State.noteTrip_marks (hc : c < 4) : (s.noteTrip n c).flag (Fd.BR_BR_STAT_TRIPPED n) = true ∧
    (s.noteTrip n c).fld (Fd.BR_BR_STAT_LAST_CAUSE n) = c ∧ (s.noteTrip n c).flag (Fd.BR_BR_STAT_PG n) = false := by
  have hevent : BranchKept [] [Reg.PWR_EVQ_LOST] n
      (((s.countTrip n c).on (Fd.BR_BR_STAT_TRIPPED n)).setFld (Fd.BR_BR_STAT_LAST_CAUSE n) c) (s.noteTrip n c) :=
    (BranchKept.refl _ _ n _).powEvent (by simp)
  have hcause : BranchKept [(18, 2)] [Reg.PWR_EVQ_LOST] n ((s.countTrip n c).on (Fd.BR_BR_STAT_TRIPPED n)) (s.noteTrip n c) :=
    ((BranchKept.refl _ _ n _).setStat (by decide) (by simp)).powEvent (by simp)
  have hpg : BranchKept [(16, 1), (18, 2)] (tripRegs n) n (s.gateOff n) (s.noteTrip n c) := by
    have htrip := (BranchKept.refl [(16, 1), (18, 2)] (tripRegs n) n (s.gateOff n)).bump (a := Reg.BR_TRIP_CNT n) (by simp [tripRegs]) (by simp)
    have hfast := htrip.onlyIf (b := c == 1) (f := (·.bump (Reg.BR_FAST_CNT n))) (htrip.bump (by simp [tripRegs]) (by simp))
    have hstart := hfast.onlyIf (b := c == 2) (f := (·.bump (Reg.BR_START_CNT n))) (hfast.bump (by simp [tripRegs]) (by simp))
    exact hstart.trans ((s.countTrip_noteTrip n c).mono (by simp) (by simp [tripRegs]))
  refine ⟨(hcause.flag_eq (by decide) (by simp)).trans (State.flag_on_same _ (by simp) (by simp)), ?_,
    (hpg.flag_eq (by decide) (by simp)).trans (s.gateOff_pg n)⟩
  exact (hevent.fld_eq (by decide) (by simp)).trans (State.fld_setFld_fits _ (by simp) hc)

/-- The value of a counter that counts once more. -/
theorem State.rd_bump_same (s : State) (a : Nat) : (s.bump a).rd a = BitVec.ofNat 32 (min ((s.rd a).toNat + 1) 0xFFFFFFFF) := by
  rw [State.rd_bump, if_pos rfl]

theorem State.rd_onlyIf_bump_ne (b : Bool) {a x : Nat} (h : x ≠ a) : (s.onlyIf b (·.bump a)).rd x = s.rd x := by
  cases b
  · rfl
  · exact s.rd_wr_ne _ h

/-- A trip counts, and a fast or start cause in its own counter too. -/
theorem State.noteTrip_counts :
    (s.noteTrip n c).rd (Reg.BR_TRIP_CNT n) = BitVec.ofNat 32 (min ((s.rd (Reg.BR_TRIP_CNT n)).toNat + 1) 0xFFFFFFFF) ∧
    (c = 1 → (s.noteTrip n c).rd (Reg.BR_FAST_CNT n) = BitVec.ofNat 32 (min ((s.rd (Reg.BR_FAST_CNT n)).toNat + 1) 0xFFFFFFFF)) ∧
    (c = 2 → (s.noteTrip n c).rd (Reg.BR_START_CNT n) = BitVec.ofNat 32 (min ((s.rd (Reg.BR_START_CNT n)).toNat + 1) 0xFFFFFFFF)) := by
  have hnote := s.countTrip_noteTrip n c
  have hgate := s.gateOff_kept n
  have hevq (o : Nat) (ho : 0xF1000 ≤ o) : o ∉ [Reg.PWR_EVQ_LOST] := by
    simp only [List.mem_cons, List.not_mem_nil, or_false, Reg.PWR_EVQ_LOST]
    omega
  have hpgl (o : Nat) (hne : o ≠ Reg.BR_PG_LOSS_CNT n) (ho : 0xF1000 ≤ o) : o ∉ [Reg.BR_PG_LOSS_CNT n, Reg.PWR_EVQ_LOST] :=
    fun h => (List.mem_cons.mp h).elim hne (hevq o ho)
  refine ⟨?_, ?_, ?_⟩
  · rw [hnote.rd_eq (by simp) (hevq _ (by simp only [Reg.BR_TRIP_CNT]; omega)), State.countTrip, State.rd_onlyIf_bump_ne _ _ (by simp),
      State.rd_onlyIf_bump_ne _ _ (by simp), State.rd_bump_same, hgate.rd_eq (by simp) (hpgl _ (by simp only [Reg.BR_TRIP_CNT, Reg.BR_PG_LOSS_CNT]; omega) (by simp only [Reg.BR_TRIP_CNT]; omega))]
  · rintro rfl
    rw [hnote.rd_eq (by simp) (hevq _ (by simp only [Reg.BR_FAST_CNT]; omega)), State.countTrip, State.rd_onlyIf_bump_ne _ _ (by simp)]
    simp only [beq_self_eq_true, State.onlyIf_true]
    rw [State.rd_bump_same, State.bump, State.bumpBy, State.rd_wr_ne _ _ (by simp), hgate.rd_eq (by simp) (hpgl _ (by simp only [Reg.BR_FAST_CNT, Reg.BR_PG_LOSS_CNT]; omega) (by simp only [Reg.BR_FAST_CNT]; omega))]
  · rintro rfl
    rw [hnote.rd_eq (by simp) (hevq _ (by simp only [Reg.BR_START_CNT]; omega)), State.countTrip]
    simp only [beq_self_eq_true, State.onlyIf_true]
    rw [State.rd_bump_same, State.rd_onlyIf_bump_ne _ _ (by simp), State.bump, State.bumpBy, State.rd_wr_ne _ _ (by simp),
      hgate.rd_eq (by simp) (hpgl _ (by simp only [Reg.BR_START_CNT, Reg.BR_PG_LOSS_CNT]; omega) (by simp only [Reg.BR_START_CNT]; omega))]

end

end Sys2Proof.Machine
end

section
/-!
SUPPORT. Branches of the power die: how a trip ends, and what the other events of a branch do.
-/

namespace Sys2Proof.Machine

variable {s : State} {n c a : Nat}

/-! ### The outcome of a trip (13 R327) -/

/-- After its marks and counters a trip only moves the branch to its outcome. -/
theorem State.trip_kept (s : State) (n c : Nat) :
    BranchKept [(0, 3)] [Reg.BR_LATCH_CNT n, Reg.PWR_EVQ_LOST] n (s.noteTrip n c) (s.trip n c) := by
  have hstate {v : Nat} := (BranchKept.refl [(0, 3)] [Reg.BR_LATCH_CNT n, Reg.PWR_EVQ_LOST] n (s.noteTrip n c)).setStat
    (lo := 0) (w := 3) (v := v) (by decide) (by simp)
  rw [State.trip_eq]
  exact .ite ((hstate.bump (by simp) (by simp)).powEvent (by simp)) hstate.setBr

/-- No setting of a branch is a register that a trip touches. -/
theorem setting_notMem (h : a ∈ [Reg.BR_BR_RETRY n, Reg.BR_BR_LIMIT n, Reg.BR_BR_START n]) :
    a ≠ Reg.BR_BR_STAT n ∧ a ∉ tripRegs n := by
  simp only [tripRegs, List.mem_cons, List.not_mem_nil, or_false, Reg.BR_TRIP_CNT, Reg.BR_FAST_CNT, Reg.BR_START_CNT, Reg.BR_PG_LOSS_CNT,
    Reg.PWR_EVQ_LOST, Reg.BR_BR_RETRY, Reg.BR_BR_LIMIT, Reg.BR_BR_START, Reg.BR_BR_STAT] at h ⊢
  omega

theorem State.noteTrip_setting (s : State) (n c : Nat) {x : Fld}
    (h : x.reg ∈ [Reg.BR_BR_RETRY n, Reg.BR_BR_LIMIT n, Reg.BR_BR_START n]) : (s.noteTrip n c).fld x = s.fld x :=
  State.fld_congr ((s.noteTrip_kept n c).rd_eq (setting_notMem h).1 (setting_notMem h).2)

theorem State.noteTrip_retryCount (s : State) (n c : Nat) :
    (s.noteTrip n c).fld (Fd.BR_BR_STAT_RETRY_COUNT n) = s.fld (Fd.BR_BR_STAT_RETRY_COUNT n) :=
  (s.noteTrip_kept n c).fld_eq (by decide) (by simp)

theorem State.noteTrip_faultTime (s : State) (n c : Nat) (b : Bool) : (s.noteTrip n c).faultTime n b = s.faultTime n b := by
  rw [State.faultTime, State.noteTrip_setting _ _ _ (by simp), State.noteTrip_setting _ _ _ (by simp), State.faultTime]

/-- The branch latches off. -/
theorem State.trip_latches (h : s.fld (Fd.BR_BR_STAT_RETRY_COUNT n) = s.fld (Fd.BR_BR_RETRY_RETRY_MAX n))
    (hm : s.fld (Fd.BR_BR_RETRY_RETRY_MAX n) ≠ 255) :
    (s.trip n c).brState n = 5 ∧ (s.trip n c).br n = (s.gateOff n).br n ∧
    (s.trip n c).rd (Reg.BR_LATCH_CNT n) = BitVec.ofNat 32 (min ((s.rd (Reg.BR_LATCH_CNT n)).toNat + 1) 0xFFFFFFFF) := by
  have hmax : (s.noteTrip n c).fld (Fd.BR_BR_RETRY_RETRY_MAX n) = s.fld (Fd.BR_BR_RETRY_RETRY_MAX n) := s.noteTrip_setting n c (by simp)
  rw [State.trip_eq, if_pos ⟨(s.noteTrip_retryCount n c).trans (h.trans hmax.symm), hmax ▸ hm⟩]
  have hlast : BranchKept [] [Reg.PWR_EVQ_LOST] n (((s.noteTrip n c).setBrState n 5).bump (Reg.BR_LATCH_CNT n))
      ((((s.noteTrip n c).setBrState n 5).bump (Reg.BR_LATCH_CNT n)).powEvent 0x6 (brPath n) false
        ((s.noteTrip n c).fld (Fd.BR_BR_STAT_RETRY_COUNT n))) := (BranchKept.refl _ _ n _).powEvent (by simp)
  have hevq : Reg.BR_LATCH_CNT n ∉ [Reg.PWR_EVQ_LOST] := by
    simp only [List.mem_cons, List.not_mem_nil, or_false, Reg.BR_LATCH_CNT, Reg.PWR_EVQ_LOST]
    omega
  have hcounters : Reg.BR_LATCH_CNT n ∉ tripRegs n := by
    simp only [tripRegs, List.mem_cons, List.not_mem_nil, or_false, Reg.BR_TRIP_CNT, Reg.BR_FAST_CNT, Reg.BR_START_CNT, Reg.BR_PG_LOSS_CNT,
      Reg.BR_LATCH_CNT, Reg.PWR_EVQ_LOST]
    omega
  refine ⟨(hlast.brState_eq (by simp)).trans ?_, (State.powEvent_br _ _ _ _ _ n).trans (s.noteTrip_br n c), ?_⟩
  · exact (State.fld_congr (State.rd_bump_ne _ (by simp))).trans (State.fld_setFld_fits _ (by simp) (by simp))
  · rw [hlast.rd_eq (by simp) hevq, State.rd_bump_same, State.setBrState, State.rd_setFld_ne _ _ _ (by simp),
      (s.noteTrip_kept n c).rd_eq (by simp) hcounters]

/-- The branch waits out its off-time. -/
theorem State.trip_waits (h : s.fld (Fd.BR_BR_STAT_RETRY_COUNT n) ≠ s.fld (Fd.BR_BR_RETRY_RETRY_MAX n) ∨
      s.fld (Fd.BR_BR_RETRY_RETRY_MAX n) = 255) :
    (s.trip n c).brState n = 4 ∧ (s.trip n c).br n = { (s.gateOff n).br n with
      offEnd := some (s.clk + s.faultTime n (c == 2) * s.fld (Fd.BR_BR_RETRY_DUTY_RATIO n)) } := by
  have hmax : (s.noteTrip n c).fld (Fd.BR_BR_RETRY_RETRY_MAX n) = s.fld (Fd.BR_BR_RETRY_RETRY_MAX n) := s.noteTrip_setting n c (by simp)
  have hduty : (s.noteTrip n c).fld (Fd.BR_BR_RETRY_DUTY_RATIO n) = s.fld (Fd.BR_BR_RETRY_DUTY_RATIO n) := s.noteTrip_setting n c (by simp)
  have hno : ¬((s.noteTrip n c).fld (Fd.BR_BR_STAT_RETRY_COUNT n) = (s.noteTrip n c).fld (Fd.BR_BR_RETRY_RETRY_MAX n) ∧
      (s.noteTrip n c).fld (Fd.BR_BR_RETRY_RETRY_MAX n) ≠ 255) := by
    rw [s.noteTrip_retryCount n c, hmax]
    exact fun ⟨heq, hne⟩ => h.elim (· heq) hne
  rw [State.trip_eq, if_neg hno]
  refine ⟨State.fld_setFld_fits (f := Fd.BR_BR_STAT_STATE n) _ (by simp) (by simp), ?_⟩
  rw [State.br_setBr_same, hduty, s.noteTrip_faultTime, s.noteTrip_br, (s.noteTrip_kept n c).clk]

/-- Of the gate's off times only the off-time of a trip is set again. -/
theorem State.trip_limitAt (s : State) (n c : Nat) : ((s.trip n c).br n).limitAt = none := by
  have hgate : ((s.gateOff n).br n).limitAt = none := by
    rw [State.gateOff_br]
    exact s.endLimit_limitAt n
  by_cases h : s.fld (Fd.BR_BR_STAT_RETRY_COUNT n) = s.fld (Fd.BR_BR_RETRY_RETRY_MAX n) ∧ s.fld (Fd.BR_BR_RETRY_RETRY_MAX n) ≠ 255
  · rw [(State.trip_latches h.1 h.2).2.1, hgate]
  · rw [(State.trip_waits (by tauto)).2]
    exact hgate

/-- All that a trip can change. -/
theorem State.trip_regs (s : State) (n c : Nat) : SameRegs [Reg.BR_BR_STAT n, Reg.BR_TRIP_CNT n, Reg.BR_FAST_CNT n, Reg.BR_START_CNT n,
    Reg.BR_LATCH_CNT n, Reg.BR_PG_LOSS_CNT n, Reg.PWR_EVQ_LOST] s (s.trip n c) := by
  intro a ha
  simp only [List.mem_cons, List.not_mem_nil, or_false, not_or] at ha
  obtain ⟨hstat, htrip, hfast, hstart, hlatch, hpg, hevq⟩ := ha
  exact ((s.trip_kept n c).rd_eq hstat (by simp [hlatch, hevq])).trans
    ((s.noteTrip_kept n c).rd_eq hstat (by simp [tripRegs, htrip, hfast, hstart, hpg, hevq]))

/-- A trip's marks and counters stand after its outcome. -/
theorem State.trip_marks (s : State) (n : Nat) (hc : c < 4) :
    (s.trip n c).flag (Fd.BR_BR_STAT_PG n) = false ∧ (s.trip n c).flag (Fd.BR_BR_STAT_TRIPPED n) = true ∧
    (s.trip n c).fld (Fd.BR_BR_STAT_LAST_CAUSE n) = c ∧
    (s.trip n c).fld (Fd.BR_BR_STAT_RETRY_COUNT n) = s.fld (Fd.BR_BR_STAT_RETRY_COUNT n) := by
  obtain ⟨htripped, hcause, hpg⟩ := s.noteTrip_marks n c hc
  have hend := s.trip_kept n c
  exact ⟨(hend.flag_eq (by decide) (by simp)).trans hpg, (hend.flag_eq (by decide) (by simp)).trans htripped,
    (hend.fld_eq (by decide) (by simp)).trans hcause, (hend.fld_eq (by decide) (by simp)).trans (s.noteTrip_retryCount n c)⟩

theorem State.trip_counter (s : State) (n c : Nat) (h : a ∈ [Reg.BR_TRIP_CNT n, Reg.BR_FAST_CNT n, Reg.BR_START_CNT n]) :
    (s.trip n c).rd a = (s.noteTrip n c).rd a := by
  refine (s.trip_kept n c).rd_eq ?_ ?_ <;>
    simp only [List.mem_cons, List.not_mem_nil, or_false, Reg.BR_TRIP_CNT, Reg.BR_FAST_CNT, Reg.BR_START_CNT, Reg.BR_BR_STAT,
      Reg.BR_LATCH_CNT, Reg.PWR_EVQ_LOST] at h ⊢ <;> omega

end Sys2Proof.Machine
end

section
/-!
SUPPORT. The events of a branch: soft start, limiting, the fault timer, the off-time, CLEAR_TIME and power-good.
-/

namespace Sys2Proof.Machine

variable {s : State} {n a : Nat}

theorem State.toClk_clk (s : State) (a : Nat) : (s.toClk a).clk = max s.clk a := by
  change s.clk + (a - s.clk) = _
  omega

/-- Time passes over a branch without a change. -/
theorem BranchKept.afterToClk {fs : List (Nat × Nat)} {l : List Nat} {t : State} (h : BranchKept fs l n (s.toClk a) t) :
    SameRegs (Reg.BR_BR_STAT n :: l) s t ∧ SameBytes s t := ⟨h.regs, SameBytes.of_mem h.mem⟩

/-! ### Soft start (13 R324) -/

theorem State.softStartEnd_done (h : s.brState n = 1) :
    (s.softStartEnd n).brState n = (if (s.br n).limitAt.isSome then 3 else 2) ∧
    ((s.softStartEnd n).br n).onAt = (if (s.br n).limitAt.isSome then none else some s.clk) ∧
    BranchKept [(0, 3)] [] n s (s.softStartEnd n) := by
  rw [State.softStartEnd, if_pos h]
  refine ⟨?_, congrArg BrState.onAt (State.br_setBr_same _ _ _), ((BranchKept.refl _ _ n s).setStat (by decide) (by simp)).setBr⟩
  exact State.fld_setFld_fits (f := Fd.BR_BR_STAT_STATE n) _ (by simp) (by split <;> simp)

/-- SOFT_START with its event, and what the branch's own state is then. -/
theorem State.brStart_kept (s : State) (n : Nat) : BranchKept [(0, 3)] [Reg.PWR_EVQ_LOST] n s (s.brStart n) :=
  ((BranchKept.refl _ _ n s).setStat (by decide) (by simp)).setBr.powEvent (by simp)

theorem State.brStart_done (s : State) (n : Nat) : (s.brStart n).brState n = 1 ∧ ((s.brStart n).br n).startAt = some s.clk := by
  have hevent : BranchKept [] [Reg.PWR_EVQ_LOST] n (s.setBrState n 1) (s.brStart n) :=
    (BranchKept.refl _ _ n _).setBr.powEvent (by simp)
  refine ⟨(hevent.brState_eq (by simp)).trans (State.fld_setFld_fits _ (by simp) (by simp)), ?_⟩
  rw [State.brStart, State.powEvent_br, State.br_setBr_same]

/-! ### Limiting and the fault timer (13 R325) -/

/-- A branch that begins to limit, before its STATE and the event. -/
def State.limits (n : Nat) (s : State) : State :=
  s.setBr n { s.br n with
    faultT := if ((s.br n).idleAt.map fun a => decide (s.clk < a + 10 * msPs)).getD false then (s.br n).faultT else 0
    limitAt := some s.clk
    idleAt := none
    onAt := none
    pgAt := none }

theorem State.limitBegin_eq (hon : s.brOn n = true) (hno : (s.br n).limitAt = none) : s.limitBegin n =
    ((s.limits n).onlyIf (s.brState n == 2) (·.setBrState n 3)).powEvent 0x4 (brPath n) true 0 :=
  if_pos (by rw [hon, hno]; rfl)

/-- The fault timer starts from its held value within 10 ms, else from 0. -/
theorem State.limitBegin_br (hon : s.brOn n = true) (hno : (s.br n).limitAt = none) :
    (s.limitBegin n).br n = (s.limits n).br n := by
  rw [State.limitBegin_eq hon hno, State.powEvent_br]
  cases s.brState n == 2 <;> rfl

theorem State.limitBegin_kept (hon : s.brOn n = true) (hno : (s.br n).limitAt = none) :
    BranchKept [(0, 3)] [Reg.PWR_EVQ_LOST] n s (s.limitBegin n) := by
  have hset : BranchKept [(0, 3)] [Reg.PWR_EVQ_LOST] n s (s.limits n) := (BranchKept.refl _ _ n s).setBr
  rw [State.limitBegin_eq hon hno]
  exact (hset.onlyIf (hset.setStat (by decide) (by simp))).powEvent (by simp)

/-- ON becomes LIMITING, a soft start goes on. -/
theorem State.limitBegin_brState (hon : s.brOn n = true) (hno : (s.br n).limitAt = none) :
    (s.limitBegin n).brState n = if s.brState n = 2 then 3 else s.brState n := by
  have hset : (s.limits n).brState n = s.brState n := State.fld_congr rfl
  have hevent : BranchKept [] [Reg.PWR_EVQ_LOST] n ((s.limits n).onlyIf (s.brState n == 2) (·.setBrState n 3)) (s.limitBegin n) := by
    rw [State.limitBegin_eq hon hno]
    exact (BranchKept.refl _ _ n _).powEvent (by simp)
  rw [hevent.brState_eq (by simp)]
  split
  next h =>
    rw [h]
    exact State.fld_setFld_fits _ (by simp) (by simp)
  next h => rw [beq_false_of_ne h, State.onlyIf_false, hset]

/-- The end of limiting holds the fault timer; LIMITING becomes ON. -/
theorem State.limitEnd_done (h : (s.br n).limitAt = some a) :
    ((s.limitEnd n).br n).limitAt = none ∧ ((s.limitEnd n).br n).faultT = (s.br n).faultT + (s.clk - a) ∧
    (s.brState n = 3 → (s.limitEnd n).brState n = 2) ∧ BranchKept [(0, 3)] [Reg.PWR_EVQ_LOST] n s (s.limitEnd n) := by
  have hend := s.endLimit_kept n
  have hkept := hend.mono (fs' := [(0, 3)]) (by simp) (List.Subset.refl _)
  have hbr := State.endLimit_br h
  rw [State.limitEnd, if_pos (by rw [h]; rfl)]
  dsimp only
  split
  next h3 =>
    refine ⟨?_, ?_, fun _ => State.fld_setFld_fits (f := Fd.BR_BR_STAT_STATE n) _ (by simp) (by simp),
      (hkept.setStat (by decide) (by simp)).setBr⟩
    · rw [State.br_setBr_same]
      exact congrArg BrState.limitAt hbr
    · rw [State.br_setBr_same]
      exact congrArg BrState.faultT hbr
  next h3 => exact ⟨congrArg BrState.limitAt hbr, congrArg BrState.faultT hbr,
      fun hs => absurd ((hend.brState_eq (by simp)).trans hs) h3, hkept⟩

theorem State.faultExpiry_eq (h : (s.br n).limitAt = some a) : s.faultExpiry n =
    (s.toClk (a + (s.faultTime n (s.brState n == 1) - (s.br n).faultT))).trip n (if s.brState n = 1 then 2 else 0) := by
  simp only [State.faultExpiry, h, beq_iff_eq]

theorem State.faultClear_eq (h : (s.br n).idleAt = some a) :
    s.faultClear n = (s.toClk (a + 10 * msPs)).setBr n { s.br n with faultT := 0, idleAt := none } := by
  rw [State.faultClear, h]

theorem State.setBr_toClk (s : State) (a n : Nat) (b : BrState) : (((s.toClk a).setBr n b).br n).faultT = b.faultT ∧
    ((s.toClk a).setBr n b).clk = max s.clk a ∧ SameRegs [] s ((s.toClk a).setBr n b) ∧ SameBytes s ((s.toClk a).setBr n b) :=
  ⟨congrArg BrState.faultT (State.br_setBr_same _ _ _), s.toClk_clk _, fun _ _ => rfl, fun _ => rfl⟩

theorem State.faultClear_done (h : (s.br n).idleAt = some a) : ((s.faultClear n).br n).faultT = 0 ∧
    (s.faultClear n).clk = max s.clk (a + 10000000000) ∧ SameRegs [] s (s.faultClear n) ∧ SameBytes s (s.faultClear n) := by
  have hten : 10 * msPs = 10000000000 := rfl
  rw [State.faultClear_eq h, hten]
  exact s.setBr_toClk _ n _

/-! ### The off-time and CLEAR_TIME (13 R327, R328) -/

/-- A retry counts and the branch starts. -/
theorem State.offTimeEnd_done (h : (s.br n).offEnd = some a) : (s.offTimeEnd n).brState n = 1 ∧
    (s.offTimeEnd n).fld (Fd.BR_BR_STAT_RETRY_COUNT n) = min (s.fld (Fd.BR_BR_STAT_RETRY_COUNT n) + 1) 255 ∧
    ((s.offTimeEnd n).br n).startAt = some (max s.clk a) ∧
    BranchKept [(0, 3), (8, 8)] [Reg.PWR_EVQ_LOST] n (s.toClk a) (s.offTimeEnd n) := by
  simp only [State.offTimeEnd, h]
  have hcount : BranchKept [(8, 8)] [Reg.PWR_EVQ_LOST] n (s.toClk a) ((s.toClk a).bumpFld (Fd.BR_BR_STAT_RETRY_COUNT n) 1) :=
    (BranchKept.refl _ _ n _).setStat (by decide) (by simp)
  have hstart := State.brStart_kept ((s.toClk a).bumpFld (Fd.BR_BR_STAT_RETRY_COUNT n) 1) n
  obtain ⟨hst, hat⟩ := State.brStart_done ((s.toClk a).bumpFld (Fd.BR_BR_STAT_RETRY_COUNT n) 1) n
  refine ⟨hst, ?_, hat.trans (congrArg some (hcount.clk.trans (s.toClk_clk a))),
    (hcount.mono (by simp) (by simp)).trans (hstart.mono (by simp) (by simp))⟩
  exact (hstart.fld_eq (by decide) (by simp)).trans (State.fld_setFld_fits _ (by simp) (by simp))

theorem State.clearTimeEnd_eq (h : (s.br n).onAt = some a) : s.clearTimeEnd n =
    (s.toClk (a + s.fld (Fd.BR_BR_CLEAR_CLEAR_TIME n) * 10 * msPs)).setFld (Fd.BR_BR_STAT_RETRY_COUNT n) 0 := by
  rw [State.clearTimeEnd, h]

theorem State.clearTimeEnd_done (h : (s.br n).onAt = some a) :
    (s.clearTimeEnd n).fld (Fd.BR_BR_STAT_RETRY_COUNT n) = 0 ∧ (s.clearTimeEnd n).brState n = s.brState n ∧
    (s.clearTimeEnd n).clk = max s.clk (a + s.fld (Fd.BR_BR_CLEAR_CLEAR_TIME n) * 10000000000) ∧
    BranchKept [(8, 8)] [] n (s.toClk (a + s.fld (Fd.BR_BR_CLEAR_CLEAR_TIME n) * 10000000000)) (s.clearTimeEnd n) := by
  have hten : 10 * msPs = 10000000000 := rfl
  have hcount (u : State) : BranchKept [(8, 8)] [] n u (u.setFld (Fd.BR_BR_STAT_RETRY_COUNT n) 0) :=
    (BranchKept.refl _ _ n _).setStat (by decide) (by simp)
  have hstate (c : Nat) : (s.toClk c).brState n = s.brState n := State.fld_congr rfl
  rw [State.clearTimeEnd_eq h, Nat.mul_assoc, hten]
  exact ⟨State.fld_setFld_fits _ (by simp) (by simp), ((hcount _).brState_eq (by simp)).trans (hstate _),
    (hcount _).clk.trans (s.toClk_clk _), hcount _⟩

/-! ### Power-good (13 R331) -/

theorem State.pgRise_done (h : (s.br n).pgAt = some a) (hon : s.brOn n = true) (hno : (s.br n).limitAt = none)
    (hpg : s.flag (Fd.BR_BR_STAT_PG n) = false) : (s.pgRise n).flag (Fd.BR_BR_STAT_PG n) = true ∧
    (s.pgRise n).clk = max s.clk (a + s.fld (Fd.BR_BR_PG_PG_DELAY n) * 100000000) ∧
    BranchKept [(3, 1)] [Reg.PWR_EVQ_LOST] n (s.toClk (a + s.fld (Fd.BR_BR_PG_PG_DELAY n) * 100000000)) (s.pgRise n) := by
  have hcond : (s.brOn n && (s.br n).limitAt.isNone && !s.flag (Fd.BR_BR_STAT_PG n)) = true := by rw [hon, hno, hpg]; rfl
  have htenth : tenthMs = 100000000 := rfl
  simp only [State.pgRise, h, hcond, if_true, htenth]
  have hevent (v : State) : BranchKept [] [Reg.PWR_EVQ_LOST] n v
      ((v.setBr n { s.br n with pgAt := none }).powEvent 0x3 (brPath n) true 0) := (BranchKept.refl _ _ n _).setBr.powEvent (by simp)
  have hset (u : State) : BranchKept [(3, 1)] [Reg.PWR_EVQ_LOST] n u (u.on (Fd.BR_BR_STAT_PG n)) :=
    (BranchKept.refl _ _ n u).setStat (by decide) (by simp)
  exact ⟨((hevent _).flag_eq (by decide) (by simp)).trans (State.flag_on_same _ (by simp) (by simp)),
    ((hevent _).clk.trans (hset _).clk).trans (s.toClk_clk _), (hset _).trans ((hevent _).mono (by simp) (by simp))⟩

/-- The fall of power-good is counted. -/
theorem State.pgFall_count (h : s.flag (Fd.BR_BR_STAT_PG n) = true) : (s.pgFall n).rd (Reg.BR_PG_LOSS_CNT n) =
    BitVec.ofNat 32 (min ((s.rd (Reg.BR_PG_LOSS_CNT n)).toNat + 1) 0xFFFFFFFF) := by
  have hevq : Reg.BR_PG_LOSS_CNT n ∉ [Reg.PWR_EVQ_LOST] := by
    simp only [List.mem_cons, List.not_mem_nil, or_false, Reg.BR_PG_LOSS_CNT, Reg.PWR_EVQ_LOST]
    omega
  have hevent : BranchKept [] [Reg.PWR_EVQ_LOST] n ((s.off (Fd.BR_BR_STAT_PG n)).bump (Reg.BR_PG_LOSS_CNT n))
      (((s.off (Fd.BR_BR_STAT_PG n)).bump (Reg.BR_PG_LOSS_CNT n)).powEvent 0x3 (brPath n) false 0) :=
    (BranchKept.refl _ _ n _).powEvent (by simp)
  rw [State.pgFall, h, if_pos rfl, hevent.rd_eq (by simp) hevq, State.rd_bump_same, State.off, State.rd_setFld_ne _ _ _ (by simp)]

end Sys2Proof.Machine
end

section
/-!
SUPPORT. The three commands to a branch over a working power link: both halves of BR_CTL reach the die, which runs the command.
-/

namespace Sys2Proof.Machine

variable {s t u : State} {n : Nat}

/-! ### What a transaction leaves unchanged -/

/-- From `s` to `t` only PWR_STAT without PLK_LOST and EVQ_LOST change, and no branch's own state. -/
structure LinkKept (s t : State) : Prop where
  regs : SameRegs [Reg.PWR_PWR_STAT, Reg.PWR_EVQ_LOST] s t
  brs : t.pow.brs = s.pow.brs
  lost : t.flag Fd.PWR_PWR_STAT_PLK_LOST = s.flag Fd.PWR_PWR_STAT_PLK_LOST

namespace LinkKept

theorem refl (s : State) : LinkKept s s := ⟨fun _ _ => rfl, rfl, rfl⟩

theorem trans (h : LinkKept s t) (h' : LinkKept t u) : LinkKept s u :=
  ⟨fun a ha => (h'.regs a ha).trans (h.regs a ha), h'.brs.trans h.brs, h'.lost.trans h.lost⟩

/-- An update outside the registers and the branches' own state. -/
theorem same (h : LinkKept s t) (hr : u.regs = t.regs) (hb : u.pow.brs = t.pow.brs) : LinkKept s u :=
  h.trans ⟨fun a _ => State.rd_congr hr a, hb, State.flag_congr (State.rd_congr hr _)⟩

/-- A field of PWR_STAT above PLK_LOST. -/
theorem setStat (h : LinkKept s t) {lo w v : Nat} (hlo : 1 ≤ lo) : LinkKept s (t.setFld ⟨Reg.PWR_PWR_STAT, lo, w⟩ v) := by
  refine h.trans ⟨fun a ha => ?_, rfl, congrArg (· != 0) (State.fld_setFld_ne _ _ _ _ (.inr ⟨.inl hlo, by simp⟩))⟩
  exact t.rd_setFld_ne _ _ fun hx => ha (hx ▸ List.mem_cons_self)

theorem setPow {p : Power} (h : LinkKept s t) (hb : p.brs = t.pow.brs) : LinkKept s (t.setPow p) := h.same rfl hb

theorem setPlkSrc {src : Nat} {p : PlkSrc} (h : LinkKept s t) : LinkKept s (t.setPlkSrc src p) := h.setPow rfl

theorem setTwin {w : Twin} (h : LinkKept s t) : LinkKept s { t with twin := w } := h.same rfl rfl

theorem plkOut {src : Nat} {m r : List Byte} (h : LinkKept s t) : LinkKept s (t.plkOut src m r) := h.same rfl rfl

theorem powEvent (h : LinkKept s t) {code path arg : Nat} {level : Bool} : LinkKept s (t.powEvent code path level arg) := by
  have hbump : LinkKept t (t.bump Reg.PWR_EVQ_LOST) :=
    ⟨fun a ha => t.rd_bump_ne fun hx => ha (by simp [hx]), rfl, State.flag_congr (t.rd_bump_ne (by decide))⟩
  simp only [State.powEvent]
  split
  · exact h.same rfl rfl
  · exact (h.trans hbump).same rfl rfl

theorem ite {c : Prop} [Decidable c] (ht : LinkKept s t) (hu : LinkKept s u) : LinkKept s (if c then t else u) := by
  split
  · exact ht
  · exact hu

theorem brState_eq (h : LinkKept s t) (n : Nat) : t.brState n = s.brState n :=
  State.fld_congr (h.regs _ (by simp only [List.mem_cons, List.not_mem_nil, or_false, Reg.BR_BR_STAT, Reg.PWR_PWR_STAT, Reg.PWR_EVQ_LOST]; omega))

end LinkKept

theorem State.plkValid_kept (s : State) (src : Nat) (act : Bool) : LinkKept s (s.plkValid src act) := by
  have hover : LinkKept s (if s.pow.hold then (s.setPow { s.pow with hold := false, holdEnd := none }).powEvent 0xA 2 false 0 else s) :=
    LinkKept.ite ((LinkKept.refl s).setPow (by rfl)).powEvent (.refl s)
  exact .ite
    (.setStat (.setStat (.setPow (.ite (.setPow hover.setPlkSrc (by rfl)) (.setTwin (.setPow hover.setPlkSrc (by rfl)))) (by rfl)) (by simp)) (by simp))
    (.ite (.setPow hover.setPlkSrc (by rfl)) (.setTwin (.setPow hover.setPlkSrc (by rfl))))

/-- A valid answer over a link that was not lost. -/
theorem State.plkAnswered_kept (h : s.flag Fd.PWR_PWR_STAT_PLK_LOST = false) : LinkKept s s.plkAnswered := by
  have hno : ¬State.flag { s with anat := { s.anat with plkFailRun := 0 } } Fd.PWR_PWR_STAT_PLK_LOST = true :=
    fun hx => Bool.false_ne_true (h.symm.trans hx)
  rw [State.plkAnswered]
  exact (if_neg hno).symm ▸ (LinkKept.refl s).same rfl rfl

/-! ### What the die does with the command (13 R329) -/

theorem State.brOff_done (s : State) (n : Nat) : (s.brOff n 0).brState n = 0 ∧ (s.brOff n 0).fld (Fd.BR_BR_STAT_RETRY_COUNT n) = 0 ∧
    (s.brOff n 0).flag (Fd.BR_BR_STAT_PG n) = false ∧ ((s.brOff n 0).br n).offEnd = none := by
  have hevent : BranchKept [] [Reg.PWR_EVQ_LOST] n ((s.gateOff n).setBrState n 0)
      (((s.gateOff n).setBrState n 0).powEvent 0x2 (brPath n) false 0) := (BranchKept.refl _ _ n _).powEvent (by simp)
  have hoff : BranchKept [(0, 3), (8, 8)] [Reg.PWR_EVQ_LOST] n (s.gateOff n) (s.brOff n 0) :=
    (((BranchKept.refl _ _ n _).setStat (by decide) (by simp)).powEvent (by simp)).setStat (by decide) (by simp)
  have hcount : BranchKept [(8, 8)] [] n (((s.gateOff n).setBrState n 0).powEvent 0x2 (brPath n) false 0) (s.brOff n 0) :=
    (BranchKept.refl _ _ n _).setStat (by decide) (by simp)
  refine ⟨?_, State.fld_setFld_fits _ (by simp) (by simp), (hoff.flag_eq (by decide) (by simp)).trans (s.gateOff_pg n), ?_⟩
  · rw [hcount.brState_eq (by simp), hevent.brState_eq (by simp)]
    exact State.fld_setFld_fits _ (by simp) (by simp)
  · have hbr : (s.brOff n 0).br n = (s.gateOff n).br n := State.powEvent_br _ _ _ _ _ n
    rw [hbr, s.gateOff_br]

/-- The registers of a branch that a command to it can change. -/
theorem State.brCommand_regs (s : State) (n : Nat) (on restart : Bool) :
    SameRegs [Reg.BR_BR_STAT n, Reg.BR_PG_LOSS_CNT n, Reg.PWR_EVQ_LOST] s (s.brCommand n on restart) := by
  have hs := BranchKept.refl [(0, 3), (3, 1), (8, 8)] [Reg.BR_PG_LOSS_CNT n, Reg.PWR_EVQ_LOST] n s
  have hcount {v : Nat} := hs.setStat (lo := 8) (w := 8) (v := v) (by decide) (by simp)
  have hstart {t : State} (h : BranchKept [(0, 3), (3, 1), (8, 8)] [Reg.BR_PG_LOSS_CNT n, Reg.PWR_EVQ_LOST] n s t) :=
    h.trans ((t.brStart_kept n).mono (by simp) (by simp))
  have hoff : BranchKept [(0, 3), (3, 1), (8, 8)] [Reg.BR_PG_LOSS_CNT n, Reg.PWR_EVQ_LOST] n s (s.brOff n 0) :=
    ((((s.gateOff_kept n).mono (by simp) (by simp)).setStat (by decide) (by simp)).powEvent (by simp)).setStat (by decide) (by simp)
  exact (BranchKept.ite hoff (.ite (hstart (hs.onlyIf hcount)) (.ite (hstart hcount) hs))).regs

/-- ON starts an OFF branch, RESTART a latched or waiting one too, with RETRY_COUNT 0. -/
theorem State.brCommand_starts (s : State) (n : Nat) (restart : Bool)
    (h : s.brState n = 0 ∨ restart = true ∧ (s.brState n = 4 ∨ s.brState n = 5)) :
    (s.brCommand n true restart).brState n = 1 ∧
    (s.brCommand n true restart).fld (Fd.BR_BR_STAT_RETRY_COUNT n) = if restart then 0 else s.fld (Fd.BR_BR_STAT_RETRY_COUNT n) := by
  have heq : s.brCommand n true restart = (s.onlyIf restart (State.setFld (Fd.BR_BR_STAT_RETRY_COUNT n) 0)).brStart n := by
    simp only [State.brCommand, Bool.not_true, Bool.false_eq_true, if_false]
    split
    next => rfl
    next h0 =>
      obtain ⟨rfl, hst⟩ := h.resolve_left h0
      exact if_pos ⟨rfl, hst⟩
  rw [heq]
  refine ⟨(State.brStart_done _ n).1, ((State.brStart_kept _ n).fld_eq (by decide) (by simp)).trans ?_⟩
  cases restart
  · rfl
  · exact State.fld_setFld_fits _ (by simp) (by simp)

theorem State.brCommand_stays (s : State) (n : Nat) (restart : Bool) (h0 : s.brState n ≠ 0)
    (h : restart = true → s.brState n ≠ 4 ∧ s.brState n ≠ 5) : s.brCommand n true restart = s := by
  have hno : ¬(restart = true ∧ (s.brState n = 4 ∨ s.brState n = 5)) := fun ⟨hr, hst⟩ => hst.elim (h hr).1 (h hr).2
  simp only [State.brCommand, Bool.not_true, Bool.false_eq_true, if_false, h0, hno]

/-! ### A write of BR_CTL over the link (13 R341, R343) -/

/-- One half of a register sent in a transaction, and its answer. -/
def State.linkHalf (src : Nat) (act : Bool) (b : Nat) (d : BitVec 16) (s : State) : Nat × State :=
  let (r, u) := (s.plkValid src act).dieWrite src b false d
  (r, (u.plkOut src ([plkCmd 2 act src b, BitVec.ofNat 8 b] ++ beBytes 2 d.toNat) [BitVec.ofNat 8 r]).plkAnswered)

theorem State.linkTry_eq (a : Nat) (w : Word) (h : s.actClash s.ownSrc s.ownAct = false) : s.linkTry a w =
    let p := s.linkHalf s.ownSrc s.ownAct (a / 2) (w.extractLsb' 0 16)
    if p.1 ≠ 0 then p else p.2.linkHalf s.ownSrc s.ownAct (a / 2 + 1) (w.extractLsb' 16 16) := by
  simp only [State.linkTry, h]
  rfl

theorem State.powEvent_srcs (s : State) (code path arg : Nat) (level : Bool) : (s.powEvent code path level arg).pow.srcs = s.pow.srcs := by
  simp only [State.powEvent]
  split <;> rfl

theorem State.plkSrc_congr (h : t.pow.srcs = s.pow.srcs) (src : Nat) : t.plkSrc src = s.plkSrc src :=
  congrArg (fun l => Tab.get ({} : PlkSrc) l src) h

theorem State.plkSrc_setPlkSrc_same (s : State) (src : Nat) (p : PlkSrc) : (s.setPlkSrc src p).plkSrc src = p := Tab.get_set_same _ _ _ _

/-- A transaction keeps the buffered half. -/
theorem State.plkValid_low (s : State) (src : Nat) (act : Bool) : ((s.plkValid src act).plkSrc src).low = (s.plkSrc src).low := by
  have hover : (if s.pow.hold then (s.setPow { s.pow with hold := false, holdEnd := none }).powEvent 0xA 2 false 0 else s).plkSrc src =
      s.plkSrc src := by
    split
    · exact State.plkSrc_congr (State.powEvent_srcs _ _ _ _ _) src
    · rfl
  rw [← hover, State.plkValid]
  generalize (if s.pow.hold then (s.setPow { s.pow with hold := false, holdEnd := none }).powEvent 0xA 2 false 0 else s) = u
  have hset : ((u.setPlkSrc src { u.plkSrc src with valid := some u.clk, held := false }).plkSrc src).low = (u.plkSrc src).low := by
    rw [State.plkSrc_setPlkSrc_same]
  dsimp only
  split <;> split <;> exact hset

theorem State.plkAnswered_low (h : s.flag Fd.PWR_PWR_STAT_PLK_LOST = false) (src : Nat) : s.plkAnswered.plkSrc src = s.plkSrc src := by
  have hno : ¬State.flag { s with anat := { s.anat with plkFailRun := 0 } } Fd.PWR_PWR_STAT_PLK_LOST = true :=
    fun hx => Bool.false_ne_true (h.symm.trans hx)
  rw [State.plkAnswered]
  exact (if_neg hno).symm ▸ rfl

/-- The low half is buffered. -/
theorem State.linkHalf_low (src : Nat) (act : Bool) {b : Nat} (d : BitVec 16) (hb : b % 2 = 0)
    (hl : s.flag Fd.PWR_PWR_STAT_PLK_LOST = false) : (s.linkHalf src act b d).1 = 0 ∧ LinkKept s (s.linkHalf src act b d).2 ∧
    ((s.linkHalf src act b d).2.plkSrc src).low = some (b, d) := by
  have hwrite : (s.plkValid src act).dieWrite src b false d =
      (0, (s.plkValid src act).setPlkSrc src { (s.plkValid src act).plkSrc src with low := some (b, d) }) := by
    rw [State.dieWrite, if_neg Bool.false_ne_true]
    exact if_pos hb
  have hsent := ((s.plkValid_kept src act).setPlkSrc (src := src) (p := { (s.plkValid src act).plkSrc src with low := some (b, d) })).plkOut
    (src := src) (m := [plkCmd 2 act src b, BitVec.ofNat 8 b] ++ beBytes 2 d.toNat) (r := [BitVec.ofNat 8 0])
  rw [State.linkHalf, hwrite]
  refine ⟨rfl, hsent.trans (State.plkAnswered_kept (hsent.lost.trans hl)), ?_⟩
  rw [State.plkAnswered_low (hsent.lost.trans hl)]
  exact congrArg PlkSrc.low (State.plkSrc_setPlkSrc_same _ src _)

/-- The high half applies the register. -/
theorem State.linkHalf_high (src : Nat) (act : Bool) {b : Nat} {v : BitVec 16} (d : BitVec 16) (hb : b % 2 = 0)
    (hlow : (s.plkSrc src).low = some (b, v)) : ∃ t, LinkKept s t ∧ s.linkHalf src act (b + 1) d =
      ((t.dieApply ((b + 1) / 2 * 4) (d ++ v)).1, ((t.dieApply ((b + 1) / 2 * 4) (d ++ v)).2.plkOut src
        ([plkCmd 2 act src (b + 1), BitVec.ofNat 8 (b + 1)] ++ beBytes 2 d.toNat)
        [BitVec.ofNat 8 (t.dieApply ((b + 1) / 2 * 4) (d ++ v)).1]).plkAnswered) := by
  have hodd : ¬(b + 1) % 2 = 0 := by omega
  refine ⟨(s.plkValid src act).setPlkSrc src { (s.plkValid src act).plkSrc src with low := none }, (s.plkValid_kept src act).setPlkSrc, ?_⟩
  have hwrite : (s.plkValid src act).dieWrite src (b + 1) false d =
      ((s.plkValid src act).setPlkSrc src { (s.plkValid src act).plkSrc src with low := none }).dieApply ((b + 1) / 2 * 4) (d ++ v) := by
    rw [State.dieWrite, if_neg Bool.false_ne_true]
    dsimp only
    rw [if_neg hodd, s.plkValid_low, hlow]
    dsimp only
    rw [if_pos rfl]
  rw [State.linkHalf, hwrite]

/-! ### BR_CTL -/

theorem brCtl_offset : ∀ n < 16, dieReg (0x1000 + 0x100 * n) = true ∧ (0x1000 + 0x100 * n) % 0x100 = 0 := by decide

theorem State.pwrInRange_brCtl (s : State) (hn : n < 16) (w : Word) : s.pwrInRange (0x1000 + 0x100 * n) w = true := by
  obtain ⟨-, hoff⟩ := brCtl_offset n hn
  have hlow : ¬0x1000 + 0x100 * n < 0x300 := by omega
  have hhigh : 0x1000 ≤ 0x1000 + 0x100 * n := by omega
  simp [State.pwrInRange, hoff, hlow, hhigh]

theorem State.dieApply_brCtl (s : State) (hn : n < 16) (w : Word) : s.dieApply (0x1000 + 0x100 * n) w =
    (0, (s.wr (Reg.BR_BR_CTL n) (w &&& 0x9#32)).brCommand n (w.getLsbD 0) (w.getLsbD 1)) := by
  obtain ⟨hreg, hoff⟩ := brCtl_offset n hn
  have hblock : (0x1000 + 0x100 * n - 0x1000) / 0x100 = n := by omega
  have haddr : 0xF0000 + (0x1000 + 0x100 * n) = Reg.BR_BR_CTL n := by
    simp only [Reg.BR_BR_CTL]
    omega
  have hlow : ¬0x1000 + 0x100 * n < 0x200 := by omega
  have hhold : ¬0x1000 + 0x100 * n = 0x404 := by omega
  have hhigh : 0x1000 ≤ 0x1000 + 0x100 * n := by omega
  simp only [State.dieApply, hreg, s.pwrInRange_brCtl hn w, hoff, hblock, haddr, hlow, hhold, hhigh, Bool.not_true, Bool.or_false,
    Bool.false_eq_true, if_false, if_true, OfNat.zero_ne_ofNat]

/-- Over a working link with no other owner both halves reach the die, which runs the command. -/
theorem State.brCtl_runs (hn : n < 16) (w : Word) (hs : s.asleepOrLoading = false) (hup : s.pow.up = true)
    (hl : s.flag Fd.PWR_PWR_STAT_PLK_LOST = false) (hc : s.actClash s.ownSrc s.ownAct = false) :
    ∃ t u, LinkKept s t ∧ s.brCtl n w = (.ok, u) ∧
      LinkKept ((t.wr (Reg.BR_BR_CTL n) (w &&& 0x9#32)).brCommand n (w.getLsbD 0) (w.getLsbD 1)) u := by
  have hrefuse : s.pwrRefuses (0x1000 + 0x100 * n) = false := by simp [State.pwrRefuses, hl, hup]
  have haddr : (0x1000 + 0x100 * n) / 2 % 2 = 0 ∧ ((0x1000 + 0x100 * n) / 2 + 1) / 2 * 4 = 0x1000 + 0x100 * n := by omega
  obtain ⟨hfirst, hkept, hlow⟩ := State.linkHalf_low s.ownSrc s.ownAct (w.extractLsb' 0 16) haddr.1 hl
  obtain ⟨t, ht, hsecond⟩ := State.linkHalf_high s.ownSrc s.ownAct (w.extractLsb' 16 16) haddr.1 hlow
  have hword : w.extractLsb' 16 16 ++ w.extractLsb' 0 16 = w := by
    rw [BitVec.extractLsb'_append_extractLsb'_eq_extractLsb' (by rfl), BitVec.extractLsb'_eq_self]
  rw [haddr.2, hword, t.dieApply_brCtl hn] at hsecond
  have hlost : ((t.wr (Reg.BR_BR_CTL n) (w &&& 0x9#32)).brCommand n (w.getLsbD 0) (w.getLsbD 1)).flag Fd.PWR_PWR_STAT_PLK_LOST = false := by
    have hcmd := State.brCommand_regs (t.wr (Reg.BR_BR_CTL n) (w &&& 0x9#32)) n (w.getLsbD 0) (w.getLsbD 1)
    have hother : Reg.PWR_PWR_STAT ∉ [Reg.BR_BR_STAT n, Reg.BR_PG_LOSS_CNT n, Reg.PWR_EVQ_LOST] ∧ Reg.PWR_PWR_STAT ≠ Reg.BR_BR_CTL n := by
      simp only [List.mem_cons, List.not_mem_nil, or_false, Reg.PWR_PWR_STAT, Reg.BR_BR_STAT, Reg.BR_PG_LOSS_CNT, Reg.PWR_EVQ_LOST,
        Reg.BR_BR_CTL]
      omega
    rw [State.flag_congr (hcmd _ hother.1), State.flag_congr (t.rd_wr_ne _ hother.2), ht.lost, hkept.lost, hl]
  have hsent := ((LinkKept.refl ((t.wr (Reg.BR_BR_CTL n) (w &&& 0x9#32)).brCommand n (w.getLsbD 0) (w.getLsbD 1))).plkOut
    (src := s.ownSrc) (m := [plkCmd 2 s.ownAct s.ownSrc ((0x1000 + 0x100 * n) / 2 + 1), BitVec.ofNat 8 ((0x1000 + 0x100 * n) / 2 + 1)] ++
      beBytes 2 (w.extractLsb' 16 16).toNat) (r := [BitVec.ofNat 8 0]))
  refine ⟨t, _, hkept.trans ht, ?_, hsent.trans (State.plkAnswered_kept (hsent.lost.trans hlost))⟩
  have htry := (State.linkTry_eq (0x1000 + 0x100 * n) w hc).trans ((if_neg fun h => h hfirst).trans hsecond)
  have hwrite : s.linkWrite (0x1000 + 0x100 * n) w = s.linkTry (0x1000 + 0x100 * n) w := by
    rw [State.linkWrite, State.linkRepeat, htry]
    exact if_neg fun h => Nat.zero_ne_one h.1
  simp only [State.brCtl, State.pwrWrite, (brCtl_offset n hn).1, hrefuse, hs, s.pwrInRange_brCtl hn w, hwrite, htry, Bool.not_true,
    Bool.or_false, Bool.false_eq_true, if_false, if_true, Option.getD_some]

/-- What a command leaves in the branch's registers, from what the die made of it. -/
structure BranchAfter (n : Nat) (w : Word) (s u : State) : Prop where
  keep : u.flag (Fd.BR_BR_CTL_HOLD_KEEP n) = w.getLsbD 3
  off : w.getLsbD 0 = false → u.brState n = 0 ∧ u.fld (Fd.BR_BR_STAT_RETRY_COUNT n) = 0 ∧ u.flag (Fd.BR_BR_STAT_PG n) = false ∧
    (u.br n).offEnd = none
  starts : w.getLsbD 0 = true → s.brState n = 0 ∨ w.getLsbD 1 = true ∧ (s.brState n = 4 ∨ s.brState n = 5) → u.brState n = 1 ∧
    u.fld (Fd.BR_BR_STAT_RETRY_COUNT n) = if w.getLsbD 1 then 0 else s.fld (Fd.BR_BR_STAT_RETRY_COUNT n)
  stays : w.getLsbD 0 = true → s.brState n ≠ 0 → (w.getLsbD 1 = true → s.brState n ≠ 4 ∧ s.brState n ≠ 5) →
    u.brState n = s.brState n ∧ u.fld (Fd.BR_BR_STAT_RETRY_COUNT n) = s.fld (Fd.BR_BR_STAT_RETRY_COUNT n)

theorem LinkKept.fld_eq (h : LinkKept s t) {x : Fld} (hx : x.reg = Reg.BR_BR_STAT n ∨ x.reg = Reg.BR_BR_CTL n) : t.fld x = s.fld x := by
  refine State.fld_congr (h.regs _ ?_)
  simp only [List.mem_cons, List.not_mem_nil, or_false, Reg.BR_BR_STAT, Reg.BR_BR_CTL, Reg.PWR_PWR_STAT, Reg.PWR_EVQ_LOST] at hx ⊢
  omega

/-- Before and after the die's own work the link changes nothing of the branch. -/
theorem BranchAfter.of_link {w : Word} (ht : LinkKept s t)
    (hu : LinkKept ((t.wr (Reg.BR_BR_CTL n) (w &&& 0x9#32)).brCommand n (w.getLsbD 0) (w.getLsbD 1)) u) : BranchAfter n w s u := by
  set v := t.wr (Reg.BR_BR_CTL n) (w &&& 0x9#32) with hv
  have hstat {lo k : Nat} : v.fld ⟨Reg.BR_BR_STAT n, lo, k⟩ = s.fld ⟨Reg.BR_BR_STAT n, lo, k⟩ :=
    (State.fld_congr (t.rd_wr_ne _ (by simp))).trans (ht.fld_eq (.inl rfl))
  have hafter {lo k : Nat} : u.fld ⟨Reg.BR_BR_STAT n, lo, k⟩ = (v.brCommand n (w.getLsbD 0) (w.getLsbD 1)).fld ⟨Reg.BR_BR_STAT n, lo, k⟩ :=
    hu.fld_eq (.inl rfl)
  have hst : v.brState n = s.brState n := hstat
  refine ⟨?_, fun hon => ?_, fun hon hs => ?_, fun hon h0 hs => ?_⟩
  · have hother : Reg.BR_BR_CTL n ∉ [Reg.PWR_PWR_STAT, Reg.PWR_EVQ_LOST] ∧
        Reg.BR_BR_CTL n ∉ [Reg.BR_BR_STAT n, Reg.BR_PG_LOSS_CNT n, Reg.PWR_EVQ_LOST] := by
      simp only [List.mem_cons, List.not_mem_nil, or_false, Reg.PWR_PWR_STAT, Reg.BR_BR_STAT, Reg.BR_PG_LOSS_CNT, Reg.PWR_EVQ_LOST,
        Reg.BR_BR_CTL]
      omega
    have hctl : u.rd (Reg.BR_BR_CTL n) = w &&& 0x9#32 := by
      rw [hu.regs _ hother.1, State.brCommand_regs v _ _ _ _ hother.2, hv, State.rd_wr_same]
    rw [State.flag_bit, hctl]
    simp
  · obtain ⟨hstate, hretry, hpg, hoff⟩ := v.brOff_done n
    have hcmd : v.brCommand n (w.getLsbD 0) (w.getLsbD 1) = v.brOff n 0 := by rw [hon]; rfl
    rw [hcmd] at hu
    exact ⟨(hu.brState_eq n).trans hstate, (hu.fld_eq (.inl rfl)).trans hretry, (congrArg (· != 0) (hu.fld_eq (.inl rfl))).trans hpg,
      (congrArg BrState.offEnd (State.br_congr hu.brs n)).trans hoff⟩
  · obtain ⟨hstate, hretry⟩ := v.brCommand_starts n (w.getLsbD 1) (hst ▸ hs)
    rw [hon] at hu
    exact ⟨(hu.brState_eq n).trans hstate, (hu.fld_eq (.inl rfl)).trans (hstat (lo := 8) (k := 8) ▸ hretry)⟩
  · rw [hon, v.brCommand_stays n _ (hst ▸ h0) (hst ▸ hs)] at hu
    exact ⟨(hu.brState_eq n).trans hst, (hu.fld_eq (.inl rfl)).trans hstat⟩

/-- A command with the word `w` to a branch is carried out and answered. -/
theorem State.brCtl_command (hn : n < 16) (w : Word) (ht : s.takes none = true) (hs : s.asleepOrLoading = false) (hup : s.pow.up = true)
    (hl : s.flag Fd.PWR_PWR_STAT_PLK_LOST = false) (hc : s.actClash s.ownSrc s.ownAct = false) :
    ∃ u, s.command none (fun t => t.brCtl n w) = u ∧ u.out.head? = some (.answer .ok) ∧ BranchAfter n w s u := by
  obtain ⟨t, u, hst, hcmd, htu⟩ := s.brCtl_runs hn w hs hup hl hc
  refine ⟨_, State.command_takes none _ ht, ?_, .of_link hst (htu.same ?_ ?_)⟩ <;> rw [hcmd] <;> rfl

end Sys2Proof.Machine
end

section
open Sys2Proof.Machine

/-- Settles O43: each event moves only the branch's own fields; a command reaches the die in two halves over the working link and the
die runs it there. -/
theorem branches : Obligations.Branches := by
  unfold Obligations.Branches
  refine ⟨fun s n c hc => ?_, fun s n hst => ⟨?_, fun a ha => ?_⟩, fun s n hon => ⟨?_, fun hno => ?_⟩, fun s n a ha => ⟨?_, ?_⟩,
    fun s n a => ⟨fun h => ?_, fun h => ?_, fun h => ?_, fun h hon hno hpg => ?_⟩, fun s n hb hpg => ?_,
    fun s n keep ht hs hup hl hc _ => ⟨?_, ?_, ?_⟩⟩
  · obtain ⟨hpg, htripped, hcause, hretry⟩ := s.trip_marks n.val (show c < 4 by omega)
    obtain ⟨htrip, hfast, hstart⟩ := s.noteTrip_counts n.val c
    refine ⟨hpg, htripped, hcause, hretry, s.trip_limitAt n.val c, (s.trip_counter n.val c (by simp)).trans htrip,
      fun h => (s.trip_counter n.val c (by simp)).trans (hfast h), fun h => (s.trip_counter n.val c (by simp)).trans (hstart h),
      fun h hm => ?_, fun h => ?_, s.trip_regs n.val c, SameBytes.of_mem ((s.trip_kept n.val c).mem.trans (s.noteTrip_kept n.val c).mem)⟩
    · obtain ⟨hstate, hbr, hlatch⟩ := State.trip_latches (c := c) h hm
      exact ⟨hstate, by rw [hbr, s.gateOff_br], hlatch⟩
    · obtain ⟨hstate, hbr⟩ := State.trip_waits (c := c) h
      exact ⟨hstate, congrArg BrState.offEnd hbr⟩
  · obtain ⟨hstate, hat, hkept⟩ := State.softStartEnd_done hst
    exact ⟨_, rfl, hstate, hat, hkept.regs, hkept.bytes⟩
  · exact congrArg Host.Outcome.next (by rw [State.softStartTimeout, ha]; exact if_pos hst)
  · exact congrArg Host.Outcome.next (if_pos hon)
  · have hkept := State.limitBegin_kept hon hno
    have hstate := State.limitBegin_brState hon hno
    have hbr := State.limitBegin_br hon hno
    refine ⟨_, rfl, ?_, ?_, fun h2 => ?_, fun h1 => ?_, hkept.regs, hkept.bytes⟩
    · rw [hbr, State.limits, State.br_setBr_same]
    · rw [hbr, State.limits, State.br_setBr_same]
      rfl
    · rw [hstate, if_pos h2]
    · rw [hstate, h1, if_neg (by decide)]
  · obtain ⟨hlimit, hfault, hstate, hkept⟩ := State.limitEnd_done ha
    exact ⟨_, rfl, hlimit, hfault, hstate, hkept.regs, hkept.bytes⟩
  · exact congrArg Host.Outcome.next (State.faultExpiry_eq ha)
  · exact ⟨_, rfl, State.faultClear_done h⟩
  · obtain ⟨hstate, hretry, hstart, hkept⟩ := State.offTimeEnd_done h
    exact ⟨_, rfl, hstate, hretry, hstart, hkept.afterToClk⟩
  · obtain ⟨hretry, hstate, hclk, hkept⟩ := State.clearTimeEnd_done h
    exact ⟨_, rfl, hretry, hstate, hclk, hkept.afterToClk⟩
  · obtain ⟨hup, hclk, hkept⟩ := State.pgRise_done h hon hno hpg
    exact ⟨_, rfl, hup, hclk, hkept.afterToClk⟩
  · have hkept := s.pgFall_kept n.val
    exact ⟨_, congrArg Host.Outcome.next (if_pos hb), s.pgFall_pg n.val, State.pgFall_count hpg, hkept.regs, hkept.bytes⟩
  · obtain ⟨u, hu, hout, hdone⟩ := State.brCtl_command n.isLt (if keep then 9#32 else 1#32) ht hs hup hl hc
    have hbits : (if keep then 9#32 else 1#32).getLsbD 0 = true ∧ (if keep then 9#32 else 1#32).getLsbD 1 = false ∧
        (if keep then 9#32 else 1#32).getLsbD 3 = keep := by cases keep <;> decide
    refine ⟨u, congrArg Host.Outcome.next hu, hout, hdone.keep.trans hbits.2.2, ?_⟩
    by_cases h0 : s.brState n.val = 0
    · obtain ⟨hstate, hretry⟩ := hdone.starts hbits.1 (.inl h0)
      rw [hbits.2.1] at hretry
      exact ⟨hretry, by rw [hstate, if_pos h0]⟩
    · obtain ⟨hstate, hretry⟩ := hdone.stays hbits.1 h0 fun h => absurd (hbits.2.1.symm.trans h) Bool.false_ne_true
      exact ⟨hretry, by rw [hstate, if_neg h0]⟩
  · obtain ⟨u, hu, hout, hdone⟩ := State.brCtl_command n.isLt (if keep then 8#32 else 0#32) ht hs hup hl hc
    have hbits : (if keep then 8#32 else 0#32).getLsbD 0 = false ∧ (if keep then 8#32 else 0#32).getLsbD 3 = keep := by
      cases keep <;> decide
    exact ⟨u, congrArg Host.Outcome.next hu, hout, hdone.keep.trans hbits.2, hdone.off hbits.1⟩
  · obtain ⟨u, hu, hout, hdone⟩ := State.brCtl_command n.isLt (if keep then 11#32 else 3#32) ht hs hup hl hc
    have hbits : (if keep then 11#32 else 3#32).getLsbD 0 = true ∧ (if keep then 11#32 else 3#32).getLsbD 1 = true := by
      cases keep <;> decide
    refine ⟨u, congrArg Host.Outcome.next hu, hout, fun hst => ?_, fun hst => ?_⟩
    · obtain ⟨hstate, hretry⟩ := hdone.starts hbits.1 (hst.imp_right fun h => ⟨hbits.2, h⟩)
      rw [hbits.2] at hretry
      exact ⟨hstate, hretry⟩
    · exact hdone.stays hbits.1 (by omega) fun _ => by omega

end

section
/-!
SUPPORT. Update sessions: what a change of the session's state and the end of a session leave in the registers.
-/

namespace Sys2Proof.Machine

variable {s : State}

/-! ### The state of a session (17 R428) -/

theorem State.setSession_kept (s : State) (n e r : Nat) : JournalKept stationRegs
    (((s.setFld Fd.UPD_UPD_STAT_STATE n).setFld Fd.UPD_UPD_STAT_LAST_END e).setFld Fd.UPD_UPD_STAT_REJECT r) (s.setSession n e r) :=
  .ite (State.stationEvent_kept _ _ _) (.refl _ _)

theorem State.setSession_fld (s : State) (n e r : Nat) (x : Fld) (hx : x.reg = Reg.UPD_UPD_STAT) : (s.setSession n e r).fld x =
    (((s.setFld Fd.UPD_UPD_STAT_STATE n).setFld Fd.UPD_UPD_STAT_LAST_END e).setFld Fd.UPD_UPD_STAT_REJECT r).fld x :=
  State.fld_congr ((s.setSession_kept n e r).1 _ (by rw [hx]; decide))

theorem State.setSession_fields (s : State) {n e r : Nat} (hn : n < 16) (he : e < 16) (hr : r < 16) : (s.setSession n e r).updState = n ∧
    (s.setSession n e r).fld Fd.UPD_UPD_STAT_LAST_END = e ∧ (s.setSession n e r).fld Fd.UPD_UPD_STAT_REJECT = r := by
  refine ⟨(s.setSession_fld n e r _ rfl).trans ?_, (s.setSession_fld n e r _ rfl).trans ?_, (s.setSession_fld n e r _ rfl).trans ?_⟩
  · rw [State.fld_setFld_ne _ _ _ _ (.inr (by decide)), State.fld_setFld_ne _ _ _ _ (.inr (by decide)), State.fld_setFld_fits _ (by decide) hn]
  · rw [State.fld_setFld_ne _ _ _ _ (.inr (by decide)), State.fld_setFld_fits _ (by decide) he]
  · exact State.fld_setFld_fits _ (by decide) hr

theorem State.setUpdState_updState (s : State) {n : Nat} (hn : n < 16) : (s.setUpdState n).updState = n :=
  (s.setSession_fields hn (State.fld_lt _ _) (State.fld_lt _ _)).1

/-! ### The end of a session (17 R428, R430) -/

/-- The registers cleared after UPD_STAT when a session ends. -/
def endRegs : List Nat :=
  [Reg.UPD_UPD_OWNER, Reg.UPD_UPD_TOTAL] ++ (List.range 8).map Reg.UPD_DIGEST ++
    [Reg.UPD_ACT_AT_LO, Reg.UPD_ACT_AT_HI, Reg.UPD_OPENED_LO, Reg.UPD_OPENED_HI]

/-- A session that ends, with its end and reject code in UPD_STAT. -/
def State.endStat (e r : Nat) (s : State) : State :=
  let s := s.nvPut (mapBase + 68) (leBytes 4 (e + 16 * r))
  let s := s.onlyIf (e == 2) (·.bump Reg.UPD_SESSION_REJECT)
  let s := s.onlyIf (e == 4) (·.bump Reg.UPD_SESSION_EXPIRE)
  let s := s.setSession 0 e r
  ((s.off Fd.UPD_UPD_STAT_OWNER).off Fd.UPD_UPD_STAT_IMG_TYPE).off Fd.UPD_UPD_STAT_N_HELD

/-- The rest of its registers. -/
def State.endRest (s : State) : State :=
  let s := ((s.wr Reg.UPD_UPD_OWNER 0#32).wr Reg.UPD_UPD_TOTAL 0#32).setDigest (List.replicate 32 0#8)
  (s.wr64 Reg.UPD_ACT_AT_LO Reg.UPD_ACT_AT_HI 0).wr64 Reg.UPD_OPENED_LO Reg.UPD_OPENED_HI 0

/-- No assembly is left of a session that ended. -/
def State.dropAsm (s : State) : State := { s with upd := { s.upd with asm := [], resumed := none } }

theorem State.dropAsm_left (s : State) : s.dropAsm.regs = s.regs ∧ s.dropAsm.mem = s.mem ∧ s.dropAsm.upd.asm = [] := ⟨rfl, rfl, rfl⟩

theorem State.endSession_eq (s : State) (e r : Nat) : s.endSession e r = (s.endStat e r).endRest.dropAsm := rfl

/-- Writing one value to a list of registers. -/
theorem State.rd_forEach_wr {js : List Nat} {reg : Nat → Nat} {f : Nat → Word} {v : Word} (hf : ∀ j ∈ js, f j = v) (s : State) (a : Nat) :
    (s.forEach js fun j t => t.wr (reg j) (f j)).rd a = if a ∈ js.map reg then v else s.rd a := by
  induction js generalizing s with
  | nil => rfl
  | cons j js ih =>
    have hstep := ih (fun k hk => hf k (List.mem_cons_of_mem j hk)) (s.wr (reg j) (f j))
    rw [State.forEach, List.foldl_cons]
    refine hstep.trans ?_
    rw [State.rd_wr, hf j List.mem_cons_self]
    by_cases hmem : a ∈ js.map reg
    · simp [hmem]
    · simp [hmem]

/-- The digest registers of a session that ended. -/
theorem State.rd_setDigest_zero (s : State) (a : Nat) :
    (s.setDigest (List.replicate 32 0#8)).rd a = if a ∈ (List.range 8).map Reg.UPD_DIGEST then 0#32 else s.rd a :=
  State.rd_forEach_wr (by decide) s a

theorem State.endRest_kept (s : State) : SameRegs endRegs s s.endRest := by
  intro a ha
  simp only [endRegs, List.mem_append, not_or] at ha
  obtain ⟨⟨hfirst, hdigest⟩, hlast⟩ := ha
  simp only [List.mem_cons, List.not_mem_nil, or_false, not_or] at hfirst hlast
  simp only [State.endRest, State.wr64, State.rd_wr, State.rd_setDigest_zero, hfirst, hdigest, hlast, if_false]

/-- What the cleared registers read. -/
theorem State.endRest_rd (s : State) {a : Nat} (ha : a ∈ endRegs) : s.endRest.rd a = 0#32 := by
  simp only [endRegs, List.mem_append, List.mem_cons, List.not_mem_nil, or_false] at ha
  simp only [State.endRest, State.wr64, State.rd_wr, State.rd_setDigest_zero]
  have hzero : (BitVec.ofNat 32 (0 / 2 ^ 32)) = 0#32 := rfl
  simp only [hzero]
  split_ifs <;> tauto

theorem State.setDigest_mem (s : State) (d : List Byte) : (s.setDigest d).mem = s.mem :=
  State.forEach_induct (fun t => t.mem = s.mem) _ _ _ rfl fun _ _ _ h => h

theorem State.endRest_mem (s : State) : s.endRest.mem = s.mem := by
  rw [State.endRest, State.wr64_mem, State.wr64_mem, State.setDigest_mem, State.wr_mem, State.wr_mem]

theorem State.endStat_mem (s : State) (e r : Nat) : (s.endStat e r).mem = s.mem := by
  obtain ⟨-, hm, -⟩ := State.setSession_kept
    (((s.nvPut (mapBase + 68) (leBytes 4 (e + 16 * r))).onlyIf (e == 2) (·.bump Reg.UPD_SESSION_REJECT)).onlyIf (e == 4)
      (·.bump Reg.UPD_SESSION_EXPIRE)) 0 e r
  refine hm.trans ?_
  cases e == 2 <;> cases e == 4 <;> rfl

/-- The fields of UPD_STAT of a session that ended. -/
theorem State.endStat_fields (s : State) {e r : Nat} (he : e < 16) (hr : r < 16) : (s.endStat e r).updState = 0 ∧
    (s.endStat e r).fld Fd.UPD_UPD_STAT_LAST_END = e ∧ (s.endStat e r).fld Fd.UPD_UPD_STAT_REJECT = r ∧ (s.endStat e r).updOwner = 0 ∧
    (s.endStat e r).updType = 0 ∧ (s.endStat e r).fld Fd.UPD_UPD_STAT_N_HELD = 0 := by
  simp only [State.endStat, State.updOwner, State.updType, State.updState, State.off]
  generalize ((s.nvPut (mapBase + 68) (leBytes 4 (e + 16 * r))).onlyIf (e == 2) (·.bump Reg.UPD_SESSION_REJECT)).onlyIf (e == 4)
      (·.bump Reg.UPD_SESSION_EXPIRE) = u
  obtain ⟨hstate, hend, hreject⟩ := u.setSession_fields (n := 0) (by decide) he hr
  have hne {x y : Fld} {v : State} (h : (y.lo + y.width ≤ x.lo ∨ x.lo + x.width ≤ y.lo) ∧ y.lo + y.width ≤ 32) :
      (v.setFld x 0).fld y = v.fld y := State.fld_setFld_ne _ _ _ _ (.inr h)
  refine ⟨?_, ?_, ?_, ?_, ?_, State.fld_setFld_fits _ (by decide) (by decide)⟩
  · rw [hne (by decide), hne (by decide), hne (by decide)]
    exact hstate
  · rw [hne (by decide), hne (by decide), hne (by decide), hend]
  · rw [hne (by decide), hne (by decide), hne (by decide), hreject]
  · rw [hne (by decide), hne (by decide), State.fld_setFld_fits _ (by decide) (by decide)]
  · rw [hne (by decide), State.fld_setFld_fits _ (by decide) (by decide)]

theorem State.endSession_left (s : State) (e r : Nat) : (s.endSession e r).regs = (s.endStat e r).endRest.regs ∧
    (s.endSession e r).mem = (s.endStat e r).endRest.mem ∧ (s.endSession e r).upd.asm = [] := by
  rw [s.endSession_eq]
  exact State.dropAsm_left _

theorem State.endSession_fld (s : State) (e r : Nat) {x : Fld} (hx : x.reg = Reg.UPD_UPD_STAT) :
    (s.endSession e r).fld x = (s.endStat e r).fld x := by
  exact (State.fld_congr (State.rd_congr (s.endSession_left e r).1 _)).trans
    (State.fld_congr ((s.endStat e r).endRest_kept _ (by rw [hx]; decide)))

theorem State.endSession_rd (s : State) (e r : Nat) {a : Nat} (ha : a ∈ endRegs) : (s.endSession e r).rd a = 0#32 :=
  (State.rd_congr (s.endSession_left e r).1 a).trans ((s.endStat e r).endRest_rd ha)

theorem State.endSession_rd64 (s : State) (e r : Nat) {lo hi : Nat} (hlo : lo ∈ endRegs) (hhi : hi ∈ endRegs) :
    (s.endSession e r).rd64 lo hi = 0 := by
  rw [State.rd64, s.endSession_rd e r hlo, s.endSession_rd e r hhi]
  rfl

theorem State.endSession_mem (s : State) (e r : Nat) : (s.endSession e r).mem = s.mem :=
  (s.endSession_left e r).2.1.trans ((s.endStat e r).endRest_mem.trans (s.endStat_mem e r))

theorem State.endSession_updState (s : State) {e r : Nat} (he : e < 16) (hr : r < 16) : (s.endSession e r).updState = 0 :=
  (s.endSession_fld e r rfl).trans (s.endStat_fields he hr).1

/-! ### Chunks (17 R425, R426) -/

theorem State.takeChunk_held {c man : Nat} {b : List Byte} {sig : SigCheck} {ok : Bool} (h : s.held c = true) :
    s.takeChunk c man b sig ok = s.bump Reg.UPD_CHUNK_DUP := if_pos h

section
variable {c man : Nat} {b : List Byte} {sig : SigCheck} {ok : Bool} (h : s.held c = false)
include h

theorem State.takeChunk_manifest (h1 : s.updState = 1) : s.takeChunk c man b sig ok =
    if c < man then
      if (s.storeChunk c b ok).updState = 1 ∧ (List.range man).all (s.storeChunk c b ok).held = true then (s.storeChunk c b ok).checkManifest sig
      else s.storeChunk c b ok
    else s.bump Reg.UPD_CHUNK_EARLY :=
  (if_neg (Bool.eq_false_iff.mp h)).trans (if_pos h1)

theorem State.takeChunk_unread (h1 : s.updState = 1) (hc : c < man) : s.takeChunk c man b sig false = s.endSession 2 11 := by
  have hstore : s.storeChunk c b false = s.endSession 2 11 := rfl
  rw [State.takeChunk_manifest h h1, if_pos hc, hstore]
  refine if_neg fun ⟨hs, _⟩ => ?_
  rw [s.endSession_updState (by decide) (by decide)] at hs
  exact Nat.zero_ne_one hs

theorem State.takeChunk_hash (h2 : s.updState = 2)
    (hb : sha256 b ≠ s.stagedBytes (128 + 32 * (c - s.stagedManifest.manChunks)) 32) :
    s.takeChunk c man b sig ok = s.bump Reg.UPD_CHUNK_BAD := by
  have h1 : s.updState ≠ 1 := by omega
  exact (if_neg (Bool.eq_false_iff.mp h)).trans ((if_neg h1).trans ((if_pos h2).trans (if_neg hb)))

end

/-! ### Expiry and activation (17 R428, R432) -/

theorem State.stationEvent_clocks (s : State) (code arg : Nat) :
    (s.stationEvent code arg).clk = s.clk ∧ (s.stationEvent code arg).ctr = s.ctr := by
  simp only [State.stationEvent]
  split
  · exact ⟨rfl, rfl⟩
  · split
    · simp only [State.requestWake]
      split
      · exact ⟨rfl, rfl⟩
      · split <;> exact ⟨rfl, rfl⟩
    · exact ⟨rfl, rfl⟩

theorem State.setUpdState_clocks (s : State) (n : Nat) : (s.setUpdState n).clk = s.clk ∧ (s.setUpdState n).ctr = s.ctr := by
  simp only [State.setUpdState, State.setSession]
  generalize (n != s.updState || _) = b
  cases b
  · exact ⟨rfl, rfl⟩
  · exact State.stationEvent_clocks _ _ _

theorem State.toTime_ctr (s : State) (ns : Nat) : (s.toTime ns).ctr = max s.ctr (ns * 2 ^ 32) := by
  simp only [State.toTime]
  split
  · omega
  · change ns * 2 ^ 32 = _
    omega

theorem State.startQuiesce_deadline (s : State) : s.startQuiesce.deadline .quiesce = some (s.clk + 5 * msPs) := rfl

/-- An activation starts its quiesce. -/
theorem State.activating_done (u : State) :
    let t := ((u.setUpdState 6).on Fd.SYS_MODE_STAT_ACTIVATING).startQuiesce
    t.updState = 6 ∧ t.flag Fd.SYS_MODE_STAT_ACTIVATING = true ∧ t.flag Fd.TXN_TXN_STAT_QUIESCING = true ∧ t.ctr = u.ctr ∧
      t.deadline .quiesce = some (t.clk + 5 * msPs) := by
  have hother {x y : Fld} {n : Nat} {v : State} (h : y.reg ≠ x.reg) : (v.setFld x n).fld y = v.fld y := State.fld_setFld_ne _ _ _ _ (.inl h)
  have harm {x : Fld} {v : State} : (v.arm .quiesce (5 * msPs)).fld x = v.fld x := State.fld_congr rfl
  simp only [State.startQuiesce, State.updState, State.flag, State.on, State.off]
  refine ⟨?_, ?_, ?_, (u.setUpdState_clocks 6).2, State.startQuiesce_deadline _⟩
  · rw [harm, hother (by decide), hother (by decide), hother (by decide)]
    exact u.setUpdState_updState (by decide)
  · rw [harm, hother (by decide), hother (by decide), State.fld_setFld_fits _ (by decide) (by decide)]
    rfl
  · rw [harm, State.fld_setFld_ne _ _ _ _ (.inr (by decide)), State.fld_setFld_fits _ (by decide) (by decide)]
    rfl

end Sys2Proof.Machine
end

section
/-!
SUPPORT. The events of an update session: expiry, staging, activation and ROM's recovery.
-/

namespace Sys2Proof.Machine

variable {s : State} {ok : Bool}

theorem exec_sessionExpiry {a : Nat} (hc : s.chunkService = true) (hi : s.flag Fd.TIME_TIME_STAT_INITIAL = false) (h1 : 1 ≤ s.updState)
    (h4 : s.updState ≤ 4) (ha : s.openedAt = some a) : exec .sessionExpiry s =
    .next ((s.toTime (a + s.fld Fd.UPD_UPD_CFG_EXPIRY_DAYS * 86400000000000)).endSession 4 0) := by
  have hday : 86400 * 1000000000 = 86400000000000 := rfl
  have hno : (!s.chunkService || s.flag Fd.TIME_TIME_STAT_INITIAL || s.updState == 0 || decide (5 ≤ s.updState)) = false := by
    have h0 : s.updState ≠ 0 := by omega
    have h5 : ¬5 ≤ s.updState := by omega
    simp [hc, hi, h0, h5]
  change execSessionExpiry s = _
  rw [execSessionExpiry, hno, if_neg Bool.false_ne_true, ha, ← hday, ← Nat.mul_assoc]

theorem exec_stagingCopy (h3 : s.updState = 3) (hc : s.chunkService = true) : exec (.stagingCopy ok) s =
    .next (if ok then (s.copyStaged.clearMark 2).setUpdState 4 else s.copyStaged.endSession 2 11) :=
  congrArg Host.Outcome.next (if_neg fun h => h.elim (· h3) fun hn => Bool.false_ne_true (hn.symm.trans hc))

theorem exec_activation_starts (h5 : s.updState = 5) (hc : s.chunkService = true) : exec (.activation ok) s =
    .next ((((s.toTime (s.rd64 Reg.UPD_ACT_AT_LO Reg.UPD_ACT_AT_HI)).setUpdState 6).on Fd.SYS_MODE_STAT_ACTIVATING).startQuiesce) :=
  congrArg Host.Outcome.next (if_pos ⟨h5, hc⟩)

theorem exec_activation_now (h6 : s.updState = 6) (hm : s.mode = .passThrough) (hq : s.flag Fd.TXN_TXN_STAT_QUIESCE_DONE = true) :
    exec (.activation ok) s = .next (s.activateNow ok) := by
  have h5 : ¬(s.updState = 5 ∧ s.chunkService = true) := fun h => by omega
  exact congrArg Host.Outcome.next ((if_neg h5).trans (if_pos ⟨h6, hm, hq⟩))

theorem exec_romRecoveryComplete (hr : s.inRom = true) (h2 : s.updState = 2) (ha : s.allHeld = true) :
    ∃ b, exec .romRecoveryComplete s = .next ((((s.writeChunk0.onlyIf b (State.nvErase (fwSlot (1 - s.romTarget)) 4096)).off
      Fd.SYS_BOOT_STAT_FAIL_RUN).endSession 1 0).mainRestart Fd.SYS_RST_CAUSE_SOFT) := by
  have hcond : (s.inRom && s.updState == 2 && s.allHeld) = true := by rw [hr, h2, ha]; rfl
  exact ⟨_, congrArg Host.Outcome.next (if_pos hcond)⟩

/-- The state that sends the next status of ROM, after `d` ps. -/
def State.statusDue (d : Nat) (s : State) : State := { s.advance d with upd := { s.upd with statusAt := (s.advance d).clk } }

theorem State.statusDue_done (s : State) (d : Nat) : (s.statusDue d).clk = s.clk + d ∧ (s.statusDue d).upd.statusAt = (s.statusDue d).clk ∧
    SameRegs [] s (s.statusDue d) := ⟨rfl, rfl, fun _ _ => rfl⟩

theorem exec_recoveryStatusTx (hr : s.inRom = true) (h0 : s.updState = 0) : exec .recoveryStatusTx s =
    .next ((s.statusDue (s.upd.statusAt + secPs - s.clk)).sendStatus (.ring (BitVec.ofNat 6 s.ownRing) 511#9) .ok) := by
  have hcond : (s.inRom && s.updState == 0) = true := by rw [hr, h0]; rfl
  have hring (d : Nat) : (s.advance d).ownRing = s.ownRing := State.fld_congr rfl
  refine congrArg Host.Outcome.next ((if_pos hcond).trans ?_)
  dsimp only
  rw [hring, State.statusDue, State.advance_upd]

theorem State.statusDue_clk (s : State) :
    (s.statusDue (s.upd.statusAt + secPs - s.clk)).clk = max s.clk (s.upd.statusAt + 1000000000000) := by
  have hsec : secPs = 1000000000000 := rfl
  rw [(s.statusDue_done _).1, hsec]
  omega

end Sys2Proof.Machine
end

section
open Sys2Proof.Machine

/-- Settles O57: the end of a session clears its registers one by one, and every event is its guard followed by the ending or the change
of state it names. -/
theorem updateSessions : Obligations.UpdateSessions := by
  unfold Obligations.UpdateSessions
  refine ⟨fun s c man b sig ok => ⟨State.takeChunk_held, fun h h1 hc => ?_, State.takeChunk_unread, State.takeChunk_hash⟩, fun s e r he hr => ?_,
    fun s a hc hi h1 h4 ha => ⟨_, exec_sessionExpiry hc hi h1 h4 ha, rfl⟩, fun s h3 hc => ⟨?_, ?_⟩,
    fun s ok => ⟨fun h5 hc => ?_, exec_activation_now⟩, fun s hr => ⟨fun h2 ha => ?_, fun h0 => ?_⟩⟩
  · rw [State.takeChunk_manifest h h1, if_neg (by omega)]
  · obtain ⟨hstate, hend, hreject, howner, htype, hheld⟩ := s.endStat_fields he hr
    exact ⟨(s.endSession_fld e r rfl).trans hstate, (s.endSession_fld e r rfl).trans hend, (s.endSession_fld e r rfl).trans hreject,
      (s.endSession_fld e r rfl).trans howner, (s.endSession_fld e r rfl).trans htype, (s.endSession_fld e r rfl).trans hheld,
      s.endSession_rd e r (by decide), s.endSession_rd e r (by decide),
      fun i hi => s.endSession_rd e r (List.mem_append_left _ (List.mem_append_right _ (List.mem_map_of_mem (List.mem_range.mpr hi)))),
      s.endSession_rd64 e r (by decide) (by decide), s.endSession_rd64 e r (by decide) (by decide), (s.endSession_left e r).2.2,
      SameBytes.of_mem (s.endSession_mem e r)⟩
  · exact ⟨_, exec_stagingCopy h3 hc, State.setUpdState_updState _ (by decide)⟩
  · refine ⟨_, exec_stagingCopy h3 hc, s.copyStaged.endSession_updState (by decide) (by decide), ?_⟩
    exact (s.copyStaged.endSession_fld 2 11 rfl).trans (s.copyStaged.endStat_fields (by decide) (by decide)).2.2.1
  · have hfive : 5 * msPs = 5000000000 := rfl
    obtain ⟨hstate, hactivating, hquiescing, hctr, hdeadline⟩ :=
      (s.toTime (s.rd64 Reg.UPD_ACT_AT_LO Reg.UPD_ACT_AT_HI)).activating_done
    exact ⟨_, exec_activation_starts h5 hc, hstate, hactivating, hquiescing, hctr.trans (s.toTime_ctr _), hfive ▸ hdeadline⟩
  · obtain ⟨b, hexec⟩ := exec_romRecoveryComplete hr h2 ha
    refine ⟨_, hexec, ?_⟩
    cases b
    · exact .inl rfl
    · exact .inr rfl
  · exact ⟨_, exec_recoveryStatusTx hr h0, s.statusDue_clk, (s.statusDue_done _).2⟩

end

section
/-!
SUPPORT. PTP messages: the bytes of the header that the node writes, and what each message does.
-/

namespace Sys2Proof.Machine

variable {s u : State} {p d : Nat}

/-! ### The header of a message of this node (12 R298) -/

section
variable (s : State) (ty len dom port seq ctl int corr : Nat) (rest : List Byte)

theorem State.ptpHead_length : (s.ptpHead ty len dom port seq ctl int corr).length = 34 := rfl

theorem State.ptpHead_type : ptpType (s.ptpHead ty len dom port seq ctl int corr ++ rest) = ty % 16 := by
  have hfirst : fieldBE (s.ptpHead ty len dom port seq ctl int corr ++ rest) 0 1 = 0 * 256 + (BitVec.ofNat 8 ty).toNat := rfl
  rw [ptpType, hfirst, BitVec.toNat_ofNat]
  omega

theorem State.ptpHead_seq : ptpSeq (s.ptpHead ty len dom port seq ctl int corr ++ rest) = seq % 65536 := by
  have hbytes : ptpSeq (s.ptpHead ty len dom port seq ctl int corr ++ rest) =
      (0 * 256 + (BitVec.ofNat 8 (seq / 256)).toNat) * 256 + (BitVec.ofNat 8 seq).toNat := rfl
  rw [hbytes, BitVec.toNat_ofNat, BitVec.toNat_ofNat]
  omega

theorem State.ptpHead_oneStep : fieldBE (s.ptpHead ty len dom port seq ctl int corr ++ rest) 6 1 / 2 % 2 = 0 := by
  have hflags : fieldBE (s.ptpHead ty len dom port seq ctl int corr ++ rest) 6 1 = 0 := rfl
  rw [hflags]

theorem State.ptpHead_body (n : Nat) : fieldBE (s.ptpHead ty len dom port seq ctl int corr ++ rest) 34 n = fieldBE rest 0 n := by
  rw [fieldBE, List.drop_append_of_le_length (by rw [State.ptpHead_length]), List.drop_of_length_le (by rw [State.ptpHead_length])]
  rfl

end

/-- A field of `n` bytes fits in them. -/
theorem beVal_lt (l : List Byte) : beVal l < 256 ^ l.length := by
  induction l using List.reverseRecOn with
  | nil => simp [beVal]
  | append_singleton l b ih =>
    have hb := b.isLt
    rw [beVal, List.foldl_append, List.length_append, List.length_singleton, pow_succ]
    change beVal l * 256 + b.toNat < _
    omega

theorem fieldBE_lt (l : List Byte) (o n : Nat) : fieldBE l o n < 256 ^ n :=
  (beVal_lt _).trans_le (Nat.pow_le_pow_right (by decide) (List.length_take_le _ _))

/-! ### Messages that the node consumes (12 R294, R298) -/

theorem exec_syncRx {q : Fin 3} {f : Frame} {t2 : BitVec 96} {m : List Byte} (h : s.ptpFor f 0x0 = some (d, m)) : exec (.syncRx q f t2) s =
    .next (if (s.dom d).seqs.contains (ptpSeq m) then (s.takeMail f).bump Reg.TIME_TIME_DUP
      else
        let u := (s.takeMail f).setDom d { s.dom d with seqs := ptpSeq m :: (s.dom d).seqs.take 7 }
        let part := ((t2.toNat / 65536 : Nat) : Int) - ptpCorr m - s.dIn q.val
        if fieldBE m 6 1 / 2 % 2 = 1 then u.setDom d { u.dom d with twoStep := some (ptpSeq m, part) }
        else u.offset d (part - ptpStamp m)) := by
  change execSyncRx q f t2 s = _
  rw [execSyncRx, h]
  rfl

theorem exec_followUpRx {q : Fin 3} {f : Frame} {m : List Byte} {part : Int} (h : s.ptpFor f 0x8 = some (d, m))
    (hw : (s.dom d).twoStep = some (ptpSeq m, part)) : exec (.followUpRx q f) s =
      .next (((s.takeMail f).setDom d { s.dom d with twoStep := none }).offset d (part - ptpCorr m - ptpStamp m)) := by
  have hdom : (s.takeMail f).dom d = s.dom d := rfl
  change execFollowUpRx q f s = _
  simp only [execFollowUpRx, h, hdom, hw, if_true]

theorem exec_announceRx {q : Fin 3} {f : Frame} {m : List Byte} (h : s.ptpFor f 0xB = some (d, m)) : exec (.announceRx q f) s =
    .next (((s.takeMail f).wr (Reg.DOM_ANN d) (BitVec.ofNat 32 (fieldBE m 48 1 * 2 ^ 16 + fieldBE m 44 2))).wr64
      (Reg.DOM_GM_ID_LO d) (Reg.DOM_GM_ID_HI d) (fieldBE m 53 8)) := by
  change execAnnounceRx q f s = _
  rw [execAnnounceRx, h]

theorem exec_signalingRx {q : Fin 3} {f : Frame} {m : List Byte} (h : s.ptpFor f 0xC = some (d, m)) :
    exec (.signalingRx q f) s = .next (s.takeMail f) := by
  change execSignalingRx q f s = _
  rw [execSignalingRx, h]

/-- Announce loads its domain's registers. -/
theorem State.announce_loads (s : State) (d : Nat) (m : List Byte) :
    let t := (s.wr (Reg.DOM_ANN d) (BitVec.ofNat 32 (fieldBE m 48 1 * 2 ^ 16 + fieldBE m 44 2))).wr64
      (Reg.DOM_GM_ID_LO d) (Reg.DOM_GM_ID_HI d) (fieldBE m 53 8)
    (t.rd (Reg.DOM_ANN d)).toNat = fieldBE m 48 1 * 2 ^ 16 + fieldBE m 44 2 ∧
    t.rd64 (Reg.DOM_GM_ID_LO d) (Reg.DOM_GM_ID_HI d) = fieldBE m 53 8 ∧
    OnlyRegs [Reg.DOM_ANN d, Reg.DOM_GM_ID_LO d, Reg.DOM_GM_ID_HI d] s t := by
  have hann := fieldBE_lt m 48 1
  have hclass := fieldBE_lt m 44 2
  refine ⟨?_, State.rd64_wr64 _ (by simp) (fieldBE_lt m 53 8), (((OnlyRegs.refl _ s).wr (by simp)).wr (by simp)).wr (by simp)⟩
  rw [State.wr64, State.rd_wr_ne _ _ (by simp), State.rd_wr_ne _ _ (by simp), State.rd_wr_same, BitVec.toNat_ofNat]
  omega

end Sys2Proof.Machine
end

section
/-!
SUPPORT. PTP frames at the ports, the messages of a grandmaster and the Pdelay exchange.
-/

namespace Sys2Proof.Machine

variable {s u : State} {p d : Nat}

/-! ### PTP frames that a port does not admit (02 R34, R49, 04 R92) -/

theorem State.ptpIn_dropped {b : Bool} {f : PtpFrame} (h : s.ptpCheck p b f = (false, u)) : s.ptpIn p b f = (false, u) := by
  rw [State.ptpIn, h]

section
variable (b : Bool) (f : PtpFrame) (hk : s.anat.kaHeld = false) (hp : s.portUsable p = true)
include hk hp

/-- A tag or another DA at a ring port. -/
theorem State.ptpIn_ring (h2 : p < 2) (hf : f.vid ≠ none ∨ f.da ≠ 0x0180C200000E#48) : s.ptpIn p b f = (false, s) := by
  have hpair : (f.vid.isNone && ptpDa p f.da) = false := by
    have hspur : (p == 2) = false := by
      rw [beq_eq_false_iff_ne]
      omega
    rcases hf with hv | hda
    · rw [Option.isNone_eq_false_iff.mpr (Option.isSome_iff_ne_none.mpr hv), Bool.false_and]
    · rw [ptpDa, hspur, beq_false_of_ne hda, Bool.false_and, Bool.false_or, Bool.and_false]
  refine State.ptpIn_dropped ?_
  have hne : p ≠ 2 := by omega
  simp only [State.ptpCheck, hk, hp, Bool.not_true, Bool.or_false, Bool.false_eq_true, if_false, hne, ne_eq, not_false_eq_true, if_true, hpair]

/-- On the full path the spur drops a frame that it has no role for, or of another VID. -/
theorem State.ptpCheck_spur (h2 : p = 2) (h0 : s.path = 0) : s.ptpCheck p b f =
    if s.fld Fd.PORT_SPUR_CTL_ROLE = 0 then (false, s.bump (Reg.PORT_RX_ROLE_DROP 2))
    else if s.vidOk f.vid = false then (false, s.bump (Reg.PORT_RX_FOREIGN 2))
    else if ptpDa 2 f.da = false then (false, s.bump (Reg.PORT_RX_ROLE_DROP 2))
    else (true, s) := by
  subst h2
  simp only [State.ptpCheck, hk, hp, h0, Bool.not_true, Bool.or_false, Bool.false_eq_true, if_false, ne_eq, not_true_eq_false,
    bne_self_eq_false, Bool.false_and, State.onlyIf_false]

end

/-! ### PTP messages of the spur (12 R297) -/

/-- What the injection of a message that came good does. -/
def State.spurTakes (s : State) (m : List Byte) : Bool :=
  s.flag Fd.TIME_TIME_CTL_SPUR_IN && fieldBE m 1 1 % 16 == 2 && [0x0, 0x8, 0xB, 0xC].contains (ptpType m)

theorem exec_spurPtpRx_pdelay {f : PtpFrame} (h : isPdelay f.msg = true) : exec (.spurPtpRx f) s = .next s :=
  congrArg Host.Outcome.next (if_pos h)

theorem exec_spurPtpRx_dropped {f : PtpFrame} (h : isPdelay f.msg = false) (hin : s.ptpIn 2 false f = (false, u)) :
    exec (.spurPtpRx f) s = .next u := by
  change Host.Outcome.next (s.spurPtp f) = _
  rw [State.spurPtp, h, if_neg Bool.false_ne_true, hin]

theorem exec_spurPtpRx_good {f : PtpFrame} (h : isPdelay f.msg = false) (hin : s.ptpIn 2 false f = (true, u)) : exec (.spurPtpRx f) s =
    .next (if !u.spurTakes f.msg then u.bump Reg.TIME_MSG_DROP
      else if (u.ptpDomain f.msg).isNone then u.bump Reg.TIME_DOM_OTHER
      else (u.inject (u.timeFrame 1 f.msg) u.epoch).bump Reg.TIME_SPUR_INJ) := by
  change Host.Outcome.next (s.spurPtp f) = _
  rw [State.spurPtp, h, if_neg Bool.false_ne_true, hin]
  rfl

/-! ### The grandmaster (12 R298) -/

theorem exec_gmSyncTx {e : Fin 2} (hg : s.flag (Fd.DOM_GM_CFG_GM_EN e.val) = true) (hk : s.anat.kaHeld = false) :
    ∃ m, ptpType m = 0 ∧
      let per := 1000000000 / 2 ^ s.fld (Fd.DOM_GM_CFG_LOG_SYNC e.val)
      let u := s.toTime ((s.now / per + 1) * per)
      exec (.gmSyncTx e) s = .next ((u.inject (u.timeFrame 2 m) u.epoch).bump Reg.TIME_GM_TX) := by
  have hno : (!s.flag (Fd.DOM_GM_CFG_GM_EN e.val) || s.anat.kaHeld) = false := by rw [hg, hk]; rfl
  exact ⟨_, State.ptpHead_type _ 0 _ _ _ _ _ _ _ (beBytes 10 0), congrArg Host.Outcome.next (if_neg (Bool.eq_false_iff.mp hno))⟩

/-- The state that sends the Announce of domain `d`. -/
def State.announceDue (d : Nat) (s : State) : State := (s.expire (.gmAnnounce d)).arm (.gmAnnounce d) secPs

theorem exec_gmAnnounceTx {e : Fin 2} (hg : s.flag (Fd.DOM_GM_CFG_GM_EN e.val) = true) (hk : s.anat.kaHeld = false) :
    ∃ m, ptpType m = 0xB ∧ exec (.gmAnnounceTx e) s =
      .next ((s.announceDue e.val).inject ((s.announceDue e.val).timeFrame 2 m) (s.announceDue e.val).epoch) := by
  have hno : (!s.flag (Fd.DOM_GM_CFG_GM_EN e.val) || s.anat.kaHeld) = false := by rw [hg, hk]; rfl
  refine ⟨_, ?_, congrArg Host.Outcome.next (if_neg (Bool.eq_false_iff.mp hno))⟩
  simp only [List.append_assoc]
  exact State.ptpHead_type _ 0xB _ _ _ _ _ _ _ _

theorem State.expire_at {x : Timer} {a : Nat} (h : s.deadline x = some a) : s.expire x = (s.advance (a - s.clk)).cancel x := by
  rw [State.expire, h]

theorem State.expire_clk {x : Timer} {a : Nat} (h : s.deadline x = some a) : (s.expire x).clk = max s.clk a := by
  rw [State.expire_at h]
  change s.clk + (a - s.clk) = _
  omega

theorem State.announceDue_done {a : Nat} (h : s.deadline (.gmAnnounce d) = some a) : (s.announceDue d).clk = max s.clk a ∧
    (s.announceDue d).deadline (.gmAnnounce d) = some ((s.announceDue d).clk + 1000000000000) := by
  have hsec : secPs = 1000000000000 := rfl
  have harm := State.deadline_arm (s.expire (.gmAnnounce d)) (.gmAnnounce d) secPs
  rw [hsec] at harm
  rw [State.announceDue, hsec]
  exact ⟨State.expire_clk h, harm⟩

/-! ### Pdelay_Req (12 R299, R300) -/

theorem State.pd_setPd_same (s : State) (p : Nat) (v : PdState) : (s.setPd p v).pd p = v := Tab.get_set_same _ _ _ _

theorem State.expire_pd (s : State) (x : Timer) (p : Nat) : (s.expire x).pd p = s.pd p := by
  obtain h | ⟨n, h⟩ := s.expire_cases x <;> rw [h] <;> rfl

theorem State.pdelayPort_congr (h : ∀ a, u.rd a = s.rd a) (p : Nat) : u.pdelayPort p = s.pdelayPort p := by
  have hflag (x : Fld) : u.flag x = s.flag x := State.flag_congr (h _)
  have hfld (x : Fld) : u.fld x = s.fld x := State.fld_congr (h _)
  simp only [State.pdelayPort, State.portUsable, State.linkIsUp, hflag, hfld]

/-- A request without a valid response: it counts, and the third in a row clears LD_VALID. -/
theorem State.pdMiss_done (s : State) (p : Nat) (h : (s.pd p).req.isSome = true) :
    (s.pdMiss p).pd p = { s.pd p with req := none, fails := (s.pd p).fails + 1 } ∧
    (s.pdMiss p).rd (Reg.TIME_PD_FAIL p) = BitVec.ofNat 32 (min ((s.rd (Reg.TIME_PD_FAIL p)).toNat + 1) 0xFFFFFFFF) ∧
    (2 ≤ (s.pd p).fails → (s.pdMiss p).flag (Fd.PD_LD_STAT_LD_VALID p) = false) ∧ (s.pdMiss p).clk = s.clk := by
  obtain ⟨r, hr⟩ := Option.isSome_iff_exists.mp h
  have hpd : ((s.bump (Reg.TIME_PD_FAIL p)).setPd p { s.pd p with req := none, fails := (s.pd p).fails + 1 }).pd p =
      { s.pd p with req := none, fails := (s.pd p).fails + 1 } := State.pd_setPd_same _ _ _
  have hrd : ((s.bump (Reg.TIME_PD_FAIL p)).setPd p { s.pd p with req := none, fails := (s.pd p).fails + 1 }).rd (Reg.TIME_PD_FAIL p) =
      BitVec.ofNat 32 (min ((s.rd (Reg.TIME_PD_FAIL p)).toNat + 1) 0xFFFFFFFF) := s.rd_bump_same _
  have hne : Reg.TIME_PD_FAIL p ≠ Reg.PD_LD_STAT p := by
    simp only [Reg.TIME_PD_FAIL, Reg.PD_LD_STAT]
    omega
  simp only [State.pdMiss, hr]
  split
  next h3 => exact ⟨hpd, (State.rd_setFld_ne _ _ _ hne).trans hrd, fun _ => State.flag_off_same _ (by simp), rfl⟩
  next h3 => exact ⟨hpd, hrd, fun h2 => absurd h2 (by omega), rfl⟩

theorem State.pdMiss_none (s : State) (p : Nat) (h : (s.pd p).req = none) : s.pdMiss p = s := by
  rw [State.pdMiss, h]

/-- The next sequenceId is taken. -/
def State.nextPdSeq (p : Nat) (s : State) : State := s.setPd p { s.pd p with seq := ((s.pd p).seq + 1) % 65536 }

theorem State.pdelayReq_sends (he : s.flag (Fd.PD_PD_CFG_EN p) = true) (hp : s.pdelayPort p = true) :
    ∃ m, ptpType m = 2 ∧ ptpSeq m = ((s.pdMiss p).pd p).seq % 65536 ∧ s.pdelayReq p =
      ((s.pdMiss p).nextPdSeq p |>.pdelaySend p m).arm (.pdReq p) (secPs / 2 ^ (s.pdMiss p).fld (Fd.PD_PD_CFG_LOG_INT p)) := by
  have hno : (!s.flag (Fd.PD_PD_CFG_EN p) || !s.pdelayPort p) = false := by rw [he, hp]; rfl
  refine ⟨_, ?_, ?_, if_neg (Bool.eq_false_iff.mp hno)⟩ <;> simp only [List.append_assoc]
  · exact State.ptpHead_type _ 2 _ _ _ _ _ _ _ _
  · exact State.ptpHead_seq ..

/-- A miss leaves the settings of the port. -/
theorem State.pdMiss_rd (s : State) (p : Nat) {a : Nat} (hf : a ≠ Reg.TIME_PD_FAIL p) (hl : a ≠ Reg.PD_LD_STAT p) :
    (s.pdMiss p).rd a = s.rd a := by
  simp only [State.pdMiss]
  split
  · rfl
  · split
    · exact (State.rd_setFld_ne _ _ _ hl).trans (s.rd_bump_ne hf)
    · exact s.rd_bump_ne hf

end Sys2Proof.Machine
end

section
/-!
SUPPORT. Pdelay: what a due request does, the answer to a request, and the measurement of a response.
-/

namespace Sys2Proof.Machine

variable {s u : State} {p : Nat}

theorem State.nextPdSeq_clk (s : State) (p : Nat) : (s.nextPdSeq p).clk = s.clk := rfl

theorem State.nextPdSeq_pd (s : State) (p : Nat) : (s.nextPdSeq p).pd p = { s.pd p with seq := ((s.pd p).seq + 1) % 65536 } :=
  State.pd_setPd_same _ _ _

/-- After the miss no request waits, and the sequenceId stands. -/
theorem State.pdMiss_pd (s : State) (p : Nat) : ((s.pdMiss p).pd p).req = none ∧ ((s.pdMiss p).pd p).seq = (s.pd p).seq := by
  cases h : (s.pd p).req with
  | none => rw [s.pdMiss_none p h]; exact ⟨h, rfl⟩
  | some r =>
    rw [(s.pdMiss_done p (by rw [h]; rfl)).1]
    exact ⟨rfl, rfl⟩

theorem State.pdMiss_clk (s : State) (p : Nat) : (s.pdMiss p).clk = s.clk := by
  cases h : (s.pd p).req with
  | none => rw [s.pdMiss_none p h]
  | some r => exact (s.pdMiss_done p (by rw [h]; rfl)).2.2.2

/-- A due request: the one before it without a response counts, and the next sequenceId is sent. -/
theorem exec_pdelayReqTx {q : Fin 3} {a : Nat} (hd : s.deadline (.pdReq q.val) = some a) (he : s.flag (Fd.PD_PD_CFG_EN q.val) = true)
    (hp : s.pdelayPort q.val = true) : ∃ m, ptpType m = 2 ∧ ptpSeq m = (s.pd q.val).seq % 65536 ∧ exec (.pdelayReqTx q) s =
      .next (((((s.expire (.pdReq q.val)).pdMiss q.val).nextPdSeq q.val).pdelaySend q.val m).arm (.pdReq q.val)
        (1000000000000 / 2 ^ s.fld (Fd.PD_PD_CFG_LOG_INT q.val))) := by
  have hsec : secPs = 1000000000000 := rfl
  have hrd (x : Nat) := s.expire_rd (.pdReq q.val) x
  obtain ⟨m, htype, hseq, hsend⟩ := State.pdelayReq_sends (s := s.expire (.pdReq q.val)) (p := q.val) ((State.flag_congr (hrd _)).trans he)
    ((State.pdelayPort_congr hrd _).trans hp)
  have hcfg : Reg.PD_PD_CFG q.val ≠ Reg.TIME_PD_FAIL q.val ∧ Reg.PD_PD_CFG q.val ≠ Reg.PD_LD_STAT q.val := by
    simp only [Reg.PD_PD_CFG, Reg.TIME_PD_FAIL, Reg.PD_LD_STAT]
    omega
  have hlog : ((s.expire (.pdReq q.val)).pdMiss q.val).fld (Fd.PD_PD_CFG_LOG_INT q.val) = s.fld (Fd.PD_PD_CFG_LOG_INT q.val) :=
    State.fld_congr ((State.pdMiss_rd _ _ hcfg.1 hcfg.2).trans (hrd _))
  refine ⟨m, htype, by rw [hseq, (State.pdMiss_pd _ _).2, State.expire_pd], ?_⟩
  rw [hlog, hsec] at hsend
  have harmed : s.armed (.pdReq q.val) = true := by rw [State.armed, hd]; rfl
  exact congrArg Host.Outcome.next ((State.expiry_armed _ _ _ harmed).trans hsend)

/-! ### Pdelay_Resp (12 R299, R300) -/

theorem exec_pdelayReqRx_dropped {q : Fin 3} {f : PtpFrame} (h : ptpType f.msg = 2) (hin : s.ptpIn q.val true f = (false, u)) :
    exec (.pdelayReqRx q f.toPtpWire f.msg) s = .next u := by
  change Host.Outcome.next (s.pdelayAnswer q.val f) = _
  rw [State.pdelayAnswer, if_neg (not_not_intro h), hin]

theorem exec_pdelayReqRx_good {q : Fin 3} {f : PtpFrame} (h : ptpType f.msg = 2) (hin : s.ptpIn q.val true f = (true, u)) :
    ∃ m, exec (.pdelayReqRx q f.toPtpWire f.msg) s = .next (u.pdelaySend q.val m) ∧ ptpType m = 3 ∧ ptpSeq m = ptpSeq f.msg ∧
      fieldBE m 34 10 = 0 ∧ fieldBE m 6 1 / 2 % 2 = 0 := by
  have hanswer : exec (.pdelayReqRx q f.toPtpWire f.msg) s = .next (u.pdelaySend q.val
      (u.ptpHead 0x3 54 0 (q.val + 1) (ptpSeq f.msg) 5 0x7F 0 ++ (beBytes 10 0 ++ (f.msg.drop 20).take 10))) := by
    change Host.Outcome.next (s.pdelayAnswer q.val f) = _
    rw [State.pdelayAnswer, if_neg (not_not_intro h), hin]
    simp only [List.append_assoc]
  have hseq := fieldBE_lt f.msg 30 2
  refine ⟨_, hanswer, State.ptpHead_type .., ?_, ?_, State.ptpHead_oneStep ..⟩
  · rw [State.ptpHead_seq, Nat.mod_eq_of_lt]
    exact hseq
  · rw [State.ptpHead_body]
    rfl

theorem exec_pdelayRespRx {q : Fin 3} {f : PtpFrame} (h : ptpType f.msg = 3) (hin : s.ptpIn q.val true f = (true, u)) :
    exec (.pdelayRespRx q f none) s = .next (u.pdelayTake q.val f.msg none) := by
  change Host.Outcome.next (s.pdelayResp q.val f none) = _
  rw [State.pdelayResp, if_neg (not_not_intro h), hin]
  rfl

theorem exec_pdelayRespRx_followUp {v : State} {q : Fin 3} {f g : PtpFrame} (h : ptpType f.msg = 3) (hin : s.ptpIn q.val true f = (true, u))
    (hg : u.ptpIn q.val true g = (true, v)) :
    exec (.pdelayRespRx q f (some g)) s = .next (v.pdelayTake q.val f.msg (some g.msg)) := by
  change Host.Outcome.next (s.pdelayResp q.val f (some g)) = _
  rw [State.pdelayResp, if_neg (not_not_intro h), hin]
  dsimp only
  rw [hg]
  rfl

/-- The state after a valid measurement, before LD_VALID. -/
def State.loadDelay (p : Nat) (l : List Nat) (s : State) : State :=
  ((s.setPd p { s.pd p with req := none, fails := 0, meas := l }).wr (Reg.PD_LD p) (BitVec.ofNat 32 (l.foldl (· + ·) 0 / l.length))).setFld
    (Fd.PD_LD_STAT_N p) l.length

section
variable {msg : List Byte} {fu : Option (List Byte)} {t1 : Nat} (hreq : (s.pd p).req = some (ptpSeq msg, t1)) (htype : ptpType msg = 3)
  (hfu : fieldBE msg 6 1 / 2 % 2 = 1 ↔ fu.isSome = true)
include hreq htype hfu

/-- A response to the request that left last. -/
theorem State.pdelayTake_eq : s.pdelayTake p msg fu =
    let x := pdMeasure ((s.clk - t1) / 2560) msg fu
    let l := (x.toNat :: (s.pd p).meas).take 8
    if x < 0 ∨ 10000 * 65536 < x then s.bump Reg.TIME_PD_BAD
    else if 3 ≤ l.length then (s.loadDelay p l).on (Fd.PD_LD_STAT_LD_VALID p) else s.loadDelay p l := by
  have hno : ¬(ptpType msg ≠ 0x3 ∨ ptpSeq msg ≠ ptpSeq msg ∨ (fieldBE msg 6 1 / 2 % 2 = 1) ≠ (fu.isSome = true)) := by
    rintro (h | h | h)
    · exact h htype
    · exact h rfl
    · exact h (propext hfu)
  rw [State.pdelayTake, hreq]
  exact if_neg hno

theorem State.pdelayTake_bad (h : pdMeasure ((s.clk - t1) / 2560) msg fu < 0 ∨ 10000 * 65536 < pdMeasure ((s.clk - t1) / 2560) msg fu) :
    s.pdelayTake p msg fu = s.bump Reg.TIME_PD_BAD := by
  rw [State.pdelayTake_eq hreq htype hfu]
  exact if_pos h

end

theorem State.setPd_kept (l : List Nat) (s : State) (p : Nat) (v : PdState) : JournalKept l s (s.setPd p v) := ⟨fun _ _ => rfl, rfl, rfl⟩

theorem State.loadDelay_pd (s : State) (p : Nat) (l : List Nat) :
    (s.loadDelay p l).pd p = { s.pd p with req := none, fails := 0, meas := l } := State.pd_setPd_same _ _ _

theorem State.on_pd (s : State) (x : Fld) (p : Nat) : (s.on x).pd p = s.pd p := rfl

/-- What a measurement loads. -/
theorem State.loadDelay_done (s : State) (p : Nat) (l : List Nat) :
    let t := if 3 ≤ l.length then (s.loadDelay p l).on (Fd.PD_LD_STAT_LD_VALID p) else s.loadDelay p l
    t.rd (Reg.PD_LD p) = BitVec.ofNat 32 (l.foldl (· + ·) 0 / l.length) ∧ (t.pd p).req = none ∧ (t.pd p).fails = 0 ∧ (t.pd p).meas = l ∧
    (3 ≤ l.length → t.flag (Fd.PD_LD_STAT_LD_VALID p) = true) ∧ SameRegs [Reg.PD_LD p, Reg.PD_LD_STAT p] s t ∧ SameBytes s t := by
  have hne : Reg.PD_LD p ≠ Reg.PD_LD_STAT p := by simp
  have hpd := s.loadDelay_pd p l
  have hld : (s.loadDelay p l).rd (Reg.PD_LD p) = BitVec.ofNat 32 (l.foldl (· + ·) 0 / l.length) := by
    rw [State.loadDelay, State.rd_setFld_ne _ _ _ hne, State.rd_wr_same]
  have hregs : JournalKept [Reg.PD_LD p, Reg.PD_LD_STAT p] s (s.loadDelay p l) :=
    ((s.setPd_kept [Reg.PD_LD p, Reg.PD_LD_STAT p] p { s.pd p with req := none, fails := 0, meas := l }).wr (by simp)).setFld (by simp)
  dsimp only
  split
  next h3 =>
    have hon := hregs.setFld (f := Fd.PD_LD_STAT_LD_VALID p) (v := 1) (by simp)
    rw [State.on_pd, hpd]
    exact ⟨(State.rd_setFld_ne _ _ _ hne).trans hld, rfl, rfl, rfl, fun _ => State.flag_on_same _ (by simp) (by simp), hon.same⟩
  next h3 =>
    rw [hpd]
    exact ⟨hld, rfl, rfl, rfl, fun h => absurd h h3, hregs.same⟩

/-! ### As a frame leaves (12 R299) -/

theorem State.pdelayLeaves_req {f : Frame} (hf : f.plainPtp = true) (h : ptpType f.payload = 2) :
    ((s.pdelayLeaves p f).pd p).req = some (ptpSeq f.payload, s.clk) := by
  have hcond : (f.plainPtp && fieldBE f.payload 0 1 % 16 == 2) = true := by
    rw [hf, Bool.true_and, beq_iff_eq]
    exact h
  rw [State.pdelayLeaves, if_pos hcond, State.pd_setPd_same]
  rfl

/-- A Pdelay_Resp carries its turnaround. -/
theorem State.egressFrame_turnaround (s : State) {f : Stored} (k : Copy) (hf : f.frame.plainPtp = true) (hs : f.frame.seam = false)
    (h : ptpType f.frame.payload = 3) :
    (s.egressFrame f k).payload = putBE f.frame.payload 8 8 (tickCorr ((k.startAt - f.since) / 2560)) := by
  have hg : (decide (2 ≤ f.input) && f.frame.seam && decide (k.port < 2)) = false := by rw [hs, Bool.and_false, Bool.false_and]
  have h3 : fieldBE f.frame.payload 0 1 % 16 = 3 := h
  simp only [State.egressFrame, hg, Bool.false_eq_true, if_false, hf, if_true, h3]

end Sys2Proof.Machine
end

section
open Sys2Proof.Machine

/-- Settles O38: each message is its guard followed by what the node does with it; the header's bytes are read back field by field. -/
theorem timeMessages : Obligations.TimeMessages := by
  unfold Obligations.TimeMessages
  refine ⟨fun s p f t2 d m h => ⟨fun hdup => ?_, fun hfirst hone => ?_, fun hfirst htwo => ?_⟩, fun s p f d m part => exec_followUpRx,
    fun s p f d m h hd => ?_, fun s p f d m => exec_signalingRx, fun s p b f hk hp => ⟨State.ptpIn_ring b f hk hp, ?_, ?_⟩,
    fun s u f => ⟨exec_spurPtpRx_pdelay, exec_spurPtpRx_dropped, fun hpd hin => ⟨fun ht hdom => ?_, fun ht hdom => ?_, fun ht => ?_⟩⟩,
    fun s d hg hk => ⟨?_, fun a ha => ?_⟩, fun s p a hd he hp => ?_, fun s p f => State.pdelayLeaves_req,
    fun s f k => s.egressFrame_turnaround k, fun s u p f h => ⟨exec_pdelayReqRx_dropped h, exec_pdelayReqRx_good h⟩,
    fun s u v p f g h hin => ⟨exec_pdelayRespRx h hin, exec_pdelayRespRx_followUp h hin⟩,
    fun s p msg fu t1 hreq htype hfu => ⟨fun h0 hmax => ?_, State.pdelayTake_bad hreq htype hfu⟩⟩
  · rw [exec_syncRx h, if_pos hdup]
  · rw [exec_syncRx h, if_neg (Bool.eq_false_iff.mp hfirst)]
    exact congrArg Host.Outcome.next (if_neg (by omega))
  · rw [exec_syncRx h, if_neg (Bool.eq_false_iff.mp hfirst)]
    refine ⟨_, congrArg Host.Outcome.next (if_pos htwo), ?_, rfl, rfl⟩
    rw [State.dom, State.setDom, Tab.get_set_same]
  · obtain ⟨hann, hgm, hregs⟩ := (s.takeMail f).announce_loads d m
    obtain ⟨hsame, hbytes⟩ := hregs.kept.same
    exact ⟨_, exec_announceRx h, hann, hgm, rfl, rfl, hsame, hbytes⟩
  · rintro rfl h0 hrole
    exact State.ptpIn_dropped ((State.ptpCheck_spur b f hk hp rfl h0).trans (if_pos hrole))
  · rintro rfl h0 hrole hvid
    exact State.ptpIn_dropped ((State.ptpCheck_spur b f hk hp rfl h0).trans ((if_neg hrole).trans (if_pos hvid)))
  · have htakes : u.spurTakes f.msg = true := ht
    rw [exec_spurPtpRx_good hpd hin, htakes, Option.isNone_eq_false_iff.mpr hdom]
    rfl
  · have htakes : u.spurTakes f.msg = true := ht
    rw [exec_spurPtpRx_good hpd hin, htakes, hdom]
    rfl
  · have htakes : u.spurTakes f.msg = false := ht
    rw [exec_spurPtpRx_good hpd hin, htakes]
    rfl
  · obtain ⟨m, htype, hexec⟩ := exec_gmSyncTx hg hk
    exact ⟨_, m, hexec, htype, rfl⟩
  · obtain ⟨m, htype, hexec⟩ := exec_gmAnnounceTx hg hk
    obtain ⟨hclk, hdeadline⟩ := State.announceDue_done ha
    exact ⟨_, s.announceDue d.val, m, hexec, htype, hclk, hdeadline, rfl⟩
  · obtain ⟨m, htype, hseq, hexec⟩ := exec_pdelayReqTx hd he hp
    obtain ⟨hreq, hnext⟩ := (s.expire (.pdReq p.val)).pdMiss_pd p.val
    have hpd := State.expire_pd s (.pdReq p.val) p.val
    have hv := State.nextPdSeq_pd ((s.expire (.pdReq p.val)).pdMiss p.val) p.val
    refine ⟨_, m, hexec, htype, hseq, ?_, ?_, ?_, fun hnone => ?_, fun hsome => ?_⟩
    · rw [State.nextPdSeq_clk, State.pdMiss_clk, State.expire_clk hd]
    · rw [hv]
      exact hreq
    · rw [hv, hnext, hpd]
    · rw [State.pdMiss_none _ _ (by rw [hpd, hnone])]
      exact fun a _ => State.expire_rd s _ a
    · obtain ⟨hmiss, hcount, hvalid, -⟩ := (s.expire (.pdReq p.val)).pdMiss_done p.val (by rw [hpd, hsome])
      rw [State.expire_rd] at hcount
      rw [hpd] at hmiss hvalid
      refine ⟨?_, hcount, hvalid⟩
      rw [hv, hmiss]
  · rw [State.pdelayTake_eq hreq htype hfu]
    have hin : ¬(pdMeasure ((s.clk - t1) / 2560) msg fu < 0 ∨ 10000 * 65536 < pdMeasure ((s.clk - t1) / 2560) msg fu) := by omega
    simp only [hin, if_false]
    exact s.loadDelay_done p.val _

end

section
/-!
SUPPORT. The tether of a twin node: readiness, heartbeats, input mirrors and releases.
-/

namespace Sys2Proof.Machine

variable {s t : State} {l : List Nat}

theorem State.flag_setFlag_same (s : State) {f : Fld} (b : Bool) (h : f.lo + f.width ≤ 32) (hw : f.width ≠ 0) : (s.setFlag f b).flag f = b := by
  cases b
  · exact s.flag_off_same h
  · exact s.flag_on_same h hw

/-! ### Readiness (14 R355, R366) -/

/-- Readiness shows in STATE of TWIN_STAT alone. -/
theorem State.noteReady_kept (s : State) : JournalKept [Reg.TWIN_TWIN_STAT] s s.noteReady :=
  .ite ((JournalKept.refl [Reg.TWIN_TWIN_STAT] s).setFld (f := Fd.TWIN_TWIN_STAT_STATE) (by simp)) (.refl _ s)

theorem State.noteReady_flag (s : State) {x : Fld} (hx : x.lo + x.width ≤ 28) : s.noteReady.flag x = s.flag x := by
  simp only [State.noteReady]
  split
  · exact State.flag_setFld_ne _ _ (.inr ⟨.inl hx, by omega⟩)
  · rfl

/-- The beat and the times of the tether stand. -/
theorem State.noteReady_twin (s : State) : s.noteReady.twin.upSince = s.twin.upSince ∧ s.noteReady.clk = s.clk := by
  simp only [State.noteReady]
  split <;> exact ⟨rfl, rfl⟩

/-! ### Heartbeats (14 R353) -/

/-- The standby's SEQ counters of the classes in `js` are loaded. -/
def State.loadSeqs (seqs : List (BitVec 16)) (js : List Nat) (s : State) : State :=
  s.forEach js fun c t => { t with ring := { t.ring with seqs := Tab.set 0#16 t.ring.seqs c (seqs.getD c 0#16) } }

theorem State.loadSeqs_left (s : State) (seqs : List (BitVec 16)) (js : List Nat) : (s.loadSeqs seqs js).regs = s.regs ∧
    (s.loadSeqs seqs js).mem = s.mem ∧ (s.loadSeqs seqs js).twin = s.twin ∧ (s.loadSeqs seqs js).timers = s.timers :=
  State.forEach_induct (fun t => t.regs = s.regs ∧ t.mem = s.mem ∧ t.twin = s.twin ∧ t.timers = s.timers) js _ s ⟨rfl, rfl, rfl, rfl⟩
    fun _ _ _ h => h

theorem State.loadSeqs_seq (s : State) (seqs : List (BitVec 16)) (js : List Nat) (c : Nat) :
    Tab.get 0#16 (s.loadSeqs seqs js).ring.seqs c = if c ∈ js then seqs.getD c 0#16 else Tab.get 0#16 s.ring.seqs c := by
  induction js generalizing s with
  | nil => rfl
  | cons j js ih =>
    refine (ih { s with ring := { s.ring with seqs := Tab.set 0#16 s.ring.seqs j (seqs.getD j 0#16) } }).trans ?_
    by_cases hc : c ∈ js
    · simp [hc]
    · by_cases hj : c = j
      · subst hj
        simp [hc, Tab.get_set_same]
      · simp [hc, hj, Tab.get_set_ne _ _ _ _ hj]

/-- A beat before the standby loads its counters. -/
def State.takeBeat (h : Heartbeat) (s : State) : State :=
  let s := s.setTwin { s.twin with hb := h, hbAt := some s.clk, upSince := some (s.twin.upSince.getD s.clk) }
  (s.setFlag Fd.TWIN_TWIN_STAT_PARTNER_READY h.ready).arm .tether (3 * usPs)

theorem State.heartbeat_eq (s : State) (h : Heartbeat) :
    s.heartbeat h = if s.mode = .standby then (s.takeBeat h).loadSeqs h.seqs (List.range 8) else s.takeBeat h := rfl

theorem State.takeBeat_deadline (s : State) (h : Heartbeat) : (s.takeBeat h).deadline .tether = some (s.clk + 3000000) := by
  have hthree : 3 * usPs = 3000000 := rfl
  rw [State.takeBeat, State.deadline_arm, hthree]
  rfl

theorem State.takeBeat_kept (s : State) (h : Heartbeat) : JournalKept [Reg.TWIN_TWIN_STAT] s (s.takeBeat h) :=
  (JournalKept.refl [Reg.TWIN_TWIN_STAT] s).setFld (f := Fd.TWIN_TWIN_STAT_PARTNER_READY) (by simp)

theorem State.takeBeat_ready (s : State) (h : Heartbeat) : (s.takeBeat h).flag Fd.TWIN_TWIN_STAT_PARTNER_READY = h.ready :=
  State.flag_setFlag_same _ _ (by simp) (by simp)

/-- What a heartbeat leaves in registers, twin state and timers: that of the beat itself. -/
theorem State.heartbeat_left (s : State) (h : Heartbeat) : (s.heartbeat h).regs = (s.takeBeat h).regs ∧
    (s.heartbeat h).mem = (s.takeBeat h).mem ∧ (s.heartbeat h).twin = (s.takeBeat h).twin ∧ (s.heartbeat h).timers = (s.takeBeat h).timers := by
  rw [s.heartbeat_eq]
  split
  · exact (s.takeBeat h).loadSeqs_left h.seqs (List.range 8)
  · exact ⟨rfl, rfl, rfl, rfl⟩

/-! ### Input mirrors (14 R353) -/

/-- IN_DIFF of a pin. -/
def inDiff (n : Nat) : Fld := ⟨Reg.TWIN_IN_DIFF (n / 32), n % 32, 1⟩

/-- In how many mirrors in a row, up to 3, the pin differs with this one. -/
def State.mirrorCount (s : State) (v : BitVec 256) (n : Nat) : Nat :=
  if s.level n != v.getLsbD n then min 3 (Tab.get 0 s.twin.diffs n + 1) else 0

def State.countDiff (n c : Nat) (s : State) : State := s.setTwin { s.twin with diffs := Tab.set 0 s.twin.diffs n c }

/-- One pin of a mirror. -/
def State.mirrorPin (v : BitVec 256) (n : Nat) (s : State) : State :=
  if s.mirrorCount v n = 3 then (s.countDiff n (s.mirrorCount v n)).on (inDiff n) else s.countDiff n (s.mirrorCount v n)

/-- The mirror shows the pin at another level for the third time. -/
def State.differsThrice (s : State) (v : BitVec 256) (n : Nat) : Bool := s.level n != v.getLsbD n && decide (2 ≤ Tab.get 0 s.twin.diffs n)

theorem inDiff_apart {n j : Nat} (h : n ≠ j) : (inDiff n).reg ≠ (inDiff j).reg ∨
    (((inDiff n).lo + (inDiff n).width ≤ (inDiff j).lo ∨ (inDiff j).lo + (inDiff j).width ≤ (inDiff n).lo) ∧
      (inDiff n).lo + (inDiff n).width ≤ 32) := by
  simp only [inDiff, Reg.TWIN_IN_DIFF]
  omega

/-- The pin differs for the third time exactly when its count reaches 3. -/
theorem State.mirrorCount_three (s : State) (v : BitVec 256) (n : Nat) : s.mirrorCount v n = 3 ↔ s.differsThrice v n = true := by
  rw [State.mirrorCount, State.differsThrice]
  cases s.level n != v.getLsbD n with
  | false => simp
  | true =>
    simp only [if_true, Bool.true_and, decide_eq_true_eq]
    omega

theorem State.mirrorPin_same (s : State) (v : BitVec 256) (n : Nat) :
    (s.mirrorPin v n).flag (inDiff n) = (s.differsThrice v n || s.flag (inDiff n)) := by
  have hiff := s.mirrorCount_three v n
  rw [State.mirrorPin]
  split
  next h =>
    rw [hiff.mp h, Bool.true_or]
    exact State.flag_on_same (f := inDiff n) _ (by simp only [inDiff]; omega) (by simp [inDiff])
  next h =>
    rw [Bool.eq_false_iff.mpr (mt hiff.mpr h), Bool.false_or]
    rfl

theorem State.mirrorPin_diffs (s : State) (v : BitVec 256) (j : Nat) :
    (s.mirrorPin v j).twin.diffs = Tab.set 0 s.twin.diffs j (s.mirrorCount v j) := by
  rw [State.mirrorPin]
  split <;> rfl

theorem State.mirrorPin_kept (s : State) (v : BitVec 256) {j : Nat} (hj : j < 256) :
    JournalKept ((List.range 8).map Reg.TWIN_IN_DIFF) s (s.mirrorPin v j) := by
  have hmem : (inDiff j).reg ∈ (List.range 8).map Reg.TWIN_IN_DIFF := List.mem_map_of_mem (List.mem_range.mpr (by omega))
  have hcount (c : Nat) : JournalKept ((List.range 8).map Reg.TWIN_IN_DIFF) s (s.countDiff j c) := ⟨fun _ _ => rfl, rfl, rfl⟩
  exact .ite ((hcount _).setFld hmem) (hcount _)

theorem inDiff_notLevel (n i : Nat) (hi : i < 8) (hn : n < 256) : Reg.TWIN_IN_DIFF i ≠ Reg.PIN_STAT n := by
  simp only [Reg.PIN_STAT, Reg.TWIN_IN_DIFF]
  omega

/-- One pin of a mirror leaves the others. -/
theorem State.mirrorPin_ne (s : State) (v : BitVec 256) {n j : Nat} (h : n ≠ j) (hn : n < 256) (hj : j < 256) :
    (s.mirrorPin v j).flag (inDiff n) = s.flag (inDiff n) ∧ (s.mirrorPin v j).differsThrice v n = s.differsThrice v n := by
  have hlevel : (s.mirrorPin v j).level n = s.level n := (s.mirrorPin_kept v hj).flag _ fun hmem => by
    obtain ⟨i, hi, heq⟩ := List.mem_map.mp hmem
    exact inDiff_notLevel n i (List.mem_range.mp hi) hn heq
  refine ⟨?_, by rw [State.differsThrice, hlevel, s.mirrorPin_diffs, Tab.get_set_ne _ _ _ _ h, State.differsThrice]⟩
  rw [State.mirrorPin]
  split
  · exact State.flag_setFld_ne _ _ (inDiff_apart h)
  · rfl

/-- After the mirror of the pins in `js` each of them has its IN_DIFF bit set if it differed for the third time. -/
theorem State.mirror_inDiff (s : State) (v : BitVec 256) {js : List Nat} (hjs : ∀ j ∈ js, j < 256) (hnd : js.Nodup) {n : Nat} (hn : n < 256) :
    (s.forEach js (State.mirrorPin v)).flag (inDiff n) = if n ∈ js then s.differsThrice v n || s.flag (inDiff n) else s.flag (inDiff n) := by
  induction js generalizing s with
  | nil => rfl
  | cons j js ih =>
    obtain ⟨hj, hnd⟩ := List.nodup_cons.mp hnd
    refine (ih (s.mirrorPin v j) (fun k hk => hjs k (List.mem_cons_of_mem j hk)) hnd).trans ?_
    by_cases hnj : n = j
    · subst hnj
      rw [if_neg hj, if_pos List.mem_cons_self, s.mirrorPin_same]
    · obtain ⟨hflag, hdiff⟩ := s.mirrorPin_ne v hnj hn (hjs j List.mem_cons_self)
      simp only [hflag, hdiff, List.mem_cons, hnj, false_or]

theorem State.mirror_kept (s : State) (v : BitVec 256) :
    JournalKept ((List.range 8).map Reg.TWIN_IN_DIFF) s (s.forEach (List.range 256) (State.mirrorPin v)) :=
  State.forEach_induct (JournalKept ((List.range 8).map Reg.TWIN_IN_DIFF) s) _ _ s (.refl _ s) fun j hj t h => by
    obtain ⟨hr, hm, hf⟩ := t.mirrorPin_kept v (List.mem_range.mp hj)
    exact ⟨fun a ha => (hr a ha).trans (h.1 a ha), hm.trans h.2.1, hf.trans h.2.2⟩

end Sys2Proof.Machine
end

section
/-!
SUPPORT. The commands of the tether: its loss and return, the partner's status, releases and drive faults.
-/

namespace Sys2Proof.Machine

variable {s : State} {a : Nat}

/-- No beats come, and whether the package was ready is noted. -/
def State.beatsEnd (s : State) : State := s.setTwin { s.twin with upSince := none, wasReady := s.twinState == 2 }

/-- The tether of a twin is lost. -/
def State.loseTether (s : State) : State := (s.beatsEnd.off Fd.TWIN_TWIN_STAT_TETHER_OK).bump Reg.TWIN_TETHER_LOSS_CNT

theorem State.beatsEnd_kept (s : State) : JournalKept [Reg.TWIN_TWIN_STAT, Reg.TWIN_TETHER_LOSS_CNT] s s.beatsEnd := ⟨fun _ _ => rfl, rfl, rfl⟩

theorem State.loseTether_kept (s : State) : JournalKept [Reg.TWIN_TWIN_STAT, Reg.TWIN_TETHER_LOSS_CNT] s s.loseTether :=
  (s.beatsEnd_kept.setFld (f := Fd.TWIN_TWIN_STAT_TETHER_OK) (by simp)).wr (by simp)

/-- Readiness changes TWIN_STAT alone. -/
theorem JournalKept.noteReady {t : State} {l : List Nat} (h : JournalKept l s t) (hl : Reg.TWIN_TWIN_STAT ∈ l) : JournalKept l s t.noteReady := by
  obtain ⟨hr, hm, hf⟩ := t.noteReady_kept
  exact ⟨fun a ha => (hr a fun hx => ha (List.mem_singleton.mp hx ▸ hl)).trans (h.1 a ha), hm.trans h.2.1, hf.trans h.2.2⟩

theorem State.noteReady_rd (s : State) {a : Nat} (h : a ≠ Reg.TWIN_TWIN_STAT) : s.noteReady.rd a = s.rd a :=
  s.noteReady_kept.1 a (by simp [h])

theorem State.loseTether_done (s : State) : s.loseTether.noteReady.tetherOk = false ∧ s.loseTether.noteReady.twin.upSince = none ∧
    s.loseTether.noteReady.rd Reg.TWIN_TETHER_LOSS_CNT =
      BitVec.ofNat 32 (min ((s.rd Reg.TWIN_TETHER_LOSS_CNT).toNat + 1) 0xFFFFFFFF) := by
  have hok : s.loseTether.tetherOk = false :=
    (State.flag_congr (State.rd_bump_ne _ (by decide))).trans (State.flag_off_same _ (by decide))
  have hcount : s.loseTether.rd Reg.TWIN_TETHER_LOSS_CNT =
      BitVec.ofNat 32 (min ((s.rd Reg.TWIN_TETHER_LOSS_CNT).toNat + 1) 0xFFFFFFFF) := by
    rw [State.loseTether, State.rd_bump_same, State.off, State.rd_setFld_ne _ _ _ (by decide)]
    rfl
  exact ⟨(s.loseTether.noteReady_flag (by decide)).trans hok, s.loseTether.noteReady_twin.1, (s.loseTether.noteReady_rd (by decide)).trans hcount⟩

theorem exec_tetherLoss (hd : s.deadline .tether = some a) (hok : s.tetherOk = true) :
    exec .tetherLoss s = .next (s.expire .tether).loseTether.noteReady := by
  have harmed : s.armed .tether = true := by rw [State.armed, hd]; rfl
  refine congrArg Host.Outcome.next ((State.expiry_armed _ _ _ harmed).trans (congrArg State.noteReady (if_pos ?_)))
  exact (State.flag_congr (s.expire_rd .tether _)).trans hok

/-- The tether is back at clock `a`. -/
def State.regainTether (a : Nat) (s : State) : State := ((s.until a).on Fd.TWIN_TWIN_STAT_TETHER_OK).arm .tether (3 * usPs)

theorem exec_tetherBack (ht : s.tethered = true) (hok : s.tetherOk = false) (ha : s.twin.upSince = some a) :
    exec .tetherBack s = .next (s.regainTether (a + 100 * usPs)).noteReady := by
  have hno : (s.tetherOk || !s.tethered) = false := by rw [hok, ht]; rfl
  change execTetherBack s = _
  rw [execTetherBack, ha]
  exact congrArg Host.Outcome.next (if_neg (Bool.eq_false_iff.mp hno))

theorem State.regainTether_done (s : State) (a : Nat) : (s.regainTether a).noteReady.tetherOk = true ∧
    (s.regainTether a).noteReady.clk = max s.clk a ∧ JournalKept [Reg.TWIN_TWIN_STAT] s (s.regainTether a).noteReady := by
  have hpast : JournalKept [Reg.TWIN_TWIN_STAT] s (s.until a) := ⟨fun _ _ => rfl, rfl, rfl⟩
  have hon : JournalKept [Reg.TWIN_TWIN_STAT] s (s.regainTether a) := hpast.setFld (f := Fd.TWIN_TWIN_STAT_TETHER_OK) (by simp)
  have hclk : (s.regainTether a).clk = max s.clk a := by
    change s.clk + (a - s.clk) = _
    omega
  exact ⟨((s.regainTether a).noteReady_flag (by decide)).trans (State.flag_on_same (s.until a) (by decide) (by decide)),
    (s.regainTether a).noteReady_twin.2.trans hclk, hon.noteReady (by simp)⟩

/-- The partner's digest is loaded and compared. -/
def State.takeDigest (d : BitVec 64) (s : State) : State :=
  let s := s.wr64 Reg.TWIN_PARTNER_DIGEST_LO Reg.TWIN_PARTNER_DIGEST_HI d.toNat
  s.setFlag Fd.TWIN_TWIN_STAT_CFG_MISMATCH (!s.digestsMatch)

theorem State.digestsMatch_congr {t : State} (h : ∀ a, a ≠ Reg.TWIN_TWIN_STAT → t.rd a = s.rd a) : t.digestsMatch = s.digestsMatch := by
  rw [State.digestsMatch, h _ (by decide), h _ (by decide), h _ (by decide), h _ (by decide), State.digestsMatch]

theorem State.takeDigest_done (s : State) (d : BitVec 64) :
    (s.takeDigest d).noteReady.rd64 Reg.TWIN_PARTNER_DIGEST_LO Reg.TWIN_PARTNER_DIGEST_HI = d.toNat ∧
    (s.takeDigest d).noteReady.flag Fd.TWIN_TWIN_STAT_CFG_MISMATCH = !(s.takeDigest d).noteReady.digestsMatch ∧
    JournalKept [Reg.TWIN_TWIN_STAT, Reg.TWIN_PARTNER_DIGEST_LO, Reg.TWIN_PARTNER_DIGEST_HI] s (s.takeDigest d).noteReady := by
  set u := s.wr64 Reg.TWIN_PARTNER_DIGEST_LO Reg.TWIN_PARTNER_DIGEST_HI d.toNat with hu
  have hrd (a : Nat) (ha : a ≠ Reg.TWIN_TWIN_STAT) : (s.takeDigest d).noteReady.rd a = u.rd a :=
    ((s.takeDigest d).noteReady_rd ha).trans (u.rd_setFld_ne _ _ ha)
  refine ⟨?_, ?_, ?_⟩
  · rw [State.rd64_congr (hrd _ (by decide)) (hrd _ (by decide)), hu, State.rd64_wr64 _ (by decide) d.isLt]
  · rw [State.digestsMatch_congr hrd, State.noteReady_flag _ (by decide)]
    exact u.flag_setFlag_same _ (by decide) (by decide)
  · have hload : JournalKept [Reg.TWIN_TWIN_STAT, Reg.TWIN_PARTNER_DIGEST_LO, Reg.TWIN_PARTNER_DIGEST_HI] s u :=
      ((JournalKept.refl _ s).wr (by simp)).wr (by simp)
    exact JournalKept.noteReady (hload.setFld (f := Fd.TWIN_TWIN_STAT_CFG_MISMATCH) (by simp)) (by simp)

/-- A release seen by a ready standby that waits for no gap yet. -/
theorem State.partnerReleased_ready (ev : Nat) (ht : s.tethered = true) (hf : s.fieldHolder = false) (h2 : s.twinState = 2)
    (hk : s.twin.take = none) : s.partnerReleased ev =
      s.setTwin { s.twin with actAt := none, relAt := s.clk, handAt := none, take := some (ev, s.clk) } := by
  have hno : (!s.tethered || s.fieldHolder) = false := by rw [ht, hf]; rfl
  rw [State.partnerReleased, hno, if_neg Bool.false_ne_true]
  exact if_pos ⟨h2, hk⟩

section
variable {n : Fin 256} {v : Bool} (hv : s.pinDrive n.val = some v) (hod : s.flag (Fd.PIN_CFG_OD n.val) = false)
include hv hod

theorem exec_driveFault : exec (.driveFault n) s = .next (if s.level n.val = v then s
    else (s.on ⟨Reg.TWIN_DRIVE_FAULT (n.val / 32), n.val % 32, 1⟩).bump Reg.TWIN_DRIVE_FAULT_CNT) := by
  change execDriveFault n s = _
  simp only [execDriveFault, hv, hod, Bool.false_or, beq_iff_eq]

end

end Sys2Proof.Machine
end

section
open Sys2Proof.Machine

/-- Settles O45: each tether event changes its own flags and counters, and a mirror is an induction over its pins. -/
theorem tether : Obligations.Tether := by
  unfold Obligations.Tether
  refine ⟨fun s h ht => ?_, fun s a hd hok => ?_, fun s a ht hok ha => ?_, fun s d ht => ?_, fun s a b l => ⟨fun hm => ?_, fun hm => ?_⟩,
    fun s v ht => ?_, fun s ht hf h2 hk => ?_, fun s n v hv hod => ⟨fun hl => ?_, fun hl => ?_⟩, fun s ht => ?_⟩
  · obtain ⟨hregs, hmem, htwin, htimers⟩ := s.heartbeat_left h
    have hrd (a : Nat) := State.rd_congr hregs a
    have hbeat := (s.takeBeat_kept h).same
    refine ⟨_, congrArg Host.Outcome.next (if_pos ht), (State.flag_congr (hrd _)).trans (s.takeBeat_ready h), by rw [htwin]; rfl,
      by rw [htwin]; rfl, ?_, fun hm c hc => ?_, fun a ha => (hrd a).trans (hbeat.1 a ha),
      SameBytes.of_mem (hmem.trans (s.takeBeat_kept h).2.1)⟩
    · rw [← s.takeBeat_deadline h, State.deadline, htimers, State.deadline]
    · rw [s.heartbeat_eq, if_pos hm, State.loadSeqs_seq, if_pos (List.mem_range.mpr hc)]
  · obtain ⟨hlost, hup, hcount⟩ := (s.expire .tether).loseTether_done
    obtain ⟨hregs, hbytes⟩ := ((s.expire .tether).loseTether_kept.noteReady (by simp)).same
    rw [State.expire_rd] at hcount
    exact ⟨_, exec_tetherLoss hd hok, hlost, hup, hcount, fun a ha => (hregs a ha).trans (s.expire_rd _ a),
      fun a => (hbytes a).trans (SameBytes.of_mem (s.expire_mem _) a)⟩
  · have hbeat : 100 * usPs = 100000000 := rfl
    obtain ⟨hback, hclk, hkept⟩ := s.regainTether_done (a + 100000000)
    rw [exec_tetherBack ht hok ha, hbeat]
    exact ⟨_, rfl, hback, hclk, hkept.same⟩
  · obtain ⟨hdigest, hmismatch, hkept⟩ := s.takeDigest_done d
    exact ⟨_, congrArg Host.Outcome.next (if_pos ht), hdigest, hmismatch, hkept.same⟩
  · exact congrArg Host.Outcome.next (if_neg hm)
  · exact congrArg Host.Outcome.next (if_pos hm)
  · have hdiff (n : Nat) (hn : n < 256) := s.mirror_inDiff v (fun j hj => List.mem_range.mp hj) List.nodup_range hn
    refine ⟨_, congrArg Host.Outcome.next (if_pos ht), fun n hn hl h2 => ?_, fun n hn hl => ?_, (s.mirror_kept v).same⟩
    · refine (hdiff n hn).trans ?_
      rw [if_pos (List.mem_range.mpr hn), State.differsThrice, decide_eq_true h2, Bool.and_true, bne_iff_ne.mpr hl, Bool.true_or]
    · refine (hdiff n hn).trans ?_
      have hno : s.differsThrice v n = false := by
        rw [State.differsThrice]
        rcases hl with hl | hl
        · rw [hl, bne_self_eq_false, Bool.false_and]
        · rw [decide_eq_false (by omega), Bool.and_false]
      rw [if_pos (List.mem_range.mpr hn), hno, Bool.false_or]
      rfl
  · have hrel := State.partnerReleased_ready 1 ht hf h2 hk
    exact ⟨_, congrArg Host.Outcome.next hrel, congrArg Host.Outcome.next hrel, rfl, rfl, rfl, fun _ _ => rfl, fun _ => rfl⟩
  · rw [exec_driveFault hv hod, if_pos hl]
  · rw [exec_driveFault hv hod, if_neg hl]
    have hne : Reg.TWIN_DRIVE_FAULT (n.val / 32) ≠ Reg.TWIN_DRIVE_FAULT_CNT := by
      simp only [Reg.TWIN_DRIVE_FAULT, Reg.TWIN_DRIVE_FAULT_CNT]
      omega
    refine ⟨_, rfl, ?_, ?_, ((OnlyRegs.refl _ s).setFld (by simp)).wr (by simp)⟩
    · rw [State.flag_congr (State.rd_bump_ne _ hne)]
      exact State.flag_on_same _ (by simp only; omega) (by simp)
    · rw [State.rd_bump_same, State.on, State.rd_setFld_ne _ _ _ hne.symm]
  · exact congrArg Host.Outcome.next (State.command_takes none _ ht)

end

section
/-!
SUPPORT. The host mailbox: a command at a serving port, words pushed and popped, and completion messages.
-/

namespace Sys2Proof.Machine

variable {s : State}

/-! ### A command at a serving port (15 R384, R388) -/

theorem State.hostServes_awake (h : s.hostServes = true) : s.anat.kaHeld = false ∧ s.mode ≠ .drowse := by
  simp only [State.hostServes, Bool.and_eq_true, Bool.not_eq_true', Bool.or_eq_false_iff, beq_eq_false_iff_ne] at h
  obtain ⟨⟨⟨⟨⟨⟨hk, -⟩, -⟩, -⟩, -⟩, -⟩, ⟨-, -⟩, hd⟩ := h
  exact ⟨hk, hd⟩

theorem State.hostCommand_served (hs : s.hostServes = true) (he : s.flag Fd.SYS_MODE_STAT_ENTERING = false) (n : Nat) (f : State → State) :
    s.hostCommand n true f = f s := by
  obtain ⟨hk, hd⟩ := State.hostServes_awake hs
  rw [State.hostCommand, hk, if_neg Bool.false_ne_true, State.wakeSource_awake _ _ hd he]
  exact if_pos (by rw [hs]; rfl)

/-! ### Words pushed (15 R385) -/

theorem leVal_leBytes (n v : Nat) : leVal (leBytes n v) = v % 256 ^ n := by
  induction n generalizing v with
  | zero => simp [leBytes, leVal, Nat.mod_one]
  | succ n ih =>
    have hcons : leVal (leBytes (n + 1) v) = (BitVec.ofNat 8 v).toNat + 256 * leVal (leBytes n (v / 256)) := rfl
    rw [hcons, ih, BitVec.toNat_ofNat, pow_succ' 256 n]
    exact Nat.mod_mul.symm

/-- The 8 bytes of a pushed word: its data, and LAST in bit 34. -/
def pushBytes (w : Word) (last : Bool) : List Byte := leBytes 8 (w.toNat + if last then 2 ^ 34 else 0)

theorem pushBytes_data (w : Word) (last : Bool) : BitVec.ofNat 32 (leVal ((pushBytes w last).take 4)) = w := by
  have htake : (pushBytes w last).take 4 = leBytes 4 (w.toNat + if last then 2 ^ 34 else 0) := rfl
  have hw := w.isLt
  refine BitVec.eq_of_toNat_eq ?_
  rw [htake, leVal_leBytes, BitVec.toNat_ofNat]
  cases last <;> simp only [Bool.false_eq_true, if_false, if_true] <;> omega

theorem pushBytes_last (w : Word) (last : Bool) : ((pushBytes w last).getD 4 0#8).getLsbD 2 = last := by
  have hbyte : (pushBytes w last).getD 4 0#8 = BitVec.ofNat 8 ((w.toNat + if last then 2 ^ 34 else 0) / 256 / 256 / 256 / 256) := rfl
  have hw := w.isLt
  have hdiv : (w.toNat + if last then 2 ^ 34 else 0) / 256 / 256 / 256 / 256 = if last then 4 else 0 := by
    cases last <;> simp only [Bool.false_eq_true, if_false, if_true] <;> omega
  rw [hbyte, hdiv]
  cases last <;> rfl

theorem State.mbWords_one (w : Word) (last : Bool) (s : State) : s.mbWords 1 (pushBytes w last) = s.mbWord w last := by
  have hlen : ¬(pushBytes w last).length < 8 := by
    rw [pushBytes, leBytes_length]
    decide
  rw [State.mbWords, if_neg hlen, pushBytes_data, pushBytes_last, State.mbWords]

theorem exec_mbPush (hs : s.hostServes = true) (he : s.flag Fd.SYS_MODE_STAT_ENTERING = false) (w : Word) (last : Bool) :
    exec (.mbPush [(w, last)]) s = .next ((s.mbWord w last).hostGood []) := by
  have hdata : ([(w, last)] : List (Word × Bool)).flatMap (fun w => leBytes 8 (w.1.toNat + if w.2 then 2 ^ 34 else 0)) = pushBytes w last :=
    List.append_nil _
  have hlen : (pushBytes w last).length = 8 := leBytes_length _ _
  have hne : (!(pushBytes w last).isEmpty) = true := rfl
  change Host.Outcome.next (s.hostWriteAt 0x10020 _ none) = _
  rw [hdata, State.hostWriteAt, hne, State.hostCommand_served hs he]
  simp only [Option.map_none, Option.getD_none, hlen, Nat.reduceLT, Nat.reduceDiv, if_false, if_true, State.mbWords_one, Option.isSome_none,
    Bool.false_eq_true]

/-- The request queue has room for the word. -/
theorem State.mbWord_room (w : Word) (last : Bool) (h : s.host.req.length < 128) : s.mbWord w last =
    let u : State := { s with host := { s.host with req := s.host.req ++ [{ data := w, first := s.host.req.isEmpty, last }] } }
    if last then u.mbTake else u := by
  rw [State.mbWord]
  simp only [Nat.not_le.mpr h, if_false]

theorem State.mbWord_full (w : Word) (h : 128 ≤ s.host.req.length) : s.mbWord w false =
    State.on Fd.HOST_H_STAT_MB_OVF { s with host := { s.host with dropped := true } } := by
  rw [State.mbWord]
  simp only [h, if_true, Bool.false_eq_true, if_false]

/-! ### The taking of a message (15 R385) -/

/-- The message is discarded for its length, or because a word of it was dropped. -/
def State.mbBad (s : State) : Prop :=
  let b := s.host.req.flatMap fun w => leBytes 4 w.data.toNat
  s.host.dropped = true ∨ b.length ≠ (12 + leVal ((b.drop 8).take 2) + 3) / 4 * 4

theorem State.mbTake_bad (h : s.mbBad) : s.mbTake = State.refuseIssue 1 .read 0
    (leVal (((s.host.req.flatMap fun w => leBytes 4 w.data.toNat).drop 2).take 2))
    (.badRequest, State.bump Reg.HOST_MB_BAD_MSG { s with host := { s.host with req := [], dropped := false } }) := by
  have hbad := h
  rw [State.mbBad, ← decide_eq_true_iff (p := _ ≠ _), ← Bool.or_eq_true] at hbad
  exact if_pos hbad

theorem State.mbTake_whole (h : ¬s.mbBad) : s.mbTake =
    if (s.host.req.flatMap fun w => leBytes 4 w.data.toNat).head? ≠ some 1#8 then
      State.bump Reg.HOST_MB_BAD_MSG { s with host := { s.host with req := [], dropped := false } }
    else State.issueMsg 1 (s.host.req.flatMap fun w => leBytes 4 w.data.toNat)
      { s with host := { s.host with req := [], dropped := false } } := by
  have hgood := h
  rw [State.mbBad, ← decide_eq_true_iff (p := _ ≠ _), ← Bool.or_eq_true] at hgood
  exact if_neg hgood

/-! ### Words popped (15 R386, R389) -/

theorem State.popCheck_kept (w : QWord) (s : State) : (s.popCheck w).2.host = s.host ∧ (s.popCheck w).2.mem = s.mem := by
  simp only [State.popCheck]
  split
  · exact ⟨rfl, rfl⟩
  · split
    · split <;> exact ⟨rfl, rfl⟩
    · exact ⟨rfl, rfl⟩

/-- A pop takes the words off the queue. -/
theorem State.mbPops_left (k : Nat) (ups : List (Fin 3)) (s : State) :
    (s.mbPops k ups).2.host.cpl = s.host.cpl.drop k ∧ (s.mbPops k ups).2.mem = s.mem := by
  induction k generalizing ups s with
  | zero => exact ⟨rfl, rfl⟩
  | succ k ih =>
    cases hq : s.host.cpl with
    | nil =>
      obtain ⟨hcpl, hmem⟩ := ih ups.tail s
      simp only [State.mbPops, hq]
      exact ⟨by rw [hcpl, hq, List.drop_nil, List.drop_nil], hmem⟩
    | cons w t =>
      simp only [State.mbPops, hq]
      obtain ⟨hhost, hkept⟩ := State.popCheck_kept
        (if (ups.head?.getD 0).val = 0 then w else { w with upset := (ups.head?.getD 0).val }) { s with host := { s.host with cpl := t } }
      obtain ⟨hcpl, hmem⟩ := ih ups.tail (State.popCheck
        (if (ups.head?.getD 0).val = 0 then w else { w with upset := (ups.head?.getD 0).val }) { s with host := { s.host with cpl := t } }).2
      exact ⟨by rw [hcpl, hhost, List.drop_succ_cons], hmem.trans hkept⟩

/-- Without errors a pop returns the pop values of the words and changes nothing else. -/
theorem State.mbPops_clean (k : Nat) (s : State) (hk : k ≤ s.host.cpl.length) (h : ∀ w ∈ s.host.cpl, w.upset = 0) : s.mbPops k [] =
    ((s.host.cpl.take k).flatMap fun w => leBytes 8 w.popValue, { s with host := { s.host with cpl := s.host.cpl.drop k } }) := by
  induction k generalizing s with
  | zero => rfl
  | succ k ih =>
    obtain ⟨w, t, hq⟩ : ∃ w t, s.host.cpl = w :: t := List.exists_cons_of_length_pos (by omega)
    have hw : w.upset = 0 := h w (by rw [hq]; exact List.mem_cons_self)
    have ht := ih { s with host := { s.host with cpl := t } } (by rw [hq] at hk; exact Nat.le_of_succ_le_succ hk)
      fun x hx => h x (by rw [hq]; exact List.mem_cons_of_mem w hx)
    simp only [State.mbPops, hq, List.head?_nil, Option.getD_none, Fin.val_zero, if_true, State.popCheck, hw, List.tail_nil, ht,
      List.take_succ_cons, List.flatMap_cons, List.drop_succ_cons]

theorem exec_mbPop (hs : s.hostServes = true) (he : s.flag Fd.SYS_MODE_STAT_ENTERING = false) {k : BitVec 8} (hk : k ≠ 0#8)
    (ups : List (Fin 3)) : exec (.mbPop k ups) s = .next ((s.mbPops k.toNat ups).2.hostGood (s.mbPops k.toNat ups).1) := by
  have hpos : k.toNat ≠ 0 := fun h0 => hk (BitVec.eq_of_toNat_eq h0)
  have hwhole : (8 * k.toNat != 0) = true := bne_iff_ne.mpr (by omega)
  have hdiv : 8 * k.toNat / 8 = k.toNat ∧ 8 * k.toNat % 8 = 0 := by omega
  change Host.Outcome.next (s.hostReadAt 0x10028 (8 * k.toNat) false ups) = _
  rw [State.hostReadAt, hwhole, State.hostCommand_served hs he]
  simp only [hdiv, Nat.reduceLT, if_false, if_true, List.replicate_zero, List.append_nil]

/-! ### Completion messages (15 R386) -/

/-- The words of a completion message, the first and the last marked. -/
def messageWords (l : List Word) : List QWord :=
  (List.range l.length).map fun i => { data := l.getD i 0#32, first := i == 0, last := i + 1 == l.length }

theorem messageWords_data (l : List Word) : (messageWords l).map (·.data) = l := by
  rw [messageWords, List.map_map]
  refine List.ext_getElem (by simp) fun i hi hi' => ?_
  rw [List.getElem_map, List.getElem_range]
  exact List.getD_eq_getElem _ _ hi'

/-- The completion enters the queue. -/
def State.enqueueCpl (c : MsgCpl) (s : State) : State :=
  { s with txn := { s.txn with cpls := s.txn.cpls.erase c }, host := { s.host with cpl := s.host.cpl ++ messageWords (wordsLe c.encode) } }

theorem State.mbComplete_some {c : MsgCpl} (h : s.txn.cpls.find? (fun c => c.init == 1) = some c) : s.mbComplete =
    if 128 < s.host.cpl.length + (wordsLe c.encode).length then s
    else ((s.enqueueCpl c).peak Fd.HOST_MB_COUNT_CPL_PEAK (s.host.cpl.length + (wordsLe c.encode).length)).hostPend 0 := by
  rw [State.mbComplete, h]
  rfl

theorem State.mbComplete_none (h : s.txn.cpls.find? (fun c => c.init == 1) = none) : s.mbComplete = s := by
  rw [State.mbComplete, h]

theorem State.enqueueCpl_pend (s : State) (c : MsgCpl) (n : Nat) :
    let t := ((s.enqueueCpl c).peak Fd.HOST_MB_COUNT_CPL_PEAK n).hostPend 0
    t.host = (s.enqueueCpl c).host ∧ t.txn = (s.enqueueCpl c).txn ∧ t.flag ⟨Reg.HOST_H_IRQ_PEND, 0, 1⟩ = true ∧
      JournalKept [Reg.HOST_MB_COUNT, Reg.HOST_H_IRQ_PEND] s t := by
  have hqueue : JournalKept [Reg.HOST_MB_COUNT, Reg.HOST_H_IRQ_PEND] s (s.enqueueCpl c) := ⟨fun _ _ => rfl, rfl, rfl⟩
  have hpeak : JournalKept [Reg.HOST_MB_COUNT, Reg.HOST_H_IRQ_PEND] s ((s.enqueueCpl c).peak Fd.HOST_MB_COUNT_CPL_PEAK n) :=
    .ite (hqueue.setFld (by simp)) hqueue
  have hleft : ((s.enqueueCpl c).peak Fd.HOST_MB_COUNT_CPL_PEAK n).host = (s.enqueueCpl c).host ∧
      ((s.enqueueCpl c).peak Fd.HOST_MB_COUNT_CPL_PEAK n).txn = (s.enqueueCpl c).txn := by
    rw [State.peak]
    split <;> exact ⟨rfl, rfl⟩
  exact ⟨hleft.1, hleft.2, State.flag_on_same _ (by decide) (by decide), hpeak.setFld (by simp)⟩

end Sys2Proof.Machine
end

section
open Sys2Proof.Machine

/-- Settles O51: a served command is its action, one word is one step of the queue, and a pop is an induction over the words. -/
theorem mailbox : Obligations.Mailbox := by
  unfold Obligations.Mailbox
  refine ⟨fun s w hs he => ⟨fun hroom => ⟨?_, ?_⟩, fun hfull => ?_⟩, fun s => ⟨fun hbad => ?_, fun hok htype => ?_, fun hok htype => ?_⟩,
    fun s k ups hs he hk => ⟨?_, fun hlen hclean => ?_⟩, fun s hr => ⟨fun hnone => ?_, fun c hc => ⟨fun hfull => ?_, fun hroom => ?_⟩⟩⟩
  · rw [exec_mbPush hs he, State.mbWord_room w false hroom]
    exact ⟨_, rfl, rfl, rfl, rfl, fun _ _ => rfl, fun _ => rfl⟩
  · rw [exec_mbPush hs he, State.mbWord_room w true hroom]
    rfl
  · rw [exec_mbPush hs he, State.mbWord_full w hfull]
    have hdrop : JournalKept [Reg.HOST_H_STAT] s { s with host := { s.host with dropped := true } } := ⟨fun _ _ => rfl, rfl, rfl⟩
    have hset : JournalKept [Reg.HOST_H_STAT] s (State.on Fd.HOST_H_STAT_MB_OVF { s with host := { s.host with dropped := true } }) :=
      hdrop.setFld (by simp)
    refine ⟨_, rfl, rfl, rfl, ?_, hset.same⟩
    exact (State.flag_congr (State.rd_congr rfl _)).trans
      (State.flag_on_same { s with host := { s.host with dropped := true } } (f := Fd.HOST_H_STAT_MB_OVF) (by decide) (by decide))
  · exact State.mbTake_bad hbad
  · rw [State.mbTake_whole hok]
    exact if_neg (not_not_intro htype)
  · rw [State.mbTake_whole hok]
    exact if_pos htype
  · obtain ⟨hcpl, hmem⟩ := s.mbPops_left k.toNat ups
    exact ⟨_, exec_mbPop hs he hk ups, hcpl, SameBytes.of_mem hmem⟩
  · rw [exec_mbPop hs he hk, s.mbPops_clean k.toNat hlen hclean]
    exact ⟨_, rfl, fun _ _ => rfl, rfl⟩
  · exact congrArg Host.Outcome.next ((if_pos hr).trans (State.mbComplete_none hnone))
  · exact congrArg Host.Outcome.next ((if_pos hr).trans ((State.mbComplete_some hc).trans (if_pos hfull)))
  · obtain ⟨hhost, htxn, hpend, hkept⟩ := s.enqueueCpl_pend c (s.host.cpl.length + (wordsLe c.encode).length)
    refine ⟨_, congrArg Host.Outcome.next ((if_pos hr).trans ((State.mbComplete_some hc).trans (if_neg (by omega)))), ?_, ?_, hpend, hkept.same⟩
    · rw [hhost]
      exact (List.map_append).trans (congrArg _ (messageWords_data _))
    · rw [htxn]
      rfl

end

section
/-!
SUPPORT. The start after both domains were held: what the modules in their cages and the clock indications show.
-/

namespace Sys2Proof.Machine

/-- A module that stands in its cage and does not count as present has its 100 ms running. -/
def State.modTimed (p : Nat) (s : State) : Prop :=
  s.anat.kaHeld = false → s.flag (Fd.PORT_STAT_MOD_PRESENT p) = false → s.deadline (.modPresent p) = some (s.clk + 100 * msPs)

theorem State.modGoesLow_left (s : State) (p : Nat) : (s.modGoesLow p).regs = s.regs ∧ (s.modGoesLow p).anat = s.anat ∧
    (s.modGoesLow p).field = s.field ∧ (s.modGoesLow p).clk = s.clk := by
  rw [State.modGoesLow]
  split <;> exact ⟨rfl, rfl, rfl, rfl⟩

theorem State.modGoesLow_timed (p : Nat) (s : State) : (s.modGoesLow p).modTimed p := by
  intro hk hp
  obtain ⟨hregs, hanat, -, hclk⟩ := s.modGoesLow_left p
  rw [hanat] at hk
  rw [State.flag_congr (State.rd_congr hregs _)] at hp
  have hcond : ¬((s.setPort p { s.port p with modLow := true }).anat.kaHeld ||
      (s.setPort p { s.port p with modLow := true }).flag (Fd.PORT_STAT_MOD_PRESENT p)) = true := by
    rw [show (s.setPort p { s.port p with modLow := true }).anat.kaHeld = false from hk,
      show (s.setPort p { s.port p with modLow := true }).flag (Fd.PORT_STAT_MOD_PRESENT p) = false from hp]
    exact Bool.false_ne_true
  rw [hclk, State.modGoesLow]
  exact (congrArg (State.deadline · (.modPresent p)) (if_neg hcond)).trans (State.deadline_arm _ _ _)

theorem lookup_filter_ne {α : Type} (l : List (Timer × α)) {x y : Timer} (h : y ≠ x) :
    (l.filter fun e => e.1 != x).lookup y = l.lookup y := by
  induction l with
  | nil => rfl
  | cons e l ih =>
    obtain ⟨z, v⟩ := e
    by_cases hz : z = x
    · subst hz
      rw [List.filter_cons_of_neg (by simp), ih, List.lookup_cons, beq_false_of_ne h]
    · rw [List.filter_cons_of_pos (p := fun e : Timer × α => e.1 != x) (a := (z, v)) (bne_iff_ne.mpr hz), List.lookup_cons, List.lookup_cons, ih]

theorem State.deadline_arm_ne (s : State) {x y : Timer} (d : Nat) (h : y ≠ x) : (s.arm x d).deadline y = s.deadline y := by
  rw [State.deadline, State.arm, List.lookup_cons, beq_false_of_ne h]
  exact lookup_filter_ne s.timers h

/-- The time of a module stands while another one goes low. -/
theorem State.modGoesLow_keeps (p q : Nat) (s : State) (h : s.modTimed p) : (s.modGoesLow q).modTimed p := by
  by_cases hpq : p = q
  · subst hpq
    exact s.modGoesLow_timed p
  intro hk hp
  obtain ⟨hregs, hanat, -, hclk⟩ := s.modGoesLow_left q
  rw [hanat] at hk
  rw [State.flag_congr (State.rd_congr hregs _)] at hp
  rw [hclk, ← h hk hp, State.modGoesLow]
  split
  · rfl
  · exact State.deadline_arm_ne _ _ fun heq => hpq (Timer.modPresent.inj heq)

/-- The state of the restart before the modules are looked at. -/
def State.startClocks (s : State) : State :=
  let t := s.wr Reg.SYS_RST_CAUSE (s.anat.cause.setWidth 32)
  let t := (((t.on Fd.SYS_CLK_STAT_REFCLK_OK).on Fd.SYS_CLK_STAT_CLEAN_LOCK).on Fd.SYS_CLK_STAT_SPREAD_LOCK).setFlag
    Fd.SYS_CLK_STAT_CLK_FAIL (s.anat.heldBy == 1)
  { t with anat := { t.anat with kaHeld := false, mainHeld := false, heldBy := 0, cause := 1#8, unpowered := false,
                                 triangle := t.clk } }.pinsOff

/-- The modules that stand in their cages. -/
def State.startModules (s : State) : State :=
  s.startClocks.forEach ([0, 1, 2].filter fun p => (s.startClocks.port p).modLow) State.modGoesLow

theorem State.startBoth_eq (s : State) (v : Slots) (l : BitVec 256) :
    s.startBoth v l = ((s.startModules.loadLevels l).onlyIf (s.anat.heldBy == 1) (State.sysRec 0x00B 0)).romStart v := rfl

theorem State.startModules_left (s : State) : s.startModules.regs = s.startClocks.regs ∧ s.startModules.anat = s.startClocks.anat ∧
    s.startModules.field = s.startClocks.field ∧ s.startModules.clk = s.startClocks.clk :=
  State.forEach_induct (fun t => t.regs = s.startClocks.regs ∧ t.anat = s.startClocks.anat ∧ t.field = s.startClocks.field ∧
      t.clk = s.startClocks.clk) _ _ _ ⟨rfl, rfl, rfl, rfl⟩ fun p _ t ⟨hr, ha, hf, hc⟩ => by
    obtain ⟨hr', ha', hf', hc'⟩ := t.modGoesLow_left p
    exact ⟨hr'.trans hr, ha'.trans ha, hf'.trans hf, hc'.trans hc⟩

theorem State.startModules_timed (s : State) {p : Nat} (hp : p < 3) (hlow : (s.port p).modLow = true) : s.startModules.modTimed p :=
  State.forEach_establishes (P := State.modTimed) _ _ State.modGoesLow_timed State.modGoesLow_keeps
    (List.mem_filter.mpr ⟨by simp only [List.mem_cons, List.not_mem_nil, or_false]; omega, hlow⟩)

/-- What the registers of the clocks show. -/
theorem State.startClocks_regs (s : State) : s.startClocks.rd Reg.SYS_RST_CAUSE = s.anat.cause.setWidth 32 ∧
    s.startClocks.flag Fd.SYS_CLK_STAT_CLEAN_LOCK = true ∧ s.startClocks.flag Fd.SYS_CLK_STAT_CLK_FAIL = (s.anat.heldBy == 1) ∧
    SameRegs [Reg.SYS_RST_CAUSE, Reg.SYS_CLK_STAT] s s.startClocks := by
  set t := s.wr Reg.SYS_RST_CAUSE (s.anat.cause.setWidth 32) with ht
  set u := (((t.on Fd.SYS_CLK_STAT_REFCLK_OK).on Fd.SYS_CLK_STAT_CLEAN_LOCK).on Fd.SYS_CLK_STAT_SPREAD_LOCK).setFlag
    Fd.SYS_CLK_STAT_CLK_FAIL (s.anat.heldBy == 1) with hu
  have hregs (a : Nat) : s.startClocks.rd a = u.rd a := rfl
  have hclk : OnlyRegs [Reg.SYS_RST_CAUSE, Reg.SYS_CLK_STAT] s u :=
    (((((OnlyRegs.refl _ s).wr (by simp)).setFld (by simp)).setFld (by simp)).setFld (by simp)).setFld (by simp)
  have hstat (v : State) (f : Fld) (n : Nat) (hf : Reg.SYS_RST_CAUSE ≠ f.reg) : (v.setFld f n).rd Reg.SYS_RST_CAUSE = v.rd Reg.SYS_RST_CAUSE :=
    v.rd_setFld_ne f n hf
  refine ⟨?_, ?_, ?_, fun a ha => (hregs a).trans (hclk.1 a ha)⟩
  · rw [hregs, hu, State.setFlag, hstat _ _ _ (by decide), State.on, hstat _ _ _ (by decide), State.on, hstat _ _ _ (by decide), State.on,
      hstat _ _ _ (by decide), ht, State.rd_wr_same]
  · rw [State.flag_congr (hregs _), hu, State.setFlag, State.flag_setFld_ne _ _ (.inr (by decide)), State.on,
      State.flag_setFld_ne _ _ (.inr (by decide))]
    exact State.flag_on_same _ (by decide) (by decide)
  · rw [State.flag_congr (hregs _)]
    exact State.flag_setFlag_same _ _ (by decide) (by decide)

end Sys2Proof.Machine
end

section
open Sys2Proof.Machine

/-- Settles O5: the restart is its steps; the modules' times are what each module establishes and every other keeps. -/
theorem startAfterBothDomainsWereHeld : Obligations.StartAfterBothDomainsWereHeld := by
  unfold Obligations.StartAfterBothDomainsWereHeld
  refine ⟨fun s svc pos v l hk hb => ?_, fun s v l hk hb => ?_, fun s v l hk hb => ?_, fun s v l => ?_⟩
  · exact congrArg Host.Outcome.next (if_pos (by rw [hk, hb]; rfl))
  · exact congrArg Host.Outcome.next (if_pos (by rw [hk, hb]; rfl))
  · exact congrArg Host.Outcome.next (if_pos (by rw [hk, hb]; rfl))
  · obtain ⟨hregs, hanat, hfield, hclk⟩ := s.startModules_left
    obtain ⟨hcause, hlock, hfail, hsame⟩ := s.startClocks_regs
    have hrd (a : Nat) := State.rd_congr hregs a
    refine ⟨s.startModules, by rw [hanat]; rfl, by rw [hanat]; rfl, (hrd _).trans hcause, (State.flag_congr (hrd _)).trans hlock,
      (State.flag_congr (hrd _)).trans hfail, by rw [hfield]; rfl, by rw [hanat]; rfl, fun p hp hlow hpresent => ?_, s.startBoth_eq v l⟩
    have hother : Reg.PORT_STAT p ∉ [Reg.SYS_RST_CAUSE, Reg.SYS_CLK_STAT] := by
      simp only [List.mem_cons, List.not_mem_nil, or_false, Reg.PORT_STAT, Reg.SYS_RST_CAUSE, Reg.SYS_CLK_STAT]
      omega
    have hstart : s.startModules.clk = s.clk := hclk
    rw [← hstart]
    exact s.startModules_timed hp hlow (by rw [hanat]; rfl) ((State.flag_congr ((hrd _).trans (hsame _ hother))).trans hpresent)

end

section
/-!
SUPPORT. The way into Drowse: the mode stands while the switch goes to the pass-through path, and the entry's last step.
-/

namespace Sys2Proof.Machine

variable {s t u : State}

/-! ### The mode and MODE_STAT left alone (16 R412 step 4) -/

/-- The mode and MODE_STAT stand as before. -/
structure ModeKept (s t : State) : Prop where
  mode : t.mode = s.mode
  stat : t.rd Reg.SYS_MODE_STAT = s.rd Reg.SYS_MODE_STAT

namespace ModeKept

theorem refl (s : State) : ModeKept s s := ⟨rfl, rfl⟩

/-- An update outside the registers and the mode. -/
theorem same (h : ModeKept s t) (hr : u.regs = t.regs) (hm : u.mode = t.mode) : ModeKept s u :=
  ⟨hm.trans h.mode, (State.rd_congr hr _).trans h.stat⟩

theorem wr {a : Nat} {v : Word} (h : ModeKept s t) (ha : Reg.SYS_MODE_STAT ≠ a) : ModeKept s (t.wr a v) :=
  ⟨h.mode, (t.rd_wr_ne v ha).trans h.stat⟩

theorem setFld {f : Fld} {v : Nat} (h : ModeKept s t) (hf : Reg.SYS_MODE_STAT ≠ f.reg) : ModeKept s (t.setFld f v) := h.wr hf

theorem bump {a : Nat} (h : ModeKept s t) (ha : Reg.SYS_MODE_STAT ≠ a) : ModeKept s (t.bump a) := h.wr ha

theorem arm {x : Timer} {d : Nat} (h : ModeKept s t) : ModeKept s (t.arm x d) := h.same rfl rfl

theorem ite {c : Prop} [Decidable c] (ht : ModeKept s t) (hu : ModeKept s u) : ModeKept s (if c then t else u) := by
  split
  · exact ht
  · exact hu

theorem ite₂ {α : Type} {c : Prop} [Decidable c] {r q : α × State} (hr : ModeKept s r.2) (hq : ModeKept s q.2) :
    ModeKept s (if c then r else q).2 := by
  split
  · exact hr
  · exact hq

theorem onlyIf {b : Bool} {f : State → State} (h : ModeKept s t) (hf : ∀ v, ModeKept s v → ModeKept s (f v)) :
    ModeKept s (t.onlyIf b f) := .ite (hf t h) h

theorem forEach {β : Type} {l : List β} {f : β → State → State} (h : ModeKept s t) (hf : ∀ b v, ModeKept s v → ModeKept s (f b v)) :
    ModeKept s (t.forEach l f) := State.forEach_induct (ModeKept s) l f t h fun b _ v hv => hf b v hv

/-! Copies that leave the switch (04 R93, R100). -/

theorem setPool {v : Nat} (h : ModeKept s t) : ModeKept s (t.setPool v) :=
  have hs := h.wr (a := Reg.SWC_POOL_FREE) (by decide)
  .ite (hs.wr (by decide)) hs

theorem setDepth {q v : Nat} (h : ModeKept s t) : ModeKept s (t.setDepth q v) :=
  have hs := h.wr (a := Reg.SWC_DEPTH q) (by simp only [Reg.SYS_MODE_STAT, Reg.SWC_DEPTH]; omega)
  .ite (hs.wr (by simp only [Reg.SYS_MODE_STAT, Reg.SWC_PEAK]; omega)) hs

theorem dropCopy {c : Copy} (h : ModeKept s t) : ModeKept s (t.dropCopy c) := by
  dsimp only [State.dropCopy]
  split
  · exact h.same rfl rfl
  · have hd (x : Switch) (q v : Nat) : ModeKept s (State.setDepth q v { t with sw := x }) := setDepth (h.same rfl rfl)
    exact .ite (h.same rfl rfl) (.ite (hd _ _ _).setPool (hd _ _ _))

/-! The answers to the requests they held (05 R130, R145; 01 R23). -/

theorem setOutst {i v : Nat} (h : ModeKept s t) : ModeKept s (t.setOutst i v) :=
  have hs := h.wr (a := Reg.TXN_OUTST i) (by simp only [Reg.SYS_MODE_STAT, Reg.TXN_OUTST]; omega)
  .ite (hs.wr (by simp only [Reg.SYS_MODE_STAT, Reg.TXN_PEAK_OUT]; omega)) hs

theorem freeTag {n : Nat} (h : ModeKept s t) : ModeKept s (t.freeTag n) := by
  dsimp only [State.freeTag]
  split
  · exact h
  · exact .ite (h.same rfl rfl) (setOutst (h.same rfl rfl))

theorem initCpl {init : Nat} {tag : Option Nat} {w : Option TagUse} {st : Status} {data : List Byte} (h : ModeKept s t) :
    ModeKept s (t.initCpl init tag w st data) := by
  have he : ModeKept s (t.emit (.cpl init tag st data)) := h.same rfl rfl
  dsimp only [State.initCpl]
  split
  · exact he
  · exact .ite he (.ite (he.bump (by decide)) (he.same rfl rfl))

theorem ownCpl {q : Request} {st : Status} {data : List Byte} (h : ModeKept s t) : ModeKept s (t.ownCpl q st data) := by
  have hlate := h.bump (a := Reg.TXN_LATE_CPL) (by decide)
  dsimp only [State.ownCpl]
  split
  · exact .ite hlate h.freeTag.initCpl
  · exact hlate

theorem queueFrame {f : Frame} (h : ModeKept s t) : ModeKept s (t.queueFrame f) := h.same rfl rfl

theorem reply {k : ReqKind} {q : Request} {st : Status} {data : List Byte} (h : ModeKept s t) : ModeKept s (t.reply k q st data) :=
  .ite h (.ite h.ownCpl h.queueFrame)

theorem notice {rec : Bool} {q : Request} {st : Status} (h : ModeKept s t) : ModeKept s (t.notice rec q st).2 := by
  have hun : ModeKept s (t.unnotified rec) := .ite (h.same rfl rfl) h
  have hsent (f : Frame) (x : Txn) : ModeKept s (State.queueFrame f { t with txn := x }) := queueFrame (h.same rfl rfl)
  exact .ite₂ (hun.onlyIf fun _ hv => hv.bump (by decide)) (.ite₂ hun ((hsent _ _).bump (by decide)).arm)

theorem answerKept {st : Status} {k : ReqKind} {q : Request} (h : ModeKept s t) : ModeKept s (t.answerKept st k q) := by
  have hs : ModeKept s (match st with
      | .targetReset => t.bump Reg.SYS_TGT_RESET_CNT
      | .wrongMode => t.bump Reg.WARDEN_WRONG_MODE_CNT
      | _ => t) := by
    split
    · exact h.bump (by decide)
    · exact h.bump (by decide)
    · exact h
  exact .ite h (.ite hs.notice hs.reply)

theorem answerHeld {k : Copy} (h : ModeKept s t) : ModeKept s (t.answerHeld k) := by
  dsimp only [State.answerHeld]
  split
  · exact h
  · refine .ite h.dropCopy ?_
    split
    · exact h.dropCopy.answerKept
    · exact h

theorem toPassThrough (h : ModeKept s t) : ModeKept s t.toPassThrough :=
  have hlocal : ModeKept s t.answerLocal := .forEach (h.same rfl rfl) fun _ _ hv => hv.answerHeld
  have hs := hlocal.setFld (f := Fd.SWC_SWC_STAT_PATH) (v := 1) (by decide)
  .ite hs hs.arm

end ModeKept

/-! ### The entry's end (16 R412) -/

theorem State.pushRec_mode (s : State) (i : Nat) (r : JRec) : (s.pushRec i r).mode = s.mode := by
  simp only [State.pushRec]
  split
  · rfl
  · split <;> rfl

theorem State.requestWake_mode (s : State) : (s.requestWake none).mode = s.mode := by
  simp only [State.requestWake]
  split
  · rfl
  · split <;> rfl

theorem State.stationEvent_mode (s : State) (code arg : Nat) : (s.stationEvent code arg).mode = s.mode := by
  simp only [State.stationEvent]
  split
  · rfl
  · split
    · exact State.requestWake_mode _
    · rfl

theorem State.enterMode_mode (s : State) (m : Mode) : (s.enterMode m).mode = m := by
  simp only [State.enterMode, State.hostPend_mode, State.stationEvent_mode, State.sysRec, State.pushRec_mode]

theorem State.pauseWdog_kept (s : State) : s.pauseWdog.regs = s.regs ∧ s.pauseWdog.mode = s.mode ∧ s.pauseWdog.anat = s.anat := by
  rw [State.pauseWdog]
  split <;> exact ⟨rfl, rfl, rfl⟩

/-- The DRAM goes into self-refresh, the entry counts and the watchdog pauses. -/
def State.fallAsleep (s : State) : State :=
  let t : State := { s with anat := { s.anat with dramSelfRefresh := true }, field := { s.field with wakeEdge := false } }
  ((t.on Fd.MEM_MEM_STAT_SELF_REFRESH).bump Reg.SYS_DRW_ENTRY_CNT).pauseWdog

theorem State.fallAsleep_done (s : State) : ModeKept s s.fallAsleep ∧ s.fallAsleep.flag Fd.MEM_MEM_STAT_SELF_REFRESH = true ∧
    s.fallAsleep.anat.dramSelfRefresh = true := by
  let t : State := { s with anat := { s.anat with dramSelfRefresh := true }, field := { s.field with wakeEdge := false } }
  obtain ⟨hregs, hmode, hanat⟩ := ((t.on Fd.MEM_MEM_STAT_SELF_REFRESH).bump Reg.SYS_DRW_ENTRY_CNT).pauseWdog_kept
  have ht : ModeKept s t := (ModeKept.refl s).same rfl rfl
  refine ⟨((ht.setFld (by decide)).bump (by decide)).same hregs hmode, ?_, congrArg (·.dramSelfRefresh) hanat⟩
  have hon := t.flag_on_same (f := Fd.MEM_MEM_STAT_SELF_REFRESH) (by decide) (by decide)
  have hbump := (t.on Fd.MEM_MEM_STAT_SELF_REFRESH).rd_bump_ne (a := Reg.SYS_DRW_ENTRY_CNT) (b := Reg.MEM_MEM_STAT) (by decide)
  exact (State.flag_congr (x := Fd.MEM_MEM_STAT_SELF_REFRESH) ((State.rd_congr hregs _).trans hbump)).trans hon

/-- The wake sequence starts: it counts, and ends 1.8 ms later. -/
def State.startWake (s : State) : State := ((s.on Fd.SYS_MODE_STAT_WAKING).bump Reg.SYS_WAKE_CNT).arm .wake (1800 * usPs)

theorem State.startWake_rd (s : State) {a : Nat} (h : a ≠ Reg.SYS_MODE_STAT) (hc : a ≠ Reg.SYS_WAKE_CNT) : s.startWake.rd a = s.rd a :=
  (State.rd_bump_ne _ hc).trans (s.rd_setFld_ne _ _ h)

theorem State.startWake_stat (s : State) {x : Fld} (h : x.reg = Reg.SYS_MODE_STAT) : s.startWake.flag x = (s.on Fd.SYS_MODE_STAT_WAKING).flag x :=
  State.flag_congr (State.rd_bump_ne (s.on Fd.SYS_MODE_STAT_WAKING) (by rw [h]; decide))

theorem State.startWake_waking (s : State) : s.startWake.flag Fd.SYS_MODE_STAT_WAKING = true :=
  (s.startWake_stat rfl).trans (s.flag_on_same (by decide) (by decide))

theorem State.startWake_entering (s : State) : s.startWake.flag Fd.SYS_MODE_STAT_ENTERING = s.flag Fd.SYS_MODE_STAT_ENTERING :=
  (s.startWake_stat rfl).trans (s.flag_setFld_ne 1 (by decide))

/-- The entry ends asleep; a source that came meanwhile starts the wake. -/
theorem State.drowseEntered_eq (s : State) : ∃ u v : State, ModeKept (State.off Fd.SYS_MODE_STAT_ENTERING (u.enterMode .drowse)) v ∧
    s.drowseEntered = if v.fallAsleep.boot.wakePend then v.fallAsleep.startWake else v.fallAsleep :=
  ⟨_, _, (ModeKept.refl _).onlyIf fun _ h => h.toPassThrough, rfl⟩

theorem State.drowseEntered_done (s : State) : s.drowseEntered.mode = .drowse ∧
    s.drowseEntered.flag Fd.SYS_MODE_STAT_ENTERING = false ∧ s.drowseEntered.flag Fd.MEM_MEM_STAT_SELF_REFRESH = true ∧
    s.drowseEntered.anat.dramSelfRefresh = true ∧
    (s.drowseEntered.boot.wakePend = true → s.drowseEntered.flag Fd.SYS_MODE_STAT_WAKING = true) := by
  obtain ⟨u, v, ⟨hm, hstat⟩, heq⟩ := s.drowseEntered_eq
  obtain ⟨⟨hm', hstat'⟩, hself, hdram⟩ := v.fallAsleep_done
  have hmode : v.fallAsleep.mode = .drowse := (hm'.trans hm).trans (u.enterMode_mode .drowse)
  have hent : v.fallAsleep.flag Fd.SYS_MODE_STAT_ENTERING = false :=
    (State.flag_congr (hstat'.trans hstat)).trans (State.flag_off_same _ (by decide))
  rw [heq]
  split
  · exact ⟨hmode, (State.startWake_entering _).trans hent,
      (State.flag_congr (State.startWake_rd _ (by decide) (by decide))).trans hself, hdram, fun _ => State.startWake_waking _⟩
  · next hp => exact ⟨hmode, hent, hself, hdram, fun h => absurd h hp⟩

end Sys2Proof.Machine
end

section
/-!
SUPPORT. The wake sources of a node in Drowse and the end of a wake.
-/

namespace Sys2Proof.Machine

variable {s t u : State} {bit : Fld}

/-! ### A source that wakes (16 R412 to R415) -/

/-- From `s` to `t` the source `bit` has started the wake sequence. -/
def Woken (s t : State) (bit : Fld) : Prop :=
  t.flag bit = true ∧ t.flag Fd.SYS_MODE_STAT_WAKING = true ∧
    t.rd Reg.SYS_WAKE_CNT = BitVec.ofNat 32 (min ((s.rd Reg.SYS_WAKE_CNT).toNat + 1) 0xFFFFFFFF) ∧
    t.deadline .wake = some (t.clk + 1800000000) ∧ t.mode = .drowse ∧ SameBytes s t

/-- In Drowse, with no entry and no wake in progress. -/
structure Asleep (s : State) : Prop where
  mode : s.mode = .drowse
  entering : s.flag Fd.SYS_MODE_STAT_ENTERING = false
  waking : s.flag Fd.SYS_MODE_STAT_WAKING = false

theorem Asleep.of_kept (h : Asleep s) (hk : ModeKept s t) : Asleep t :=
  ⟨hk.mode.trans h.mode, (State.flag_congr hk.stat).trans h.entering, (State.flag_congr hk.stat).trans h.waking⟩

theorem State.startWake_deadline (s : State) : s.startWake.deadline .wake = some (s.startWake.clk + 1800000000) := by
  have hlit : 1800 * usPs = 1800000000 := rfl
  rw [State.startWake, State.deadline_arm, hlit, State.arm_clk]

/-- The node asleep with the source's bit set, as the wake begins. -/
def State.noteSource (bit : Fld) (usb : Bool) (s : State) : State :=
  { s.on bit with boot := { s.boot with usbWake := usb } }

theorem State.wakeSource_asleep (h : Asleep s) (hreg : bit.reg = Reg.SYS_DRW_WAKE_SRC) (usb : Bool) :
    s.wakeSource bit usb = (s.noteSource bit usb).startWake := by
  obtain ⟨hm, he, hw⟩ := h
  have hon : (s.on bit).flag Fd.SYS_MODE_STAT_WAKING = false :=
    (State.flag_congr (s.rd_setFld_ne bit 1 (by rw [hreg]; decide))).trans hw
  simp only [State.wakeSource, he, hm, hon]
  rfl

/-- Its bit lies in DRW_WAKE_SRC. -/
theorem State.wakeSource_woken (h : Asleep s) (hreg : bit.reg = Reg.SYS_DRW_WAKE_SRC) (hbits : bit.lo + bit.width ≤ 32)
    (hwidth : bit.width ≠ 0) (usb : Bool) : Woken s (s.wakeSource bit usb) bit := by
  rw [State.wakeSource_asleep h hreg usb]
  have hrd (a : Nat) : (s.noteSource bit usb).rd a = (s.on bit).rd a := State.rd_congr rfl a
  refine ⟨?_, State.startWake_waking _, ?_, State.startWake_deadline _, h.mode, fun _ => rfl⟩
  · have hstart := (s.noteSource bit usb).startWake_rd (a := bit.reg) (by rw [hreg]; decide) (by rw [hreg]; decide)
    exact (State.flag_congr (hstart.trans (hrd _))).trans (s.flag_on_same hbits hwidth)
  · have hcnt : ((s.noteSource bit usb).on Fd.SYS_MODE_STAT_WAKING).rd Reg.SYS_WAKE_CNT = s.rd Reg.SYS_WAKE_CNT :=
      (State.rd_setFld_ne _ _ _ (by decide)).trans ((hrd _).trans (s.rd_setFld_ne bit 1 (by rw [hreg]; decide)))
    exact (State.rd_bump_same _ Reg.SYS_WAKE_CNT).trans (by rw [hcnt])

/-- A source moves neither the time counter nor the time of a WAKE frame, and nothing leaves. -/
theorem State.wakeSource_else (s : State) (bit : Fld) (usb : Bool) : (s.wakeSource bit usb).ctr = s.ctr ∧
    (s.wakeSource bit usb).boot.wakeAt = s.boot.wakeAt ∧ (s.wakeSource bit usb).out = s.out := by
  simp only [State.wakeSource]
  split
  · exact ⟨rfl, rfl, rfl⟩
  · split
    · split <;> exact ⟨rfl, rfl, rfl⟩
    · split <;> exact ⟨rfl, rfl, rfl⟩

/-- What came before the source has left WAKE_CNT and memory. -/
theorem Woken.after (h : Woken u t bit) (hcnt : u.rd Reg.SYS_WAKE_CNT = s.rd Reg.SYS_WAKE_CNT) (hmem : u.mem = s.mem) : Woken s t bit := by
  obtain ⟨hb, hw, hc, hd, hm, hbytes⟩ := h
  exact ⟨hb, hw, hcnt ▸ hc, hd, hm, fun a => (hbytes a).trans (SameBytes.of_mem hmem a)⟩

/-! ### WAKE frames and the timer (16 R413, R414) -/

theorem exec_wakeFrameRx {f : Frame} (hk : f.kind = Kd.wake) : exec (.wakeFrameRx f) s = .next ((s.takeMail f).wakeFrame f) :=
  congrArg Host.Outcome.next (if_pos hk)

theorem State.takeMail_asleep (h : Asleep s) (f : Frame) : Asleep (s.takeMail f) := h.of_kept ((ModeKept.refl s).same rfl rfl)

/-- A WAKE frame that the node admits, and whose time lies at most a minute ahead. -/
theorem State.wakeFrame_admitted {f : Frame} (hm : s.mode = .drowse) (hop : fieldBE f.payload 0 1 = 1)
    (hen : s.flag (if f.dstNode = 511#9 then Fd.SYS_DRW_CFG_WAKE_BCAST else Fd.SYS_DRW_CFG_WAKE_FRAME) = true)
    (hat : fieldBE f.payload 4 8 ≤ s.now + 60000000000) : s.wakeFrame f =
      if fieldBE f.payload 4 8 ≤ s.now then s.wakeSource Fd.SYS_DRW_WAKE_SRC_FRAME false
      else { s with boot := { s.boot with wakeAt := some (fieldBE f.payload 4 8) } } := by
  have hno : decide (s.now + 60000000000 < fieldBE f.payload 4 8) = false := decide_eq_false (by omega)
  simp only [State.wakeFrame, hm, hop, hen, hno]
  rfl

theorem State.wakeFrame_awake (f : Frame) (hm : s.mode ≠ .drowse) (he : s.flag Fd.SYS_MODE_STAT_ENTERING = false) :
    s.wakeFrame f = s.bump Reg.SYS_WAKE_IGNORED := by
  have hawake : (s.mode != .drowse && !s.flag Fd.SYS_MODE_STAT_ENTERING) = true := by simp [hm, he]
  exact if_pos (by rw [hawake]; rfl)

theorem wakeFrameRx_wakes {f : Frame} (h : Asleep s) (hk : f.kind = Kd.wake) (hop : fieldBE f.payload 0 1 = 1)
    (hen : s.flag (if f.dstNode = 511#9 then Fd.SYS_DRW_CFG_WAKE_BCAST else Fd.SYS_DRW_CFG_WAKE_FRAME) = true)
    (hat : fieldBE f.payload 4 8 ≤ s.now) : ∃ t, exec (.wakeFrameRx f) s = .next t ∧ Woken s t Fd.SYS_DRW_WAKE_SRC_FRAME := by
  have heq := State.wakeFrame_admitted (s := s.takeMail f) h.mode hop hen (Nat.le_trans hat (Nat.le_add_right _ _))
  have hwake := State.wakeSource_woken (State.takeMail_asleep h f) (bit := Fd.SYS_DRW_WAKE_SRC_FRAME) rfl (by decide) (by decide) false
  exact ⟨_, (exec_wakeFrameRx hk).trans (congrArg Host.Outcome.next (heq.trans (if_pos hat))), hwake.after rfl rfl⟩

theorem wakeFrameRx_waits {f : Frame} (h : Asleep s) (hk : f.kind = Kd.wake) (hop : fieldBE f.payload 0 1 = 1)
    (hen : s.flag (if f.dstNode = 511#9 then Fd.SYS_DRW_CFG_WAKE_BCAST else Fd.SYS_DRW_CFG_WAKE_FRAME) = true)
    (hlate : s.now < fieldBE f.payload 4 8) (hat : fieldBE f.payload 4 8 ≤ s.now + 60000000000) :
    ∃ t, exec (.wakeFrameRx f) s = .next t ∧ t.boot.wakeAt = some (fieldBE f.payload 4 8) ∧ SameRegs [] s t ∧ SameBytes s t := by
  have heq := State.wakeFrame_admitted (s := s.takeMail f) h.mode hop hen hat
  exact ⟨_, (exec_wakeFrameRx hk).trans (congrArg Host.Outcome.next (heq.trans (if_neg (Nat.not_le.mpr hlate)))), rfl,
    fun _ _ => rfl, fun _ => rfl⟩

theorem State.toTime_kept (s : State) (ns : Nat) : ModeKept s (s.toTime ns) :=
  .ite (.refl s) ((ModeKept.refl s).same rfl rfl)

/-- Load what the start and Drowse keep. -/
def State.withBoot (b : Boot) (s : State) : State := { s with boot := b }

theorem State.withBoot_else (s : State) (b : Boot) : (s.withBoot b).regs = s.regs ∧ (s.withBoot b).mode = s.mode ∧
    (s.withBoot b).mem = s.mem ∧ (s.withBoot b).ctr = s.ctr := ⟨rfl, rfl, rfl, rfl⟩

/-- The time of a WAKE frame is reached and forgotten. -/
def State.wakeAtReached (ns : Nat) (s : State) : State := (s.toTime ns).withBoot { s.boot with wakeAt := none }

theorem State.wakeAtReached_else (s : State) (ns : Nat) : (s.wakeAtReached ns).regs = s.regs ∧ (s.wakeAtReached ns).mode = s.mode ∧
    (s.wakeAtReached ns).mem = s.mem ∧ (s.wakeAtReached ns).ctr = max s.ctr (ns * 2 ^ 32) := by
  obtain ⟨hregs, hmode, hmem, hctr⟩ := (s.toTime ns).withBoot_else { s.boot with wakeAt := none }
  exact ⟨hregs.trans (s.toTime_regs ns), hmode.trans (s.toTime_kept ns).mode, hmem.trans (s.toTime_mem ns),
    hctr.trans (s.toTime_ctr ns)⟩

theorem exec_wakeTimer_frame {a : Nat} (hm : s.mode = .drowse) (ha : s.boot.wakeAt = some a) :
    exec .wakeTimer s = .next ((s.wakeAtReached a).wakeSource Fd.SYS_DRW_WAKE_SRC_FRAME false) := by
  have hgo : ¬(s.mode != .drowse && !s.flag Fd.SYS_MODE_STAT_ENTERING) = true := by simp [hm]
  refine congrArg Host.Outcome.next ((if_neg hgo).trans ?_)
  rw [ha]
  rfl

theorem exec_wakeTimer_own (hm : s.mode = .drowse) (ha : s.boot.wakeAt = none) (hen : s.flag Fd.SYS_DRW_CFG_WAKE_TIMER = true) :
    exec .wakeTimer s =
      .next ((s.toTime (s.rd64 Reg.SYS_DRW_WAKE_AT_LO Reg.SYS_DRW_WAKE_AT_HI)).wakeSource Fd.SYS_DRW_WAKE_SRC_TIMER false) := by
  have hgo : ¬(s.mode != .drowse && !s.flag Fd.SYS_MODE_STAT_ENTERING) = true := by simp [hm]
  refine congrArg Host.Outcome.next ((if_neg hgo).trans ?_)
  rw [ha]
  exact if_pos hen

theorem wakeTimer_frame {a : Nat} (h : Asleep s) (ha : s.boot.wakeAt = some a) : ∃ t, exec .wakeTimer s = .next t ∧
    Woken s t Fd.SYS_DRW_WAKE_SRC_FRAME ∧ t.ctr = max s.ctr (a * 2 ^ 32) ∧ t.boot.wakeAt = none := by
  obtain ⟨hregs, hmode, hmem, hctr⟩ := s.wakeAtReached_else a
  have hasleep := h.of_kept ((ModeKept.refl s).same hregs hmode)
  have hwake := State.wakeSource_woken hasleep (bit := Fd.SYS_DRW_WAKE_SRC_FRAME) rfl (by decide) (by decide) false
  obtain ⟨hctr', hat, -⟩ := (s.wakeAtReached a).wakeSource_else Fd.SYS_DRW_WAKE_SRC_FRAME false
  exact ⟨_, exec_wakeTimer_frame h.mode ha, hwake.after (State.rd_congr hregs _) hmem, hctr'.trans hctr, hat⟩

theorem wakeTimer_own (h : Asleep s) (ha : s.boot.wakeAt = none) (hen : s.flag Fd.SYS_DRW_CFG_WAKE_TIMER = true) :
    ∃ t, exec .wakeTimer s = .next t ∧ Woken s t Fd.SYS_DRW_WAKE_SRC_TIMER ∧
      t.ctr = max s.ctr (s.rd64 Reg.SYS_DRW_WAKE_AT_LO Reg.SYS_DRW_WAKE_AT_HI * 2 ^ 32) := by
  obtain ⟨a, ha'⟩ : ∃ a, s.rd64 Reg.SYS_DRW_WAKE_AT_LO Reg.SYS_DRW_WAKE_AT_HI = a := ⟨_, rfl⟩
  have hexec := exec_wakeTimer_own h.mode ha hen
  have hwake := State.wakeSource_woken (h.of_kept (s.toTime_kept a)) (bit := Fd.SYS_DRW_WAKE_SRC_TIMER) rfl (by decide) (by decide) false
  obtain ⟨hctr, -, -⟩ := (s.toTime a).wakeSource_else Fd.SYS_DRW_WAKE_SRC_TIMER false
  rw [ha'] at hexec ⊢
  exact ⟨_, hexec, hwake.after (s.toTime_rd a _) (s.toTime_mem a), hctr.trans (s.toTime_ctr a)⟩

/-! ### The host port (15 R388) -/

theorem State.hostServes_waking (h : s.flag Fd.SYS_MODE_STAT_WAKING = true) : s.hostServes = false := by
  simp [State.hostServes, h]

/-- A void command leaves the wake as it has begun. -/
theorem Woken.hostVoid (h : Woken s t bit) (hbit : bit.reg ≠ Reg.HOST_VOID_CNT) (n : Nat) : Woken s (t.hostVoid n) bit := by
  obtain ⟨hb, hw, hc, hd, hm, hbytes⟩ := h
  have hrd {a : Nat} (ha : a ≠ Reg.HOST_VOID_CNT) : (t.hostVoid n).rd a = t.rd a := by
    simp only [State.hostVoid, State.onlyIf]
    split
    · exact State.rd_bump_ne _ ha
    · rfl
  have hrest : (t.hostVoid n).deadline .wake = t.deadline .wake ∧ (t.hostVoid n).clk = t.clk ∧ (t.hostVoid n).mode = t.mode ∧
      (t.hostVoid n).mem = t.mem := by
    simp only [State.hostVoid, State.onlyIf]
    split <;> exact ⟨rfl, rfl, rfl, rfl⟩
  obtain ⟨hdl, hclk, hmode, hmem⟩ := hrest
  exact ⟨(State.flag_congr (hrd hbit)).trans hb, (State.flag_congr (hrd (by decide))).trans hw, (hrd (by decide)).trans hc,
    by rw [hdl, hclk, hd], hmode.trans hm, fun a => (SameBytes.of_mem hmem a).trans (hbytes a)⟩

theorem State.hostVoid_out (s : State) : (s.hostVoid 0).out = .host true [] :: s.out := by
  simp only [State.hostVoid, State.onlyIf]
  split <;> rfl

theorem exec_hostCsWake (h : Asleep s) (hr : s.runs = true) :
    exec .hostCsWake s = .next ((s.wakeSource Fd.SYS_DRW_WAKE_SRC_HOST false).hostVoid 0) := by
  have hka : ¬s.anat.kaHeld = true := by simp only [State.runs, Bool.and_eq_true, Bool.not_eq_true'] at hr; simp [hr.1]
  obtain ⟨-, hw, -⟩ := State.wakeSource_woken h (bit := Fd.SYS_DRW_WAKE_SRC_HOST) rfl (by decide) (by decide) false
  have hserve := State.hostServes_waking hw
  have hgo : (s.mode == .drowse || s.flag Fd.SYS_MODE_STAT_ENTERING) = true := by simp [h.mode]
  refine congrArg Host.Outcome.next ((if_pos hgo).trans ((if_neg hka).trans (if_neg ?_)))
  rw [hserve]
  exact Bool.false_ne_true

theorem hostCsWake_wakes (h : Asleep s) (hr : s.runs = true) : ∃ t, exec .hostCsWake s = .next t ∧
    Woken s t Fd.SYS_DRW_WAKE_SRC_HOST ∧ t.out = .host true [] :: s.out := by
  have hwake := State.wakeSource_woken h (bit := Fd.SYS_DRW_WAKE_SRC_HOST) rfl (by decide) (by decide) false
  obtain ⟨-, -, hout⟩ := s.wakeSource_else Fd.SYS_DRW_WAKE_SRC_HOST false
  exact ⟨_, exec_hostCsWake h hr, hwake.hostVoid (by decide) 0, (State.hostVoid_out _).trans (congrArg _ hout)⟩

/-! ### Wake pins (16 R413) -/

/-- The first wake pin is named. -/
def State.nameWakePin (n : Nat) (s : State) : State :=
  if s.flag Fd.SYS_DRW_WAKE_SRC_PIN_EDGE then s else s.setFld Fd.SYS_DRW_WAKE_SRC_PIN n

theorem exec_pinWake {n : Fin 256} (hm : s.mode = .drowse) (hen : s.flag (Fd.PIN_CFG_WAKE_EN n.val) = true)
    (hedge : s.field.wakeEdge = true) :
    exec (.pinWake n) s = .next ((s.nameWakePin n.val).wakeSource Fd.SYS_DRW_WAKE_SRC_PIN_EDGE false) :=
  congrArg Host.Outcome.next (if_pos (by simp [hm, hen, hedge]))

/-- The wake leaves the pin's name. -/
theorem State.wakeSource_pin (h : Asleep s) : (s.wakeSource Fd.SYS_DRW_WAKE_SRC_PIN_EDGE false).fld Fd.SYS_DRW_WAKE_SRC_PIN =
    s.fld Fd.SYS_DRW_WAKE_SRC_PIN := by
  have hstart := (s.noteSource Fd.SYS_DRW_WAKE_SRC_PIN_EDGE false).startWake_rd (a := Reg.SYS_DRW_WAKE_SRC) (by decide) (by decide)
  have hon : (s.noteSource Fd.SYS_DRW_WAKE_SRC_PIN_EDGE false).rd Reg.SYS_DRW_WAKE_SRC = (s.on Fd.SYS_DRW_WAKE_SRC_PIN_EDGE).rd Reg.SYS_DRW_WAKE_SRC :=
    State.rd_congr rfl _
  rw [State.wakeSource_asleep h rfl false]
  exact (State.fld_congr (x := Fd.SYS_DRW_WAKE_SRC_PIN) (hstart.trans hon)).trans (s.fld_setFld_ne _ _ 1 (by decide))

theorem pinWake_wakes {n : Fin 256} (h : Asleep s) (hen : s.flag (Fd.PIN_CFG_WAKE_EN n.val) = true) (hedge : s.field.wakeEdge = true) :
    ∃ t, exec (.pinWake n) s = .next t ∧ Woken s t Fd.SYS_DRW_WAKE_SRC_PIN_EDGE ∧
      (s.flag Fd.SYS_DRW_WAKE_SRC_PIN_EDGE = false → t.fld Fd.SYS_DRW_WAKE_SRC_PIN = n.val) ∧
      (s.flag Fd.SYS_DRW_WAKE_SRC_PIN_EDGE = true → t.fld Fd.SYS_DRW_WAKE_SRC_PIN = s.fld Fd.SYS_DRW_WAKE_SRC_PIN) := by
  have hnamed : Asleep (s.nameWakePin n.val) := h.of_kept (.ite (.refl s) ((ModeKept.refl s).setFld (by decide)))
  have hrest : (s.nameWakePin n.val).rd Reg.SYS_WAKE_CNT = s.rd Reg.SYS_WAKE_CNT ∧ (s.nameWakePin n.val).mem = s.mem := by
    rw [State.nameWakePin]
    split
    · exact ⟨rfl, rfl⟩
    · exact ⟨s.rd_setFld_ne _ _ (by decide), rfl⟩
  have hwake := State.wakeSource_woken hnamed (bit := Fd.SYS_DRW_WAKE_SRC_PIN_EDGE) rfl (by decide) (by decide) false
  refine ⟨_, exec_pinWake h.mode hen hedge, hwake.after hrest.1 hrest.2, fun hno => ?_, fun hyes => ?_⟩
  · rw [State.wakeSource_pin hnamed, State.nameWakePin, hno, if_neg Bool.false_ne_true, s.fld_setFld_same _ _ (by decide)]
    exact Nat.mod_eq_of_lt n.isLt
  · rw [State.wakeSource_pin hnamed, State.nameWakePin, hyes, if_pos rfl]

/-! ### The end of a wake (16 R415) -/

theorem State.resumeWdog_regs (s : State) : s.resumeWdog.regs = s.regs := by
  rw [State.resumeWdog]
  split <;> rfl

theorem State.wakeDone_eq (s : State) : ∃ u : State, s.wakeDone = (u.off Fd.SYS_MODE_STAT_WAKING).resumeWdog := ⟨_, rfl⟩

theorem State.wakeDone_waking (s : State) : s.wakeDone.flag Fd.SYS_MODE_STAT_WAKING = false := by
  obtain ⟨u, hu⟩ := s.wakeDone_eq
  rw [hu]
  exact (State.flag_congr (State.rd_congr (State.resumeWdog_regs _) _)).trans (u.flag_off_same (by decide))

end Sys2Proof.Machine
end

section
open Sys2Proof.Machine

/-- Settles O55: the entry's mode survives the change of path, and every source comes to the node asleep and starts the wake. -/
theorem drowseAndWake : Obligations.DrowseAndWake := by
  refine ⟨fun s he hd => ⟨_, congrArg Host.Outcome.next (if_pos (by rw [he, hd]; rfl)), s.drowseEntered_done⟩, ?_,
    fun s f hk hm he => (exec_wakeFrameRx hk).trans (congrArg Host.Outcome.next (State.wakeFrame_awake f hm he)),
    fun s hw => ⟨_, congrArg Host.Outcome.next (State.expiry_armed .wake _ s hw), rfl, State.wakeDone_waking _⟩⟩
  intro s hm he hw
  have h : Asleep s := ⟨hm, he, hw⟩
  exact ⟨fun f hk hop hen => ⟨wakeFrameRx_wakes h hk hop hen, wakeFrameRx_waits h hk hop hen⟩, fun a => wakeTimer_frame h,
    wakeTimer_own h, hostCsWake_wakes h, fun n => pinWake_wakes h⟩

end
